-- ==== Sys2Proof/Word.lean ====
section
/-! DEFINITION. The words of the TS-48: a byte, a 64-byte line, and the widths the manual gives its counters. -/

namespace Sys2Proof

/-- One byte of a line. -/
abbrev Byte := BitVec 8

/-- A line of DRAM: 64 bytes, byte 0 at the line's lowest address (R172; "line" in the terms of 00_scope.md). -/
abbrev Line := Vector Byte 64

/-- The line of 64 zero bytes. -/
def Line.zero : Line := Vector.replicate 64 0#8

/-- A counter in the sense of the manual's conventions: 32 bits, unsigned, stopping at its maximum (00_scope.md, Counters). -/
abbrev Counter := BitVec 32

/-- A 64-bit counter (RX_BYTES, R37 and R43; the sum of round trips, R148). -/
abbrev WideCounter := BitVec 64

end Sys2Proof
end

