-- ==== Sys2Proof/Config.lean ====
section
/-! DEFINITION. What the manual fixes for every part, and the two free values: the order of report
requests (R156, R175) and whether a short assertion of the reset line is taken (R171). -/

namespace Sys2Proof

/-- Oscillator periods in one microsecond (00_scope.md, Time). -/
def Config.periodsPerUs : Nat := 40

/-- Oscillator periods in one millisecond (00_scope.md, Time). -/
def Config.periodsPerMs : Nat := 40000

/-- Frequency of the reference oscillator in Hz, which is the number of oscillator periods in one second. -/
def Config.periodsPerSecond : Nat := 40000000

/-- MaxFrameBits of R18: (9,600 + 255) × 8. -/
def Config.maxFrameBits : Int := 78840

/-- Number of 4 KiB pages in the 64 GiB address space (2³⁶ bytes, R92). -/
def Config.pagesOfMemory : Nat := 16777216

/-- Number of lines in the 64 GiB address space (30 bits of line address, R89). -/
def Config.linesOfMemory : Nat := 1073741824

/-- Nanoseconds in a second. -/
def Config.nsPerSecond : Nat := 1000000000

/-- Units of 2⁻³² ns in one nanosecond (R44). -/
def Config.fractionsPerNs : Nat := 4294967296

/-- The seconds field of the time counter counts modulo 2⁴⁸ (R44, R45). -/
def Config.secondsModulus : Nat := 281474976710656

/-- A free value: which of the possible orders the report unit takes requests in that several blocks make because of
one event. R156: "Two requests that arrive together are taken in either order"; R175: "in whichever order the report
unit takes their requests". Nothing is known of it; log entry 5. -/
opaque Config.order : Nat → Nat

/-- A free value: whether an assertion of the reset line shorter than 1 µs is taken as a reset (R171: "may be taken as
a reset or not taken at all"). Nothing is known of it; log entry 12. -/
opaque Config.pulseTaken : Nat → Bool

/-- What a line of DRAM that nothing has written since power-on reads as, before the flips a read finds. The manual
calls the contents at power-on undefined (R139); DESIGN CHOICE, log entry 3. -/
def Config.unlistedLine : Line := Line.zero

end Sys2Proof
end

