-- ==== Sys2Proof/Syntax.lean ====
section
/-! DEFINITION. The commands of the part: one constructor of `Instr` for each row of spec/opcode_table.json, and the
operands they carry. -/

namespace Sys2Proof

/-- The three upstream line ports; the codes 0, 1, 2 of R172's code table in this order. -/
inductive Port where
  | site | radio | modem
  deriving DecidableEq, Repr

/-- The five traffic classes; the codes 0 to 4 in this order (00_scope.md, Classes). -/
inductive Cls where
  | s | t0 | t1 | t2 | t3
  deriving DecidableEq, Repr

/-- The nine fault conditions, in the index order of R165. -/
inductive Cond where
  | linkDown | linkDegraded | timingUnqualified | congestion | memUncorrectable | remapExhausted
  | accessDenied | portParity | testFailed
  deriving DecidableEq, Repr

/-- A line request as a master presents it to an upstream port (R89). A read carries no mask, data or data parity. -/
inductive LineRequest where
  /-- A READ: line address, tag, address parity bit. -/
  | read (line : BitVec 30) (tag : BitVec 4) (addrParity : Bool)
  /-- A WRITE: line address, tag, byte mask, data, address parity bit, one data parity bit per 8-byte word. -/
  | write (line : BitVec 30) (tag : BitVec 4) (mask : BitVec 64) (data : Line) (addrParity : Bool)
      (dataParity : BitVec 8)
  deriving DecidableEq, Repr

/-- What the code makes of a word in which three or more of the 72 stored bits are flipped (R108): it passes as CLEAN
or as CORRECTED, delivering `data`, or it is detected. -/
inductive ManyFlips where
  | clean (data : BitVec 64)
  | corrected (data : BitVec 64)
  | uncorrectable
  deriving DecidableEq, Repr

/-- What a read finds new in one 8-byte word: the stored bits flipped since the last access to the line, and what the
code makes of the word if three or more are flipped by now (R108). -/
structure WordFlips where
  fresh : BitVec 72
  many : ManyFlips
  deriving DecidableEq, Repr

/-- What a read finds new in a line: one entry for each of its eight words, word 0 first. -/
abbrev LineFlips := List WordFlips

/-- Who presents an access at the lock station: a port, or the sources of one of the internal requester's priorities
(R103, R113). -/
inductive Station where
  | port (p : Port)
  /-- Priority 1: the copy engine. -/
  | copy
  /-- Priority 2: report entries, snapshot lines, notice lines and rejection write-backs, in the order made. -/
  | notices
  /-- Priority 3: writes into PART_TX. -/
  | partTx
  /-- Priority 4: the march test. -/
  | march
  /-- Priority 5: the scrubber. -/
  | scrub
  deriving DecidableEq, Repr

/-- The commands: one constructor for each row of spec/opcode_table.json, in the table's order. -/
inductive Instr where
  /-- POWER_ON (R171), with the levels of the two base straps. -/
  | powerOn (straps : BitVec 2)
  /-- RESET_LINE_ASSERT (R171). -/
  | resetLineAssert
  /-- RESET_LINE_DEASSERT (R171). -/
  | resetLineDeassert
  /-- OSCILLATOR_PERIOD (R45): one period of the reference oscillator. -/
  | oscillatorPeriod
  /-- ROLLOVER (R55): the oscillator period that carries the nanoseconds into the seconds. -/
  | rollover
  /-- PULSE_END (R55). -/
  | pulseEnd
  /-- TOD_MESSAGE_END (R56). -/
  | todMessageEnd
  /-- LINE_REQUEST_TAKEN (R90): a master presents a request at a port. -/
  | lineRequestTaken (p : Port) (r : LineRequest)
  /-- REQUEST_CLASSIFIED (R95): a port classifies its next request. -/
  | requestClassified (p : Port)
  /-- STATUS_WRITE (R5): the modem port's next request is a status write. -/
  | statusWrite
  /-- TX_COMPLETION (R29). -/
  | txCompletion
  /-- DESCRIPTOR_OVERWRITE (R33), by the site or the radio port. -/
  | descriptorOverwrite (p : Port)
  /-- RX_COMPLETION (R37). -/
  | rxCompletion
  /-- FRAME_WRITE (R62). -/
  | frameWrite
  /-- RETURNED_LINE (R147). -/
  | returnedLine
  /-- ARBITER_GRANT (R102). -/
  | arbiterGrant
  /-- LOCK_STATION_ARRIVAL (R113) of the next access of one source. -/
  | lockStationArrival (who : Station)
  /-- PORT_READ_COMPLETE (R98). -/
  | portReadComplete (flips : LineFlips)
  /-- PORT_WRITE_COMPLETE (R98). -/
  | portWriteComplete
  /-- DESCRIPTOR_READ_JUDGED (R21). -/
  | descriptorReadJudged (flips : LineFlips)
  /-- RMW_READ_COMPLETE (R114). -/
  | rmwReadComplete (flips : LineFlips)
  /-- RMW_WRITE_COMPLETE (R114). -/
  | rmwWriteComplete
  /-- INTERNAL_PARTIAL_READ_COMPLETE (R115). -/
  | internalPartialReadComplete (flips : LineFlips)
  /-- INTERNAL_WRITE_COMPLETE (R97). -/
  | internalWriteComplete
  /-- QUERY_FRAME_WRITE_COMPLETE (R69). -/
  | queryFrameWriteComplete
  /-- TEST_FRAME_WRITE_COMPLETE (R145). -/
  | testFrameWriteComplete
  /-- REPORT_ENTRY_WRITE_COMPLETE (R156). -/
  | reportEntryWriteComplete
  /-- SNAPSHOT_LINE_WRITE_COMPLETE (R161). -/
  | snapshotLineWriteComplete
  /-- SCRUB_READ_COMPLETE (R117). -/
  | scrubReadComplete (flips : LineFlips)
  /-- SCRUB_WRITEBACK_COMPLETE (R117). -/
  | scrubWritebackComplete
  /-- COPY_READ_COMPLETE (R123). -/
  | copyReadComplete (flips : LineFlips)
  /-- COPY_WRITE_COMPLETE (R123). -/
  | copyWriteComplete
  /-- MARCH_READ_COMPLETE (R134). -/
  | marchReadComplete (flips : LineFlips)
  /-- MARCH_WRITE_COMPLETE (R133). -/
  | marchWriteComplete
  /-- RESPONSE_RETURNED (R90). -/
  | responseReturned (p : Port)
  /-- STATUS_TIMER_EXPIRY (R6). -/
  | statusTimerExpiry
  /-- RESTORE_HOLD_EXPIRY (R7). -/
  | restoreHoldExpiry
  /-- UPSHIFT_HOLD_EXPIRY (R9). -/
  | upshiftHoldExpiry
  /-- REFILL_TIMER_EXPIRY (R20). -/
  | refillTimerExpiry
  /-- FLIGHT_TIMEOUT (R32) of the in-flight entry for a descriptor line. -/
  | flightTimeout (line : BitVec 30)
  /-- AGE_TIMER_EXPIRY (R34) of a class. -/
  | ageTimerExpiry (c : Cls)
  /-- QUERY_TIMER_EXPIRY (R67). -/
  | queryTimerExpiry
  /-- EXCHANGE_TIMEOUT (R74) of the exchange entry with an offer sequence. -/
  | exchangeTimeout (offerSeq : BitVec 16)
  /-- BLOCK_TIMER_EXPIRY (R83). -/
  | blockTimerExpiry
  /-- SYNTH_LOCK_EXPIRY (R57). -/
  | synthLockExpiry
  /-- SCRUB_TIMER_EXPIRY (R117). -/
  | scrubTimerExpiry
  /-- SEND_TIMER_EXPIRY (R144). -/
  | sendTimerExpiry
  /-- LOSS_TIMEOUT (R149) of the outstanding entry with a frame sequence. -/
  | lossTimeout (frameSeq : BitVec 16)
  /-- REPORT_TIMER_EXPIRY (R160). -/
  | reportTimerExpiry
  /-- RETRY_TIMER_EXPIRY (R166) of a condition. -/
  | retryTimerExpiry (c : Cond)
  /-- CONTROL_WRITE_UNMARKED (R152). -/
  | controlWriteUnmarked
  /-- RECORD_PARTIAL_OR_KIND (R153). -/
  | recordPartialOrKind
  /-- WINDOW (R99). -/
  | windowRecord
  /-- PROFILE (R13). -/
  | profileRecord
  /-- CLASS (R39). -/
  | classRecord
  /-- ADMIT (R41). -/
  | admitRecord
  /-- LINK (R15). -/
  | linkRecord
  /-- TIMING (R86). -/
  | timingRecord
  /-- TIMESET (R49). -/
  | timesetRecord
  /-- SYNTH (R58). -/
  | synthRecord
  /-- PORTS (R106). -/
  | portsRecord
  /-- SCRUB (R119). -/
  | scrubRecord
  /-- REMAP (R125). -/
  | remapRecord
  /-- MEMTEST_START (R130). -/
  | memtestStart
  /-- MEMTEST_SUSPEND (R136). -/
  | memtestSuspend
  /-- MEMTEST_RESUME (R136). -/
  | memtestResume
  /-- MEMTEST_STOP (R138). -/
  | memtestStop
  /-- LOOPTEST_START (R143). -/
  | looptestStart
  /-- LOOPTEST_STOP (R150). -/
  | looptestStop
  /-- FAULT (R169). -/
  | faultRecord
  /-- CLEAR (R163). -/
  | clearRecord
  /-- REPORT_CONFIGURE (R158). -/
  | reportConfigure
  /-- REPORT_CONSUME (R157). -/
  | reportConsume
  /-- REPORT_RELEASE (R159). -/
  | reportRelease
  /-- SNAPSHOT (R162). -/
  | snapshotRecord
  deriving DecidableEq, Repr

end Sys2Proof
end

