-- ==== Sys2Proof/WellFormed.lean ====
section
/-! DEFINITION. The checks on a command's operands that its types do not already make. -/

namespace Sys2Proof

/-- What a read finds names each of the line's eight words once (R108). -/
def LineFlips.wellFormed (f : LineFlips) : Bool := f.length == 8

/-- A command is well formed when its operands are ones the row's event can have: a descriptor overwrite comes from
the site or the radio port (R33), and what a read finds covers the eight words of a line (R108). -/
def Instr.wellFormed : Instr → Bool
  | .descriptorOverwrite p => p != .modem
  | .portReadComplete f | .descriptorReadJudged f | .rmwReadComplete f | .internalPartialReadComplete f
  | .scrubReadComplete f | .copyReadComplete f | .marchReadComplete f => LineFlips.wellFormed f
  | .powerOn _ | .resetLineAssert | .resetLineDeassert | .oscillatorPeriod | .rollover | .pulseEnd
  | .todMessageEnd | .lineRequestTaken _ _ | .requestClassified _ | .statusWrite | .txCompletion
  | .rxCompletion | .frameWrite | .returnedLine | .arbiterGrant | .lockStationArrival _
  | .portWriteComplete | .rmwWriteComplete | .internalWriteComplete | .queryFrameWriteComplete
  | .testFrameWriteComplete | .reportEntryWriteComplete | .snapshotLineWriteComplete
  | .scrubWritebackComplete | .copyWriteComplete | .marchWriteComplete | .responseReturned _
  | .statusTimerExpiry | .restoreHoldExpiry | .upshiftHoldExpiry | .refillTimerExpiry | .flightTimeout _
  | .ageTimerExpiry _ | .queryTimerExpiry | .exchangeTimeout _ | .blockTimerExpiry | .synthLockExpiry
  | .scrubTimerExpiry | .sendTimerExpiry | .lossTimeout _ | .reportTimerExpiry | .retryTimerExpiry _
  | .controlWriteUnmarked | .recordPartialOrKind | .windowRecord | .profileRecord | .classRecord
  | .admitRecord | .linkRecord | .timingRecord | .timesetRecord | .synthRecord | .portsRecord
  | .scrubRecord | .remapRecord | .memtestStart | .memtestSuspend | .memtestResume | .memtestStop
  | .looptestStart | .looptestStop | .faultRecord | .clearRecord | .reportConfigure | .reportConsume
  | .reportRelease | .snapshotRecord => true

end Sys2Proof
end

