-- ==== Sys2Proof/Decode.lean ====
section
/-! DEFINITION. The decoder of the host's two questions. No row of spec/opcode_table.json gives bits (every row's
"fields" is empty), so no word spells a command; the control records, which do have bytes, are decoded where the
record decoder does so, in Machine/Records.lean. -/

namespace Sys2Proof

/-- The command a word spells by the table's bits: none, because the table gives no row any bits. -/
def decodeTableWord (_nbits _w : Nat) : Option Instr := none

end Sys2Proof
end

