-- ==== Sys2Proof/Machine/State.lean ====
section
/-! DEFINITION. Everything the manual gives the part to hold, block by block (00_scope.md, Block overview), as plain
data, and its values after power-on. Deadlines of interval timers are interval times (R47); the two timers that run
through the reset line (R57, R55) have deadlines on the count of oscillator periods since power-on. -/

namespace Sys2Proof.Machine

/-! ### Small records shared by the blocks -/

/-- One value for each traffic class, in the order of the class codes. -/
structure PerClass (α : Type) where
  s : α
  t0 : α
  t1 : α
  t2 : α
  t3 : α
  deriving DecidableEq, Repr

/-- One value for each upstream port, in the order of the port codes. -/
structure PerPort (α : Type) where
  site : α
  radio : α
  modem : α
  deriving DecidableEq, Repr

/-- One value for each of the arbiter's queues, in the order site, radio, modem, internal. -/
structure PerQueue (α : Type) where
  site : α
  radio : α
  modem : α
  internal : α
  deriving DecidableEq, Repr

/-- A stamp: seconds (below 2⁴⁸) and nanoseconds (below 10⁹) (00_scope.md, Time). -/
structure Stamp where
  sec : Nat
  ns : Nat
  deriving DecidableEq, Repr

/-! ### Link monitor (R1 to R16) -/

/-- One entry of the profile table (R1); an invalid entry holds zeros. -/
structure ProfileEntry where
  valid : Bool
  capacity : Nat
  overhead : Nat
  txLatency : Nat
  rxLatency : Nat
  deriving DecidableEq, Repr

/-- The cause held in DOWN (R4). -/
inductive DownCause where
  | noStatus | carrier | stale | profile
  deriving DecidableEq, Repr

/-- The link state (R4). -/
inductive LinkState where
  | down (cause : DownCause)
  | restoring | up | degraded
  deriving DecidableEq, Repr

/-- The bytes kept from the last status write (R3): carrier code and the two profile indices. -/
structure KeptStatus where
  carrier : Nat
  txIndex : Nat
  rxIndex : Nat
  deriving DecidableEq, Repr

/-- The link monitor's state (R1, R3, R4, R15, R16). -/
structure LinkMonitor where
  profiles : Vector ProfileEntry 12
  kept : Option KeptStatus
  /-- E_tx, the effective transmit profile; none is NONE. -/
  etx : Option Nat
  /-- E_rx, the effective receive profile; none is NONE. -/
  erx : Option Nat
  state : LinkState
  planned : Option Nat
  floor : Nat
  /-- Status timeout in ms (R6, R15). -/
  statusTimeout : Nat
  /-- Length of the restore hold in ms (R7, R15). -/
  restoreHold : Nat
  /-- Length of the upshift hold in ms (R8, R15). -/
  upshiftHold : Nat
  statusTimer : Option Nat
  restoreTimer : Option Nat
  upshiftTimer : Option Nat
  statusTaken : Counter
  statusIgnored : Counter
  downEntries : Counter
  downshifts : Counter
  upshifts : Counter
  deriving DecidableEq, Repr

/-! ### Admission unit (R17 to R43) -/

/-- One entry of a held list (R26): descriptor line number, length last read, interval time of joining. -/
structure HeldEntry where
  line : Nat
  length : Nat
  joined : Nat
  deriving DecidableEq, Repr

/-- The counters kept per class (R43). -/
structure ClassCounters where
  admitted : Counter
  heldReads : Counter
  heldUnlisted : Counter
  rejected : Counter
  sent : Counter
  notSent : Counter
  unmatched : Counter
  lost : Counter
  overwritten : Counter
  rxFrames : Counter
  rxErrored : Counter
  rxBytes : WideCounter
  deriving DecidableEq, Repr

/-- A class: its entry of the class table (R17), credit (R18), held list (R26), congestion state and age timer (R34),
notice sequence (R36) and counters (R43). -/
structure ClassState where
  enabled : Bool
  share : Nat
  recoveryShare : Nat
  weight : Nat
  /-- Burst in kbit. -/
  burst : Nat
  needsTiming : Bool
  /-- Congestion high mark in kbit. -/
  highMark : Nat
  /-- Congestion low mark in kbit. -/
  lowMark : Nat
  /-- Maximum hold age in ms. -/
  maxHoldAge : Nat
  /-- Credit in bits. -/
  credit : Int
  held : List HeldEntry
  congested : Bool
  ageTimer : Option Nat
  noticeSeq : BitVec 32
  counters : ClassCounters
  deriving DecidableEq, Repr

/-- One entry of the in-flight table (R28) with the expiry of its flight timeout (R32). -/
structure FlightEntry where
  line : Nat
  cls : Cls
  /-- The descriptor kind byte: DATA 0, TIMING 1, TEST 2. -/
  kind : Nat
  length : Nat
  /-- Bits debited. -/
  debit : Nat
  admitTime : Stamp
  epoch : BitVec 16
  expiry : Nat
  deriving DecidableEq, Repr

/-- The admission unit's state. -/
structure Admission where
  classes : PerClass ClassState
  flight : List FlightEntry
  /-- Flight timeout length in ms (R32). -/
  flightTimeout : Nat
  refillTimer : Option Nat
  rxClassInvalid : Counter
  noticeDropped : Counter
  noticeReplaced : Counter
  writebackDropped : Counter
  deriving DecidableEq, Repr

/-! ### Time unit (R44 to R60) -/

/-- The synthesizer's state (R57). -/
inductive SynthState where
  | off | locking | running
  deriving DecidableEq, Repr

/-- The synthesizer (R57). The lock timer's deadline counts oscillator periods since power-on (R171). -/
structure Synth where
  n : Nat
  m : Nat
  p : Nat
  enable : Bool
  state : SynthState
  lockTimer : Option Nat
  deriving DecidableEq, Repr

/-- The content of a time-of-day message (R56). -/
structure TodMessage where
  seconds : Nat
  /-- Timing state code of R172. -/
  stateCode : Nat
  qualified : Bool
  holdoverAge : Nat
  deriving DecidableEq, Repr

/-- A message being sent on the time-of-day line, with the oscillator count at its start. -/
structure TodSending where
  message : TodMessage
  start : Nat
  deriving DecidableEq, Repr

/-- The time unit's state (R44, R46, R51, R55 to R57, R60). -/
structure TimeUnit where
  seconds : Nat
  nanoseconds : Nat
  fraction : Nat
  /-- The frequency word F (R46). -/
  freq : Int
  epoch : BitVec 16
  synth : Synth
  /-- End of the 1PPS pulse on the oscillator count; the line is asserted while this holds a value (R55). -/
  pulse : Option Nat
  todSending : Option TodSending
  todWaiting : Option TodMessage
  stampsValid : Counter
  stampsInvalid : Counter
  phaseSteps : Counter
  stepsClamped : Counter
  timesets : Counter
  todReplaced : Counter
  deriving DecidableEq, Repr

/-! ### Time transfer engine (R61 to R88) -/

/-- The parameters of the TIMING record (R86). -/
structure TimingParams where
  domain : Nat
  queryRate : Nat
  /-- Exchange timeout in ms. -/
  exchangeTimeout : Nat
  /-- The path difference Q in ns. -/
  pathDifference : Int
  maximumDelay : Nat
  gp : Nat
  gi : Nat
  tStep : Nat
  tTrk : Nat
  k : Nat
  /-- Block timeout in s. -/
  blockTimeout : Nat
  drift : Nat
  holdoverLimit : Nat
  deriving DecidableEq, Repr

/-- One entry of the pending message table (R63). -/
structure PendingMessage where
  line : Nat
  /-- True for OFFER, false for ANSWER. -/
  offer : Bool
  offerSeq : BitVec 16
  querySeq : BitVec 16
  carried : Stamp
  arrival : Nat
  deriving DecidableEq, Repr

/-- The state of an exchange entry (R65). -/
inductive ExchangeState where
  | offered | querySent | queried | answeredEarly
  deriving DecidableEq, Repr

/-- A stamp taken by the time unit, with its stamp-valid flag and epoch (R54). -/
structure TakenStamp where
  stamp : Stamp
  valid : Bool
  epoch : BitVec 16
  deriving DecidableEq, Repr

/-- One entry of the exchange table (R65). -/
structure Exchange where
  offerSeq : BitVec 16
  a : Stamp
  b : TakenStamp
  querySeq : Option (BitVec 16)
  c : Option TakenStamp
  d : Option Stamp
  state : ExchangeState
  created : Nat
  expiry : Nat
  deriving DecidableEq, Repr

/-- One slot of the part's transmit ring (R68). -/
inductive Slot where
  | free
  | query (offerSeq querySeq : BitVec 16)
  | test (frameSeq : BitVec 16)
  deriving DecidableEq, Repr

/-- An accepted sample of the sample block (R77): θ and delay in ns. -/
structure Sample where
  offset : Int
  delay : Int
  deriving DecidableEq, Repr

/-- The timing state (R80). -/
inductive TimingState where
  | freerun | acquire | track | holdover
  deriving DecidableEq, Repr

/-- The time transfer engine's counters (R88). -/
structure TransferCounters where
  partialFrame : Counter
  badFrame : Counter
  domainMismatch : Counter
  pendingReplaced : Counter
  pendingDropped : Counter
  noPayload : Counter
  offerDuplicate : Counter
  exchangeEvicted : Counter
  noLink : Counter
  noOffer : Counter
  noSlot : Counter
  queriesSent : Counter
  cOrphan : Counter
  rejectOrphan : Counter
  queryNotSent : Counter
  queryLost : Counter
  queryRejected : Counter
  answerUnmatched : Counter
  exchangeTimedOut : Counter
  invalid : Counter
  epochDiscard : Counter
  sampleRange : Counter
  negative : Counter
  tooLong : Counter
  samplesAccepted : Counter
  selections : Counter
  stepSelections : Counter
  fClamped : Counter
  deriving DecidableEq, Repr

/-- The time transfer engine's state. -/
structure Transfer where
  params : TimingParams
  pendingTable : List PendingMessage
  exchanges : List Exchange
  queryTimer : Option Nat
  querySeq : BitVec 16
  slots : Vector Slot 64
  ringPointer : Nat
  block : List Sample
  /-- The servo's integral S (R79). -/
  integral : Int
  /-- The F history, oldest first (R80). -/
  history : List Int
  state : TimingState
  runCount : Nat
  holdoverAge : Nat
  blockTimer : Option Nat
  lastOffset : Int
  lastDelay : Int
  counters : TransferCounters
  deriving DecidableEq, Repr

/-! ### Windows and the line path (R89 to R107, R113) -/

/-- The window kinds (R93). -/
inductive WindowKind where
  | control | report | txRing | rxRing | buffer | timingRx | testRx | partTx | status | notice | spare
  deriving DecidableEq, Repr

/-- The six permission flags of a window (R92). -/
structure Permissions where
  siteRead : Bool
  siteWrite : Bool
  radioRead : Bool
  radioWrite : Bool
  modemRead : Bool
  modemWrite : Bool
  deriving DecidableEq, Repr

/-- A defined window (R92): its base as a page number, its size in pages, its class where it has one. -/
structure Window where
  kind : WindowKind
  base : Nat
  size : Nat
  cls : Option Cls
  perms : Permissions
  deriving DecidableEq, Repr

/-- The response to a request (R89): tag, OKAY or ERROR, and the data of a read. -/
structure Response where
  tag : BitVec 4
  okay : Bool
  data : Option Line
  deriving DecidableEq, Repr

/-- How far a request has come along the line path (R90, R97, R113, R114). -/
inductive Stage where
  /-- In a port's queue, not yet classified. -/
  | unclassified
  /-- To be forwarded; has not yet reached the lock station. -/
  | forwarded
  /-- Waits at the lock station on the lock of its line. -/
  | waitLine
  /-- Waits at the lock station for a free entry of the lock table, or for the end of the one lock that its holder may
  hold at a time (R113; log entry 20). -/
  | waitTable
  /-- Holds its lock, redirected to this memory line; its first access waits until the accesses to the line that
  cleared the station earlier have completed. -/
  | draining (memLine : Nat)
  /-- Past the lock station: ready for its grant, naming this memory line. -/
  | ready (memLine : Nat)
  /-- Granted: its access is at the memory port. -/
  | issued (memLine : Nat)
  /-- A second access, the write of a read-modify-write or a scrub write-back, is ready for its grant. -/
  | writeReady (memLine : Nat) (data : Line)
  /-- That second access is at the memory port. -/
  | writeIssued (memLine : Nat)
  /-- Answered; the response is kept until every earlier request of the port has been answered (R90). -/
  | answered (r : Response)
  deriving DecidableEq, Repr

/-- What a request is for: a port's line request with the classification it was given (R95), or the work of one of the
internal requester's sources (R103). -/
inductive Job where
  /-- A port's request as the master gave it, with the window of its classification, and, for a completion that is
  stamped on its way, the stamp that goes on in its data (R54). -/
  | port (p : Port) (r : LineRequest) (win : Option (Nat × Window)) (stamp : Option TakenStamp)
  /-- A rejection write-back of the admission unit (R23): bytes 0 and 2 of its line. -/
  | writeBack
  /-- A notice line (R36). -/
  | notice (c : Cls) (data : Line)
  /-- An entry of the report ring (R156). -/
  | reportEntry (data : Line)
  /-- A snapshot line (R161). -/
  | snapshotLine (index : Nat) (data : Line)
  /-- The frame of a query (R69), with the slot and the sequences it carries. -/
  | queryFrame (slot : Nat) (offerSeq querySeq : BitVec 16) (data : Line)
  /-- One buffer line of a test frame (R145), with the slot, the sequence and the frame's line count. -/
  | testLine (slot : Nat) (frameSeq : BitVec 16) (lines : Nat) (data : Line)
  /-- A slot descriptor (R69, R145). -/
  | slotDescriptor (slot : Nat) (data : Line)
  /-- The march test's access: a read, or a write of the given line (R133). -/
  | march (write : Option Line)
  /-- A line being scrubbed (R117). -/
  | scrub
  /-- A line the copy engine moves: the lock and, for source COPY, the read (R123). -/
  | copyLine
  /-- The copy engine's write to the spare line (R123). -/
  | copyWrite (data : Line)
  deriving DecidableEq, Repr

/-- A request held by a port or by the internal requester. -/
structure Req where
  id : Nat
  /-- The line address, as a line number: the line the access names (06, "two addresses"). -/
  line : Nat
  stage : Stage
  job : Job
  deriving DecidableEq, Repr

/-- The holder of a line lock (R113). -/
inductive Holder where
  | portPartial (p : Port)
  | internalPartial
  | scrubber
  | copyEngine
  deriving DecidableEq, Repr

/-- One lock of the line lock table (R113). -/
structure Lock where
  line : Nat
  holder : Holder
  deriving DecidableEq, Repr

/-- What an access at the memory port is, so that its completion can be handled (R98, R104). -/
inductive AccessKind where
  | portRead (p : Port)
  /-- A modem read of a descriptor line, to be judged (R21). -/
  | descriptorRead
  | portWrite (p : Port) (data : Line)
  | rmwRead (p : Port)
  | rmwWrite (p : Port) (data : Line)
  | writeBackRead
  | writeBackWrite (data : Line)
  | noticeWrite (data : Line)
  | reportWrite (data : Line)
  | snapshotWrite (index : Nat) (data : Line)
  | queryFrameWrite (data : Line)
  | testLineWrite (data : Line)
  | slotDescriptorWrite (data : Line)
  | marchRead
  | marchWrite (data : Line)
  | scrubRead
  | scrubWrite (data : Line)
  | copyRead
  | copyWrite (data : Line)
  deriving DecidableEq, Repr

/-- An access issued to the memory port and not yet completed (R104). `live` is false once a reset, a STOP or a
replaced PART_TX window has ended the work it belonged to; it then still completes in DRAM (R107, R126, R138). `gone`
is set at POWER_ON: the work is gone, and no block learns the outcome (R126). -/
structure Access where
  id : Nat
  line : Nat
  memLine : Nat
  kind : AccessKind
  live : Bool
  gone : Bool
  deriving DecidableEq, Repr

/-- The four queues of the arbiter (R102). -/
inductive Queue where
  | site | radio | modem | internal
  deriving DecidableEq, Repr

/-- The counters kept per port (R107). -/
structure PortCounters where
  reads : Counter
  writes : Counter
  parity : Counter
  denied : Counter
  fenced : Counter
  deriving DecidableEq, Repr

/-- The line ports, the lock station, the arbiter and the memory port. `reqs` holds the requests of the three port
queues and of the internal requester in one list, in the order in which they were taken or made; the queue of a port
is the sublist of that port's requests. -/
structure Path where
  reqs : List Req
  /-- The model's own: the number the next request gets. -/
  nextId : Nat
  /-- The requests waiting at the lock station, in the order in which they began to wait (R113). -/
  waits : List Nat
  locks : List Lock
  memPort : List Access
  weights : PerQueue Nat
  current : Queue
  remaining : Nat
  lowMark : Nat
  highMark : Nat
  loadHigh : Bool
  ports : PerPort PortCounters
  grants : PerQueue Counter
  loadHighEntries : Counter
  /-- The model's own: the response each port returned last (its output to the master). -/
  lastResponse : PerPort (Option Response)
  deriving DecidableEq, Repr

/-! ### Integrity unit (R108 to R127) -/

/-- The source of a read, as the integrity unit's captures and reports name it (R172 code table). -/
inductive IntegritySource where
  | port (p : Port)
  | internalPartial | scrubber | copyEngine
  deriving DecidableEq, Repr

/-- A capture of R109. -/
structure Capture where
  line : Nat
  memLine : Nat
  source : IntegritySource
  time : Stamp
  deriving DecidableEq, Repr

/-- One entry of the suspect page list (R116). -/
structure Suspect where
  page : Nat
  count : Nat
  first : Nat
  deriving DecidableEq, Repr

/-- The state of a remap entry (R120). -/
inductive RemapState where
  | waiting | copying | active
  deriving DecidableEq, Repr

/-- The source of a remap entry (R120). -/
inductive RemapSource where
  | copy | fill
  deriving DecidableEq, Repr

/-- One entry of the remap table (R120); the list's order is the order of creation. Pages are page numbers. -/
structure RemapEntry where
  failed : Nat
  spare : Nat
  state : RemapState
  source : RemapSource
  pointer : Nat
  created : Stamp
  deriving DecidableEq, Repr

/-- The scrubber (R117, R119). -/
structure Scrubber where
  startLine : Nat
  endLine : Nat
  rate : Nat
  position : Nat
  passCount : Counter
  allowance : Nat
  timer : Option Nat
  deriving DecidableEq, Repr

/-- The integrity unit's counters (R127). -/
structure IntegrityCounters where
  corrected : Counter
  uncorrectable : Counter
  markedReads : Counter
  markOverflow : Counter
  suspectReplaced : Counter
  scrubLines : Counter
  scrubCorrected : Counter
  scrubSkipped : Counter
  remapDuplicate : Counter
  remapExhausted : Counter
  remapAbandoned : Counter
  deriving DecidableEq, Repr

/-- The integrity unit's state; the line lock table stands in `Path`. -/
structure Integrity where
  lastCorrected : Option Capture
  firstUncorrectable : Option Capture
  /-- The marked line set, in the order of adding (R111). -/
  marked : List Nat
  suspects : List Suspect
  suspectThreshold : Nat
  autoRemap : Bool
  scrubber : Scrubber
  remaps : List RemapEntry
  counters : IntegrityCounters
  deriving DecidableEq, Repr

/-! ### Memory test engine (R128 to R140) -/

/-- The state of the march session (R128). -/
inductive MarchState where
  | idle | running | suspended | done | aborted
  deriving DecidableEq, Repr

/-- The kind of a failing march read (R134). -/
inductive MarchFailure where
  | uncorrectable | corrected | mismatch
  deriving DecidableEq, Repr

/-- The outcome of a session of either test engine (R128, R141). -/
inductive SessionOutcome where
  | pass | fail | aborted
  deriving DecidableEq, Repr

/-- The first failure of a march session (R134). -/
structure FirstFailure where
  element : Nat
  memLine : Nat
  kind : MarchFailure
  deriving DecidableEq, Repr

/-- The memory test engine's state (R128, R140). -/
structure March where
  state : MarchState
  startPage : Nat
  pageCount : Nat
  /-- True for CHECKER, false for SOLID (R132). -/
  checker : Bool
  autoRemap : Bool
  causeManual : Bool
  causeLoad : Bool
  /-- The progress (R128): element, index of the line within the region, whether the write is next. -/
  element : Nat
  index : Nat
  writeNext : Bool
  failing : List Nat
  failingReads : Counter
  unlisted : Counter
  firstFailure : Option FirstFailure
  outcome : Option SessionOutcome
  /-- The start drain (R130): the requests that must complete before the first access. -/
  drain : List Nat
  started : Counter
  passed : Counter
  failed : Counter
  abortedCount : Counter
  reads : Counter
  failedReads : Counter
  deriving DecidableEq, Repr

/-! ### Loopback engine (R141 to R151) -/

/-- The state of the loopback session (R141). -/
inductive LoopState where
  | idle | running | draining | done | aborted
  deriving DecidableEq, Repr

/-- The cause of an abort (R150). -/
inductive LoopCause where
  | stop | linkDown | window | cls
  deriving DecidableEq, Repr

/-- The parameters of a LOOPTEST START (R142). -/
structure LoopParams where
  frames : Nat
  lines : Nat
  interval : Nat
  seed : Nat
  invert : BitVec 8
  /-- Loss timeout in ms. -/
  lossTimeout : Nat
  maxLost : Nat
  maxErrored : Nat
  deriving DecidableEq, Repr

/-- The state of an outstanding entry (R146), with the stamp it holds. -/
inductive OutState where
  | posted
  | sent (t : TakenStamp)
  | unstamped
  | returnedEarly (t : TakenStamp)
  deriving DecidableEq, Repr

/-- One entry of the outstanding list (R146). -/
structure Outstanding where
  frameSeq : BitVec 16
  slot : Nat
  created : Nat
  state : OutState
  firstLine : Option Nat
  seen : Nat
  deriving DecidableEq, Repr

/-- The session counts (R141). -/
structure LoopCounts where
  generated : Counter
  returned : Counter
  lost : Counter
  unsent : Counter
  linesChecked : Counter
  mismatchLines : Counter
  mismatchBytes : Counter
  badHeader : Counter
  missing : Counter
  foreign : Counter
  late : Counter
  waitList : Counter
  waitSlot : Counter
  deriving DecidableEq, Repr

/-- The round-trip figures (R141, R148), in ns. -/
structure RoundTrips where
  taken : Counter
  minimum : Nat
  maximum : Nat
  sum : WideCounter
  skipped : Counter
  deriving DecidableEq, Repr

/-- The loopback engine's state (R141, R151). -/
structure Loopback where
  state : LoopState
  params : LoopParams
  identifier : BitVec 8
  lastIdentifier : BitVec 8
  nextSeq : Nat
  outstanding : List Outstanding
  counts : LoopCounts
  trips : RoundTrips
  outcome : Option SessionOutcome
  cause : Option LoopCause
  sendTimer : Option Nat
  started : Counter
  passed : Counter
  failed : Counter
  abortedCount : Counter
  strayLines : Counter
  partialLines : Counter
  late : Counter
  sendOrphan : Counter
  deriving DecidableEq, Repr

/-! ### Record decoder and report unit (R152 to R164) -/

/-- The outcome of a marked record (R154). -/
inductive RecordOutcome where
  | applied | partialMask | kind | range | conflict | order | busy
  deriving DecidableEq, Repr

/-- The record decoder's counters (R164). -/
structure Decoder where
  ignored : Counter
  applied : Counter
  partialMask : Counter
  kind : Counter
  range : Counter
  conflict : Counter
  order : Counter
  busy : Counter
  deriving DecidableEq, Repr

/-- The report ring while it is ACTIVE or RELEASING (R155). -/
structure Ring where
  releasing : Bool
  size : Nat
  trigger : Nat
  /-- Report timeout in ms. -/
  timeout : Nat
  made : Nat
  written : Nat
  consumed : Nat
  timeoutFlag : Bool
  timer : Option Nat
  deriving DecidableEq, Repr

/-- The report unit's state (R155, R161, R164); `ring` is none while UNCONFIGURED. -/
structure Reports where
  ring : Option Ring
  sequence : BitVec 32
  snapshotWriting : Bool
  snapshotRemembered : Bool
  snapshotSequence : BitVec 32
  dropped : Counter
  snapshotsWritten : Counter
  snapshotMerged : Counter
  snapshotDropped : Counter
  deriving DecidableEq, Repr

/-! ### Fault unit (R165 to R170) -/

/-- The mode of a condition (R165). -/
inductive FaultMode where
  | off | report | latch | follow
  deriving DecidableEq, Repr

/-- What the fault unit holds for one condition (R165). -/
structure Condition where
  mode : FaultMode
  /-- True for LONG (1,000 ms), false for SHORT (50 ms). -/
  longRetry : Bool
  raw : Bool
  latched : Bool
  timer : Option Nat
  occurrences : Counter
  deriving DecidableEq, Repr

/-- The fault unit's state: its nine conditions, the level of the fault line (true while asserted) and
FAULT_ASSERTIONS. -/
structure FaultUnit where
  linkDown : Condition
  linkDegraded : Condition
  timingUnqualified : Condition
  congestion : Condition
  memUncorrectable : Condition
  remapExhausted : Condition
  accessDenied : Condition
  portParity : Condition
  testFailed : Condition
  line : Bool
  assertions : Counter
  deriving DecidableEq, Repr

/-! ### The whole part -/

/-- The DRAM behind the memory port, by line number: addresses strictly rising, and no entry equal to what an unlisted
line reads as. -/
abbrev Dram := List (Nat × Line)

/-- The flipped bits of a line: for each of its eight words, which of the 72 stored bits differ from what was written
(R108). -/
abbrev Flips := Vector (BitVec 72) 8

/-- No bit flipped. -/
def Flips.none : Flips := Vector.replicate 8 0

/-- The flipped bits that stand in DRAM, by line number: addresses strictly rising, and no entry without a flip. -/
abbrev FlipMap := List (Nat × Flips)

/-- The state of the part, the queue of commands waiting for it, and the DRAM it fronts. -/
structure State where
  /-- The commands waiting, first in first out. -/
  pending : List Instr
  /-- The base straps as sampled at power-on (R92). -/
  straps : BitVec 2
  /-- The reset line is asserted (R171). -/
  inReset : Bool
  /-- The model's own: oscillator periods since power-on. -/
  oscillator : Nat
  /-- The interval time (R47). -/
  now : Nat
  /-- The model's own: how many free values have been used. -/
  freeUses : Nat
  /-- The data of each line of DRAM, as last written (R98). -/
  dram : Dram
  /-- The stored bits that differ from what was last written; they stay until a write covers the line (R108). -/
  flips : FlipMap
  link : LinkMonitor
  adm : Admission
  time : TimeUnit
  xfer : Transfer
  windows : Vector (Option Window) 16
  path : Path
  integ : Integrity
  march : March
  loop : Loopback
  dec : Decoder
  rep : Reports
  fault : FaultUnit
  deriving DecidableEq, Repr

/-! ### Replacing one block -/

namespace State

/-- Replaces the link monitor. -/
def updLink (f : LinkMonitor → LinkMonitor) (s : State) : State := { s with link := f s.link }
/-- Replaces the admission unit. -/
def updAdm (f : Admission → Admission) (s : State) : State := { s with adm := f s.adm }
/-- Replaces the time unit. -/
def updTime (f : TimeUnit → TimeUnit) (s : State) : State := { s with time := f s.time }
/-- Replaces the time transfer engine. -/
def updXfer (f : Transfer → Transfer) (s : State) : State := { s with xfer := f s.xfer }
/-- Replaces the window table. -/
def updWindows (f : Vector (Option Window) 16 → Vector (Option Window) 16) (s : State) : State :=
  { s with windows := f s.windows }
/-- Replaces the line path. -/
def updPath (f : Path → Path) (s : State) : State := { s with path := f s.path }
/-- Replaces the integrity unit. -/
def updInteg (f : Integrity → Integrity) (s : State) : State := { s with integ := f s.integ }
/-- Replaces the memory test engine. -/
def updMarch (f : March → March) (s : State) : State := { s with march := f s.march }
/-- Replaces the loopback engine. -/
def updLoop (f : Loopback → Loopback) (s : State) : State := { s with loop := f s.loop }
/-- Replaces the record decoder. -/
def updDec (f : Decoder → Decoder) (s : State) : State := { s with dec := f s.dec }
/-- Replaces the report unit. -/
def updRep (f : Reports → Reports) (s : State) : State := { s with rep := f s.rep }
/-- Replaces the fault unit. -/
def updFault (f : FaultUnit → FaultUnit) (s : State) : State := { s with fault := f s.fault }
/-- Replaces the DRAM contents. -/
def updDram (f : Dram → Dram) (s : State) : State := { s with dram := f s.dram }
/-- Replaces the flipped bits that stand in DRAM. -/
def updFlips (f : FlipMap → FlipMap) (s : State) : State := { s with flips := f s.flips }
/-- Sets the count of free values used. -/
def setFreeUses (n : Nat) (s : State) : State := { s with freeUses := n }
/-- Sets the interval time. -/
def setNow (n : Nat) (s : State) : State := { s with now := n }
/-- Sets the oscillator count. -/
def setOscillator (n : Nat) (s : State) : State := { s with oscillator := n }
/-- Sets whether the reset line is asserted. -/
def setInReset (b : Bool) (s : State) : State := { s with inReset := b }
/-- Replaces the queue of commands. -/
def setPending (q : List Instr) (s : State) : State := { s with pending := q }

end State

/-! ### Values after the two resets -/

namespace Initial

/-- An invalid profile entry (R1). -/
def profileEntry : ProfileEntry := ⟨false, 0, 0, 0, 0⟩

/-- The link monitor after power-on and after the reset line (R1, R3, R4, R15, R16). -/
def link : LinkMonitor where
  profiles := Vector.replicate 12 profileEntry
  kept := none
  etx := none
  erx := none
  state := .down .noStatus
  planned := none
  floor := 0
  statusTimeout := 50
  restoreHold := 2000
  upshiftHold := 5000
  statusTimer := none
  restoreTimer := none
  upshiftTimer := none
  statusTaken := 0
  statusIgnored := 0
  downEntries := 0
  downshifts := 0
  upshifts := 0

/-- A class's counters at zero (R43). -/
def classCounters : ClassCounters := ⟨0, 0, 0, 0, 0, 0, 0, 0, 0, 0, 0, 0⟩

/-- A class after either reset (R17, R18, R26, R35, R36). -/
def cls : ClassState where
  enabled := false
  share := 0
  recoveryShare := 0
  weight := 0
  burst := 100
  needsTiming := false
  highMark := 500
  lowMark := 100
  maxHoldAge := 50
  credit := 0
  held := []
  congested := false
  ageTimer := none
  noticeSeq := 0
  counters := classCounters

/-- The admission unit during the reset line (R17 to R43); the refill timer starts at the end of the reset. -/
def adm : Admission where
  classes := ⟨cls, cls, cls, cls, cls⟩
  flight := []
  flightTimeout := 100
  refillTimer := none
  rxClassInvalid := 0
  noticeDropped := 0
  noticeReplaced := 0
  writebackDropped := 0

/-- The synthesizer after power-on (R57). -/
def synth : Synth := ⟨5, 96, 25, false, .off, none⟩

/-- The time unit after power-on (R44, R46, R51, R55 to R57, R60). -/
def time : TimeUnit where
  seconds := 0
  nanoseconds := 0
  fraction := 0
  freq := 0
  epoch := 0
  synth := synth
  pulse := none
  todSending := none
  todWaiting := none
  stampsValid := 0
  stampsInvalid := 0
  phaseSteps := 0
  stepsClamped := 0
  timesets := 0
  todReplaced := 0

/-- The defaults of the TIMING record's fields (R86). -/
def timingParams : TimingParams where
  domain := 0
  queryRate := 8
  exchangeTimeout := 1000
  pathDifference := 0
  maximumDelay := 5000000
  gp := 8
  gi := 1
  tStep := 100000
  tTrk := 1000
  k := 4
  blockTimeout := 8
  drift := 10
  holdoverLimit := 10000

/-- The time transfer engine's counters at zero (R88). -/
def transferCounters : TransferCounters :=
  ⟨0, 0, 0, 0, 0, 0, 0, 0, 0, 0, 0, 0, 0, 0, 0, 0, 0, 0, 0, 0, 0, 0, 0, 0, 0, 0, 0, 0⟩

/-- The time transfer engine after power-on (R63, R65, R68, R69, R77, R79, R80, R86). -/
def xfer : Transfer where
  params := timingParams
  pendingTable := []
  exchanges := []
  queryTimer := none
  querySeq := 0
  slots := Vector.replicate 64 .free
  ringPointer := 0
  block := []
  integral := 0
  history := []
  state := .freerun
  runCount := 0
  holdoverAge := 0
  blockTimer := none
  lastOffset := 0
  lastDelay := 0
  counters := transferCounters

/-- The base page of the control window for the four settings of the straps (R92). -/
def controlBase (straps : BitVec 2) : Nat :=
  match straps.toNat with
  | 0 => 0
  | 1 => 0x100
  | 2 => 0x1000
  | _ => 0x10000

/-- Entry 0 of the window table (R92). -/
def controlWindow (straps : BitVec 2) : Window where
  kind := .control
  base := controlBase straps
  size := 1
  cls := none
  perms := ⟨true, true, false, false, false, false⟩

/-- The window table after power-on (R92). -/
def windows (straps : BitVec 2) : Vector (Option Window) 16 :=
  (Vector.replicate 16 none).set 0 (some (controlWindow straps))

/-- A port's counters at zero (R107). -/
def portCounters : PortCounters := ⟨0, 0, 0, 0, 0⟩

/-- The line path after power-on (R90, R102, R105, R107, R113). -/
def path : Path where
  reqs := []
  nextId := 0
  waits := []
  locks := []
  memPort := []
  weights := ⟨2, 6, 6, 2⟩
  current := .internal
  remaining := 0
  lowMark := 8
  highMark := 32
  loadHigh := false
  ports := ⟨portCounters, portCounters, portCounters⟩
  grants := ⟨0, 0, 0, 0⟩
  loadHighEntries := 0
  lastResponse := ⟨none, none, none⟩

/-- The integrity unit's counters at zero (R127). -/
def integrityCounters : IntegrityCounters := ⟨0, 0, 0, 0, 0, 0, 0, 0, 0, 0, 0⟩

/-- The scrubber after either reset, before its timer starts (R119). -/
def scrubber : Scrubber := ⟨0, 0, 0, 0, 0, 0, none⟩

/-- The integrity unit after power-on (R109, R111, R116, R119, R120, R127). -/
def integ : Integrity where
  lastCorrected := none
  firstUncorrectable := none
  marked := []
  suspects := []
  suspectThreshold := 4
  autoRemap := false
  scrubber := scrubber
  remaps := []
  counters := integrityCounters

/-- The memory test engine after either reset (R128, R139, R140). -/
def march : March where
  state := .idle
  startPage := 0
  pageCount := 0
  checker := false
  autoRemap := false
  causeManual := false
  causeLoad := false
  element := 0
  index := 0
  writeNext := false
  failing := []
  failingReads := 0
  unlisted := 0
  firstFailure := none
  outcome := none
  drain := []
  started := 0
  passed := 0
  failed := 0
  abortedCount := 0
  reads := 0
  failedReads := 0

/-- The session counts at zero (R141). -/
def loopCounts : LoopCounts := ⟨0, 0, 0, 0, 0, 0, 0, 0, 0, 0, 0, 0, 0⟩

/-- The round-trip figures at zero (R141). -/
def roundTrips : RoundTrips := ⟨0, 0, 0, 0, 0⟩

/-- The loopback engine after power-on (R141, R151). -/
def loop : Loopback where
  state := .idle
  params := ⟨0, 0, 0, 0, 0, 0, 0, 0⟩
  identifier := 0
  lastIdentifier := 0
  nextSeq := 0
  outstanding := []
  counts := loopCounts
  trips := roundTrips
  outcome := none
  cause := none
  sendTimer := none
  started := 0
  passed := 0
  failed := 0
  abortedCount := 0
  strayLines := 0
  partialLines := 0
  late := 0
  sendOrphan := 0

/-- The record decoder after either reset (R164). -/
def dec : Decoder := ⟨0, 0, 0, 0, 0, 0, 0, 0⟩

/-- The report unit after either reset (R155, R161, R164). -/
def rep : Reports := ⟨none, 0, false, false, 0, 0, 0, 0, 0⟩

/-- A condition after either reset (R165). -/
def condition : Condition := ⟨.report, false, false, false, none, 0⟩

/-- A level condition that the end of the reset has taken as a change to present (R165, R166). -/
def presentCondition : Condition := ⟨.report, false, true, false, none, 1⟩

/-- The fault unit after either reset (R165). -/
def fault : FaultUnit where
  linkDown := condition
  linkDegraded := condition
  timingUnqualified := condition
  congestion := condition
  memUncorrectable := condition
  remapExhausted := condition
  accessDenied := condition
  portParity := condition
  testFailed := condition
  line := false
  assertions := 0

end Initial

/-- The part at the end of power-on with the given straps (R171). The refill, query and scrub timers have started
(R19, R67, R117); LINK_DOWN and TIMING_UNQUALIFIED have been taken as changes to present, and their two reports have
found the ring UNCONFIGURED (R165, R156). -/
def State.atPowerOn (straps : BitVec 2) : State where
  pending := []
  straps := straps
  inReset := false
  oscillator := 0
  now := 0
  freeUses := 0
  dram := []
  flips := []
  link := Initial.link
  adm := { Initial.adm with refillTimer := some 40000 }
  time := Initial.time
  xfer := { Initial.xfer with queryTimer := some 5000000 }
  windows := Initial.windows straps
  path := Initial.path
  integ := { Initial.integ with scrubber := { Initial.scrubber with timer := some 40000 } }
  march := Initial.march
  loop := Initial.loop
  dec := Initial.dec
  rep := { Initial.rep with sequence := 2, dropped := 2 }
  fault := { Initial.fault with
    linkDown := Initial.presentCondition, timingUnqualified := Initial.presentCondition }

/-- The machine right after reset: power-on with the straps at 00. -/
def State.reset : State := State.atPowerOn 0

/-! ### The reasons a step can stop -/

/-- Faults: the part has none. Every request it does not complete normally is answered ERROR, every record it does not
apply is refused with a reason, and both are next states; no constructor is needed (log entry 2). -/
inductive Fault where
  deriving DecidableEq, Repr

/-- Refusals of the model itself. -/
inductive Refusal where
  /-- Raised by an arm of `exec` for a row that has no meaning yet: none is left. Safe. -/
  | notModelled (mnemonic : String)
  deriving DecidableEq, Repr

end Sys2Proof.Machine
end

