-- ==== Sys2Proof/Machine/Operands.lean ====
section
/-! DEFINITION. Reading and writing the fields of lines (R172, R173), the codes of the enumerated fields, byte masks,
parity, and what the error-correcting code makes of a read. -/

namespace Sys2Proof.Machine

/-! ### Fields of a line (R172) -/

/-- Byte `i` of a line; 0 past its end. -/
def getByte (l : Line) (i : Nat) : Byte := (l[i]?).getD 0#8

/-- The little-endian field of `n` bytes at offset `off` (R172, Byte order). -/
def field (l : Line) (off : Nat) : Nat → Nat
  | 0 => 0
  | n + 1 => (getByte l off).toNat + 256 * field l (off + 1) n

/-- The value of `v` modulo 256ⁿ, read as a two's complement number of `n` bytes. -/
def toSigned (n v : Nat) : Int := if 2 * v < 256 ^ n then (v : Int) else (v : Int) - (256 ^ n : Nat)

/-- A signed field (R172, Signed fields). -/
def signedField (l : Line) (off n : Nat) : Int := toSigned n (field l off n)

/-- A one-bit flag: bit 0 of its byte alone is read (R172, Flag bytes). -/
def flagField (l : Line) (off : Nat) : Bool := (getByte l off).getLsbD 0

/-- A line with the low `n` bytes of `v` written little-endian at offset `off`. -/
def putField (l : Line) (off v : Nat) : Nat → Line
  | 0 => l
  | n + 1 => putField (l.setIfInBounds off (BitVec.ofNat 8 v)) (off + 1) (v / 256) n

/-- One field to write: offset, width in bytes, value. -/
structure FieldSpec where
  off : Nat
  width : Nat
  value : Nat
  deriving DecidableEq, Repr

/-- A line written whole by the part: the named fields, and 0 in every other byte (R173). -/
def buildLine (fs : List FieldSpec) : Line :=
  fs.foldl (fun l f => putField l f.off f.value f.width) Line.zero

/-- Two's complement of `n` bytes (R172, Signed fields). -/
def ofSigned (n : Nat) (v : Int) : Nat := (v % ((256 ^ n : Nat) : Int)).toNat

/-- A value shown in `n` bytes; the field's maximum when it exceeds it (R172, Narrowed values). -/
def narrow (n v : Nat) : Nat := min v (256 ^ n - 1)

/-- A signed value shown in `n` bytes, held at the field's largest or smallest value (R172; log entry 24). -/
def narrowSigned (n : Nat) (v : Int) : Nat :=
  ofSigned n (max (-((256 ^ n / 2 : Nat) : Int)) (min v (((256 ^ n / 2 : Nat) : Int) - 1)))

/-- 1 for a set flag, 0 for a clear one (R172, Flag bytes). -/
def flagByte (b : Bool) : Nat := if b then 1 else 0

/-- The two parts of a stamp at two offsets: 6 bytes of seconds, 4 of nanoseconds (R172, Stamps). -/
def stampFields (offSec offNs : Nat) (t : Stamp) : List FieldSpec := [⟨offSec, 6, t.sec⟩, ⟨offNs, 4, t.ns⟩]

/-- An index or class shown in one byte; 0xFF when absent (R172, Enumerations). -/
def optByte (v : Option Nat) : Nat := v.getD 0xFF

/-! ### Lines, pages and addresses -/

/-- The page a line lies in, by page number. -/
def pageOf (line : Nat) : Nat := line / 64

/-- The byte address of a line number. -/
def lineAddress (line : Nat) : Nat := 64 * line

/-- The byte address of a page number. -/
def pageAddress (page : Nat) : Nat := 4096 * page

/-! ### Line requests (R89) -/

/-- The line number a request names. -/
def reqLine : LineRequest → Nat
  | .read l _ _ => l.toNat
  | .write l _ _ _ _ _ => l.toNat

/-- The tag a request carries. -/
def reqTag : LineRequest → BitVec 4
  | .read _ t _ => t
  | .write _ t _ _ _ _ => t

/-- Whether a request is a WRITE. -/
def reqIsWrite : LineRequest → Bool
  | .read _ _ _ => false
  | .write _ _ _ _ _ _ => true

/-- The byte mask of a write; a read has none. -/
def reqMask : LineRequest → BitVec 64
  | .read _ _ _ => 0
  | .write _ _ m _ _ _ => m

/-- The data of a write; a read has none. -/
def reqData : LineRequest → Line
  | .read _ _ _ => Line.zero
  | .write _ _ _ d _ _ => d

/-! ### Byte masks (R89, R114, R173) -/

/-- All 64 flags set: a full-line write. -/
def maskFull (m : BitVec 64) : Bool := m == BitVec.allOnes 64

/-- No flag set (R98, Write with an empty byte mask). -/
def maskEmpty (m : BitVec 64) : Bool := m == 0

/-- The mask covers byte `i`. -/
def covers (m : BitVec 64) (i : Nat) : Bool := m.getLsbD i

/-- The merged line of R114: bytes whose flag is set from `new`, the others from `old`. -/
def mergeLine (m : BitVec 64) (new old : Line) : Line :=
  Vector.ofFn fun i => if m.getLsbD i.val then new[i] else old[i]

/-- Write data as an observer reads them: a byte the mask does not cover is read as 0 (R173). -/
def observedData (m : BitVec 64) (d : Line) : Line := mergeLine m d Line.zero

/-- A mask with `n` bytes from `off` added (R54). -/
def maskAdd (m : BitVec 64) (off n : Nat) : BitVec 64 :=
  m ||| (BitVec.ofNat 64 (2 ^ n - 1) <<< off)

/-! ### Parity (R91) -/

/-- True when a word has an odd count of ones. -/
def oddOnes {w : Nat} (b : BitVec w) : Bool := (List.range w).foldl (fun a i => a ^^ b.getLsbD i) false

/-- The address parity bit makes the count of ones even. -/
def addressParityOk (line : BitVec 30) (bit : Bool) : Bool := !(oddOnes line ^^ bit)

/-- True when the 64 bits of word `w` of a line have an odd count of ones. -/
def wordOdd (d : Line) (w : Nat) : Bool :=
  (List.range 8).foldl (fun a i => a ^^ oddOnes (getByte d (8 * w + i))) false

/-- Each data parity bit makes the count of ones of its word even, whatever the byte mask selects. -/
def dataParityOk (d : Line) (bits : BitVec 8) : Bool :=
  (List.range 8).all fun w => !(wordOdd d w ^^ bits.getLsbD w)

/-- The parity checks of R91. -/
def parityOk : LineRequest → Bool
  | .read l _ p => addressParityOk l p
  | .write l _ _ d p dp => addressParityOk l p && dataParityOk d dp

/-! ### The error-correcting code (R108) -/

/-- What the code makes of one 8-byte word of a read, by the number of its flipped bits (R108). -/
inductive WordObs where
  /-- No bit flipped: CLEAN, as stored. -/
  | flips0
  /-- One bit flipped: CORRECTED, as written. -/
  | flips1
  /-- Two bits flipped: UNCORRECTABLE. -/
  | flips2
  /-- Three or more flipped bits that pass as CLEAN, delivering `data`. -/
  | manyClean (data : BitVec 64)
  /-- Three or more flipped bits that pass as CORRECTED, delivering `data`. -/
  | manyCorrected (data : BitVec 64)
  /-- Three or more flipped bits, detected: UNCORRECTABLE. -/
  | manyUncorrectable
  deriving DecidableEq, Repr

/-- What the code makes of a line: its eight words, word 0 first. -/
abbrev EccObs := List WordObs

/-- How many bits of a stored word are flipped. -/
def flipCount (v : BitVec 72) : Nat := (List.range 72).countP fun i => v.getLsbD i

/-- The flipped bits that stand in a line once a read has found new ones. A bit stays flipped until a write covers the
line (R108). -/
def standingFlips (old : Flips) (f : LineFlips) : Flips :=
  Vector.ofFn fun w =>
    old[w] |||
      match f[w.val]? with
      | some x => x.fresh
      | none => 0

/-- Word `w` of a line: the byte at its lowest address is its lowest. -/
def wordOf (d : Line) (w : Nat) : BitVec 64 := BitVec.ofNat 64 (field d (8 * w) 8)

/-- What the code makes of a word, by its flipped bits and what was written. With three or more, `many` says what
passes; data that pass differ from those written (R108), so a `many` that names the written data stands for a word
detected (DESIGN CHOICE, log entry 28). -/
def wordMet (flips : BitVec 72) (written : BitVec 64) (many : ManyFlips) : WordObs :=
  match flipCount flips with
  | 0 => .flips0
  | 1 => .flips1
  | 2 => .flips2
  | _ =>
    match many with
    | .clean d => if d = written then .manyUncorrectable else .manyClean d
    | .corrected d => if d = written then .manyUncorrectable else .manyCorrected d
    | .uncorrectable => .manyUncorrectable

/-- What the operand says of word `w`, should three or more of its bits be flipped. -/
def manyOf (f : LineFlips) (w : Nat) : ManyFlips :=
  match f[w]? with
  | some x => x.many
  | none => .uncorrectable

/-- What the code makes of a line with these flipped bits, where `written` is what was last written. -/
def lineMet (flips : Flips) (written : Line) (f : LineFlips) : EccObs :=
  (List.range 8).map fun w => wordMet (flips[w]?.getD 0) (wordOf written w) (manyOf f w)

/-- The outcome of a word or of a line. -/
inductive EccOutcome where
  | clean | corrected | uncorrectable
  deriving DecidableEq, Repr

/-- The outcome of one word. -/
def wordOutcome : WordObs → EccOutcome
  | .flips0 => .clean
  | .flips1 => .corrected
  | .flips2 => .uncorrectable
  | .manyClean _ => .clean
  | .manyCorrected _ => .corrected
  | .manyUncorrectable => .uncorrectable

/-- The worse of two outcomes. -/
def worse : EccOutcome → EccOutcome → EccOutcome
  | .uncorrectable, _ => .uncorrectable
  | _, .uncorrectable => .uncorrectable
  | .corrected, _ => .corrected
  | _, .corrected => .corrected
  | .clean, .clean => .clean

/-- The outcome of a line access: the worst of its word outcomes. -/
def lineOutcome (o : EccObs) : EccOutcome := o.foldl (fun a w => worse a (wordOutcome w)) .clean

/-- The byte a word delivers: as written, or the data of three or more flips that passed. -/
def deliveredByte (o : EccObs) (written : Line) (i : Nat) : Byte :=
  match o[i / 8]? with
  | some (.manyClean d) => d.extractLsb' (8 * (i % 8)) 8
  | some (.manyCorrected d) => d.extractLsb' (8 * (i % 8)) 8
  | _ => getByte written i

/-- The line a read delivers, given what was written. The data of an UNCORRECTABLE word are not usable and no caller
uses them. -/
def deliveredLine (o : EccObs) (written : Line) : Line := Vector.ofFn fun i => deliveredByte o written i.val

/-! ### Codes of the enumerated fields (R172) -/

/-- Class field value. -/
def clsCode : Cls → Nat
  | .s => 0 | .t0 => 1 | .t1 => 2 | .t2 => 3 | .t3 => 4

/-- The class a class field names. -/
def clsOfCode : Nat → Option Cls
  | 0 => some .s | 1 => some .t0 | 2 => some .t1 | 3 => some .t2 | 4 => some .t3 | _ => none

/-- The five classes in the order of their codes. -/
def allClasses : List Cls := [.s, .t0, .t1, .t2, .t3]

/-- Port code. -/
def portCode : Port → Nat
  | .site => 0 | .radio => 1 | .modem => 2

/-- DOWN cause code. -/
def downCauseCode : DownCause → Nat
  | .noStatus => 0 | .carrier => 1 | .stale => 2 | .profile => 3

/-- Link state code. -/
def linkStateCode : LinkState → Nat
  | .down _ => 0 | .restoring => 1 | .up => 2 | .degraded => 3

/-- DOWN cause field: 0xFF when the state is not DOWN, as the code table of R172 gives it. -/
def causeField : LinkState → Nat
  | .down c => downCauseCode c
  | .restoring => 0xFF | .up => 0xFF | .degraded => 0xFF

/-- Timing state code. -/
def timingStateCode : TimingState → Nat
  | .freerun => 0 | .acquire => 1 | .track => 2 | .holdover => 3

/-- Window kind code. -/
def windowKindCode : WindowKind → Nat
  | .report => 1 | .txRing => 2 | .rxRing => 3 | .buffer => 4 | .timingRx => 5 | .testRx => 6
  | .partTx => 7 | .status => 8 | .notice => 9 | .spare => 10 | .control => 15

/-- The window kinds a WINDOW record may name, other than NONE (R99). -/
def windowKindOfCode : Nat → Option WindowKind
  | 1 => some .report | 2 => some .txRing | 3 => some .rxRing | 4 => some .buffer | 5 => some .timingRx
  | 6 => some .testRx | 7 => some .partTx | 8 => some .status | 9 => some .notice | 10 => some .spare
  | _ => none

/-- Record outcome code. -/
def outcomeCode : RecordOutcome → Nat
  | .applied => 0 | .partialMask => 1 | .kind => 2 | .range => 3 | .conflict => 4 | .order => 5 | .busy => 6

/-- Integrity source code. -/
def sourceCode : IntegritySource → Nat
  | .port p => portCode p
  | .internalPartial => 3 | .scrubber => 4 | .copyEngine => 5

/-- Remap source code. -/
def remapSourceCode : RemapSource → Nat
  | .copy => 0 | .fill => 1

/-- March failure kind code; 0 is none. -/
def marchFailureCode : MarchFailure → Nat
  | .uncorrectable => 1 | .corrected => 2 | .mismatch => 3

/-- Session outcome code. -/
def sessionOutcomeCode : SessionOutcome → Nat
  | .pass => 0 | .fail => 1 | .aborted => 2

/-- Loopback abort cause code; 0 is none. -/
def loopCauseCode : LoopCause → Nat
  | .stop => 1 | .linkDown => 2 | .window => 3 | .cls => 4

/-- Fault mode code. -/
def faultModeCode : FaultMode → Nat
  | .off => 0 | .report => 1 | .latch => 2 | .follow => 3

/-- The fault mode a nibble names (R169). -/
def faultModeOfCode : Nat → Option FaultMode
  | 0 => some .off | 1 => some .report | 2 => some .latch | 3 => some .follow | _ => none

/-- Condition index (R165). -/
def condIndex : Cond → Nat
  | .linkDown => 0 | .linkDegraded => 1 | .timingUnqualified => 2 | .congestion => 3 | .memUncorrectable => 4
  | .remapExhausted => 5 | .accessDenied => 6 | .portParity => 7 | .testFailed => 8

/-- The nine conditions in index order. -/
def allConds : List Cond :=
  [.linkDown, .linkDegraded, .timingUnqualified, .congestion, .memUncorrectable, .remapExhausted, .accessDenied,
   .portParity, .testFailed]

/-- Level conditions are the first four; the others are event conditions (R165). -/
def condIsLevel : Cond → Bool
  | .linkDown => true | .linkDegraded => true | .timingUnqualified => true | .congestion => true
  | .memUncorrectable => false | .remapExhausted => false | .accessDenied => false | .portParity => false
  | .testFailed => false

/-- March session state as the snapshot shows it, numbered in the order of R128; R172 gives no code (DESIGN CHOICE,
log entry 54). -/
def marchStateCode : MarchState → Nat
  | .idle => 0 | .running => 1 | .suspended => 2 | .done => 3 | .aborted => 4

/-- Loopback session state as the snapshot shows it, numbered in the order of R141; R172 gives no code (DESIGN CHOICE,
log entry 54). -/
def loopStateCode : LoopState → Nat
  | .idle => 0 | .running => 1 | .draining => 2 | .done => 3 | .aborted => 4

/-- Synthesizer state as the snapshot shows it, numbered in the order of R57; R172 gives no code (DESIGN CHOICE, log
entry 54). -/
def synthStateCode : SynthState → Nat
  | .off => 0 | .locking => 1 | .running => 2

/-! ### Descriptor lines (11_line_formats.md, Descriptor line) -/

/-- The ready flag. -/
def descReady (d : Line) : Bool := flagField d 0
/-- The kind byte: DATA 0, TIMING 1, TEST 2. -/
def descKind (d : Line) : Nat := field d 1 1
/-- The completion status: NONE 0, SENT 1, NOT_SENT 2, RECEIVED 3, ERRORED 4. -/
def descStatus (d : Line) : Nat := field d 2 1
/-- The class field. -/
def descClass (d : Line) : Nat := field d 3 1
/-- The length in bytes. -/
def descLength (d : Line) : Nat := field d 4 2
/-- The sequence field. -/
def descSequence (d : Line) : Nat := field d 6 2
/-- The buffer line address, a byte address. -/
def descBuffer (d : Line) : Nat := field d 8 8
/-- The residence in ns. -/
def descResidence (d : Line) : Nat := field d 16 4
/-- The air profile index. -/
def descAirProfile (d : Line) : Nat := field d 20 1

/-- The line with ready shown clear: bit 0 of byte 0 cleared, the byte's other bits kept (R172, Flag bytes). -/
def readyCleared (d : Line) : Line := d.setIfInBounds 0 (getByte d 0 &&& 0xFE#8)

/-- The mask covers the bytes of the ready flag and of the status (R29, R37). -/
def coversReadyStatus (m : BitVec 64) : Bool := covers m 0 && covers m 2

/-- The mask of a rejection write-back: bytes 0 and 2 (R23). -/
def writeBackMask : BitVec 64 := 5

/-- The data of a rejection write-back: ready clear, status NOT_SENT (R23). -/
def writeBackData : Line := buildLine [⟨0, 1, 0⟩, ⟨2, 1, 2⟩]

/-- A completion with the stamp, the stamp-valid flag and the epoch replaced (R54): bytes 21 to 33. -/
def stampedData (d : Line) (t : TakenStamp) : Line :=
  putField (putField (putField (putField d 21 (flagByte t.valid) 1) 22 t.epoch.toNat 2) 24 t.stamp.sec 6)
    30 t.stamp.ns 4

/-- The byte mask a port's write goes on with: a stamp adds the bytes of its fields (R54). -/
def writtenMask (r : LineRequest) : Option TakenStamp → BitVec 64
  | none => reqMask r
  | some _ => maskAdd (reqMask r) 21 13

/-- The data a port's write goes on with (R54). -/
def writtenData (r : LineRequest) : Option TakenStamp → Line
  | none => reqData r
  | some t => stampedData (reqData r) t

end Sys2Proof.Machine
end

