-- ==== Sys2Proof/Machine/Flags.lean ====
section
/-! DEFINITION. Saturating counters, the roundings the manual names, and the levels and conditions that follow from
the state: output lines, qualification, load, link capacity. -/

namespace Sys2Proof.Machine

/-! ### Counters (00_scope.md, Counters) -/

/-- Counts one; a counter at its maximum stays there. -/
def satInc {w : Nat} (c : BitVec w) : BitVec w := if c = BitVec.allOnes w then c else c + 1#w

/-- Adds `n`, stopping at the maximum. -/
def satAdd {w : Nat} (c : BitVec w) (n : Nat) : BitVec w :=
  if c.toNat + n < 2 ^ w then BitVec.ofNat w (c.toNat + n) else BitVec.allOnes w

/-! ### Roundings -/

/-- `num / den` rounded half away from zero (00_scope.md, Formulas), for a positive `den`. -/
def roundHalfAway (num : Int) (den : Nat) : Int :=
  if 0 ≤ num then (2 * num + den) / (2 * den) else -((2 * (-num) + den) / (2 * den))

/-- clamp of 00_scope.md, Formulas. -/
def clampInt (v lo hi : Int) : Int := max lo (min v hi)

/-! ### Interval timers -/

/-- A timer whose deadline has been reached: its expiry can be taken. -/
def due (t : Option Nat) (now : Nat) : Bool :=
  match t with
  | some d => d ≤ now
  | none => false

/-- A length in ms as oscillator periods (00_scope.md, Time). -/
def ms (n : Nat) : Nat := n * 40000

/-! ### Link (R4) -/

/-- Entry `i` of the profile table. -/
def profileAt (l : LinkMonitor) (i : Nat) : ProfileEntry := (l.profiles[i]?).getD Initial.profileEntry

/-- The link state is DOWN. -/
def isDown : LinkState → Bool
  | .down _ => true
  | .restoring => false | .up => false | .degraded => false

/-- The link state is UP or DEGRADED. -/
def carriesTraffic : LinkState → Bool
  | .up => true | .degraded => true
  | .down _ => false | .restoring => false

/-- The link capacity C in bits per ms (R4). -/
def capacity (l : LinkMonitor) : Nat :=
  if carriesTraffic l.state then
    match l.planned with
    | some i => (profileAt l i).capacity
    | none => 0
  else 0

/-- The planned overhead in bytes (R4). -/
def plannedOverhead (l : LinkMonitor) : Nat :=
  match l.state with
  | .down _ => 0
  | .restoring => match l.etx with
    | some i => (profileAt l i).overhead
    | none => 0
  | .up | .degraded => match l.planned with
    | some i => (profileAt l i).overhead
    | none => 0

/-! ### Timing (R85) and the time unit -/

/-- Timing is qualified while the state is TRACK or HOLDOVER (R85). -/
def qualifiedState : TimingState → Bool
  | .track => true | .holdover => true
  | .freerun => false | .acquire => false

/-- The level of the timing-qualified output line (R59). -/
def qualifiedLine (s : State) : Bool := qualifiedState s.xfer.state

/-- The level of the 1PPS output line (R55). -/
def pulseLine (s : State) : Bool := s.time.pulse.isSome

/-- The increment I of R45 for a frequency word F. -/
def increment (f : Int) : Int := 107374182400 + roundHalfAway (f * 67108864) 10000000

/-- The time counter's value: seconds and nanoseconds, the fraction dropped (R47). -/
def timeNow (s : State) : Stamp := ⟨s.time.seconds, s.time.nanoseconds⟩

/-- The radio reference clock's frequency in Hz as a numerator and a denominator (R57); none while the output is held
low. -/
def radioReference (s : State) : Option (Int × Nat) :=
  if s.time.synth.state = .running then
    some (40000000 * (s.time.synth.m : Int) * (16000000000 + s.time.freq),
      s.time.synth.n * s.time.synth.p * 16000000000)
  else none

/-- The fourteen bytes of a time-of-day message (11_line_formats.md, Time-of-day message), byte 0 first. -/
def todBytes (m : TodMessage) : List Byte :=
  let body := (List.range 13).map (getByte (buildLine
    [⟨0, 1, 0xA5⟩, ⟨1, 6, m.seconds⟩, ⟨7, 1, m.stateCode⟩, ⟨8, 1, flagByte m.qualified⟩, ⟨9, 4, m.holdoverAge⟩]))
  body ++ [body.foldl (fun a b => a + b) 0]

/-- The 140 bits of a message in the order sent: for each byte a start bit, its 8 data bits, the least significant
first, and a stop bit (R56). The line is high between messages, so a start bit is low and a stop bit high (log entry
35). -/
def todBits (m : TodMessage) : List Bool :=
  (todBytes m).flatMap fun b => false :: ((List.range 8).map fun i => b.getLsbD i) ++ [true]

/-- The level of the time-of-day line: the bit of the message being sent that 115,200 bit/s gives for the oscillator
periods since its start, and high between messages (R56). -/
def todLine (s : State) : Bool :=
  match s.time.todSending with
  | some t => (todBits t.message).getD ((s.oscillator - t.start) * 115200 / 40000000) true
  | none => true

/-! ### Report ring (R155, R160) -/

/-- The unread count M − C. -/
def unread (r : Ring) : Nat := r.made - r.consumed

/-- The visible unread count: W − C when W is at least C, and 0 otherwise. -/
def visibleUnread (r : Ring) : Nat := r.written - r.consumed

/-- The level of the attention line (R160). -/
def attentionLine (s : State) : Bool :=
  match s.rep.ring with
  | some r => decide (r.trigger ≤ visibleUnread r) || r.timeoutFlag
  | none => false

/-! ### Fault line (R166, R168) -/

/-- A condition is active while raw, or, for a level condition, while its retry timer runs. -/
def condActive (c : Cond) (d : Condition) : Bool := d.raw || (condIsLevel c && d.timer.isSome)

/-- A condition holds the fault line: latched in LATCH mode, or active in FOLLOW mode. -/
def condHolds (c : Cond) (d : Condition) : Bool :=
  (d.mode == .latch && d.latched) || (d.mode == .follow && condActive c d)

/-! ### Per-class, per-port and per-queue values -/

/-- The value of one class. -/
def classGet {α : Type} (v : PerClass α) : Cls → α
  | .s => v.s | .t0 => v.t0 | .t1 => v.t1 | .t2 => v.t2 | .t3 => v.t3

/-- Replaces the value of one class. -/
def classSet {α : Type} (v : PerClass α) (c : Cls) (x : α) : PerClass α :=
  match c with
  | .s => { v with s := x } | .t0 => { v with t0 := x } | .t1 => { v with t1 := x }
  | .t2 => { v with t2 := x } | .t3 => { v with t3 := x }

/-- The value of one port. -/
def portGet {α : Type} (v : PerPort α) : Port → α
  | .site => v.site | .radio => v.radio | .modem => v.modem

/-- Replaces the value of one port. -/
def portSet {α : Type} (v : PerPort α) (p : Port) (x : α) : PerPort α :=
  match p with
  | .site => { v with site := x } | .radio => { v with radio := x } | .modem => { v with modem := x }

/-- The value of one queue. -/
def queueGet {α : Type} (v : PerQueue α) : Queue → α
  | .site => v.site | .radio => v.radio | .modem => v.modem | .internal => v.internal

/-- Replaces the value of one queue. -/
def queueSet {α : Type} (v : PerQueue α) (q : Queue) (x : α) : PerQueue α :=
  match q with
  | .site => { v with site := x } | .radio => { v with radio := x }
  | .modem => { v with modem := x } | .internal => { v with internal := x }

/-- One condition of the fault unit. -/
def condGet (u : FaultUnit) : Cond → Condition
  | .linkDown => u.linkDown | .linkDegraded => u.linkDegraded | .timingUnqualified => u.timingUnqualified
  | .congestion => u.congestion | .memUncorrectable => u.memUncorrectable | .remapExhausted => u.remapExhausted
  | .accessDenied => u.accessDenied | .portParity => u.portParity | .testFailed => u.testFailed

/-- Replaces one condition of the fault unit. -/
def condSet (u : FaultUnit) (c : Cond) (d : Condition) : FaultUnit :=
  match c with
  | .linkDown => { u with linkDown := d } | .linkDegraded => { u with linkDegraded := d }
  | .timingUnqualified => { u with timingUnqualified := d } | .congestion => { u with congestion := d }
  | .memUncorrectable => { u with memUncorrectable := d } | .remapExhausted => { u with remapExhausted := d }
  | .accessDenied => { u with accessDenied := d } | .portParity => { u with portParity := d }
  | .testFailed => { u with testFailed := d }

/-- The level the fault line has for the conditions as they stand (R168). -/
def faultLevel (u : FaultUnit) : Bool := allConds.any fun c => condHolds c (condGet u c)

/-! ### Queues and load (R90, R105) -/

/-- A request of the given port. -/
def isPortReq (p : Port) (r : Req) : Bool :=
  match r.job with
  | .port q _ _ _ => q == p
  | _ => false

/-- A request of any port. -/
def isAnyPortReq (r : Req) : Bool :=
  match r.job with
  | .port _ _ _ _ => true
  | _ => false

/-- The requests of one port, in the order taken: its queue (R90). -/
def portQueue (s : State) (p : Port) : List Req := s.path.reqs.filter (isPortReq p)

/-- The occupancy of a port (R90). -/
def occupancy (s : State) (p : Port) : Nat := (portQueue s p).length

/-- The port load (R105). -/
def portLoad (s : State) : Nat := occupancy s .site + occupancy s .radio + occupancy s .modem

/-! ### March test (R128, R131) -/

/-- A fence stands (R131). -/
def fenceUp (s : State) : Bool := s.march.state == .running || s.march.state == .suspended

/-- A line lies in the region of the march session. -/
def inRegion (m : March) (line : Nat) : Bool :=
  decide (m.startPage ≤ pageOf line) && decide (pageOf line < m.startPage + m.pageCount)

/-- A line is fenced: a fence stands over it (R95, R131). -/
def fenced (s : State) (line : Nat) : Bool := fenceUp s && inRegion s.march line

/-- A run of pages shares a line with the fence (R100). -/
def fenceMeets (s : State) (base size : Nat) : Bool :=
  fenceUp s && decide (base < s.march.startPage + s.march.pageCount) && decide (s.march.startPage < base + size)

end Sys2Proof.Machine
end

