-- ==== Sys2Proof/Machine/Ops.lean ====
section
/-! DEFINITION. The operations the blocks share: the DRAM behind the memory port, the window table, the internal
requester, report requests, the fault unit's flags and line, the stamp epoch, and requests the manual leaves
unordered. -/

namespace Sys2Proof.Machine

/-! ### Contents by line number -/

/-- What a line holds; a line that is not listed holds `u`. -/
def sparseRead {α : Type} (u : α) : List (Nat × α) → Nat → α
  | [], _ => u
  | (a, v) :: rest, k => if a = k then v else sparseRead u rest k

/-- Replaces what a line holds, keeping the canonical form. -/
def sparseWrite {α : Type} [DecidableEq α] (u : α) : List (Nat × α) → Nat → α → List (Nat × α)
  | [], k, v => if v = u then [] else [(k, v)]
  | (a, w) :: rest, k, v =>
    if k < a then (if v = u then (a, w) :: rest else (k, v) :: (a, w) :: rest)
    else if k = a then (if v = u then rest else (k, v) :: rest)
    else (a, w) :: sparseWrite u rest k v

/-- The canonical form: the line numbers are `k` or more, they rise strictly, and no entry holds `u`. -/
def sparseWfFrom {α : Type} [DecidableEq α] (u : α) (k : Nat) : List (Nat × α) → Bool
  | [] => true
  | (a, v) :: rest => decide (k ≤ a) && decide (v ≠ u) && sparseWfFrom u (a + 1) rest

/-! ### DRAM (R98, R104) -/

/-- What a line of DRAM holds, as last written. -/
def dramRead (m : Dram) (k : Nat) : Line := sparseRead Config.unlistedLine m k

/-- Writes a whole line. -/
def dramWrite (m : Dram) (k : Nat) (v : Line) : Dram := sparseWrite Config.unlistedLine m k v

/-- The canonical form of the DRAM contents. -/
def dramWf (m : Dram) : Bool := sparseWfFrom Config.unlistedLine 0 m

/-- The flipped bits that stand in a line of DRAM (R108). -/
def flipsRead (m : FlipMap) (k : Nat) : Flips := sparseRead Flips.none m k

/-- Replaces the flipped bits that stand in a line. -/
def flipsWrite (m : FlipMap) (k : Nat) (v : Flips) : FlipMap := sparseWrite Flips.none m k v

/-- The canonical form of the flipped bits. -/
def flipsWf (m : FlipMap) : Bool := sparseWfFrom Flips.none 0 m

/-- A write reaches the memory: the line's words and their check bits are stored anew, and no bit of them is flipped
(R108). -/
def storeLine (memLine : Nat) (data : Line) (s : State) : State :=
  (s.updDram fun m => dramWrite m memLine data).updFlips fun m => flipsWrite m memLine Flips.none

/-! ### Requests the manual leaves unordered (R156, R175) -/

/-- One of the orders of a list, chosen by a number; every order has a number. -/
def permute {α : Type} (k : Nat) : List α → List α
  | [] => []
  | x :: xs => (permute (k / (xs.length + 1)) xs).insertIdx (k % (xs.length + 1)) x

/-- Takes several consequences of one event in an order that the manual leaves open: a free value chooses it. -/
def unordered (acts : List (State → State)) (s : State) : State :=
  (permute (Config.order s.freeUses) acts).foldl (fun t f => f t) (s.setFreeUses (s.freeUses + 1))

/-! ### The window table (R92, R95) -/

/-- A window covers a line. -/
def windowCovers (w : Window) (line : Nat) : Bool :=
  decide (w.base ≤ pageOf line) && decide (pageOf line < w.base + w.size)

/-- The entry of the table at an index, where it is defined. -/
def windowEntry (s : State) (i : Nat) : Option Window := (s.windows[i]?).getD none

/-- The window a line lies in, with its index; none for open memory. -/
def windowAt (s : State) (line : Nat) : Option (Nat × Window) :=
  (List.range 16).findSome? fun i =>
    match windowEntry s i with
    | some w => if windowCovers w line then some (i, w) else none
    | none => none

/-- The defined window of a kind of which at most one may exist. -/
def windowOfKind (s : State) (k : WindowKind) : Option Window :=
  (List.range 16).findSome? fun i =>
    match windowEntry s i with
    | some w => if w.kind == k then some w else none
    | none => none

/-- Line `i` of a window. -/
def windowLine (w : Window) (i : Nat) : Nat := 64 * w.base + i

/-- A window's flag for a port and a kind of request (R94). -/
def permitted (w : Window) (p : Port) (write : Bool) : Bool :=
  match p with
  | .site => if write then w.perms.siteWrite else w.perms.siteRead
  | .radio => if write then w.perms.radioWrite else w.perms.radioRead
  | .modem => if write then w.perms.modemWrite else w.perms.modemRead

/-- A descriptor line (R21): a line of a TX_RING window, or one of the first 64 lines of the PART_TX window. -/
def isDescriptorLine (w : Window) (line : Nat) : Bool :=
  w.kind == .txRing || (w.kind == .partTx && decide (line - windowLine w 0 < 64))

/-- The class the lines of a window belong to: its class, or S for PART_TX (R23, R93). -/
def windowClass (w : Window) : Cls := w.cls.getD .s

/-- A page lies in the SPARE window. -/
def inSpare (s : State) (page : Nat) : Bool :=
  match windowOfKind s .spare with
  | some w => decide (w.base ≤ page) && decide (page < w.base + w.size)
  | none => false

/-! ### Requests of the ports and of the internal requester -/

/-- Adds a request at the end, with the next number. -/
def addReq (line : Nat) (stage : Stage) (job : Job) (s : State) : State :=
  s.updPath fun p => { p with reqs := p.reqs ++ [⟨p.nextId, line, stage, job⟩], nextId := p.nextId + 1 }

/-- A source of the internal requester makes a request (R97). -/
def makeReq (line : Nat) (job : Job) (s : State) : State := addReq line .forwarded job s

/-- Changes the stage of one request. -/
def setStage (id : Nat) (st : Stage) (s : State) : State :=
  s.updPath fun p => { p with reqs := p.reqs.map fun r => if r.id = id then { r with stage := st } else r }

/-- The request of a number. -/
def findReq (s : State) (id : Nat) : Option Req := s.path.reqs.find? fun r => r.id = id

/-- Removes the requests that satisfy a test, and their places among the waits and in the start drain (R130; for a
notice that a newer one replaces, log entry 58). -/
def dropReqs (gone : Req → Bool) (s : State) : State :=
  let ids := (s.path.reqs.filter gone).map (·.id)
  (s.updPath fun p => { p with
    reqs := p.reqs.filter fun r => !gone r
    waits := p.waits.filter fun i => !ids.contains i }).updMarch fun m =>
      { m with drain := m.drain.filter fun i => !ids.contains i }

/-- Ends one request of the internal requester. -/
def dropReq (id : Nat) (s : State) : State := dropReqs (fun r => r.id == id) s

/-! ### Reports (R155, R156, R160) -/

/-- The phase bit of an entry position (R156): 1 when floor(position / N) is even. -/
def phaseBit (position size : Nat) : Nat := if position / size % 2 = 0 then 1 else 0

/-- The line of a report entry: its header and its body (11_line_formats.md, Report entries). -/
def entryLine (code phase sequence : Nat) (time : Stamp) (body : List FieldSpec) : Line :=
  buildLine ([⟨0, 1, code⟩, ⟨1, 1, phase⟩, ⟨2, 4, sequence⟩] ++ stampFields 6 12 time ++ body)

/-- The ring takes one more entry: ACTIVE with an unread count below N − 1 (R156). -/
def ringTakes (r : Ring) : Bool := !r.releasing && decide (unread r < r.size - 1)

/-- A request for a report with a given time field (R156). The sequence advances whether the report is made or
dropped. -/
def reportAt (time : Stamp) (code : Nat) (body : List FieldSpec) (s : State) : State :=
  let seq := s.rep.sequence
  let s1 := s.updRep fun u => { u with sequence := u.sequence + 1 }
  match s.rep.ring with
  | some r =>
    if ringTakes r then
      let s2 := s1.updRep fun u => { u with ring := some { r with made := r.made + 1 } }
      match windowOfKind s .report with
      | some w =>
        makeReq (windowLine w (r.made % r.size))
          (.reportEntry (entryLine code (phaseBit r.made r.size) seq.toNat time body)) s2
      | none => s2
    else s1.updRep fun u => { u with dropped := satInc u.dropped }
  | none => s1.updRep fun u => { u with dropped := satInc u.dropped }

/-- A request for a report, timed at the event being taken. -/
def report (code : Nat) (body : List FieldSpec) (s : State) : State := reportAt (timeNow s) code body s

/-! ### Fault unit (R165 to R170) -/

/-- Evaluates the fault line (R168): each assertion counts one. -/
def evalFaultLine (s : State) : State :=
  s.updFault fun u =>
    let level := faultLevel u
    { u with line := level, assertions := if level && !u.line then satInc u.assertions else u.assertions }

/-- The two flags of a condition as FAULT_CHANGE shows them: raw in bit 0, latched in bit 1. -/
def flagPair (d : Condition) : Nat := flagByte d.raw + 2 * flagByte d.latched

/-- Writes the FAULT_CHANGE report of a condition, given what it held before the event and the cause code (R170). The
fault line level is 1 while the line is asserted; R172 gives no code (DESIGN CHOICE, log entry 54). The mode and the
retry length are those after the event: R170 does not say which a FAULT record's report shows (DESIGN CHOICE, log entry
59). -/
def reportFault (c : Cond) (before : Condition) (cause : Nat) (s : State) : State :=
  let d := condGet s.fault c
  if (before.raw = d.raw ∧ before.latched = d.latched) ∨ d.mode = .off then s
  else report 0x10 [⟨16, 1, condIndex c⟩, ⟨17, 1, flagPair before⟩, ⟨18, 1, flagPair d⟩,
    ⟨19, 1, faultModeCode d.mode + 16 * flagByte d.longRetry⟩, ⟨20, 1, cause⟩, ⟨21, 1, flagByte s.fault.line⟩,
    ⟨24, 4, d.occurrences.toNat⟩] s

/-- One event changes one condition: the condition, the fault line, then the report. -/
def changeCondition (c : Cond) (d : Condition) (cause : Nat) (s : State) : State :=
  let before := condGet s.fault c
  reportFault c before cause (evalFaultLine (s.updFault fun u => condSet u c d))

/-- The retry length of a condition in oscillator periods (R165). -/
def retryLength (d : Condition) : Nat := if d.longRetry then 40000000 else 2000000

/-- A level condition that becomes present (R166, R167). -/
def becomePresent (d : Condition) : Condition :=
  { d with raw := true, latched := d.latched || d.mode == .latch, timer := none, occurrences := satInc d.occurrences }

/-- A level condition that becomes absent (R166). -/
def becomeAbsent (now : Nat) (d : Condition) : Condition :=
  { d with raw := false, timer := some (now + retryLength d) }

/-- The source of a level condition tells its presence (R165, R166). While the reset line is asserted the unit stays
at its reset values; what is present is taken at the end of the reset. -/
def setLevel (c : Cond) (present : Bool) (s : State) : State :=
  let d := condGet s.fault c
  if s.inReset || d.raw == present then s
  else if present then changeCondition c (becomePresent d) 1 s
  else changeCondition c (becomeAbsent s.now d) 2 s

/-- The source of an event condition raises it (R166, R167). -/
def raiseCondition (c : Cond) (s : State) : State :=
  let d := condGet s.fault c
  changeCondition c
    { d with
      raw := true
      latched := d.latched || d.mode == .latch
      timer := some (s.now + retryLength d)
      occurrences := satInc d.occurrences } 3 s

/-! ### Stamp epoch (R51) -/

/-- The stamp epoch increments once, modulo 65,536. -/
def stepEpoch (s : State) : State := s.updTime fun t => { t with epoch := t.epoch + 1 }

/-! ### Slots of the part's transmit ring (R68, R70) -/

/-- The slot at an index. -/
def slotAt (s : State) (j : Nat) : Slot := (s.xfer.slots[j]?).getD .free

/-- The number of FREE slots. -/
def freeSlots (s : State) : Nat := ((List.range 64).filter fun j => slotAt s j == .free).length

/-- The slot whose descriptor a line is: line j of the PART_TX window (R68). -/
def slotOfLine (s : State) (line : Nat) : Option Nat :=
  match windowOfKind s .partTx with
  | some w => if windowLine w 0 ≤ line ∧ line < windowLine w 64 then some (line - windowLine w 0) else none
  | none => none

/-- The first FREE slot from the ring pointer upward, wrapping (R68). -/
def nextFreeSlot (s : State) : Option Nat :=
  ((List.range 64).map fun i => (s.xfer.ringPointer + i) % 64).find? fun j => slotAt s j == .free

/-- Takes a slot: it becomes POSTED, and the pointer moves to the slot after it (R68). -/
def postSlot (j : Nat) (u : Slot) (s : State) : State :=
  s.updXfer fun x => { x with slots := x.slots.setIfInBounds j u, ringPointer := (j + 1) % 64 }

/-- Frees a slot (R68). -/
def freeSlot (j : Nat) (s : State) : State :=
  s.updXfer fun x => { x with slots := x.slots.setIfInBounds j .free }

/-- The first line of slot j's buffer group: 4,096 + 1,024 × j bytes from the base (R68). -/
def slotBuffer (w : Window) (j : Nat) : Nat := windowLine w (64 + 16 * j)

/-- A slot descriptor as the part writes it (R69, R145): ready, the kind, class 0, length, sequence, buffer. -/
def slotDescriptorLine (kind length sequence buffer : Nat) : Line :=
  buildLine [⟨0, 1, 1⟩, ⟨1, 1, kind⟩, ⟨2, 1, 0⟩, ⟨3, 1, 0⟩, ⟨4, 2, length⟩, ⟨6, 2, sequence⟩, ⟨8, 8, buffer⟩]

end Sys2Proof.Machine
end

