-- ==== Sys2Proof/Machine/TimeUnit.lean ====
section
/-! DEFINITION. The time unit (R44 to R60): the counter and its increment, phase steps, stamping, the time-of-day
line. -/

namespace Sys2Proof.Machine

/-! ### The counter (R44, R45, R48) -/

/-- A time on the total nanosecond count. -/
def totalNs (t : Stamp) : Int := (t.sec : Int) * 1000000000 + (t.ns : Int)

/-- A total nanosecond count of 0 or more returned to seconds, modulo 2⁴⁸, and nanoseconds. -/
def ofTotalNs (n : Int) : Stamp := ⟨(n / 1000000000).toNat % 281474976710656, (n % 1000000000).toNat⟩

/-- The sub-second quantity after one more period, in units of 2⁻³² ns (R45). -/
def nextSubSecond (t : TimeUnit) : Nat :=
  t.nanoseconds * 4294967296 + t.fraction + (increment t.freq).toNat

/-- The next period carries the nanoseconds field into the seconds: a rollover (R45). -/
def willRollOver (t : TimeUnit) : Bool := decide (1000000000 ≤ nextSubSecond t / 4294967296)

/-- One oscillator period: the increment I is added to the sub-second quantity, with its carries (R45). -/
def addPeriod (t : TimeUnit) : TimeUnit :=
  let sub := nextSubSecond t
  if willRollOver t then
    { t with
      seconds := (t.seconds + 1) % 281474976710656
      nanoseconds := sub / 4294967296 - 1000000000
      fraction := sub % 4294967296 }
  else
    { t with
      nanoseconds := sub / 4294967296
      fraction := sub % 4294967296 }

/-- The body of a TIME_STEP report (R50): cause SERVO 0, TIMESET 1. -/
def timeStepBody (cause : Nat) (clamped : Bool) (epoch : BitVec 16) (theta : Int) (before after : Stamp) :
    List FieldSpec :=
  [⟨16, 1, cause⟩, ⟨17, 1, flagByte clamped⟩, ⟨18, 2, epoch.toNat⟩, ⟨20, 4, narrowSigned 4 theta⟩] ++
    stampFields 24 32 before ++ stampFields 40 48 after

/-- The part of the counter's discontinuities that a phase step and a TIMESET share: the epoch increments, the sample
block is emptied and TIME_STEP is written, timed after the change (R48, R49, R50). -/
def afterTimeChange (cause : Nat) (clamped : Bool) (theta : Int) (before : Stamp) (s : State) : State :=
  let s1 := (stepEpoch s).updXfer fun x => { x with block := [] }
  report 0x06 (timeStepBody cause clamped s1.time.epoch theta before (timeNow s1)) s1

/-- A phase step of θ ns (R48): a positive θ moves the counter back, and a result below zero becomes 0. -/
def phaseStep (theta : Int) (s : State) : State :=
  let before := timeNow s
  let total := totalNs before - theta
  let clamped := decide (total < 0)
  let after := ofTotalNs total
  let s1 := s.updTime fun t =>
    { t with
      seconds := if clamped then 0 else after.sec
      nanoseconds := if clamped then 0 else after.ns
      fraction := if clamped then 0 else t.fraction
      phaseSteps := satInc t.phaseSteps
      stepsClamped := if clamped then satInc t.stepsClamped else t.stepsClamped }
  afterTimeChange 0 clamped theta before s1

/-- TIMESET's effect on the counter (R49). -/
def setCounter (sec ns : Nat) (s : State) : State :=
  let before := timeNow s
  let s1 := s.updTime fun t =>
    { t with
      seconds := sec
      nanoseconds := ns
      fraction := 0
      timesets := satInc t.timesets }
  afterTimeChange 1 false 0 before s1

/-! ### Stamping (R52 to R54) -/

/-- The stamp and its stamp-valid flag for a completion arriving now: residence and air profile index from its data,
the latency of its direction from the profile table (R52, R53). -/
def stampValue (s : State) (tx : Bool) (data : Line) : Stamp × Bool :=
  let arrival := timeNow s
  let entry := profileAt s.link (descAirProfile data)
  let latency := if tx then entry.txLatency else entry.rxLatency
  let total := totalNs arrival - (descResidence data : Int) - (latency : Int)
  if 11 < descAirProfile data ∨ entry.valid = false then (arrival, false)
  else if 1000000 < descResidence data then (arrival, false)
  else if total < 0 then (⟨0, 0⟩, false)
  else (ofTotalNs total, true)

/-- The stamp that a stamping writes and hands on, with the epoch at the arrival (R54). -/
def takeStamp (s : State) (tx : Bool) (data : Line) : TakenStamp :=
  let v := stampValue s tx data
  ⟨v.1, v.2, s.time.epoch⟩

/-- Counts a stamping (R53, R60). -/
def countStamp (t : TakenStamp) (s : State) : State :=
  s.updTime fun u =>
    if t.valid then { u with stampsValid := satInc u.stampsValid }
    else { u with stampsInvalid := satInc u.stampsInvalid }

/-! ### Second outputs (R55, R56) -/

/-- The message of a rollover, from the state the time transfer engine holds once it has counted the pulse (R56). -/
def todMessage (s : State) : TodMessage where
  seconds := s.time.seconds
  stateCode := timingStateCode s.xfer.state
  qualified := qualifiedState s.xfer.state
  holdoverAge := if s.xfer.state = .holdover then s.xfer.holdoverAge else 0

/-- Starts a message, or lets it wait, or lets it replace the waiting one (R56). -/
def sendTod (m : TodMessage) (s : State) : State :=
  s.updTime fun t =>
    match t.todSending, t.todWaiting with
    | none, _ => { t with todSending := some ⟨m, s.oscillator⟩ }
    | some _, none => { t with todWaiting := some m }
    | some _, some _ => { t with todWaiting := some m, todReplaced := satInc t.todReplaced }

/-- The 140 bit times of a message at 115,200 bit/s have passed (R56). -/
def todDone (s : State) : Bool :=
  match s.time.todSending with
  | some m => decide (140 * 40000000 ≤ (s.oscillator - m.start) * 115200)
  | none => false

/-- The message being sent ends; a waiting one is started (R56). -/
def endTod (s : State) : State :=
  s.updTime fun t =>
    match t.todWaiting with
    | some m => { t with todSending := some ⟨m, s.oscillator⟩, todWaiting := none }
    | none => { t with todSending := none }

/-- The 1PPS line is asserted for 100 ms from now (R55). -/
def startPulse (s : State) : State := s.updTime fun t => { t with pulse := some (s.oscillator + 4000000) }

end Sys2Proof.Machine
end

