-- ==== Sys2Proof/Machine/Loopback.lean ====
section
/-! DEFINITION. The loopback engine (R141 to R151): generation, returned lines, the outstanding list and the end of a
session. -/

namespace Sys2Proof.Machine

/-! ### Frames (R145) -/

/-- Pattern byte k of line i of frame s (R145). -/
def patternByte (p : LoopParams) (frameSeq i k : Nat) : Byte :=
  let b := BitVec.ofNat 8 (p.seed + 31 * frameSeq + 7 * i + k)
  if p.invert.getLsbD (k % 8) then ~~~b else b

/-- The header of a test frame line (11_line_formats.md, Test frame line). -/
def testHeader (identifier i lines frameSeq : Nat) : Line :=
  buildLine [⟨0, 1, identifier⟩, ⟨1, 1, i⟩, ⟨2, 1, lines⟩, ⟨4, 2, frameSeq⟩]

/-- Line i of a test frame: header, then 48 pattern bytes from byte 16 (R145). -/
def testFrameLine (identifier : Nat) (p : LoopParams) (frameSeq i : Nat) : Line :=
  Vector.ofFn fun b =>
    if 16 ≤ b.val then patternByte p frameSeq i (b.val - 16)
    else getByte (testHeader identifier i p.lines frameSeq) b.val

/-- How many of the 48 pattern bytes of a returned line differ from what R145 gives (R147). -/
def mismatches (p : LoopParams) (frameSeq i : Nat) (data : Line) : Nat :=
  ((List.range 48).filter fun k => getByte data (16 + k) != patternByte p frameSeq i k).length

/-! ### The end of a session (R150) -/

/-- A session is RUNNING or DRAINING. -/
def loopActive (l : Loopback) : Bool := l.state == .running || l.state == .draining

/-- The errored lines (R141). -/
def erroredLines (c : LoopCounts) : Nat := c.mismatchLines.toNat + c.badHeader.toNat + c.missing.toNat

/-- The frames not returned (R141). -/
def notReturned (c : LoopCounts) : Nat := c.lost.toNat + c.unsent.toNat

/-- The body of a LOOPTEST_DONE report: counts narrowed to two bytes, round-trip figures in microseconds rounded down
(R150, R172). -/
def loopDoneBody (l : Loopback) : List FieldSpec :=
  let outcome := match l.outcome with | some o => sessionOutcomeCode o | none => 0
  let cause := match l.cause with | some c => loopCauseCode c | none => 0
  [⟨16, 1, l.identifier.toNat⟩, ⟨17, 1, outcome + 16 * cause⟩, ⟨18, 1, l.params.lines⟩, ⟨19, 1, l.params.seed⟩,
   ⟨20, 1, l.params.invert.toNat⟩, ⟨21, 2, l.params.frames⟩, ⟨23, 2, l.params.interval⟩,
   ⟨25, 2, l.params.lossTimeout⟩, ⟨27, 2, l.params.maxLost⟩, ⟨29, 2, narrow 2 l.params.maxErrored⟩,
   ⟨31, 2, narrow 2 l.counts.generated.toNat⟩, ⟨33, 2, narrow 2 l.counts.returned.toNat⟩,
   ⟨35, 2, narrow 2 l.counts.lost.toNat⟩, ⟨37, 2, narrow 2 l.counts.unsent.toNat⟩,
   ⟨39, 2, narrow 2 l.counts.linesChecked.toNat⟩, ⟨41, 2, narrow 2 l.counts.mismatchLines.toNat⟩,
   ⟨43, 2, narrow 2 l.counts.mismatchBytes.toNat⟩, ⟨45, 2, narrow 2 l.counts.badHeader.toNat⟩,
   ⟨47, 2, narrow 2 l.counts.missing.toNat⟩, ⟨49, 2, narrow 2 l.counts.foreign.toNat⟩,
   ⟨51, 2, narrow 2 l.counts.late.toNat⟩, ⟨53, 2, narrow 2 l.trips.taken.toNat⟩,
   ⟨55, 2, narrow 2 l.trips.skipped.toNat⟩, ⟨57, 2, narrow 2 (l.trips.minimum / 1000)⟩,
   ⟨59, 2, narrow 2 (l.trips.maximum / 1000)⟩, ⟨61, 3, narrow 3 (l.trips.sum.toNat / 1000)⟩]

/-- Writes LOOPTEST_DONE for the session as it stands. -/
def reportLoopDone (s : State) : State := report 0x0F (loopDoneBody s.loop) s

/-- The outcome of a session that ends normally (R150). -/
def loopVerdict (l : Loopback) : SessionOutcome :=
  if notReturned l.counts ≤ l.params.maxLost ∧ erroredLines l.counts ≤ l.params.maxErrored then .pass else .fail

/-- The normal end of a session (R150): DONE, the outcome, the report, the counter, and on FAIL the event. -/
def endLoop (s : State) : State :=
  let v := loopVerdict s.loop
  let s1 := reportLoopDone (s.updLoop fun l => { l with state := .done, outcome := some v })
  if v = .pass then s1.updLoop fun l => { l with passed := satInc l.passed }
  else raiseCondition .testFailed (s1.updLoop fun l => { l with failed := satInc l.failed })

/-- A session in DRAINING ends when its outstanding list becomes empty (R150). -/
def loopCheckEnd (s : State) : State :=
  if s.loop.state = .draining ∧ s.loop.outstanding = [] then endLoop s else s

/-- Aborts a session that is RUNNING or DRAINING (R150). -/
def abortLoop (cause : LoopCause) (s : State) : State :=
  if loopActive s.loop then
    (reportLoopDone (s.updLoop fun l =>
      { l with
        state := .aborted
        outcome := some .aborted
        cause := some cause
        sendTimer := none
        outstanding := [] })).updLoop fun l => { l with abortedCount := satInc l.abortedCount }
  else s

/-! ### The outstanding list (R146, R148) -/

/-- Takes a round trip from a send stamp and a receive stamp, or skips it (R148). The sum, a 64-bit number, stops at
2⁶⁴ − 1 (log entry 29). -/
def takeTrip (send recv : TakenStamp) (t : RoundTrips) : RoundTrips :=
  let d := totalNs recv.stamp - totalNs send.stamp
  if send.valid = true ∧ recv.valid = true ∧ send.epoch = recv.epoch ∧ 0 ≤ d then
    { t with
      minimum := if t.taken = 0 then d.toNat else min t.minimum d.toNat
      maximum := max t.maximum d.toNat
      sum := satAdd t.sum d.toNat
      taken := satInc t.taken }
  else { t with skipped := satInc t.skipped }

/-- Replaces the entry of a frame sequence. -/
def setOutstanding (e : Outstanding) (l : Loopback) : Loopback :=
  { l with outstanding := l.outstanding.map fun x => if x.frameSeq = e.frameSeq then e else x }

/-- Removes the entry of a frame sequence. -/
def removeOutstanding (q : BitVec 16) (l : Loopback) : Loopback :=
  { l with outstanding := l.outstanding.filter fun x => x.frameSeq != q }

/-- Counts a skipped round trip (R146). -/
def skipTrip (l : Loopback) : Loopback := { l with trips := { l.trips with skipped := satInc l.trips.skipped } }

/-- What became of the descriptor of a slot POSTED with user TEST (R146). -/
inductive DescriptorFate where
  /-- A TX completion SENT, with its stamp. -/
  | sent (t : TakenStamp)
  /-- A TX completion NOT_SENT, or the rejection of the descriptor. -/
  | notSent
  /-- The flight timeout or an overwrite of the descriptor. -/
  | lost
  deriving DecidableEq, Repr

/-- The entry a descriptor event is taken by: its frame sequence and its slot both equal those given (R146). -/
def outstandingOf (l : Loopback) (slot : Nat) (q : BitVec 16) : Option Outstanding :=
  l.outstanding.find? fun e => e.frameSeq = q ∧ e.slot = slot

/-- The table of R146 for the descriptor events. -/
def applyFate (e : Outstanding) (f : DescriptorFate) (l : Loopback) : Loopback :=
  match f, e.state with
  | .sent t, .posted => setOutstanding { e with state := .sent t } l
  | .sent t, .returnedEarly r => removeOutstanding e.frameSeq { l with trips := takeTrip t r l.trips }
  | .notSent, .posted =>
    removeOutstanding e.frameSeq { l with counts := { l.counts with unsent := satInc l.counts.unsent } }
  | .notSent, .returnedEarly _ => removeOutstanding e.frameSeq (skipTrip l)
  | .lost, .posted => setOutstanding { e with state := .unstamped } l
  | .lost, .returnedEarly _ => removeOutstanding e.frameSeq (skipTrip l)
  | _, .sent _ => l
  | _, .unstamped => l

/-- The time transfer engine passes on what became of a TEST slot's descriptor (R146). -/
def loopDescriptorEvent (slot : Nat) (q : BitVec 16) (f : DescriptorFate) (s : State) : State :=
  match outstandingOf s.loop slot q with
  | some e => loopCheckEnd (s.updLoop (applyFate e f))
  | none => s.updLoop fun l => { l with sendOrphan := satInc l.sendOrphan }

/-- The table of R146 for a matched return. For an entry already RETURNED_EARLY, whose cell says that it cannot occur,
the entry is kept as it is (DESIGN CHOICE, log entry 48). -/
def applyReturn (e : Outstanding) (t : TakenStamp) (l : Loopback) : Loopback :=
  match e.state with
  | .posted => setOutstanding { e with state := .returnedEarly t } l
  | .sent u => removeOutstanding e.frameSeq { l with trips := takeTrip u t l.trips }
  | .unstamped => removeOutstanding e.frameSeq (skipTrip l)
  | .returnedEarly _ => l

/-- A return: an RX completion of kind TEST with status RECEIVED, with its buffer address and stamp (R148). A second
return that finds its entry still there as RETURNED_EARLY is matched by R148's test, and counts again, although R148
lists a duplicate return as late (DESIGN CHOICE, log entry 48). -/
def loopReturn (bufferAddress : Nat) (t : TakenStamp) (s : State) : State :=
  let found := s.loop.outstanding.find? fun e => e.firstLine.map lineAddress = some bufferAddress
  match loopActive s.loop, found with
  | true, some e =>
    loopCheckEnd (s.updLoop fun l => applyReturn e t
      { l with
        counts :=
          { l.counts with
            returned := satInc l.counts.returned
            missing := satAdd l.counts.missing (l.params.lines - e.seen) } })
  | _, _ => s.updLoop fun l =>
      { l with counts := { l.counts with late := satInc l.counts.late }, late := satInc l.late }

/-- A loss timeout of an entry (R146, R149). -/
def loseOutstanding (e : Outstanding) (l : Loopback) : Loopback :=
  match e.state with
  | .returnedEarly _ => removeOutstanding e.frameSeq (skipTrip l)
  | .posted | .sent _ | .unstamped =>
    removeOutstanding e.frameSeq { l with counts := { l.counts with lost := satInc l.counts.lost } }

/-! ### Returned lines (R147) -/

/-- A checked line updates the entry of its frame sequence: lines seen, and for index 0 the first buffer line, which
any other entry that held it loses. -/
def noteLine (q : BitVec 16) (index line : Nat) (l : Loopback) : Loopback :=
  if l.outstanding.any fun e => e.frameSeq = q then
    { l with
      outstanding := l.outstanding.map fun e =>
        if e.frameSeq = q then
          { e with
            seen := min l.params.lines (e.seen + 1)
            firstLine := if index = 0 then some line else e.firstLine }
        else if index = 0 ∧ e.firstLine = some line then { e with firstLine := none } else e }
  else l

/-- The check of a returned line whose header fits the session (R147, test 5). -/
def checkLine (line : Nat) (data : Line) (l : Loopback) : Loopback :=
  let q := field data 4 2
  let i := field data 1 1
  let bad := mismatches l.params q i data
  noteLine (BitVec.ofNat 16 q) i line
    { l with
      counts :=
        { l.counts with
          linesChecked := satInc l.counts.linesChecked
          mismatchBytes := satAdd l.counts.mismatchBytes bad
          mismatchLines := if bad = 0 then l.counts.mismatchLines else satInc l.counts.mismatchLines } }

/-- A returned line is handled by the tests of R147, in order. -/
def loopLine (line : Nat) (mask : BitVec 64) (data : Line) (l : Loopback) : Loopback :=
  if loopActive l = false then { l with strayLines := satInc l.strayLines }
  else if maskFull mask = false then { l with partialLines := satInc l.partialLines }
  else if field data 0 1 ≠ l.identifier.toNat then
    { l with counts := { l.counts with foreign := satInc l.counts.foreign } }
  else if field data 2 1 ≠ l.params.lines ∨ l.params.lines ≤ field data 1 1 then
    { l with counts := { l.counts with badHeader := satInc l.counts.badHeader } }
  else checkLine line data l

/-! ### Sending (R144, R145) -/

/-- Makes the writes of the first lines of a frame, one request for each (R145), in the order of the line index: R145
gives them no order among themselves (DESIGN CHOICE, log entry 55). -/
def makeTestLines (w : Window) (j : Nat) (identifier : Nat) (p : LoopParams) (q : Nat) : Nat → State → State
  | 0, s => s
  | n + 1, s =>
    makeReq (slotBuffer w j + n) (.testLine j (BitVec.ofNat 16 q) p.lines (testFrameLine identifier p q n))
      (makeTestLines w j identifier p q n s)

/-- Generates the frame of the next frame sequence in slot j (R145). -/
def generateFrame (w : Window) (j : Nat) (s : State) : State :=
  let q := s.loop.nextSeq
  let s1 := postSlot j (.test (BitVec.ofNat 16 q)) s
  let s2 := makeTestLines w j s.loop.identifier.toNat s.loop.params q s.loop.params.lines s1
  s2.updLoop fun l =>
    { l with
      outstanding := l.outstanding ++ [⟨BitVec.ofNat 16 q, j, s.now, .posted, none, 0⟩]
      counts := { l.counts with generated := satInc l.counts.generated }
      nextSeq := q + 1
      state := if q + 1 = l.params.frames then .draining else l.state
      sendTimer := if q + 1 = l.params.frames then none else l.sendTimer }

/-- The tests of R144 at an expiry of the send timer: outstanding list, slot, then the frame. The slot request is
granted when at least 5 slots are FREE (R70). -/
def trySend (s : State) : State :=
  if 32 ≤ s.loop.outstanding.length then
    s.updLoop fun l => { l with counts := { l.counts with waitList := satInc l.counts.waitList } }
  else
    match windowOfKind s .partTx, nextFreeSlot s with
    | some w, some j =>
      if 5 ≤ freeSlots s then generateFrame w j s
      else s.updLoop fun l => { l with counts := { l.counts with waitSlot := satInc l.counts.waitSlot } }
    | _, _ => s.updLoop fun l => { l with counts := { l.counts with waitSlot := satInc l.counts.waitSlot } }

/-- The expiry of the send timer, which restarts (R143, R144). -/
def sendExpiry (s : State) : State :=
  trySend (s.updLoop fun l =>
    { l with sendTimer := l.sendTimer.map fun d => d + l.params.interval * 4000 })

end Sys2Proof.Machine
end

