-- ==== Sys2Proof/Machine/TimeTransfer.lean ====
section
/-! DEFINITION. The time transfer engine (R61 to R88): the pending message and exchange tables, queries, samples, the
servo and the timing states. -/

namespace Sys2Proof.Machine

/-- Changes the engine's counters (R88). -/
def xferCount (f : TransferCounters → TransferCounters) (s : State) : State :=
  s.updXfer fun x => { x with counters := f x.counters }

/-! ### Timing states (R80 to R85) -/

/-- The body of a TIMING_STATE report: F, S and the epoch as they stand, the age before the change (R85). -/
def timingStateBody (old : TimingState) (cause ageBefore : Nat) (s : State) : List FieldSpec :=
  [⟨16, 1, timingStateCode old⟩, ⟨17, 1, timingStateCode s.xfer.state⟩, ⟨18, 1, cause⟩,
   ⟨20, 2, s.time.epoch.toNat⟩, ⟨24, 4, narrowSigned 4 s.time.freq⟩, ⟨28, 4, narrowSigned 4 s.xfer.integral⟩,
   ⟨32, 4, narrow 4 ageBefore⟩]

/-- A change of timing state, with what else changes in the engine: the report, and TIMING_UNQUALIFIED where the
qualification changes, in either order (R85, R156). -/
def moveTiming (new : TimingState) (cause : Nat) (f : Transfer → Transfer) (s : State) : State :=
  let old := s.xfer.state
  let s1 := s.updXfer fun x => f { x with state := new }
  let rep := report 0x07 (timingStateBody old cause s.xfer.holdoverAge s1)
  if qualifiedState old = qualifiedState new then rep s1
  else unordered [rep, setLevel .timingUnqualified (!qualifiedState new)] s1

/-- The mean of the F history, rounded half away from zero; F itself where the history is empty (R83). -/
def holdoverFreq (history : List Int) (freq : Int) : Int :=
  if history = [] then freq else roundHalfAway (history.foldl (fun a b => a + b) 0) history.length

/-- What entering HOLDOVER or FREERUN leaves in the engine: empty block, age 0, run count 0 (R77, R83, R84). -/
def lapse (x : Transfer) : Transfer := { x with block := [], holdoverAge := 0, runCount := 0 }

/-- Entry into HOLDOVER (R83). -/
def enterHoldover (cause : Nat) (s : State) : State :=
  moveTiming .holdover cause lapse
    (s.updTime fun t => { t with freq := holdoverFreq s.xfer.history t.freq })

/-- Entry into FREERUN (R83, R84). -/
def enterFreerun (cause : Nat) (s : State) : State := moveTiming .freerun cause lapse s

/-- The effect shared by the block timer's expiry and an entry into DOWN (R83). -/
def loseTiming (cause : Nat) (s : State) : State :=
  match s.xfer.state with
  | .track => enterHoldover cause s
  | .acquire => enterFreerun cause s
  | .holdover => s.updXfer fun x => { x with block := [] }
  | .freerun => s.updXfer fun x => { x with block := [] }

/-- The link monitor reports an entry into DOWN (R83). -/
def timingLinkDown (s : State) : State := loseTiming 6 s

/-- The block timer expires: it stops, and the state changes (R83). -/
def blockExpiry (s : State) : State := loseTiming 5 (s.updXfer fun x => { x with blockTimer := none })

/-- The time unit's report of a pulse (R84). -/
def timingPulse (s : State) : State :=
  match s.xfer.state with
  | .holdover =>
    let s1 := s.updXfer fun x => { x with holdoverAge := x.holdoverAge + 1 }
    if s.xfer.params.holdoverLimit < s1.xfer.holdoverAge * s.xfer.params.drift then enterFreerun 7 s1 else s1
  | .freerun => s
  | .acquire => s
  | .track => s

/-! ### The servo (R78, R79) -/

/-- The integral that a steering selection would give (R79). -/
def servoIntegral (integral theta : Int) : Int := clampInt (integral + theta) (-16777215) 16777215

/-- The frequency word that a steering selection would give (R79). -/
def servoFreq (p : TimingParams) (integral theta : Int) : Int :=
  -((p.gp : Int) * theta + (p.gi : Int) * servoIntegral integral theta)

/-- A steering selection (R79). -/
def steer (theta : Int) (s : State) : State :=
  let f := servoFreq s.xfer.params s.xfer.integral theta
  if -800000 ≤ f ∧ f ≤ 800000 then
    (s.updXfer fun x => { x with integral := servoIntegral x.integral theta }).updTime fun t => { t with freq := f }
  else
    xferCount (fun c => { c with fClamped := satInc c.fClamped })
      (s.updTime fun t => { t with freq := if 0 ≤ f then 800000 else -800000 })

/-- A stepping selection (R78). -/
def stepSelection (theta : Int) (s : State) : State :=
  phaseStep theta (xferCount (fun c => { c with stepSelections := satInc c.stepSelections })
    (s.updXfer fun x => { x with integral := 0 }))

/-- A selection steps when its offset is above T_step (R78). -/
def selectionSteps (p : TimingParams) (theta : Int) : Bool := decide ((p.tStep : Int) < |theta|)

/-- A selection lies within T_trk (R81). -/
def withinTrack (p : TimingParams) (theta : Int) : Bool := decide (|theta| ≤ (p.tTrk : Int))

/-- Pushes an F into the history, which keeps its four newest values (R82). -/
def pushHistory (f : Int) (h : List Int) : List Int := (h ++ [f]).drop ((h ++ [f]).length - 4)

/-- Pushes the frequency word as it stands (R81, R82). -/
def pushFreq (s : State) : State := s.updXfer fun x => { x with history := pushHistory s.time.freq x.history }

/-- Sets the run count. -/
def setRun (n : Nat) (s : State) : State := s.updXfer fun x => { x with runCount := n }

/-- A selection in ACQUIRE (R81). -/
def acquireSelection (theta : Int) (s : State) : State :=
  let p := s.xfer.params
  if selectionSteps p theta then setRun 0 (stepSelection theta s)
  else
    let s1 := steer theta s
    if withinTrack p theta then
      if p.k ≤ s.xfer.runCount + 1 then
        moveTiming .track 2 (fun x => { x with runCount := 0 }) (pushFreq s1)
      else setRun (s.xfer.runCount + 1) s1
    else setRun 0 s1

/-- A selection in TRACK (R82). On a step the state moves after the step, so the TIMING_STATE report follows TIME_STEP
and shows the time and the epoch after it, and the FAULT_CHANGE report of TIMING_UNQUALIFIED that the move makes shows
the time after it too; R47 and R85 leave open which they show (DESIGN CHOICE, log entry 44). -/
def trackSelection (theta : Int) (s : State) : State :=
  let p := s.xfer.params
  if selectionSteps p theta then
    moveTiming .acquire 3 (fun x => { x with runCount := 0 }) (stepSelection theta s)
  else
    let s1 := pushFreq (steer theta s)
    if withinTrack p theta then setRun 0 s1
    else if p.k ≤ s.xfer.runCount + 1 then moveTiming .acquire 4 (fun x => { x with runCount := 0 }) s1
    else setRun (s.xfer.runCount + 1) s1

/-- A selection is handed to the servo and the timing state machine (R81, R82, R84). -/
def applySelection (theta : Int) (s : State) : State :=
  match s.xfer.state with
  | .freerun => acquireSelection theta s
  | .acquire => acquireSelection theta s
  | .track => trackSelection theta s
  | .holdover =>
    acquireSelection theta (moveTiming .acquire 8 (fun x => { x with holdoverAge := 0, runCount := 0 }) s)

/-! ### Sample block and selection (R77) -/

/-- The sample with the least delay, the newest of equals (R77). -/
def selectSample : List Sample → Option Sample
  | [] => none
  | x :: xs =>
    match selectSample xs with
    | some y => if y.delay ≤ x.delay then some y else some x
    | none => some x

/-- A sample joins the block; the eighth makes a selection (R77). -/
def joinBlock (x : Sample) (s : State) : State :=
  let block := s.xfer.block ++ [x]
  if block.length < 8 then s.updXfer fun t => { t with block := block }
  else
    match selectSample block with
    | some y =>
      applySelection y.offset
        (xferCount (fun c => { c with selections := satInc c.selections })
          (s.updXfer fun t => { t with block := [], lastOffset := y.offset, lastDelay := y.delay }))
    | none => s

/-- A sample is accepted (R76, R81, R83). -/
def acceptSample (x : Sample) (s : State) : State :=
  let s1 := (xferCount (fun c => { c with samplesAccepted := satInc c.samplesAccepted }) s).updXfer fun t =>
    { t with blockTimer := some (s.now + ms (1000 * t.params.blockTimeout)) }
  joinBlock x (if s1.xfer.state = .freerun then moveTiming .acquire 1 (fun t => { t with runCount := 0 }) s1 else s1)

/-! ### Samples (R75, R76) -/

/-- θ of R76, from B − A, D − C and Q. -/
def sampleOffset (ba dc q : Int) : Int := (ba - dc - q) / 2

/-- The delay of R76. -/
def sampleDelay (ba dc : Int) : Int := (ba + dc) / 2

/-- Validates the four stamps and computes the sample (R75, R76). -/
def computeSample (a : Stamp) (b c : TakenStamp) (d : Stamp) (s : State) : State :=
  let ba := totalNs b.stamp - totalNs a
  let dc := totalNs d - totalNs c.stamp
  let delay := sampleDelay ba dc
  if b.valid = false ∨ c.valid = false then xferCount (fun k => { k with invalid := satInc k.invalid }) s
  else if b.epoch ≠ c.epoch ∨ b.epoch ≠ s.time.epoch then
    xferCount (fun k => { k with epochDiscard := satInc k.epochDiscard }) s
  else if 2147483647 < |ba| ∨ 2147483647 < |dc| then
    xferCount (fun k => { k with sampleRange := satInc k.sampleRange }) s
  else if delay < 0 then xferCount (fun k => { k with negative := satInc k.negative }) s
  else if (s.xfer.params.maximumDelay : Int) < delay then
    xferCount (fun k => { k with tooLong := satInc k.tooLong }) s
  else acceptSample ⟨sampleOffset ba dc s.xfer.params.pathDifference, delay⟩ s

/-! ### Exchange table (R65, R66, R73, R74) -/

/-- Removes the entry of an offer sequence. -/
def removeExchange (offerSeq : BitVec 16) (s : State) : State :=
  s.updXfer fun x => { x with exchanges := x.exchanges.filter fun e => e.offerSeq != offerSeq }

/-- Replaces the entry of an offer sequence in its place. -/
def setExchange (e : Exchange) (s : State) : State :=
  s.updXfer fun x => { x with exchanges := x.exchanges.map fun y => if y.offerSeq = e.offerSeq then e else y }

/-- The entry of an offer sequence and a query sequence. -/
def findExchange (s : State) (offerSeq querySeq : BitVec 16) : Option Exchange :=
  s.xfer.exchanges.find? fun e => e.offerSeq = offerSeq ∧ e.querySeq = some querySeq

/-- The entry as an offer leaves it (R65, R66). -/
def newExchange (s : State) (offerSeq : BitVec 16) (a : Stamp) (b : TakenStamp) : Exchange where
  offerSeq := offerSeq
  a := a
  b := b
  querySeq := none
  c := none
  d := none
  state := .offered
  created := s.now
  expiry := s.now + ms s.xfer.params.exchangeTimeout

/-- An offer enters the table (R66). The list is in order of creation, oldest first; of entries with one created time,
a point R66 leaves open, the one entered first is the oldest (DESIGN CHOICE, log entry 50). -/
def enterOffer (offerSeq : BitVec 16) (a : Stamp) (b : TakenStamp) (s : State) : State :=
  let e := newExchange s offerSeq a b
  if s.xfer.exchanges.any fun y => y.offerSeq = offerSeq then
    (xferCount (fun c => { c with offerDuplicate := satInc c.offerDuplicate }) (removeExchange offerSeq s)).updXfer
      fun x => { x with exchanges := x.exchanges ++ [e] }
  else if s.xfer.exchanges.length < 8 then s.updXfer fun x => { x with exchanges := x.exchanges ++ [e] }
  else
    (xferCount (fun c => { c with exchangeEvicted := satInc c.exchangeEvicted }) s).updXfer
      fun x => { x with exchanges := x.exchanges.drop 1 ++ [e] }

/-- An entry returns to OFFERED (R71, R72). -/
def reoffer (e : Exchange) : Exchange := { e with state := .offered, querySeq := none, c := none, d := none }

/-- An answer is matched (R73). -/
def matchAnswer (offerSeq querySeq : BitVec 16) (d : Stamp) (s : State) : State :=
  let unmatched := xferCount (fun c => { c with answerUnmatched := satInc c.answerUnmatched }) s
  match findExchange s offerSeq querySeq with
  | some e =>
    match e.state, e.c with
    | .queried, some c => computeSample e.a e.b c d (removeExchange offerSeq s)
    | .querySent, _ => setExchange { e with d := some d, state := .answeredEarly } s
    | _, _ => unmatched
  | none => unmatched

/-- A timing RX completion routed by the admission unit (R64): its buffer address and its stamp. -/
def routeTiming (bufferAddress : Nat) (b : TakenStamp) (s : State) : State :=
  match s.xfer.pendingTable.find? fun m => lineAddress m.line = bufferAddress with
  | some m =>
    let s1 := s.updXfer fun x => { x with pendingTable := x.pendingTable.filter fun y => y.line != m.line }
    if m.offer then enterOffer m.offerSeq m.carried b s1 else matchAnswer m.offerSeq m.querySeq m.carried s1
  | none => xferCount (fun c => { c with noPayload := satInc c.noPayload }) s

/-- An exchange timeout expires (R74). -/
def exchangeExpiry (offerSeq : BitVec 16) (s : State) : State :=
  xferCount (fun c => { c with exchangeTimedOut := satInc c.exchangeTimedOut }) (removeExchange offerSeq s)

/-! ### Frame writes (R61 to R63) -/

/-- The carried stamp of a frame. -/
def frameStamp (d : Line) : Stamp := ⟨field d 6 6, field d 12 4⟩

/-- A received frame is well formed (R61). -/
def frameWellFormed (d : Line) : Bool :=
  (field d 0 1 == 1 || field d 0 1 == 3) && decide ((frameStamp d).ns ≤ 999999999)

/-- An unparsed frame write removes the entry of its buffer line (R62). -/
def forgetPending (line : Nat) (s : State) : State :=
  s.updXfer fun x => { x with pendingTable := x.pendingTable.filter fun m => m.line != line }

/-- The entry a parsed frame makes (R63). The query sequence of an OFFER's entry holds bytes 4 and 5 of its frame and
is never used: R61 does not read them, and R63 gives every entry the field (DESIGN CHOICE, log entry 45). -/
def pendingOf (s : State) (line : Nat) (d : Line) : PendingMessage where
  line := line
  offer := field d 0 1 == 1
  offerSeq := BitVec.ofNat 16 (field d 2 2)
  querySeq := BitVec.ofNat 16 (field d 4 2)
  carried := frameStamp d
  arrival := s.now

/-- A parsed frame enters the pending message table (R63). The list is in order of arrival, oldest first; of entries
with one arrival time, a point R63 leaves open, the one entered first is the oldest (DESIGN CHOICE, log entry 50). -/
def enterPending (m : PendingMessage) (s : State) : State :=
  if s.xfer.pendingTable.any fun y => y.line = m.line then
    (xferCount (fun c => { c with pendingReplaced := satInc c.pendingReplaced }) (forgetPending m.line s)).updXfer
      fun x => { x with pendingTable := x.pendingTable ++ [m] }
  else if s.xfer.pendingTable.length < 8 then
    s.updXfer fun x => { x with pendingTable := x.pendingTable ++ [m] }
  else
    (xferCount (fun c => { c with pendingDropped := satInc c.pendingDropped }) s).updXfer
      fun x => { x with pendingTable := x.pendingTable.drop 1 ++ [m] }

/-- A frame write is handled by the tests of R62, in order. -/
def frameWrite (line : Nat) (mask : BitVec 64) (data : Line) (s : State) : State :=
  if maskFull mask = false then
    xferCount (fun c => { c with partialFrame := satInc c.partialFrame }) (forgetPending line s)
  else if frameWellFormed data = false then
    xferCount (fun c => { c with badFrame := satInc c.badFrame }) (forgetPending line s)
  else if field data 1 1 ≠ s.xfer.params.domain then
    xferCount (fun c => { c with domainMismatch := satInc c.domainMismatch }) (forgetPending line s)
  else enterPending (pendingOf s line data) s

/-! ### Queries (R67, R69) -/

/-- The QUERY frame (R61, R69). -/
def queryFrameLine (domain : Nat) (offerSeq querySeq : BitVec 16) (t : Stamp) : Line :=
  buildLine ([⟨0, 1, 2⟩, ⟨1, 1, domain⟩, ⟨2, 2, offerSeq.toNat⟩, ⟨4, 2, querySeq.toNat⟩] ++ stampFields 6 12 t)

/-- Sends a query for an entry in a slot (R69). The frame's content is fixed at the timer's expiry, its domain among
it: whether a TIMING record between the expiry and the frame's write changes the waiting frame is left open by R87,
whose new domain acts at "the next query written" (DESIGN CHOICE, log entry 56). -/
def sendQuery (w : Window) (j : Nat) (e : Exchange) (s : State) : State :=
  let q := s.xfer.querySeq
  let s1 := setExchange { e with querySeq := some q, state := .querySent } (postSlot j (.query e.offerSeq q) s)
  let s2 := xferCount (fun c => { c with queriesSent := satInc c.queriesSent })
    (s1.updXfer fun x => { x with querySeq := x.querySeq + 1 })
  makeReq (slotBuffer w j)
    (.queryFrame j e.offerSeq q (queryFrameLine s.xfer.params.domain e.offerSeq q (timeNow s))) s2

/-- The newest OFFERED entry (R67). Of entries with one created time, a point R67 leaves open, the one entered last
(DESIGN CHOICE, log entry 50). -/
def newestOffered (x : Transfer) : Option Exchange := (x.exchanges.filter fun e => e.state == .offered).getLast?

/-- The tests of R67 at an expiry of the query timer. -/
def tryQuery (s : State) : State :=
  if isDown s.link.state then xferCount (fun c => { c with noLink := satInc c.noLink }) s
  else
    match newestOffered s.xfer with
    | none => xferCount (fun c => { c with noOffer := satInc c.noOffer }) s
    | some e =>
      match windowOfKind s .partTx, nextFreeSlot s with
      | some w, some j => sendQuery w j e s
      | _, _ => xferCount (fun c => { c with noSlot := satInc c.noSlot }) s

/-- The period of the query timer (R67). -/
def queryPeriod (p : TimingParams) : Nat := 40000000 / p.queryRate

/-- The expiry of the query timer, which restarts (R67). -/
def queryExpiry (s : State) : State :=
  tryQuery (s.updXfer fun x => { x with queryTimer := x.queryTimer.map fun d => d + queryPeriod x.params })

/-! ### What becomes of a slot's descriptor (R68, R71, R72) -/

/-- A matched TX completion of kind TIMING on a slot that was POSTED for a query (R71). -/
def queryCompletion (offerSeq querySeq : BitVec 16) (sent : Bool) (t : TakenStamp) (s : State) : State :=
  let orphan := xferCount (fun c => { c with cOrphan := satInc c.cOrphan }) s
  match findExchange s offerSeq querySeq with
  | some e =>
    match e.state with
    | .querySent =>
      if sent then setExchange { e with c := some t, state := .queried } s
      else xferCount (fun c => { c with queryNotSent := satInc c.queryNotSent }) (setExchange (reoffer e) s)
    | .answeredEarly =>
      if sent then
        match e.d with
        | some d => computeSample e.a e.b t d (removeExchange offerSeq s)
        | none => orphan
      else xferCount (fun c => { c with queryNotSent := satInc c.queryNotSent }) (setExchange (reoffer e) s)
    | .offered => orphan
    | .queried => orphan
  | none => orphan

/-- The flight timeout or an overwrite of a query's descriptor (R72). -/
def queryLost (offerSeq querySeq : BitVec 16) (s : State) : State :=
  let s1 := match findExchange s offerSeq querySeq with
    | some _ => removeExchange offerSeq s
    | none => s
  xferCount (fun c => { c with queryLost := satInc c.queryLost }) s1

/-- The rejection of a query's descriptor (R72). -/
def queryRejected (offerSeq querySeq : BitVec 16) (s : State) : State :=
  let s1 := match findExchange s offerSeq querySeq with
    | some e => setExchange (reoffer e) s
    | none => s
  xferCount (fun c => { c with queryRejected := satInc c.queryRejected }) s1

/-- A matched TX completion handed on by the admission unit (R30, R71, R146): the slot is found from the descriptor
line, freed (R68), and its user is told. A completion of kind TIMING whose slot was not POSTED for a query counts
C_ORPHAN. -/
def slotCompleted (line : Nat) (timing sent : Bool) (t : TakenStamp) (s : State) : State :=
  let orphan := fun u : State =>
    if timing then xferCount (fun c => { c with cOrphan := satInc c.cOrphan }) u else u
  match slotOfLine s line with
  | some j =>
    match slotAt s j with
    | .query o q => if timing then queryCompletion o q sent t (freeSlot j s) else freeSlot j s
    | .test q => loopDescriptorEvent j q (if sent then .sent t else .notSent) (orphan (freeSlot j s))
    | .free => orphan s
  | none => orphan s

/-- A matched completion of kind DATA for a slot's line: the admission unit tells of the removal and its cause, and
hands no completion on (R30). The slot is freed (R68); its user gets neither a status nor a stamp, and no rule says
what becomes of its exchange or outstanding entry, which stays until its own timeout (DESIGN CHOICE, log entry 53). -/
def slotRemoved (line : Nat) (s : State) : State :=
  match slotOfLine s line with
  | some j => freeSlot j s
  | none => s

/-- The flight timeout or an overwrite of a descriptor reported by the admission unit (R30, R72, R146). -/
def slotLost (line : Nat) (s : State) : State :=
  match slotOfLine s line with
  | some j =>
    match slotAt s j with
    | .query o q => queryLost o q (freeSlot j s)
    | .test q => loopDescriptorEvent j q .lost (freeSlot j s)
    | .free => s
  | none => s

/-- The admission unit rejects a slot descriptor line whose sequence field is `sequence` (R68, R72, R146). A rejection
that frees no slot counts REJECT_ORPHAN (R88), also where PART_TX was moved or undefined after the line was classified
(R95) and no slot has the line now. -/
def slotRejected (line sequence : Nat) (s : State) : State :=
  let orphan := xferCount (fun c => { c with rejectOrphan := satInc c.rejectOrphan }) s
  match slotOfLine s line with
  | some j =>
    match slotAt s j with
    | .query o q => if sequence = q.toNat then queryRejected o q (freeSlot j s) else orphan
    | .test q => if sequence = q.toNat then loopDescriptorEvent j q .notSent (freeSlot j s) else orphan
    | .free => orphan
  | none => orphan

/-- The PART_TX window is undefined or replaced (R68): every slot is free, the pointer is 0, the writes not yet issued
are not issued, and those already issued complete without any further effect. -/
def resetSlots (s : State) : State :=
  let ours := fun j : Job => match j with
    | .queryFrame _ _ _ _ => true
    | .testLine _ _ _ _ => true
    | .slotDescriptor _ _ => true
    | _ => false
  let ids := (s.path.reqs.filter fun r => ours r.job).map (·.id)
  let s1 := (dropReqs (fun r => ours r.job) s).updPath fun p =>
    { p with memPort := p.memPort.map fun a => if ids.contains a.id then { a with live := false } else a }
  s1.updXfer fun x => { x with slots := Vector.replicate 64 .free, ringPointer := 0 }

end Sys2Proof.Machine
end

