-- ==== Sys2Proof/Machine/LinkMonitor.lean ====
section
/-! DEFINITION. The link monitor (R1 to R16): effective profiles, link states, the planned profile, and what an event
hands on to the other blocks. -/

namespace Sys2Proof.Machine

/-! ### Effective profiles (R3) -/

/-- The highest valid index below `n`. -/
def highestValidBelow (l : LinkMonitor) : Nat → Option Nat
  | 0 => none
  | n + 1 => if (profileAt l n).valid then some n else highestValidBelow l n

/-- The lowest valid index of the table. -/
def lowestValid (l : LinkMonitor) : Option Nat := (List.range 12).find? fun i => (profileAt l i).valid

/-- The effective profile of a written index (R3): the highest valid index at or below it. -/
def effective (l : LinkMonitor) (index : Nat) : Option Nat := highestValidBelow l (min index 11 + 1)

/-- The kept carrier is LOCKED. -/
def keptLocked (l : LinkMonitor) : Bool :=
  match l.kept with
  | some k => k.carrier == 1
  | none => false

/-- Derives E_tx and E_rx from the kept indices (R3). -/
def derive (l : LinkMonitor) : LinkMonitor :=
  match l.kept with
  | some k => { l with etx := effective l k.txIndex, erx := effective l k.rxIndex }
  | none => { l with etx := none, erx := none }

/-! ### Moves of the link state

An event works on the monitor and on the trail of its changes, in the order it makes them. -/

/-- A change that has a LINK_CHANGE report (R12). -/
inductive LinkNote where
  /-- A change of state, to this state. -/
  | moved (st : LinkState)
  /-- The event's remaining changes, of the DOWN cause or the planned profile, made in this state. -/
  | remaining (st : LinkState)
  deriving DecidableEq, Repr

/-- The monitor while an event is taken, with the changes the event has made so far. -/
structure LinkWork where
  l : LinkMonitor
  trail : List LinkNote
  deriving DecidableEq, Repr

/-- The note is a change of state. -/
def isMove : LinkNote → Bool
  | .moved _ => true
  | .remaining _ => false

/-- Changes the monitor's fields without a change of state. -/
def LinkWork.upd (f : LinkMonitor → LinkMonitor) (w : LinkWork) : LinkWork := { w with l := f w.l }

/-- Enters a state. -/
def LinkWork.enter (st : LinkState) (w : LinkWork) : LinkWork := ⟨{ w.l with state := st }, w.trail ++ [.moved st]⟩

/-- One of the event's remaining changes is made: the first of them places their one report (R12). -/
def LinkWork.note (w : LinkWork) : LinkWork :=
  if w.trail.all isMove then { w with trail := w.trail ++ [.remaining w.l.state] } else w

/-- Sets the planned profile. -/
def LinkWork.plan (q : Option Nat) (w : LinkWork) : LinkWork :=
  let v := w.upd fun l => { l with planned := q }
  if w.l.planned = q then v else v.note

/-- Sets the cause held in DOWN. -/
def LinkWork.setCause (c : DownCause) (w : LinkWork) : LinkWork :=
  let v := w.upd fun l => { l with state := .down c }
  if w.l.state = .down c then v else v.note

/-- Entry into DOWN from another state (R4, R16). -/
def LinkWork.down (c : DownCause) (w : LinkWork) : LinkWork :=
  ((w.upd fun l =>
    { l with restoreTimer := none, upshiftTimer := none, downEntries := satInc l.downEntries }).enter (.down c)).plan
    none

/-- A planned profile lies below the floor (R10). -/
def belowFloor (l : LinkMonitor) : Bool :=
  match l.planned with
  | some i => decide (i < l.floor)
  | none => false

/-- UP or DEGRADED by the floor (R10). -/
def floorState (l : LinkMonitor) : LinkState := if belowFloor l then .degraded else .up

/-- The floor decides between UP and DEGRADED (R10). -/
def LinkWork.place (w : LinkWork) : LinkWork :=
  if carriesTraffic w.l.state ∧ w.l.state ≠ floorState w.l then w.enter (floorState w.l) else w

/-- The restore hold expires in RESTORING (R7). -/
def LinkWork.restored (w : LinkWork) : LinkWork :=
  let v := (w.upd fun l => { l with restoreTimer := none }).plan w.l.etx
  v.enter (floorState v.l)

/-- Entry into RESTORING; a hold of length 0 expires as it starts (R5, R7). -/
def LinkWork.restoring (now : Nat) (w : LinkWork) : LinkWork :=
  let v := (w.enter .restoring).upd fun l => { l with restoreTimer := some (now + ms l.restoreHold) }
  if v.l.restoreHold = 0 then v.restored else v

/-- The upshift hold expires (R9). -/
def LinkWork.upshift (w : LinkWork) : LinkWork :=
  (w.upd fun l => { l with upshiftTimer := none, upshifts := satInc l.upshifts }).plan w.l.etx

/-- The upshift hold starts or restarts; a length of 0 expires as it starts (R8). -/
def LinkWork.startUpshift (now : Nat) (w : LinkWork) : LinkWork :=
  if w.l.upshiftHold = 0 then w.upshift
  else w.upd fun l => { l with upshiftTimer := some (now + ms l.upshiftHold) }

/-- The comparison of a changed E_tx with the planned profile (R8). -/
def LinkWork.compare (now : Nat) (w : LinkWork) : LinkWork :=
  match w.l.etx, w.l.planned with
  | some e, some p =>
    if e < p then
      (w.upd fun l => { l with upshiftTimer := none, downshifts := satInc l.downshifts }).plan (some e)
    else if e = p then w.upd fun l => { l with upshiftTimer := none }
    else w.startUpshift now
  | _, _ => w

/-- Both effective profiles are present. -/
def bothPresent (l : LinkMonitor) : Bool := l.etx.isSome && l.erx.isSome

/-! ### Events -/

/-- A status write, after E_tx and E_rx are derived, against the state at its arrival (R5). -/
def statusCases (now : Nat) (before : LinkMonitor) (w : LinkWork) : LinkWork :=
  let cause := if keptLocked w.l = false then some DownCause.carrier
    else if bothPresent w.l = false then some DownCause.profile else none
  match w.l.state, cause with
  | .down _, some c => w.setCause c
  | .down _, none => w.restoring now
  | .restoring, some c => w.down c
  | .restoring, none => w
  | .up, some c => w.down c
  | .degraded, some c => w.down c
  | .up, none => (if before.etx = w.l.etx then w else w.compare now).place
  | .degraded, none => (if before.etx = w.l.etx then w else w.compare now).place

/-- A status write (R3, R5, R6). -/
def statusEvent (now : Nat) (data : Line) (l : LinkMonitor) : LinkWork :=
  let kept : KeptStatus := ⟨field data 0 1, field data 1 1, field data 2 1⟩
  let w := statusCases now l ⟨derive { l with kept := some kept, statusTaken := satInc l.statusTaken }, []⟩
  w.upd fun m => { m with statusTimer := some (now + ms m.statusTimeout) }

/-- The status timer expires (R6). -/
def statusTimerEvent (l : LinkMonitor) : LinkWork :=
  let w : LinkWork := ⟨{ l with statusTimer := none }, []⟩
  match l.state with
  | .down _ => w.setCause .stale
  | .restoring => w.down .stale
  | .up => w.down .stale
  | .degraded => w.down .stale

/-- The restore hold expires (R7). -/
def restoreEvent (l : LinkMonitor) : LinkWork := LinkWork.restored ⟨l, []⟩

/-- The upshift hold expires (R9). -/
def upshiftEvent (l : LinkMonitor) : LinkWork := (LinkWork.upshift ⟨l, []⟩).place

/-- A planned profile that a PROFILE record has made invalid is replaced (R14). -/
def LinkWork.replan (now : Nat) (w : LinkWork) : LinkWork :=
  match w.l.planned with
  | some p =>
    if (profileAt w.l p).valid then w
    else
      let q := match highestValidBelow w.l p with
        | some i => some i
        | none => lowestValid w.l
      let v := (w.upd fun l => { l with downshifts := satInc l.downshifts }).plan q
      match v.l.etx, q with
      | some e, some n =>
        if e = n then v.upd fun l => { l with upshiftTimer := none }
        else if n < e ∧ v.l.upshiftTimer = none then v.startUpshift now else v
      | _, _ => v
  | none => w

/-- The cases of R14 by link state, after E_tx and E_rx are derived again. -/
def profileCases (now : Nat) (before : LinkMonitor) (w : LinkWork) : LinkWork :=
  match w.l.state with
  | .down .profile => if keptLocked w.l && bothPresent w.l then w.restoring now else w
  | .down _ => w
  | .restoring => if bothPresent w.l then w else w.down .profile
  | .up | .degraded =>
    if bothPresent w.l then
      let v := w.replan now
      (if before.etx = v.l.etx then v else v.compare now).place
    else w.down .profile

/-- The entry a PROFILE record carries (R13). -/
def profileOf (d : Line) : ProfileEntry :=
  if flagField d 5 then ⟨true, field d 8 4, field d 6 1, field d 12 4, field d 16 4⟩ else Initial.profileEntry

/-- An applied PROFILE record (R13, R14). -/
def profileEvent (now : Nat) (d : Line) (l : LinkMonitor) : LinkWork :=
  profileCases now l ⟨derive { l with profiles := l.profiles.setIfInBounds (field d 4 1) (profileOf d) }, []⟩

/-- An applied LINK record (R10, R15). -/
def linkEvent (d : Line) (l : LinkMonitor) : LinkWork :=
  LinkWork.place ⟨{ l with
    floor := field d 4 1
    statusTimeout := field d 6 2
    restoreHold := field d 8 2
    upshiftHold := field d 10 2 }, []⟩

/-! ### What an event hands on (R11, R12, R175) -/

/-- The body of a LINK_CHANGE report (R12). -/
def linkChangeBody (old new : LinkState) (l : LinkMonitor) (epoch : BitVec 16) : List FieldSpec :=
  [⟨16, 1, linkStateCode old⟩, ⟨17, 1, linkStateCode new⟩, ⟨18, 1, causeField new⟩, ⟨19, 1, optByte l.etx⟩,
   ⟨20, 1, optByte l.erx⟩, ⟨21, 1, optByte l.planned⟩, ⟨22, 2, epoch.toNat⟩]

/-- One LINK_CHANGE for each change of state and one for the remaining changes, in the order made (R12). Each shows
E_tx, E_rx, the planned profile and the epoch after the event (log entry 18). -/
def reportTrail (old : LinkState) : List LinkNote → State → State
  | [], s => s
  | .moved new :: rest, s => reportTrail new rest (report 0x03 (linkChangeBody old new s.link s.time.epoch) s)
  | .remaining st :: rest, s => reportTrail st rest (report 0x03 (linkChangeBody st st s.link s.time.epoch) s)

/-- The event increments the stamp epoch (R11). -/
def linkEpochEvent (before : LinkMonitor) (w : LinkWork) : Bool :=
  before.etx != w.l.etx || before.erx != w.l.erx || isDown before.state != isDown w.l.state

/-- What the other blocks are told of a change of state (R12). -/
def linkNews (w : LinkWork) : List (State → State) :=
  (if isDown w.l.state then [timingLinkDown, abortLoop .linkDown] else []) ++
    [setLevel .linkDown (isDown w.l.state), setLevel .linkDegraded (w.l.state == .degraded)]

/-- A link event is taken: the monitor, the epoch, the LINK_CHANGE reports, and then, where the state has changed, the
other blocks in any order (R11, R12, R175). `again` is the epoch cause that R14 adds. -/
def linkTaken (event : LinkMonitor → LinkWork) (again : Bool) (s : State) : State :=
  let w := event s.link
  let s1 := s.updLink fun _ => w.l
  let s2 := if linkEpochEvent s.link w || again then stepEpoch s1 else s1
  let s3 := reportTrail s.link.state w.trail s2
  if w.trail.any isMove then unordered (linkNews w) s3 else s3

/-- A write to the status line that is passed without being taken (R2, R16). -/
def statusIgnored (s : State) : State := s.updLink fun l => { l with statusIgnored := satInc l.statusIgnored }

/-! ### The PROFILE and LINK records (R13, R15) -/

/-- A valid entry at another index breaks the ordering of R1 beside a new entry. -/
def breaksOrder (l : LinkMonitor) (index capacity : Nat) : Bool :=
  (List.range 12).any fun i =>
    (profileAt l i).valid &&
      ((decide (i < index) && decide (capacity ≤ (profileAt l i).capacity)) ||
        (decide (index < i) && decide ((profileAt l i).capacity ≤ capacity)))

/-- The checks of a PROFILE record, in order (R13). -/
def profileCheck (l : LinkMonitor) (d : Line) : RecordOutcome :=
  let e := profileOf d
  if 11 < field d 4 1 then .range
  else if e.valid = false then .applied
  else if e.capacity = 0 ∨ 2000000 < e.capacity ∨ 1000000 < e.txLatency ∨ 1000000 < e.rxLatency then .range
  else if breaksOrder l (field d 4 1) e.capacity then .order
  else .applied

/-- A PROFILE record changes the valid flag or either latency of its entry (R14). -/
def latencyChange (l : LinkMonitor) (d : Line) : Bool :=
  let old := profileAt l (field d 4 1)
  let new := profileOf d
  old.valid != new.valid || old.txLatency != new.txLatency || old.rxLatency != new.rxLatency

/-- Applies a PROFILE record (R14). -/
def applyProfile (d : Line) (s : State) : State := linkTaken (profileEvent s.now d) (latencyChange s.link d) s

/-- The checks of a LINK record (R15). -/
def linkCheck (d : Line) : RecordOutcome :=
  if 11 < field d 4 1 ∨ field d 6 2 = 0 ∨ 1000 < field d 6 2 ∨ 60000 < field d 8 2 ∨ 60000 < field d 10 2 then .range
  else .applied

/-- Applies a LINK record (R15). -/
def applyLink (d : Line) (s : State) : State := linkTaken (linkEvent d) false s

end Sys2Proof.Machine
end

