-- ==== Sys2Proof/Machine/Admission.lean ====
section
/-! DEFINITION. The admission unit (R17 to R43): refill, judgement of descriptor reads, completions, timeouts,
overwrites, congestion notices and receive accounting. -/

namespace Sys2Proof.Machine

/-! ### Classes -/

/-- One class. -/
def clsAt (s : State) (c : Cls) : ClassState := classGet s.adm.classes c

/-- Changes one class. -/
def updCls (c : Cls) (f : ClassState → ClassState) (s : State) : State :=
  s.updAdm fun a => { a with classes := classSet a.classes c (f (classGet a.classes c)) }

/-- Changes the counters of one class (R43). -/
def countCls (c : Cls) (f : ClassCounters → ClassCounters) (s : State) : State :=
  updCls c (fun k => { k with counters := f k.counters }) s

/-- A class's burst in bits (R17). -/
def burstBits (k : ClassState) : Int := (k.burst : Int) * 1000

/-! ### Congestion (R34 to R36) -/

/-- The bits a frame takes on air (R27, R34). -/
def airBits (length overhead : Nat) : Nat := (length + overhead) * 8

/-- The held bits of a class (R34). -/
def heldBits (k : ClassState) (overhead : Nat) : Nat :=
  (k.held.map fun h => airBits h.length overhead).foldl (fun a b => a + b) 0

/-- The hold age in oscillator periods; none with an empty list (R34). -/
def holdAge (k : ClassState) (now : Nat) : Option Nat := k.held.head?.map fun h => now - h.joined

/-- The hold age is at least the maximum hold age. -/
def tooOld (k : ClassState) (now : Nat) : Bool :=
  match holdAge k now with
  | some a => decide (ms k.maxHoldAge ≤ a)
  | none => false

/-- The congestion state an evaluation gives (R35). -/
def congestedNext (k : ClassState) (overhead now : Nat) : Bool :=
  if k.congested then !(decide (heldBits k overhead ≤ k.lowMark * 1000) && !tooOld k now)
  else decide (k.highMark * 1000 ≤ heldBits k overhead) || tooOld k now

/-- The content of a class's notice (R36). -/
def noticeLine (c : Cls) (k : ClassState) (overhead now : Nat) (time : Stamp) : Line :=
  buildLine ([⟨0, 1, clsCode c⟩, ⟨1, 1, flagByte k.congested⟩, ⟨2, 1, k.held.length⟩,
    ⟨4, 4, k.noticeSeq.toNat⟩, ⟨8, 4, narrow 4 (heldBits k overhead)⟩, ⟨12, 4, ofSigned 4 k.credit⟩,
    ⟨16, 4, narrow 4 ((holdAge k now).getD 0 / 40000)⟩] ++ stampFields 20 26 time)

/-- A notice of a class that still waits for its grant. -/
def isWaitingNotice (c : Cls) (r : Req) : Bool :=
  match r.job, r.stage with
  | .notice _ _, .issued _ => false
  | .notice _ _, .writeIssued _ => false
  | .notice d _, _ => d == c
  | _, _ => false

/-- Writes a class's notice, replacing one that still waits (R36). A notice that waits for its grant keeps its line
where a WINDOW record moves or undefines the NOTICE window, and a new one made without a window counts NOTICE_DROPPED
and leaves the waiting one: R36 and R101 say nothing of either (DESIGN CHOICE, log entry 51). A replaced notice that
stands in the start drain never completes, and R130 does not say how the drain then ends: the notice leaves the drain,
and where it was the last there the march makes its first access at a later event, not in this one (DESIGN CHOICE, log
entry 58). -/
def writeNotice (c : Cls) (s : State) : State :=
  let data := noticeLine c (clsAt s c) (plannedOverhead s.link) s.now (timeNow s)
  let s1 := updCls c (fun k => { k with noticeSeq := k.noticeSeq + 1 }) s
  match windowOfKind s .notice with
  | none => s1.updAdm fun a => { a with noticeDropped := satInc a.noticeDropped }
  | some w =>
    let s2 :=
      if s1.path.reqs.any (isWaitingNotice c) then
        (dropReqs (isWaitingNotice c) s1).updAdm fun a => { a with noticeReplaced := satInc a.noticeReplaced }
      else s1
    makeReq (windowLine w (clsCode c)) (.notice c data) s2

/-- Any class is CONGESTED (R36). -/
def anyCongested (s : State) : Bool := allClasses.any fun c => (clsAt s c).congested

/-- One evaluation of a class (R34 to R36). A change makes the notice before it tells the fault unit, whose
FAULT_CHANGE report is made at the internal requester too; the manual gives no order of the two (DESIGN CHOICE, log
entry 43). Each change is told as it comes: at one refill expiry in which the only CONGESTED class clears and a later
class becomes CONGESTED the condition becomes absent and then present, of which R36 and R165 say nothing (DESIGN
CHOICE, log entry 51). -/
def evalCongestion (c : Cls) (s : State) : State :=
  let k := clsAt s c
  let next := congestedNext k (plannedOverhead s.link) s.now
  if next = k.congested then s
  else
    let s1 := writeNotice c (updCls c (fun k => { k with congested := next }) s)
    setLevel .congestion (anyCongested s1) s1

/-- The age timer for a list as it stands: none with an empty list or an age already reached (R34). -/
def ageTimerOf (k : ClassState) (now : Nat) : Option Nat :=
  match k.held with
  | [] => none
  | h :: _ => if h.joined + ms k.maxHoldAge ≤ now then none else some (h.joined + ms k.maxHoldAge)

/-- Changes a class's held list: the age timer is set where the head changes, and congestion is evaluated (R34). -/
def setHeld (c : Cls) (l : List HeldEntry) (s : State) : State :=
  evalCongestion c (updCls c (fun k =>
    let k1 := { k with held := l }
    if k.held.head?.map (·.line) = l.head?.map (·.line) then k1
    else { k1 with ageTimer := ageTimerOf k1 s.now }) s)

/-- The line is on the held list of a class. -/
def listed (k : ClassState) (line : Nat) : Bool := k.held.any fun h => h.line == line

/-- A line leaves the held list of a class that lists it. -/
def unlistFrom (c : Cls) (line : Nat) (s : State) : State :=
  if listed (clsAt s c) line then setHeld c ((clsAt s c).held.filter fun h => h.line != line) s else s

/-- A line leaves whatever held list it is on. -/
def unlist (line : Nat) (s : State) : State := allClasses.foldl (fun t c => unlistFrom c line t) s

/-- The expiry of a class's age timer (R34). -/
def ageExpiry (c : Cls) (s : State) : State :=
  evalCongestion c (updCls c (fun k => { k with ageTimer := none }) s)

/-! ### Refill (R19, R20) -/

/-- The share used at a refill (R19). -/
def shareUsed (s : State) (c : Cls) : Nat :=
  if c = .s ∧ s.xfer.state ≠ .track then (clsAt s c).recoveryShare else (clsAt s c).share

/-- The guaranteed grant; 0 for a disabled class (R19). -/
def guaranteedGrant (s : State) (c : Cls) : Nat :=
  if (clsAt s c).enabled then shareUsed s c * capacity s.link / 1000 else 0

/-- The class is in the backlogged set B (R20). -/
def backlogged (k : ClassState) : Bool := k.enabled && k.held != []

/-- A sum over the five classes. -/
def sumClasses (f : Cls → Nat) : Nat := (allClasses.map f).foldl (fun a b => a + b) 0

/-- The remainder R (R20). -/
def remainder (s : State) : Nat := capacity s.link - sumClasses (guaranteedGrant s)

/-- W_B (R20). -/
def backlogWeight (s : State) : Nat :=
  sumClasses fun c => if backlogged (clsAt s c) then (clsAt s c).weight else 0

/-- The remainder grant (R20). -/
def remainderGrant (s : State) (c : Cls) : Nat :=
  if backlogged (clsAt s c) ∧ backlogWeight s ≠ 0 then remainder s * (clsAt s c).weight / backlogWeight s else 0

/-- The credit of a class after a refill (R20). -/
def refilledCredit (s : State) (c : Cls) : Int :=
  let k := clsAt s c
  if k.enabled then min (k.credit + (guaranteedGrant s c : Int) + (remainderGrant s c : Int)) (burstBits k) else k.credit

/-- All grants are computed from the state at the expiry, then given (R20). -/
def refill (s : State) : State :=
  allClasses.foldl (fun t c => updCls c (fun k => { k with credit := refilledCredit s c }) t) s

/-- The expiry of the refill timer, which restarts; every class is evaluated (R19, R20, R34), in the order of the
class codes, of which the manual says nothing (DESIGN CHOICE, log entry 43). The refill comes before the evaluation,
so that a notice shows the credit after it; R20 and R36 do not say which comes first (DESIGN CHOICE, log entry 51). -/
def refillExpiry (s : State) : State :=
  allClasses.foldl (fun t c => evalCongestion c t)
    ((refill s).updAdm fun a => { a with refillTimer := a.refillTimer.map fun d => d + 40000 })

/-! ### Judgement of a descriptor read (R21 to R27) -/

/-- The line is in the in-flight table. -/
def inFlight (s : State) (line : Nat) : Bool := s.adm.flight.any fun e => e.line == line

/-- The `n` lines from `first` all lie in a window. -/
def linesIn (w : Window) (first n : Nat) : Bool :=
  decide (windowLine w 0 ≤ first) && decide (first + n ≤ windowLine w (64 * w.size))

/-- The buffer test of R23. -/
def bufferOk (s : State) (w : Window) (d : Line) : Bool :=
  let first := descBuffer d / 64
  let n := (descLength d + 63) / 64
  decide (descBuffer d % 64 = 0) &&
    (if w.kind == .partTx then
      decide (windowLine w 64 ≤ first) && decide (first + n ≤ windowLine w 1088)
    else
      (List.range 16).any fun i =>
        match windowEntry s i with
        | some b => b.kind == .buffer && b.cls == w.cls && linesIn b first n
        | none => false)

/-- The kind test of R23. -/
def kindOk (w : Window) (d : Line) : Bool :=
  if w.kind == .partTx then descKind d == 1 || descKind d == 2 else descKind d == 0

/-- The first test of R23 that fails, as its reason code; none for a valid descriptor. -/
def rejectReason (s : State) (w : Window) (d : Line) : Option Nat :=
  if descLength d < 64 ∨ 9600 < descLength d then some 1
  else if descClass d ≠ clsCode (windowClass w) then some 2
  else if kindOk w d = false then some 3
  else if bufferOk s w d = false then some 4
  else none

/-- A class S TIMING descriptor: kind TIMING in PART_TX (R24, R25). -/
def isTimingDescriptor (w : Window) (d : Line) : Bool := w.kind == .partTx && descKind d == 1

/-- The admission condition (R24). -/
def admissible (s : State) (w : Window) (d : Line) : Bool :=
  let c := windowClass w
  let k := clsAt s c
  if isTimingDescriptor w d then !isDown s.link.state
  else k.enabled && carriesTraffic s.link.state &&
    (c == .s || !k.needsTiming || qualifiedState s.xfer.state)

/-- The line is not the head of a non-empty list (R25). -/
def behindHead (k : ClassState) (line : Nat) : Bool :=
  match k.held with
  | [] => false
  | h :: _ => h.line != line

/-- The tests of R25: the descriptor is held. -/
def mustHold (s : State) (w : Window) (line : Nat) (d : Line) : Bool :=
  let k := clsAt s (windowClass w)
  !admissible s w d || decide (64 ≤ s.adm.flight.length) || behindHead k line ||
    (decide (k.credit < 1) && !isTimingDescriptor w d)

/-- The rejection write-backs held at the internal requester (R23). -/
def writeBacksHeld (s : State) : Nat :=
  (s.path.reqs.filter fun r =>
    match r.job with
    | .writeBack => true
    | _ => false).length

/-- Queues a rejection write-back, or drops it (R23). -/
def queueWriteBack (line : Nat) (s : State) : State :=
  if writeBacksHeld s < 16 then makeReq line .writeBack s
  else s.updAdm fun a => { a with writebackDropped := satInc a.writebackDropped }

/-- The body of an ADMIT_REJECT report (R23). -/
def admitRejectBody (line win : Nat) (d : Line) (reason : Nat) : List FieldSpec :=
  [⟨16, 8, lineAddress line⟩, ⟨24, 1, win⟩, ⟨25, 1, descClass d⟩, ⟨26, 1, reason⟩, ⟨28, 2, descLength d⟩]

/-- A rejected read (R23). A congestion report that the unlisting causes comes before ADMIT_REJECT, and a report of
the engine told of the slot after it; the manual gives no order of them (DESIGN CHOICE, log entry 43). -/
def reject (win : Nat) (w : Window) (line : Nat) (d : Line) (reason : Nat) (s : State) : State :=
  let s1 := queueWriteBack line (unlist line s)
  let s2 := report 0x04 (admitRejectBody line win d reason) s1
  let s3 := countCls (windowClass w) (fun k => { k with rejected := satInc k.rejected }) s2
  if w.kind == .partTx then slotRejected line (descSequence d) s3 else s3

/-- A held read (R25, R26). -/
def hold (c : Cls) (line : Nat) (d : Line) (s : State) : State :=
  let s1 := countCls c (fun k => { k with heldReads := satInc k.heldReads }) s
  let k := clsAt s c
  let unlisted := countCls c (fun k => { k with heldUnlisted := satInc k.heldUnlisted }) s1
  if k.enabled = false then unlisted
  else if listed k line then
    setHeld c (k.held.map fun h => if h.line = line then { h with length := descLength d } else h) s1
  else if k.held.length < 16 then setHeld c (k.held ++ [⟨line, descLength d, s.now⟩]) s1
  else unlisted

/-- The debit of an admission: 0 for a class S TIMING descriptor while class S is disabled (R24, R27). -/
def admissionDebit (s : State) (c : Cls) (d : Line) : Nat :=
  if (clsAt s c).enabled then airBits (descLength d) (plannedOverhead s.link) else 0

/-- The in-flight entry an admission makes (R28, R32). -/
def flightEntry (s : State) (c : Cls) (line : Nat) (d : Line) : FlightEntry where
  line := line
  cls := c
  kind := descKind d
  length := descLength d
  debit := admissionDebit s c d
  admitTime := timeNow s
  epoch := s.time.epoch
  expiry := s.now + ms s.adm.flightTimeout

/-- An admission (R27): the line leaves whatever held list it is on, so that no line in flight is listed (R28). -/
def admitDescriptor (c : Cls) (line : Nat) (d : Line) (s : State) : State :=
  let e := flightEntry s c line d
  let s1 := unlist line s
  let s2 := updCls c (fun k => { k with credit := max (k.credit - (e.debit : Int)) (-Config.maxFrameBits) }) s1
  countCls c (fun k => { k with admitted := satInc k.admitted })
    (s2.updAdm fun a => { a with flight := a.flight ++ [e] })

/-- Judges a modem read of a descriptor line whose data have returned (R21): what the modem sees, and the state. -/
def judge (win : Nat) (w : Window) (line : Nat) (d : Line) (s : State) : Line × State :=
  if descReady d = false then (d, unlist line s)
  else if inFlight s line then (d, s)
  else
    match rejectReason s w d with
    | some reason => (readyCleared d, reject win w line d reason s)
    | none =>
      if mustHold s w line d then (readyCleared d, hold (windowClass w) line d s)
      else (d, admitDescriptor (windowClass w) line d s)

/-! ### Completions, timeouts, overwrites (R29 to R33) -/

/-- The entry of a line. -/
def flightOf (s : State) (line : Nat) : Option FlightEntry := s.adm.flight.find? fun e => e.line == line

/-- Removes the entry of a line. -/
def removeFlight (line : Nat) (s : State) : State :=
  s.updAdm fun a => { a with flight := a.flight.filter fun e => e.line != line }

/-- A modem write to a descriptor line is a completion (R29). -/
def isTxCompletion (mask : BitVec 64) (d : Line) : Bool :=
  coversReadyStatus mask && !descReady d && (descStatus d == 1 || descStatus d == 2)

/-- A write clears the ready flag of its line (R29, R33). -/
def clearsReady (mask : BitVec 64) (d : Line) : Bool := covers mask 0 && !descReady d

/-- The effect of a matched completion on its class (R29). -/
def settleClass (e : FlightEntry) (sent : Bool) (k : ClassState) : ClassState :=
  if sent then { k with counters := { k.counters with sent := satInc k.counters.sent } }
  else
    { k with
      counters := { k.counters with notSent := satInc k.counters.notSent }
      credit := if k.enabled then min (k.credit + (e.debit : Int)) (burstBits k) else k.credit }

/-- A completion is taken (R29 to R31): the stamp with which the write continues, where it is stamped (R54), and the
state. One of kind DATA is not handed on; of its removal the time transfer engine is told (R30). `d` is the data as
observed (R173). -/
def txCompletion (w : Window) (line : Nat) (d : Line) (s : State) : Option TakenStamp × State :=
  match flightOf s line with
  | none =>
    (none, unlist line (countCls (windowClass w) (fun k => { k with unmatched := satInc k.unmatched }) s))
  | some e =>
    let sent := descStatus d == 1
    let s1 := unlist line (updCls e.cls (settleClass e sent) (removeFlight line s))
    if e.kind = 1 ∨ e.kind = 2 then
      let t := takeStamp s1 true d
      (some t, slotCompleted line (e.kind == 1) sent t (countStamp t s1))
    else (none, slotRemoved line s1)

/-- The body of a FLIGHT_TIMEOUT report (R32). -/
def flightTimeoutBody (e : FlightEntry) : List FieldSpec :=
  [⟨16, 8, lineAddress e.line⟩, ⟨24, 1, clsCode e.cls⟩, ⟨25, 1, e.kind⟩, ⟨26, 2, e.length⟩, ⟨28, 4, e.debit⟩] ++
    stampFields 32 40 e.admitTime ++ [⟨44, 2, e.epoch.toNat⟩]

/-- A flight timeout (R32). Its report is made before the LOOPTEST_DONE that the loss may cause in the loopback
engine; the manual gives no order of the two (DESIGN CHOICE, log entry 43). -/
def flightExpiry (e : FlightEntry) (s : State) : State :=
  slotLost e.line (report 0x05 (flightTimeoutBody e)
    (countCls e.cls (fun k => { k with lost := satInc k.lost }) (removeFlight e.line s)))

/-- A site or radio write to a descriptor line (R33). -/
def overwrite (line : Nat) (mask : BitVec 64) (d : Line) (s : State) : State :=
  let s1 := match flightOf s line with
    | some e => slotLost line
        (countCls e.cls (fun k => { k with overwritten := satInc k.overwritten }) (removeFlight line s))
    | none => s
  if clearsReady mask d then unlist line s1 else s1

/-! ### Receive accounting (R37, R38) -/

/-- A modem write to an RX_RING line is an RX completion (R37). -/
def isRxCompletion (mask : BitVec 64) (d : Line) : Bool :=
  coversReadyStatus mask && !descReady d && (descStatus d == 3 || descStatus d == 4)

/-- The counters of an RX completion (R37). -/
def countRx (d : Line) (s : State) : State :=
  match clsOfCode (descClass d) with
  | none => s.updAdm fun a => { a with rxClassInvalid := satInc a.rxClassInvalid }
  | some c =>
    if descStatus d = 3 then
      countCls c (fun k =>
        { k with
          rxFrames := satInc k.rxFrames
          rxBytes := if 64 ≤ descLength d ∧ descLength d ≤ 9600 then satAdd k.rxBytes (descLength d) else k.rxBytes }) s
    else countCls c (fun k => { k with rxErrored := satInc k.rxErrored }) s

/-- An RX completion is taken (R37, R38): the stamp with which the write continues, where it is stamped (R54), and the
state. -/
def rxCompletion (d : Line) (s : State) : Option TakenStamp × State :=
  let s1 := countRx d s
  if descStatus d = 3 ∧ (descKind d = 1 ∨ descKind d = 2) then
    let t := takeStamp s1 false d
    let s2 := countStamp t s1
    (some t, if descKind d = 1 then routeTiming (descBuffer d) t s2 else loopReturn (descBuffer d) t s2)
  else (none, s1)

/-! ### The CLASS and ADMIT records (R39 to R42) -/

/-- The class a CLASS record names; callers use it after the range check. -/
def recordClass (d : Line) : Cls := (clsOfCode (field d 4 1)).getD .s

/-- g of a class with a CLASS record's entry in place of the old (R39). -/
def shareWith (s : State) (d : Line) (c : Cls) : Nat :=
  if c = recordClass d then field d 8 2 else (clsAt s c).share

/-- Class S's recovery share with a CLASS record's entry in place of the old (R39). -/
def recoveryWith (s : State) (d : Line) : Nat :=
  if recordClass d = .s then field d 10 2 else (clsAt s .s).recoveryShare

/-- The checks of a CLASS record, in order (R39). -/
def classCheck (s : State) (d : Line) : RecordOutcome :=
  if 4 < field d 4 1 then .range
  else if 1000 < field d 8 2 ∨ (recordClass d = .s ∧ 1000 < field d 10 2) ∨ field d 12 2 = 0 ∨ field d 14 2 = 0 ∨
      field d 14 2 ≤ field d 16 2 ∨ field d 18 2 = 0 ∨ 10000 < field d 18 2 then .range
  else if 1000 < sumClasses (shareWith s d) then .conflict
  else if 1000 < sumClasses (fun c => if c = .s then recoveryWith s d else shareWith s d c) then .conflict
  else .applied

/-- The entry a CLASS record leaves (R39, R40). -/
def classEntry (d : Line) (now : Nat) (k : ClassState) : ClassState :=
  let k1 : ClassState :=
    { k with
      share := field d 8 2
      recoveryShare := if recordClass d = .s then field d 10 2 else 0
      weight := field d 6 1
      burst := field d 12 2
      needsTiming := if recordClass d = .s then false else flagField d 5
      highMark := field d 14 2
      lowMark := field d 16 2
      maxHoldAge := field d 18 2
      credit := min k.credit ((field d 12 2 : Int) * 1000) }
  { k1 with ageTimer := ageTimerOf k1 now }

/-- Applies a CLASS record (R40). -/
def applyClass (d : Line) (s : State) : State :=
  evalCongestion (recordClass d) (updCls (recordClass d) (classEntry d s.now) s)

/-- The action code an ADMIT record carries for a class (R41). -/
def admitAction (d : Line) (c : Cls) : Nat := field d (4 + clsCode c) 1

/-- A class has a TX_RING or BUFFER window that overlaps the fence (R41). -/
def classFenced (s : State) (c : Cls) : Bool :=
  (List.range 16).any fun i =>
    match windowEntry s i with
    | some w => (w.kind == .txRing || w.kind == .buffer) && w.cls == some c && fenceMeets s w.base w.size
    | none => false

/-- The checks of an ADMIT record, in order (R41). -/
def admitCheck (s : State) (d : Line) : RecordOutcome :=
  if (allClasses.any fun c => decide (2 < admitAction d c)) ∨ 1000 < field d 10 2 then .range
  else if allClasses.any fun c => admitAction d c == 1 && !(clsAt s c).enabled && classFenced s c then .busy
  else .applied

/-- Disables a class (R42); class S takes a loopback session with it (R150). The notice and the FAULT_CHANGE that the
emptied list causes are made before the session's LOOPTEST_DONE; the manual gives no order of these (R156; DESIGN
CHOICE, log entry 43). -/
def disableClass (c : Cls) (s : State) : State :=
  let s1 := setHeld c [] (updCls c (fun k => { k with enabled := false, credit := 0 }) s)
  if c = .s then abortLoop .cls s1 else s1

/-- What an ADMIT record does to one class (R41, R42). -/
def admitClass (d : Line) (c : Cls) (s : State) : State :=
  if admitAction d c = 1 ∧ (clsAt s c).enabled = false then
    updCls c (fun k => { k with enabled := true, credit := 0 }) s
  else if admitAction d c = 2 ∧ (clsAt s c).enabled = true then disableClass c s
  else s

/-- Applies an ADMIT record (R41, R42), class by class in the order of their codes; the manual gives no order of the
notices and reports of several classes disabled at once (DESIGN CHOICE, log entry 43). -/
def applyAdmit (d : Line) (s : State) : State :=
  let s1 := allClasses.foldl (fun t c => admitClass d c t) s
  if field d 10 2 = 0 then s1 else s1.updAdm fun a => { a with flightTimeout := field d 10 2 }

/-- A CLEAR of the ADMISSION group (R43). -/
def clearAdmission (s : State) : State :=
  (allClasses.foldl (fun t c => countCls c (fun _ => Initial.classCounters) t) s).updAdm fun a =>
    { a with rxClassInvalid := 0, noticeDropped := 0, noticeReplaced := 0, writebackDropped := 0 }

end Sys2Proof.Machine
end

