-- ==== Sys2Proof/Machine/Station.lean ====
section
/-! DEFINITION. Remap redirection and the lock station (R113, R122): arrival, waits, locks, drains and releases. -/

namespace Sys2Proof.Machine

/-! ### Redirection (R122) -/

/-- The line of index `line mod 64` in a page. -/
def lineInPage (page line : Nat) : Nat := 64 * page + line % 64

/-- The memory line of a line address by the remap table as it stands (R122). -/
def redirectLine (remaps : List RemapEntry) (line : Nat) : Nat :=
  match remaps.find? fun e => e.failed = pageOf line with
  | some e =>
    match e.state with
    | .waiting => line
    | .copying => if line % 64 < e.pointer then lineInPage e.spare line else line
    | .active => lineInPage e.spare line
  | none => line

/-- March accesses and the accesses of the copy engine name memory lines directly (R122). -/
def namesMemoryLine : Job → Bool
  | .march _ => true
  | .copyLine => true
  | .copyWrite _ => true
  | .port _ _ _ _ | .writeBack | .notice _ _ | .reportEntry _ | .snapshotLine _ _ | .queryFrame _ _ _ _
  | .testLine _ _ _ _ | .slotDescriptor _ _ | .scrub => false

/-- The memory line a request is given at the station. -/
def memLineOf (s : State) (r : Req) : Nat :=
  if namesMemoryLine r.job then r.line else redirectLine s.integ.remaps r.line

/-! ### Locks (R113 to R115) -/

/-- A port write whose byte mask is neither all-ones nor empty (R114). -/
def isPartialWrite (r : LineRequest) : Bool :=
  reqIsWrite r && !maskFull (reqMask r) && !maskEmpty (reqMask r)

/-- The holder a request becomes when its access needs a lock (R113). -/
def lockHolder : Job → Option Holder
  | .port p r _ _ => if isPartialWrite r then some (.portPartial p) else none
  | .writeBack => some .internalPartial
  | .scrub => some .scrubber
  | .copyLine => some .copyEngine
  | .notice _ _ | .reportEntry _ | .snapshotLine _ _ | .queryFrame _ _ _ _ | .testLine _ _ _ _
  | .slotDescriptor _ _ | .march _ | .copyWrite _ => none

/-- The line address is locked. -/
def lineLocked (s : State) (line : Nat) : Bool := s.path.locks.any fun k => k.line == line

/-- A request begins to wait, or keeps its place if it already waits in the same way. -/
def beginWait (r : Req) (st : Stage) (s : State) : State :=
  if r.stage = st then s
  else (setStage r.id st s).updPath fun p => { p with waits := p.waits.filter (fun i => i != r.id) ++ [r.id] }

/-- A request stops waiting, with its new stage. -/
def endWait (r : Req) (st : Stage) (s : State) : State :=
  (setStage r.id st s).updPath fun p => { p with waits := p.waits.filter fun i => i != r.id }

/-- The holder has its one lock already; internal partial writes may hold one for each write in progress (R113). -/
def holdsLock (s : State) (h : Holder) : Bool := h != .internalPartial && s.path.locks.any fun k => k.holder == h

/-- The four cases of R113 for one access at the lock station, with its redirection made now. -/
def takeStation (r : Req) (s : State) : State :=
  if lineLocked s r.line then beginWait r .waitLine s
  else
    match lockHolder r.job with
    | some h =>
      if s.path.locks.length < 8 ∧ holdsLock s h = false then
        (endWait r (.draining (memLineOf s r)) s).updPath fun p => { p with locks := p.locks ++ [⟨r.line, h⟩] }
      else beginWait r .waitTable s
    | none => endWait r (.ready (memLineOf s r)) s

/-- Takes a waiting request again, where it still waits as given. -/
def retake (st : Stage) (ok : Req → Bool) (id : Nat) (s : State) : State :=
  match findReq s id with
  | some r => if r.stage = st ∧ ok r = true then takeStation r s else s
  | none => s

/-- Releases the lock on a line (R113): the accesses waiting on the line are taken in the order in which they began to
wait, and then those waiting for a free entry (or for their holder's lock to end). -/
def releaseLock (line : Nat) (s : State) : State :=
  let s1 := s.updPath fun p => { p with locks := p.locks.filter fun k => k.line != line }
  let s2 := s1.path.waits.foldl (fun t i => retake .waitLine (fun r => r.line == line) i t) s1
  s2.path.waits.foldl (fun t i => retake .waitTable (fun _ => true) i t) s2

/-! ### Drains (R113) -/

/-- A stage past the lock station whose accesses have not all completed. -/
def isCleared : Stage → Bool
  | .ready _ => true
  | .issued _ => true
  | .writeReady _ _ => true
  | .writeIssued _ => true
  | .unclassified | .forwarded | .waitLine | .waitTable | .draining _ | .answered _ => false

/-- Every access to the request's line that cleared the station earlier has completed (R113). -/
def drained (s : State) (r : Req) : Bool :=
  (s.path.reqs.all fun q => q.id == r.id || q.line != r.line || !isCleared q.stage) &&
    s.path.memPort.all fun a => a.id == r.id || a.line != r.line

/-! ### Sources (R103) -/

/-- Who presents a request at the lock station. -/
def stationOf : Job → Station
  | .port p _ _ _ => .port p
  | .writeBack => .notices
  | .notice _ _ => .notices
  | .reportEntry _ => .notices
  | .snapshotLine _ _ => .notices
  | .queryFrame _ _ _ _ => .partTx
  | .testLine _ _ _ _ => .partTx
  | .slotDescriptor _ _ => .partTx
  | .march _ => .march
  | .scrub => .scrub
  | .copyLine => .copy
  | .copyWrite _ => .copy

/-- A stage before the lock station or waiting at it. -/
def beforeStation : Stage → Bool
  | .forwarded => true
  | .waitLine => true
  | .waitTable => true
  | .unclassified | .draining _ | .ready _ | .issued _ | .writeReady _ _ | .writeIssued _ | .answered _ => false

/-- The oldest request of a source that has not passed the lock station: its later requests wait behind it (R97,
R113). -/
def headOf (s : State) (who : Station) : Option Req :=
  s.path.reqs.find? fun r => stationOf r.job == who && beforeStation r.stage

end Sys2Proof.Machine
end

