-- ==== Sys2Proof/Machine/Integrity.lean ====
section
/-! DEFINITION. The integrity unit (R108 to R127): outcomes, marked lines, suspect pages, the scrubber, the remap table
and the copy engine. -/

namespace Sys2Proof.Machine

/-- Changes the unit's counters (R127). -/
def integCount (f : IntegrityCounters → IntegrityCounters) (s : State) : State :=
  s.updInteg fun u => { u with counters := f u.counters }

/-! ### Remap requests (R120, R121) -/

/-- A page is the failed page of an entry. -/
def remapHas (s : State) (page : Nat) : Bool := s.integ.remaps.any fun e => e.failed == page

/-- The lowest-addressed page of the spare pool (R120, R121). -/
def poolPage (s : State) : Option Nat :=
  match windowOfKind s .spare with
  | some w => ((List.range w.size).map fun i => w.base + i).find? fun p =>
      s.integ.remaps.all fun e => e.spare != p
  | none => none

/-- The body of the REMAP_QUEUED and REMAP_ACTIVE reports. -/
def remapBody (e : RemapEntry) : List FieldSpec :=
  [⟨16, 8, pageAddress e.failed⟩, ⟨24, 8, pageAddress e.spare⟩, ⟨32, 1, remapSourceCode e.source⟩]

/-- A request finds the pool empty: the counter, then the event and the report in either order (R121, R156). -/
def remapExhausted (page : Nat) (source : RemapSource) (s : State) : State :=
  unordered [raiseCondition .remapExhausted,
    report 0x0B [⟨16, 8, pageAddress page⟩, ⟨32, 1, remapSourceCode source⟩]]
    (integCount (fun c => { c with remapExhausted := satInc c.remapExhausted }) s)

/-- The entry being copied. -/
def copyingEntry (s : State) : Option RemapEntry := s.integ.remaps.find? fun e => e.state == .copying

/-- The copy engine has a request for its line (R123). -/
def copyBusy (s : State) : Bool := s.path.reqs.any fun r => stationOf r.job == .copy

/-- Replaces the entry of a failed page. -/
def setRemap (e : RemapEntry) (s : State) : State :=
  s.updInteg fun u => { u with remaps := u.remaps.map fun x => if x.failed = e.failed then e else x }

/-- The copy engine takes the entry made earliest, and sets out on the line at its pointer (R123). It stands still
while the reset line is asserted. -/
def copyPump (s : State) : State :=
  if s.inReset || copyBusy s then s
  else
    match copyingEntry s with
    | some e => makeReq (64 * e.failed + e.pointer) .copyLine s
    | none =>
      match s.integ.remaps.find? fun e => e.state == .waiting with
      | some e =>
        makeReq (64 * e.failed) .copyLine (setRemap { e with state := .copying, pointer := 0 } s)
      | none => s

/-- A remap request (R121). -/
def remapRequest (page : Nat) (source : RemapSource) (s : State) : State :=
  if remapHas s page then integCount (fun c => { c with remapDuplicate := satInc c.remapDuplicate }) s
  else
    match poolPage s with
    | none => remapExhausted page source s
    | some p =>
      let e : RemapEntry := ⟨page, p, .waiting, source, 0, timeNow s⟩
      copyPump (report 0x0A (remapBody e) (s.updInteg fun u => { u with remaps := u.remaps ++ [e] }))

/-! ### Suspect pages (R116) -/

/-- The entry of a full list that a new one replaces: the lowest count, then the earliest first time (R116). Where
both are equal, the one earlier in the list, a point R116 leaves open (DESIGN CHOICE, log entry 46). -/
def weakestSuspect : List Suspect → Option Suspect
  | [] => none
  | x :: xs =>
    match weakestSuspect xs with
    | some y => if y.count < x.count ∨ (y.count = x.count ∧ y.first < x.first) then some y else some x
    | none => some x

/-- The list after one more CORRECTED outcome on a page, before the threshold is tested (R116). A new entry and one
that replaces another stand at the end; neither R116 nor R174 orders the list, which the snapshot shows as it stands
(DESIGN CHOICE, log entry 46). -/
def bumpSuspects (l : List Suspect) (page now : Nat) : List Suspect :=
  if l.any fun e => e.page = page then l.map fun e => if e.page = page then { e with count := e.count + 1 } else e
  else if l.length < 8 then l ++ [⟨page, 1, now⟩]
  else
    match weakestSuspect l with
    | some w => (l.filter fun e => e.page != w.page) ++ [⟨page, 1, now⟩]
    | none => l ++ [⟨page, 1, now⟩]

/-- A full list has to replace an entry for the page (R116). -/
def suspectReplaces (l : List Suspect) (page : Nat) : Bool :=
  !(l.any fun e => e.page = page) && decide (8 ≤ l.length)

/-- A page reaches the threshold: a remap request or a SUSPECT_PAGE report (R116). The interval time of its first
error is shown in 8 bytes (R174); one that has passed them shows the field's maximum, the model's choice of log entry
60, as in the snapshot. -/
def suspectReached (e : Suspect) (s : State) : State :=
  if s.integ.autoRemap && !inSpare s e.page then remapRequest e.page .copy s
  else report 0x09 [⟨16, 8, pageAddress e.page⟩, ⟨24, 1, e.count⟩, ⟨32, 8, narrow 8 e.first⟩] s

/-- A CORRECTED outcome is taken against the page of its line address (R116). -/
def suspectCount (line : Nat) (s : State) : State :=
  let page := pageOf line
  let l := bumpSuspects s.integ.suspects page s.now
  let s1 :=
    if suspectReplaces s.integ.suspects page then
      integCount (fun c => { c with suspectReplaced := satInc c.suspectReplaced }) s
    else s
  match l.find? fun e => e.page = page with
  | some e =>
    if s.integ.suspectThreshold ≤ e.count then
      suspectReached e (s1.updInteg fun u => { u with suspects := l.filter fun x => x.page != page })
    else s1.updInteg fun u => { u with suspects := l }
  | none => s1.updInteg fun u => { u with suspects := l }

/-! ### Outcomes and marks (R109 to R112) -/

/-- The line address is in the marked line set. -/
def isMarked (s : State) (line : Nat) : Bool := s.integ.marked.contains line

/-- The line address leaves the marked line set (R112). -/
def unmark (line : Nat) (s : State) : State :=
  s.updInteg fun u => { u with marked := u.marked.filter fun a => a != line }

/-- Counts a read or partial write that ended because its line is marked (R112, R127). -/
def countMarkedRead (s : State) : State :=
  integCount (fun c => { c with markedReads := satInc c.markedReads }) s

/-- The capture of an outcome (R109). -/
def captureOf (s : State) (source : IntegritySource) (line memLine : Nat) : Capture :=
  ⟨line, memLine, source, timeNow s⟩

/-- A CORRECTED outcome (R109, R116). -/
def corrected (source : IntegritySource) (line memLine : Nat) (s : State) : State :=
  suspectCount line ((integCount (fun c => { c with corrected := satInc c.corrected }) s).updInteg fun u =>
    { u with lastCorrected := some (captureOf s source line memLine) })

/-- The event and the report of an UNCORRECTABLE outcome, in either order (R110, R156); result ADDED 0, FULL 2. -/
def uncorrectableNews (source : IntegritySource) (line memLine result : Nat) (s : State) : State :=
  unordered [raiseCondition .memUncorrectable,
    report 0x08 [⟨16, 1, sourceCode source⟩, ⟨17, 1, result⟩, ⟨24, 8, lineAddress line⟩,
      ⟨32, 8, lineAddress memLine⟩]] s

/-- An UNCORRECTABLE outcome (R109 to R111). -/
def uncorrectable (source : IntegritySource) (line memLine : Nat) (s : State) : State :=
  let s1 := (integCount (fun c => { c with uncorrectable := satInc c.uncorrectable }) s).updInteg fun u =>
    { u with
      firstUncorrectable :=
        match u.firstUncorrectable with
        | some c => some c
        | none => some (captureOf s source line memLine) }
  if isMarked s line then s1
  else if s.integ.marked.length < 64 then
    uncorrectableNews source line memLine 0 (s1.updInteg fun u => { u with marked := u.marked ++ [line] })
  else
    uncorrectableNews source line memLine 2
      (integCount (fun c => { c with markOverflow := satInc c.markOverflow }) s1)

/-- The outcome of a read access other than a march read is counted and acted on (R109 to R111). -/
def takeOutcome (source : IntegritySource) (line memLine : Nat) (o : EccObs) (s : State) : State :=
  match lineOutcome o with
  | .clean => s
  | .corrected => corrected source line memLine s
  | .uncorrectable => uncorrectable source line memLine s

/-! ### Scrubber (R117, R118) -/

/-- Changes the scrubber. -/
def updScrub (f : Scrubber → Scrubber) (s : State) : State :=
  s.updInteg fun u => { u with scrubber := f u.scrubber }

/-- A line is in progress. -/
def scrubBusy (s : State) : Bool := s.path.reqs.any fun r => stationOf r.job == .scrub

/-- The scrubber takes the line at its position: one unit of allowance, and the position advances (R117). -/
def scrubTake (c : Scrubber) : Scrubber :=
  if c.endLine ≤ c.position then
    { c with position := c.startLine, passCount := satInc c.passCount, allowance := c.allowance - 1 }
  else { c with position := c.position + 1, allowance := c.allowance - 1 }

/-- Takes lines while it may: skips those in the fence, and sets out on the first that is not (R117, R118). -/
def scrubLoop : Nat → State → State
  | 0, s => s
  | n + 1, s =>
    let line := s.integ.scrubber.position
    let s1 := updScrub scrubTake s
    if fenced s line then
      scrubLoop n (integCount (fun c => { c with scrubSkipped := satInc c.scrubSkipped }) s1)
    else makeReq line .scrub s1

/-- The scrubber goes on while it is not paused, has allowance and has no line in progress (R117). -/
def scrubPump (s : State) : State :=
  if s.inReset || s.path.loadHigh || scrubBusy s then s else scrubLoop s.integ.scrubber.allowance s

/-- The scrub timer expires: the allowance becomes the rate, and the timer restarts (R117). -/
def scrubExpiry (s : State) : State :=
  scrubPump (updScrub (fun c => { c with allowance := c.rate, timer := c.timer.map fun d => d + 40000 }) s)

/-- A scrub line ends (R117). -/
def scrubEnd (id line : Nat) (s : State) : State :=
  scrubPump (integCount (fun c => { c with scrubLines := satInc c.scrubLines }) (releaseLock line (dropReq id s)))

/-! ### Copy engine (R123, R124) -/

/-- The data for the line at the pointer are known: the write to the spare line is set out on (R123). -/
def copyData (id : Nat) (e : RemapEntry) (data : Line) (s : State) : State :=
  makeReq (64 * e.spare + e.pointer) (.copyWrite data) (dropReq id s)

/-- The entry is abandoned (R124). -/
def abandonCopy (id : Nat) (e : RemapEntry) (s : State) : State :=
  let s1 := (dropReq id s).updInteg fun u => { u with remaps := u.remaps.filter fun x => x.failed != e.failed }
  let s2 := report 0x0D [⟨16, 8, pageAddress e.failed⟩, ⟨24, 8, pageAddress e.spare⟩, ⟨33, 1, e.pointer⟩]
    (integCount (fun c => { c with remapAbandoned := satInc c.remapAbandoned }) s1)
  copyPump (releaseLock (64 * e.failed + e.pointer) s2)

/-- A copy write completes: the pointer advances and the lock is released in the one event; at 64 the entry becomes
ACTIVE (R123). -/
def copyAdvance (id : Nat) (e : RemapEntry) (s : State) : State :=
  let p := e.pointer + 1
  let e1 : RemapEntry := { e with pointer := p, state := if p = 64 then .active else .copying }
  let s1 := releaseLock (64 * e.failed + e.pointer) (setRemap e1 (dropReq id s))
  copyPump (if p = 64 then report 0x0C (remapBody e1) s1 else s1)

/-- The copy engine's line of a FILL entry, locked and drained, needs no read: its write of zeros goes to the lock
station at once (R123). -/
def fillLine (s : State) (r : Req) : Option RemapEntry :=
  match r.job, r.stage, copyingEntry s with
  | .copyLine, .draining _, some e => if e.source == .fill && drained s r then some e else none
  | _, _, _ => none

/-! ### The SCRUB and REMAP records (R119, R125) -/

/-- The checks of a SCRUB record (R119). -/
def scrubCheck (d : Line) : RecordOutcome :=
  if 64 < field d 4 1 ∨ field d 6 1 = 0 ∨ field d 8 8 % 64 ≠ 0 ∨ field d 16 8 % 64 ≠ 0 ∨ 2 ^ 36 ≤ field d 8 8 ∨
      2 ^ 36 ≤ field d 16 8 ∨ field d 16 8 < field d 8 8 then .range
  else .applied

/-- Applies a SCRUB record (R119). -/
def applyScrub (d : Line) (s : State) : State :=
  let first := field d 8 8 / 64
  let last := field d 16 8 / 64
  s.updInteg fun u =>
    let c := u.scrubber
    let moved := decide (c.startLine ≠ first ∨ c.endLine ≠ last)
    { u with
      autoRemap := flagField d 5
      suspectThreshold := field d 6 1
      scrubber :=
        { c with
          startLine := first
          endLine := last
          rate := field d 4 1
          position := if moved then first else c.position
          passCount := if moved then 0 else c.passCount } }

/-- The checks of a REMAP record, in order (R125). -/
def remapCheck (s : State) (d : Line) : RecordOutcome :=
  let a := field d 8 8
  if a % 4096 ≠ 0 ∨ 2 ^ 36 ≤ a then .range
  else if inSpare s (a / 4096) then .conflict
  else if remapHas s (a / 4096) then .applied
  else if poolPage s = none then .conflict
  else .applied

/-- What a REMAP record that has passed its first two checks does: the request of R121, which counts a duplicate and
reports an exhausted pool (R125). -/
def applyRemap (d : Line) (s : State) : State := remapRequest (field d 8 8 / 4096) .copy s

/-- A CLEAR of the ECC group (R109, R127). -/
def clearEcc (s : State) : State :=
  s.updInteg fun u =>
    { u with counters := Initial.integrityCounters, lastCorrected := none, firstUncorrectable := none }

end Sys2Proof.Machine
end

