-- ==== Sys2Proof/Machine/MemTest.lean ====
section
/-! DEFINITION. The memory test engine (R128 to R140): backgrounds, progress, reads, suspension and the end of a
session. -/

namespace Sys2Proof.Machine

/-! ### Backgrounds and progress (R132, R133) -/

/-- Byte `i` of a line under the background (R132). -/
def backgroundByte (checker inverse : Bool) (line i : Nat) : Byte :=
  let b : Byte := if checker then (if (line + i / 8) % 2 = 0 then 0x55#8 else 0xAA#8) else 0x00#8
  if inverse then ~~~b else b

/-- A line under the background, or under its complement (R132). -/
def backgroundLine (checker inverse : Bool) (line : Nat) : Line :=
  Vector.ofFn fun i => backgroundByte checker inverse line i.val

/-- The reads of elements 3 and 5 expect ~B (R133). -/
def readsInverse (element : Nat) : Bool := element == 3 || element == 5

/-- The writes of elements 2 and 4 write ~B (R133). -/
def writesInverse (element : Nat) : Bool := element == 2 || element == 4

/-- The elements 4 and 5 descend (R133). -/
def descends (element : Nat) : Bool := element == 4 || element == 5

/-- The number of lines of the region. -/
def regionLines (m : March) : Nat := 64 * m.pageCount

/-- The line the progress names. -/
def marchLine (m : March) : Nat := 64 * m.startPage + m.index

/-- The element has reached its last line. -/
def lastOfElement (m : March) : Bool := if descends m.element then m.index == 0 else m.index + 1 == regionLines m

/-- The progress at the first line of an element, which begins with a read (R133). -/
def beginElement (e : Nat) (m : March) : March :=
  { m with element := e, index := if descends e then regionLines m - 1 else 0, writeNext := false }

/-- The progress at the next line, or at the next element (R133). -/
def nextLine (m : March) : March :=
  if lastOfElement m then beginElement (m.element + 1) m
  else { m with index := if descends m.element then m.index - 1 else m.index + 1, writeNext := m.element == 1 }

/-- The progress after a read that is not the march's last (R133). -/
def afterRead (m : March) : March := if m.element = 6 then nextLine m else { m with writeNext := true }

/-- The read just completed is the march's last (R137). -/
def isLastRead (m : March) : Bool := m.element == 6 && lastOfElement m

/-- The access the progress names: none for a read, the line to write otherwise (R133). -/
def marchAccess (m : March) : Option Line :=
  if m.writeNext then some (backgroundLine m.checker (writesInverse m.element) (marchLine m)) else none

/-- The access is one of the march test's. -/
def isMarchAccess (k : AccessKind) : Bool :=
  match k with
  | .marchRead => true
  | .marchWrite _ => true
  | .portRead _ | .descriptorRead | .portWrite _ _ | .rmwRead _ | .rmwWrite _ _ | .writeBackRead | .writeBackWrite _
  | .noticeWrite _ | .reportWrite _ | .snapshotWrite _ _ | .queryFrameWrite _ | .testLineWrite _
  | .slotDescriptorWrite _ | .scrubRead | .scrubWrite _ | .copyRead | .copyWrite _ => false

/-- The engine has an access outstanding: a request of its own, or an access at the memory port, which may be one that
was granted before a STOP or the reset line (R133, R138). -/
def marchBusy (s : State) : Bool :=
  (s.path.reqs.any fun r => stationOf r.job == .march) || s.path.memPort.any fun a => isMarchAccess a.kind

/-- While RUNNING the engine issues the access its progress names, once the previous access has completed and the
start drain has ended (R130, R133, R135). -/
def marchPump (s : State) : State :=
  if s.inReset || marchBusy s || s.march.state != .running || s.march.drain != [] then s
  else makeReq (marchLine s.march) (.march (marchAccess s.march)) s

/-- An access leaves the start drain (R130). -/
def leaveDrain (id : Nat) (s : State) : State := s.updMarch fun m => { m with drain := m.drain.filter fun i => i != id }

/-! ### Suspension (R135) -/

/-- The state that the cause set gives (R135). -/
def settleCauses (m : March) : March :=
  if m.state = .running ∧ (m.causeManual || m.causeLoad) = true then { m with state := .suspended }
  else if m.state = .suspended ∧ (m.causeManual || m.causeLoad) = false then { m with state := .running }
  else m

/-- A session is RUNNING or SUSPENDED. -/
def marchActive (m : March) : Bool := m.state == .running || m.state == .suspended

/-- MANUAL is added or removed (R135, R136). -/
def setManual (b : Bool) (s : State) : State :=
  marchPump (s.updMarch fun m => settleCauses { m with causeManual := b })

/-- LOAD_HIGH changes: the march test and the scrubber are told (R105, R118, R135). -/
def loadChanged (b : Bool) (s : State) : State :=
  scrubPump (marchPump (s.updMarch fun m =>
    if marchActive m then settleCauses { m with causeLoad := b } else m))

/-! ### Reads (R134) -/

/-- The failure of a read, by its outcome and its data against the expected line (R134). -/
def marchFailure (o : EccObs) (delivered expected : Line) : Option MarchFailure :=
  match lineOutcome o with
  | .uncorrectable => some .uncorrectable
  | .corrected => some .corrected
  | .clean => if delivered = expected then none else some .mismatch

/-- A failing read (R134). -/
def marchFail (line : Nat) (k : MarchFailure) (m : March) : March :=
  let page := pageOf line
  let known := m.failing.contains page
  { m with
    failingReads := satInc m.failingReads
    failedReads := satInc m.failedReads
    firstFailure :=
      match m.firstFailure with
      | some f => some f
      | none => some ⟨m.element, line, k⟩
    failing := if known || decide (16 ≤ m.failing.length) then m.failing else m.failing ++ [page]
    unlisted := if !known && decide (16 ≤ m.failing.length) then satInc m.unlisted else m.unlisted }

/-- A read is checked (R134). -/
def checkRead (line : Nat) (o : EccObs) (delivered : Line) (m : March) : March :=
  let m1 := { m with reads := satInc m.reads }
  match marchFailure o delivered (backgroundLine m.checker (readsInverse m.element) line) with
  | some k => marchFail line k m1
  | none => m1

/-! ### The end of a session (R137, R138) -/

/-- The body of a MEMTEST_DONE report (R137). -/
def memtestDoneBody (m : March) : List FieldSpec :=
  [⟨16, 1, match m.outcome with | some o => sessionOutcomeCode o | none => 0⟩, ⟨17, 1, flagByte m.checker⟩,
   ⟨18, 1, flagByte m.autoRemap⟩, ⟨19, 1, m.failing.length⟩, ⟨20, 2, m.pageCount⟩, ⟨24, 8, pageAddress m.startPage⟩,
   ⟨32, 4, m.failingReads.toNat⟩, ⟨36, 4, m.unlisted.toNat⟩] ++
  (match m.firstFailure with
   | some f => [⟨40, 1, f.element⟩, ⟨41, 1, marchFailureCode f.kind⟩, ⟨48, 8, lineAddress f.memLine⟩]
   | none => [])

/-- The march ends normally (R137). The progress keeps what it last was: R128 does not say what it holds in DONE
(DESIGN CHOICE, log entry 47). -/
def endMarch (s : State) : State :=
  let v : SessionOutcome := if s.march.failingReads = 0 then .pass else .fail
  let s1 := s.updMarch fun m =>
    { m with state := .done, causeManual := false, causeLoad := false, outcome := some v }
  let s2 :=
    if s.march.autoRemap && v == .fail then s.march.failing.foldl (fun t page => remapRequest page .fill t) s1 else s1
  let s3 := report 0x0E (memtestDoneBody s2.march) s2
  if v = .pass then s3.updMarch fun m => { m with passed := satInc m.passed }
  else raiseCondition .testFailed (s3.updMarch fun m => { m with failed := satInc m.failed })

/-- Withdraws the march's request; an access already granted completes unchecked (R138). -/
def withdrawMarch (s : State) : State :=
  (dropReqs (fun r => stationOf r.job == .march) s).updPath fun p =>
    { p with memPort := p.memPort.map fun a =>
        if isMarchAccess a.kind then { a with live := false } else a }

/-- An applied STOP (R138). The progress keeps what it last was: R128 does not say what it holds in ABORTED (DESIGN
CHOICE, log entry 47). -/
def applyMemtestStop (s : State) : State :=
  let s1 := (withdrawMarch s).updMarch fun m =>
    { m with
      state := .aborted
      causeManual := false
      causeLoad := false
      drain := []
      outcome := some .aborted
      abortedCount := satInc m.abortedCount }
  report 0x0E (memtestDoneBody s1.march) s1

/-! ### START (R129, R130) -/

/-- A window that the region of a START may not meet (R129). -/
def forbidsTest (s : State) (w : Window) : Bool :=
  match w.kind with
  | .control | .report | .spare | .partTx | .status | .notice => true
  | .txRing | .buffer =>
    match w.cls with
    | some c => (clsAt s c).enabled
    | none => false
  | .rxRing | .timingRx | .testRx => false

/-- A page of the region lies in a forbidden window (R129). -/
def regionForbidden (s : State) (first count : Nat) : Bool :=
  (List.range 16).any fun i =>
    match windowEntry s i with
    | some w => forbidsTest s w && decide (w.base < first + count) && decide (first < w.base + w.size)
    | none => false

/-- The checks of a MEMTEST START, in order (R129). -/
def memtestStartCheck (s : State) (d : Line) : RecordOutcome :=
  let a := field d 8 8
  let n := field d 16 2
  if a % 4096 ≠ 0 ∨ n = 0 ∨ 4096 < n ∨ 2 ^ 36 < a + n * 4096 ∨ 1 < field d 5 1 then .range
  else if marchActive s.march then .busy
  else if regionForbidden s (a / 4096) n then .conflict
  else .applied

/-- A request of a START's region that the start drain waits for: an accepted upstream request, or an internal write
made before (R130). -/
def inDrain (m : March) (r : Req) : Bool :=
  inRegion m r.line &&
    (match r.stage with
     | .unclassified => false
     | .answered _ => false
     | _ => true) &&
    (match r.job with
     | .march _ => false
     | .scrub => false
     | .copyLine => false
     | .copyWrite _ => false
     | _ => true)

/-- The access is a port's or an internal write, as R130's start drain names them: a scrub write-back or a copy write
that the reset line has left at the memory port is one, as its line lock is gone (R126). -/
def isDrainAccess (k : AccessKind) : Bool :=
  match k with
  | .portRead _ | .descriptorRead | .portWrite _ _ | .rmwRead _ | .rmwWrite _ _ | .writeBackWrite _ | .noticeWrite _
  | .reportWrite _ | .snapshotWrite _ _ | .queryFrameWrite _ | .testLineWrite _ | .slotDescriptorWrite _
  | .scrubWrite _ | .copyWrite _ => true
  | .writeBackRead | .marchRead | .marchWrite _ | .scrubRead | .copyRead => false

/-- The start drain of a session (R130): requests past classification, and accesses at the memory port whose request
is gone (R107; log entry 27). -/
def startDrain (m : March) (p : Path) : List Nat :=
  (p.reqs.filter (inDrain m)).map (·.id) ++
    (p.memPort.filter fun a => !a.live && inRegion m a.line && isDrainAccess a.kind).map (·.id)

/-- The session a START begins, before its drain is known (R130). -/
def startedMarch (d : Line) (load : Bool) (m : March) : March :=
  { m with
    state := if load then .suspended else .running
    startPage := field d 8 8 / 4096
    pageCount := field d 16 2
    checker := field d 5 1 == 1
    autoRemap := flagField d 6
    causeManual := false
    causeLoad := load
    element := 1
    index := 0
    writeNext := true
    failing := []
    failingReads := 0
    unlisted := 0
    firstFailure := none
    outcome := none
    drain := []
    started := satInc m.started }

/-- Applies a START (R130). -/
def applyMemtestStart (d : Line) (s : State) : State :=
  let s1 := s.updMarch (startedMarch d s.path.loadHigh)
  marchPump (s1.updMarch fun m => { m with drain := startDrain m s1.path })

/-- The check of SUSPEND, RESUME and STOP (R136, R138). -/
def memtestOtherCheck (s : State) : RecordOutcome := if marchActive s.march then .applied else .conflict

/-- A CLEAR of the TEST group, for the march test (R140). -/
def clearMarch (s : State) : State :=
  s.updMarch fun m => { m with started := 0, passed := 0, failed := 0, abortedCount := 0, reads := 0, failedReads := 0 }

end Sys2Proof.Machine
end

