-- ==== Sys2Proof/Machine/Snapshot.lean ====
section
/-! DEFINITION. The report unit's snapshots (R161, R174): the items of each group of lines, their layout, and the
requests that start, remember, merge or drop a snapshot. Log entries 21 to 23, 46, 54 and 57 say what R174
leaves open. -/

namespace Sys2Proof.Machine

/-! ### Items (R174, Widths) -/

/-- One item of a snapshot: its width in bytes and its value. -/
structure Item where
  width : Nat
  value : Nat
  deriving DecidableEq, Repr

/-- An item of `w` bytes. A figure that exceeds its width shows the width's maximum (R172, Narrowed values): a round
trip's duration may, in nanoseconds, pass 64 bits. An interval time that has passed its 8 bytes is held so too, the
model's choice of log entry 60. -/
def itemOf (w v : Nat) : Item := ⟨w, narrow w v⟩
/-- A flag, an enumeration, an index or a state: one byte. -/
def item1 (v : Nat) : Item := itemOf 1 v
/-- A number that takes two bytes. -/
def item2 (v : Nat) : Item := itemOf 2 v
/-- A counter, a count, or a number that takes four bytes. -/
def item4 (v : Nat) : Item := itemOf 4 v
/-- An address, a ring position, an interval time, a duration, or a number that takes eight bytes. -/
def item8 (v : Nat) : Item := itemOf 8 v
/-- A counter. -/
def itemCounter (c : Counter) : Item := ⟨4, c.toNat⟩
/-- A time counter value, as a stamp: ten bytes (R172: six of seconds, then four of nanoseconds). -/
def itemStamp (t : Stamp) : Item := ⟨10, t.sec + 2 ^ 48 * t.ns⟩
/-- A signed number, narrowed as any other (R172; below the field's least value, log entry 24). -/
def itemSigned (w : Nat) (v : Int) : Item := ⟨w, narrowSigned w v⟩

/-- A list at its full capacity, preceded by a one-byte count of its entries (R174, Tables and lists). -/
def itemList {α : Type} (l : List α) (capacity : Nat) (show_ : α → List Item) (blank : List Item) : List Item :=
  item1 l.length :: (l.flatMap show_ ++ (List.replicate (capacity - l.length) blank).flatten)

/-- One item of each class in turn. -/
def perClass {α : Type} (v : PerClass α) (f : α → Item) : List Item := allClasses.map fun c => f (classGet v c)

/-- One item of each port in turn. -/
def perPort {α : Type} (v : PerPort α) (f : α → Item) : List Item :=
  [f v.site, f v.radio, f v.modem]

/-- One item of each queue in turn. -/
def perQueue {α : Type} (v : PerQueue α) (f : α → Item) : List Item :=
  [f v.site, f v.radio, f v.modem, f v.internal]

/-- One item of each condition in turn. -/
def perCond (s : State) (f : Condition → Item) : List Item := allConds.map fun c => f (condGet s.fault c)

/-! ### The eight groups (11_line_formats.md, Snapshot lines) -/

/-- Ring state as the snapshot shows it: 0, 1 and 2 in the order of R155. R172 gives no code (DESIGN CHOICE, log entry
54). -/
def ringStateCode : Option Ring → Nat
  | none => 0
  | some r => if r.releasing then 2 else 1

/-- Lines 0 to 4: report unit, record decoder, fault unit. The snapshot state is IDLE 0 or WRITING 1, and the fault
line level is 1 while the line is asserted; R172 gives no code of either (DESIGN CHOICE, log entry 54). -/
def groupReports (s : State) : List Item :=
  let r := s.rep.ring.getD ⟨false, 0, 0, 0, 0, 0, 0, false, none⟩
  [item1 (ringStateCode s.rep.ring), item2 r.size, item8 r.made, item8 r.written, item8 r.consumed, item2 r.trigger,
   item2 r.timeout, item1 (flagByte r.timeoutFlag), item1 (flagByte s.rep.snapshotWriting)] ++
  ([s.dec.ignored, s.dec.applied, s.dec.partialMask, s.dec.kind, s.dec.range, s.dec.conflict, s.dec.order, s.dec.busy,
    s.rep.dropped, s.rep.snapshotsWritten, s.rep.snapshotMerged, s.rep.snapshotDropped].map itemCounter) ++
  perCond s (fun d => item1 (faultModeCode d.mode)) ++ perCond s (fun d => item1 (flagByte d.longRetry)) ++
  perCond s (fun d => item1 (flagByte d.raw)) ++ perCond s (fun d => item1 (flagByte d.latched)) ++
  perCond s (fun d => item1 (flagByte d.timer.isSome)) ++ perCond s (fun d => itemCounter d.occurrences) ++
  [itemCounter s.fault.assertions, item1 (flagByte s.fault.line)]

/-- Lines 5 to 11: link monitor. A capacity and a latency take 4 bytes as numbers (DESIGN CHOICE, log entry 22). The
DOWN cause of a link that is not DOWN shows 0xFF, as the code table of R172 has it, where R174 has an absent item show
0 (DESIGN CHOICE, log entry 57). -/
def groupLink (s : State) : List Item :=
  let l := s.link
  [item1 (linkStateCode l.state), item1 (causeField l.state), item1 (optByte l.etx), item1 (optByte l.erx),
   item1 (optByte l.planned), item1 l.floor, itemCounter l.statusTaken, itemCounter l.statusIgnored,
   itemCounter l.downEntries, itemCounter l.downshifts, itemCounter l.upshifts] ++
  (List.range 12).flatMap fun i =>
    let e := profileAt l i
    [item1 (flagByte e.valid), item4 e.capacity, item1 e.overhead, item4 e.txLatency, item4 e.rxLatency]

/-- The fields of one window entry: kind, base, size, class, the six permission flags. Each is an item of its own
where a line ends (DESIGN CHOICE, log entry 21); the size takes 4 bytes (DESIGN CHOICE, log entry 22). -/
def windowItems : Option Window → List Item
  | none => [item1 0, item8 0, item4 0, item1 0, item1 0, item1 0, item1 0, item1 0, item1 0, item1 0]
  | some w =>
    [item1 (windowKindCode w.kind), item8 (pageAddress w.base), item4 w.size, item1 (optByte (w.cls.map clsCode)),
     item1 (flagByte w.perms.siteRead), item1 (flagByte w.perms.siteWrite), item1 (flagByte w.perms.radioRead),
     item1 (flagByte w.perms.radioWrite), item1 (flagByte w.perms.modemRead), item1 (flagByte w.perms.modemWrite)]

/-- Lines 12 to 21: the window table. -/
def groupWindows (s : State) : List Item := (List.range 16).flatMap fun i => windowItems (windowEntry s i)

/-- Lines 22 to 25: ports and arbiter. The occupancies and their sum, the port load, take 4 bytes as counts (DESIGN
CHOICE, log entry 22). -/
def groupPath (s : State) : List Item :=
  let p := s.path
  perPort p.ports (fun c => itemCounter c.reads) ++ perPort p.ports (fun c => itemCounter c.writes) ++
  perPort p.ports (fun c => itemCounter c.parity) ++ perPort p.ports (fun c => itemCounter c.denied) ++
  perPort p.ports (fun c => itemCounter c.fenced) ++ perQueue p.grants itemCounter ++
  [itemCounter p.loadHighEntries, item4 (occupancy s .site), item4 (occupancy s .radio), item4 (occupancy s .modem),
   item4 (portLoad s), item1 (flagByte p.loadHigh)] ++ perQueue p.weights item1

/-- The number of in-flight entries of a class. -/
def flightCount (s : State) (c : Cls) : Nat := (s.adm.flight.filter fun e => e.cls == c).length

/-- Lines 26 to 36: admission unit. Lengths and numbers of entries take 4 bytes as counts (DESIGN CHOICE, log entry
22). -/
def groupAdmission (s : State) : List Item :=
  let v := s.adm.classes
  let each := fun f : ClassCounters → Counter => perClass v fun k => itemCounter (f k.counters)
  perClass v (fun k => itemSigned 4 k.credit) ++ perClass v (fun k => item4 k.held.length) ++
  perClass v (fun k => item8 ((holdAge k s.now).getD 0)) ++ perClass v (fun k => item1 (flagByte k.congested)) ++
  allClasses.map (fun c => item4 (flightCount s c)) ++
  each (·.admitted) ++ each (·.heldReads) ++ each (·.heldUnlisted) ++ each (·.rejected) ++ each (·.sent) ++
  each (·.notSent) ++ each (·.unmatched) ++ each (·.lost) ++ each (·.overwritten) ++ each (·.rxFrames) ++
  each (·.rxErrored) ++ perClass v (fun k => item8 k.counters.rxBytes.toNat) ++
  [itemCounter s.adm.rxClassInvalid, itemCounter s.adm.noticeDropped, itemCounter s.adm.noticeReplaced,
   itemCounter s.adm.writebackDropped]

/-- The number of exchange entries in a state. -/
def exchangeCount (s : State) (st : ExchangeState) : Nat := (s.xfer.exchanges.filter fun e => e.state == st).length

/-- Lines 37 to 44: time unit and time transfer engine. The table occupancies and the number of FREE slots take 4
bytes as counts; log entry 22 names the other widths that R174 leaves open (DESIGN CHOICE). -/
def groupTime (s : State) : List Item :=
  let t := s.time
  let x := s.xfer
  let c := x.counters
  [itemStamp (timeNow s), itemSigned 4 t.freq, item8 (increment t.freq).toNat, item2 t.epoch.toNat,
   item1 (synthStateCode t.synth.state), item1 t.synth.n, item1 t.synth.m, item1 t.synth.p,
   item1 (flagByte (qualifiedLine s))] ++
  [t.stampsValid, t.stampsInvalid, t.phaseSteps, t.stepsClamped, t.timesets, t.todReplaced].map itemCounter ++
  [item1 (timingStateCode x.state), item4 x.runCount, itemSigned 4 x.integral] ++
  itemList x.history 4 (fun f => [itemSigned 4 f]) [item4 0] ++
  [item4 x.holdoverAge, itemSigned 8 x.lastOffset, itemSigned 4 x.lastDelay, item4 x.pendingTable.length,
   item4 (exchangeCount s .offered), item4 (exchangeCount s .querySent), item4 (exchangeCount s .queried),
   item4 (exchangeCount s .answeredEarly), item4 x.block.length, item4 (freeSlots s), item1 x.ringPointer] ++
  [c.partialFrame, c.badFrame, c.domainMismatch, c.pendingReplaced, c.pendingDropped, c.noPayload, c.offerDuplicate,
   c.exchangeEvicted, c.noLink, c.noOffer, c.noSlot, c.queriesSent, c.cOrphan, c.rejectOrphan, c.queryNotSent,
   c.queryLost, c.queryRejected, c.answerUnmatched, c.exchangeTimedOut, c.invalid, c.epochDiscard, c.sampleRange,
   c.negative, c.tooLong, c.samplesAccepted, c.selections, c.stepSelections, c.fClamped].map itemCounter

/-- The fields of a capture: each is an item of its own where a line ends, since R174 does not say that a capture is
kept whole (DESIGN CHOICE, log entry 21). -/
def captureItems : Option Capture → List Item
  | none => [item8 0, item8 0, item1 0, ⟨10, 0⟩]
  | some c => [item8 (lineAddress c.line), item8 (lineAddress c.memLine), item1 (sourceCode c.source), itemStamp c.time]

/-- The number of remap entries in a state. -/
def remapCount (s : State) (st : RemapState) : Nat := (s.integ.remaps.filter fun e => e.state == st).length

/-- Lines 45 to 52: integrity unit. The COPYING entry's copy pointer takes 1 byte, as a number up to 64 (R120; DESIGN
CHOICE, log entry 22). The suspects stand in the order of their list (DESIGN CHOICE, log entry 46). -/
def groupIntegrity (s : State) : List Item :=
  let u := s.integ
  let c := u.counters
  let b := u.scrubber
  [c.corrected, c.uncorrectable, c.markedReads, c.markOverflow, c.suspectReplaced, c.scrubLines, c.scrubCorrected,
   c.scrubSkipped, c.remapDuplicate, c.remapExhausted, c.remapAbandoned].map itemCounter ++
  captureItems u.lastCorrected ++ captureItems u.firstUncorrectable ++ [item4 u.marked.length] ++
  itemList u.suspects 8 (fun e => [item8 (pageAddress e.page), item4 e.count, item8 e.first])
    [item8 0, item4 0, item8 0] ++
  [item8 (lineAddress b.startLine), item8 (lineAddress b.endLine), item1 b.rate, item8 (lineAddress b.position),
   itemCounter b.passCount, item4 (remapCount s .waiting), item4 (remapCount s .copying), item4 (remapCount s .active)] ++
  (match copyingEntry s with
   | some e => [item8 (pageAddress e.failed), item8 (pageAddress e.spare), item1 e.pointer]
   | none => [item8 0, item8 0, item1 0])

/-- An outcome code, 0 where there is none. -/
def outcomeItem (o : Option SessionOutcome) : Item := item1 ((o.map sessionOutcomeCode).getD 0)

/-- The part of lines 53 to 63 that the memory test engine contributes. The cause set shows MANUAL in bit 0 and LOAD
in bit 1, in the order of R128 (R174, Widths). The progress's line stands as its byte address, in 8 bytes: neither
R140 nor R174 says whether the line's address or its place in the region is shown (DESIGN CHOICE, log entry 23). The
page count takes 4 bytes (DESIGN CHOICE, log entry 22), and the fields of the first failure are items of their own
where a line ends (DESIGN CHOICE, log entry 21). -/
def marchItems (m : March) : List Item :=
  [item1 (marchStateCode m.state), item1 (flagByte m.autoRemap), outcomeItem m.outcome,
   item1 (flagByte m.causeManual + 2 * flagByte m.causeLoad), item1 m.element, item8 (lineAddress (marchLine m)),
   item1 (flagByte m.writeNext), item8 (pageAddress m.startPage), item4 m.pageCount, item1 (flagByte m.checker)] ++
  itemList m.failing 16 (fun p => [item8 (pageAddress p)]) [item8 0] ++
  [itemCounter m.failingReads, itemCounter m.unlisted] ++
  (match m.firstFailure with
   | some f => [item1 f.element, item8 (lineAddress f.memLine), item1 (marchFailureCode f.kind)]
   | none => [item1 0, item8 0, item1 0])

/-- The kind of an outstanding entry's state, for the count by state. -/
def outstandingIndex : OutState → Nat
  | .posted => 0 | .sent _ => 1 | .unstamped => 2 | .returnedEarly _ => 3

/-- The number of outstanding entries in a state. -/
def outstandingCount (l : Loopback) (k : Nat) : Nat :=
  (l.outstanding.filter fun e => outstandingIndex e.state == k).length

/-- The part of lines 53 to 63 that the loopback engine contributes. -/
def loopItems (l : Loopback) : List Item :=
  let c := l.counts
  [item1 (loopStateCode l.state), item1 l.identifier.toNat, item2 l.nextSeq, item4 (outstandingCount l 0),
   item4 (outstandingCount l 1), item4 (outstandingCount l 2), item4 (outstandingCount l 3)] ++
  [c.generated, c.returned, c.lost, c.unsent, c.linesChecked, c.mismatchLines, c.mismatchBytes, c.badHeader, c.missing,
   c.foreign, c.late, c.waitList, c.waitSlot].map itemCounter ++
  [itemCounter l.trips.taken, item8 l.trips.minimum, item8 l.trips.maximum, item8 l.trips.sum.toNat,
   itemCounter l.trips.skipped, outcomeItem l.outcome]

/-- The abort cause and the parameters of the loopback session. R141 has the snapshot show them, and R174's group
names no place for them: they stand after all the items it does name (DESIGN CHOICE, log entry 23). The send interval,
in units of 100 µs, and the loss timeout, in milliseconds, take 2 bytes as numbers (DESIGN CHOICE, log entry 22). -/
def loopSessionItems (l : Loopback) : List Item :=
  let p := l.params
  [item1 ((l.cause.map loopCauseCode).getD 0), item2 p.frames, item1 p.lines, item2 p.interval, item1 p.seed,
   item1 p.invert.toNat, item2 p.lossTimeout, item2 p.maxLost, item4 p.maxErrored]

/-- Lines 53 to 63: the test engines. -/
def groupTests (s : State) : List Item :=
  let m := s.march
  let l := s.loop
  marchItems m ++ loopItems l ++
  [m.started, m.passed, m.failed, m.abortedCount, m.reads, m.failedReads, l.started, l.passed, l.failed, l.abortedCount,
   l.strayLines, l.partialLines, l.late, l.sendOrphan].map itemCounter ++
  loopSessionItems l

/-! ### Layout (R174) -/

/-- Lays items out from byte `off` of line `line`: an item that would run past byte 63 begins the next line. An item
is a single field; R174 does not say whether a capture, an entry or a first failure is kept whole (DESIGN CHOICE, log
entry 21). -/
def layout (line off : Nat) : List Item → List (Nat × FieldSpec)
  | [] => []
  | x :: xs =>
    if off + x.width ≤ 64 then (line, ⟨off, x.width, x.value⟩) :: layout line (off + x.width) xs
    else (line + 1, ⟨16, x.width, x.value⟩) :: layout (line + 1) (16 + x.width) xs

/-- Every item of the snapshot with its line and place. -/
def snapshotFields (s : State) : List (Nat × FieldSpec) :=
  layout 0 16 (groupReports s) ++ layout 5 16 (groupLink s) ++ layout 12 16 (groupWindows s) ++
  layout 22 16 (groupPath s) ++ layout 26 16 (groupAdmission s) ++ layout 37 16 (groupTime s) ++
  layout 45 16 (groupIntegrity s) ++ layout 53 16 (groupTests s)

/-- Line `i` of the snapshot of a state, with the snapshot sequence the state holds (R161, R174). -/
def snapshotLine (s : State) (fields : List (Nat × FieldSpec)) (i : Nat) : Line :=
  buildLine ([⟨0, 4, s.rep.snapshotSequence.toNat⟩, ⟨4, 1, i⟩] ++ stampFields 6 12 (timeNow s) ++
    (fields.filter fun f => f.1 == i).map (·.2))

/-! ### Requests (R161) -/

/-- Makes the writes of the lines `i` to 63 in order. -/
def makeSnapshotLines (w : Window) (size : Nat) (captured : State) (fields : List (Nat × FieldSpec)) :
    List Nat → State → State
  | [], s => s
  | i :: rest, s =>
    makeSnapshotLines w size captured fields rest
      (makeReq (windowLine w (size + i)) (.snapshotLine i (snapshotLine captured fields i)) s)

/-- A snapshot starts: the sequence advances, the state is captured, and its lines are made (R161). -/
def startSnapshot (r : Ring) (s : State) : State :=
  let captured := s.updRep fun u => { u with snapshotSequence := u.snapshotSequence + 1 }
  let s1 := captured.updRep fun u => { u with snapshotWriting := true }
  match windowOfKind s .report with
  | some w => makeSnapshotLines w r.size captured (snapshotFields captured) (List.range 64) s1
  | none => s1

/-- Counts a dropped snapshot request. -/
def dropSnapshot (s : State) : State := s.updRep fun u => { u with snapshotDropped := satInc u.snapshotDropped }

/-- A snapshot request (R161). -/
def snapshotRequest (s : State) : State :=
  match s.rep.ring with
  | none => dropSnapshot s
  | some r =>
    if r.releasing then dropSnapshot s
    else if s.rep.snapshotWriting = false then startSnapshot r s
    else if s.rep.snapshotRemembered = false then s.updRep fun u => { u with snapshotRemembered := true }
    else s.updRep fun u => { u with snapshotMerged := satInc u.snapshotMerged }

/-! ### The ring's positions (R157 to R160) -/

/-- A RELEASING ring becomes UNCONFIGURED when W has reached M and no snapshot is being written (R159). -/
def settleRelease (s : State) : State :=
  match s.rep.ring with
  | some r =>
    if r.releasing ∧ r.written = r.made ∧ s.rep.snapshotWriting = false then s.updRep fun u => { u with ring := none }
    else s
  | none => s

/-- An entry write completes: W advances, and the report timer may start (R156, R160). -/
def advanceWritten (now : Nat) (r : Ring) : Ring :=
  let r1 := { r with written := r.written + 1 }
  if visibleUnread r = 0 ∧ 0 < visibleUnread r1 ∧ r.timeoutFlag = false then
    { r1 with timer := some (now + ms r.timeout) }
  else r1

/-- The report unit learns that an entry write has completed. -/
def entryWritten (s : State) : State :=
  settleRelease (s.updRep fun u => { u with ring := u.ring.map (advanceWritten s.now) })

/-- The ring is ACTIVE. -/
def ringActive (s : State) : Bool :=
  match s.rep.ring with
  | some r => !r.releasing
  | none => false

/-- The snapshot unit has no snapshot to write: its state becomes IDLE (R161). -/
def snapshotIdle (s : State) : State :=
  settleRelease (s.updRep fun u => { u with snapshotWriting := false, snapshotRemembered := false })

/-- The last line of a snapshot has completed (R161): a remembered request starts a new one, which captures the state
as it stands, still WRITING, while the ring is ACTIVE; it is dropped while it is not, and the state becomes IDLE (log
entry 23). -/
def snapshotDone (s : State) : State :=
  let s1 := s.updRep fun u => { u with snapshotsWritten := satInc u.snapshotsWritten }
  if s.rep.snapshotRemembered = false then snapshotIdle s1
  else
    match s.rep.ring with
    | some r =>
      if r.releasing then snapshotIdle (dropSnapshot s1)
      else startSnapshot r (s1.updRep fun u => { u with snapshotRemembered := false })
    | none => snapshotIdle (dropSnapshot s1)

end Sys2Proof.Machine
end

