-- ==== Sys2Proof/Machine/Arbiter.lean ====
section
/-! DEFINITION. The load signal and the downstream arbiter (R102 to R106): candidates, the weighted round robin, and the
access each grant issues to the memory port. -/

namespace Sys2Proof.Machine

/-! ### Load signal (R105) -/

/-- LOAD_HIGH by the marks and the port load (R105). -/
def loadNext (p : Path) (load : Nat) : Bool :=
  if p.loadHigh then !decide (load ≤ p.lowMark) else decide (p.highMark ≤ load)

/-- The arbiter evaluates LOAD_HIGH; each change is passed on at once (R105). -/
def evalLoad (s : State) : State :=
  let next := loadNext s.path (portLoad s)
  if next = s.path.loadHigh then s
  else
    loadChanged next (s.updPath fun p =>
      { p with
        loadHigh := next
        loadHighEntries := if next then satInc p.loadHighEntries else p.loadHighEntries })

/-! ### Candidates (R97, R103) -/

/-- The request is a port write made as a read-modify-write (R114). -/
def isRmw (r : Req) : Bool :=
  match r.job with
  | .port _ q _ _ => isPartialWrite q
  | _ => false

/-- A request that is accepted and not yet wholly granted: it stands before the later requests of its port, or of its
priority (R97, R103). The read of an internal partial write, once granted, holds nothing back; its write, once made,
has the place of its write-back in the order made, where R103 and R115 do not say whether it takes a new place (DESIGN
CHOICE, log entry 52). -/
def ungranted (r : Req) : Bool :=
  match r.stage with
  | .forwarded | .waitLine | .waitTable | .draining _ | .ready _ | .writeReady _ _ => true
  | .issued _ => isRmw r
  | .unclassified | .writeIssued _ | .answered _ => false

/-- A request can be granted now. A line of a FILL entry has no read to be granted (R123). -/
def grantable (s : State) (r : Req) : Bool :=
  match r.stage with
  | .ready _ => true
  | .writeReady _ _ => true
  | .draining _ => drained s r && (fillLine s r).isNone && !(r.job == .copyLine && (copyingEntry s).isNone)
  | .unclassified | .forwarded | .waitLine | .waitTable | .issued _ | .writeIssued _ | .answered _ => false

/-- A port's candidate: its oldest accepted request not yet granted, when it is past the lock station (R97). -/
def portCandidate (s : State) (p : Port) : Option Req :=
  match s.path.reqs.find? fun r => isPortReq p r && ungranted r with
  | some r => if grantable s r then some r else none
  | none => none

/-- The priority of an internal source (R103); ports have none. -/
def priorityOf : Job → Nat
  | .copyLine => 1
  | .copyWrite _ => 1
  | .reportEntry _ => 2
  | .snapshotLine _ _ => 2
  | .notice _ _ => 2
  | .writeBack => 2
  | .queryFrame _ _ _ _ => 3
  | .testLine _ _ _ _ => 3
  | .slotDescriptor _ _ => 3
  | .march _ => 4
  | .scrub => 5
  | .port _ _ _ _ => 0

/-- The oldest request of a priority, where it is ready: within one priority, requests are taken in the order they
were made (R103; log entry 20), and a write-back's write in the write-back's place (log entry 52). -/
def internalOf (s : State) (k : Nat) : Option Req :=
  match s.path.reqs.find? fun r => priorityOf r.job == k && ungranted r with
  | some r => if grantable s r then some r else none
  | none => none

/-- The internal queue's candidate (R103). -/
def internalCandidate (s : State) : Option Req := [1, 2, 3, 4, 5].findSome? (internalOf s)

/-- The candidate of a queue. -/
def candidate (s : State) : Queue → Option Req
  | .site => portCandidate s .site
  | .radio => portCandidate s .radio
  | .modem => portCandidate s .modem
  | .internal => internalCandidate s

/-! ### Grants (R102, R104) -/

/-- The queues from the one after the given queue round to itself (R102). -/
def cycleFrom : Queue → List Queue
  | .site => [.radio, .modem, .internal, .site]
  | .radio => [.modem, .internal, .site, .radio]
  | .modem => [.internal, .site, .radio, .modem]
  | .internal => [.site, .radio, .modem, .internal]

/-- A modem read of a descriptor line (R21). -/
def isJudgedRead (p : Port) (r : LineRequest) (win : Option (Nat × Window)) : Bool :=
  match win with
  | some (_, w) => p == .modem && !reqIsWrite r && isDescriptorLine w (reqLine r)
  | none => false

/-- What the first access of a request is at the memory port. -/
def firstAccess : Job → AccessKind
  | .port p r win stamp =>
    if isJudgedRead p r win then .descriptorRead
    else if reqIsWrite r = false then .portRead p
    else if isPartialWrite r then .rmwRead p
    else .portWrite p (writtenData r stamp)
  | .writeBack => .writeBackRead
  | .notice _ d => .noticeWrite d
  | .reportEntry d => .reportWrite d
  | .snapshotLine i d => .snapshotWrite i d
  | .queryFrame _ _ _ d => .queryFrameWrite d
  | .testLine _ _ _ d => .testLineWrite d
  | .slotDescriptor _ d => .slotDescriptorWrite d
  | .march none => .marchRead
  | .march (some d) => .marchWrite d
  | .scrub => .scrubRead
  | .copyLine => .copyRead
  | .copyWrite d => .copyWrite d

/-- What the second access of a request is: the write of a port's or an internal read-modify-write, or a scrub
write-back. The other requests have no second access. -/
def secondAccess (job : Job) (data : Line) : AccessKind :=
  match job with
  | .port p _ _ _ => .rmwWrite p data
  | .scrub => .scrubWrite data
  | .writeBack => .writeBackWrite data
  | .notice _ _ | .reportEntry _ | .snapshotLine _ _ | .queryFrame _ _ _ _ | .testLine _ _ _ _
  | .slotDescriptor _ _ | .march _ | .copyLine | .copyWrite _ => firstAccess job

/-- Issues the access of a granted request to the memory port (R104). -/
def issue (r : Req) (s : State) : State :=
  let add := fun (m : Nat) (k : AccessKind) (t : State) =>
    t.updPath fun p => { p with memPort := p.memPort ++ [⟨r.id, r.line, m, k, true, false⟩] }
  match r.stage with
  | .ready m => add m (firstAccess r.job) (setStage r.id (.issued m) s)
  | .draining m => add m (firstAccess r.job) (setStage r.id (.issued m) s)
  | .writeReady m d => add m (secondAccess r.job d) (setStage r.id (.writeIssued m) s)
  | .unclassified | .forwarded | .waitLine | .waitTable | .issued _ | .writeIssued _ | .answered _ => s

/-- Makes a queue's grant: the count falls by one (R102, R107). -/
def grantTo (q : Queue) (remaining : Nat) (r : Req) (s : State) : State :=
  issue r (s.updPath fun p =>
    { p with
      current := q
      remaining := remaining - 1
      grants := queueSet p.grants q (satInc (queueGet p.grants q)) })

/-- A fresh turn for the first queue of the cycle that has a candidate (R102). -/
def grantNext (s : State) : State :=
  match (cycleFrom s.path.current).findSome? fun q => (candidate s q).map fun r => (q, r) with
  | some (q, r) => grantTo q (queueGet s.path.weights q) r s
  | none => s

/-- One grant (R102). Nothing is issued while the reset line is asserted (R171). -/
def grant (s : State) : State :=
  if s.inReset then s
  else
    match candidate s s.path.current with
    | some r => if 0 < s.path.remaining then grantTo s.path.current s.path.remaining r s else grantNext s
    | none => grantNext s

/-! ### The PORTS record (R106) -/

/-- A weight is 1 to 15. -/
def weightOk (n : Nat) : Bool := decide (1 ≤ n) && decide (n ≤ 15)

/-- The checks of a PORTS record (R106). -/
def portsCheck (d : Line) : RecordOutcome :=
  if weightOk (field d 4 1) && weightOk (field d 5 1) && weightOk (field d 6 1) && weightOk (field d 7 1) &&
      decide (field d 8 1 < field d 9 1) && decide (field d 9 1 ≤ 48) then .applied
  else .range

/-- Applies a PORTS record: LOAD_HIGH is evaluated against the new marks at once (R106). -/
def applyPorts (d : Line) (s : State) : State :=
  evalLoad (s.updPath fun p =>
    { p with
      weights := ⟨field d 4 1, field d 5 1, field d 6 1, field d 7 1⟩
      lowMark := field d 8 1
      highMark := field d 9 1 })

/-- A CLEAR of the PORT group (R107). -/
def clearPorts (s : State) : State :=
  s.updPath fun p =>
    { p with
      ports := ⟨Initial.portCounters, Initial.portCounters, Initial.portCounters⟩
      grants := ⟨0, 0, 0, 0⟩
      loadHighEntries := 0 }

end Sys2Proof.Machine
end

