-- ==== Sys2Proof/Machine/Records.lean ====
section
/-! DEFINITION. The record decoder (R152 to R154) and the records whose checks stand in no other file: WINDOW, TIMING,
TIMESET, SYNTH, MEMTEST, LOOPTEST, FAULT, CLEAR, REPORT and SNAPSHOT. -/

namespace Sys2Proof.Machine

/-! ### WINDOW (R99 to R101) -/

/-- The kinds whose class a WINDOW record must name (R93). -/
def needsClass : WindowKind → Bool
  | .txRing => true
  | .buffer => true
  | .control | .report | .rxRing | .timingRx | .testRx | .partTx | .status | .notice | .spare => false

/-- The size rule of a kind (R93). -/
def sizeOk (k : WindowKind) (n : Nat) : Bool :=
  match k with
  | .partTx => decide (17 ≤ n)
  | .status => n == 1
  | .notice => n == 1
  | .control => n == 1
  | .spare => decide (n ≤ 32)
  | .report | .txRing | .rxRing | .buffer | .timingRx | .testRx => true

/-- The number of windows of a kind that may be defined beside a new one is below this (R93); TX_RING is limited by
class, BUFFER not at all. -/
def kindLimit : WindowKind → Nat
  | .rxRing => 2
  | .txRing => 16
  | .buffer => 16
  | .control | .report | .timingRx | .testRx | .partTx | .status | .notice | .spare => 1

/-- The permission flags of a record; a SPARE window stores all six clear (R94). -/
def permsOf (k : WindowKind) (d : Line) : Permissions :=
  let b := getByte d 7
  if k = .spare then ⟨false, false, false, false, false, false⟩
  else ⟨b.getLsbD 0, b.getLsbD 1, b.getLsbD 2, b.getLsbD 3, b.getLsbD 4, b.getLsbD 5⟩

/-- The window a record of a kind defines (R99). -/
def windowOf (k : WindowKind) (d : Line) : Window where
  kind := k
  base := field d 8 8 / 4096
  size := field d 16 4
  cls := if needsClass k then clsOfCode (field d 6 1) else none
  perms := permsOf k d

/-- The content a record gives its entry: none for NONE. -/
def windowContent (d : Line) : Option Window := (windowKindOfCode (field d 5 1)).map fun k => windowOf k d

/-- The range checks of a record of a kind other than NONE (R99, 3). -/
def windowRange (k : WindowKind) (d : Line) : Bool :=
  let a := field d 8 8
  let n := field d 16 4
  decide (a % 4096 = 0) && decide (1 ≤ n) && decide (n ≤ 65536) && decide (a + n * 4096 ≤ 2 ^ 36) && sizeOk k n &&
    (!needsClass k || decide (field d 6 1 ≤ 4))

/-- The entries other than the one named. -/
def otherWindows (s : State) (i : Nat) : List Window :=
  (List.range 16).filterMap fun j => if j = i then none else windowEntry s j

/-- Two windows share a page. -/
def windowsMeet (a b : Window) : Bool := decide (a.base < b.base + b.size) && decide (b.base < a.base + a.size)

/-- The conflict checks of a new window (R99, 4). -/
def windowConflict (s : State) (i : Nat) (w : Window) : Bool :=
  let others := otherWindows s i
  decide (kindLimit w.kind ≤ (others.filter fun o => o.kind == w.kind).length) ||
    (w.kind == .txRing && others.any fun o => o.kind == .txRing && o.cls == w.cls) ||
    others.any (windowsMeet w)

/-- A line of the window is listed in a held list or lies in the in-flight table. -/
def linesInUse (s : State) (w : Window) : Bool :=
  (s.adm.flight.any fun e => windowCovers w e.line) ||
    allClasses.any fun c => (clsAt s c).held.any fun h => windowCovers w h.line

/-- A replacement of a defined entry is refused with BUSY (R100). -/
def replaceBusy (s : State) (w : Window) : Bool :=
  ((w.kind == .txRing || w.kind == .partTx) && linesInUse s w) ||
    (w.kind == .spare && s.integ.remaps != []) || (w.kind == .report && s.rep.ring.isSome) ||
    fenceMeets s w.base w.size

/-- The BUSY cases of R100 for a record that changes an entry. -/
def windowBusy (s : State) (i : Nat) (new : Option Window) : Bool :=
  (match windowEntry s i with
   | some w => replaceBusy s w
   | none => false) ||
  (match new with
   | some w => fenceMeets s w.base w.size
   | none => false)

/-- The checks of a WINDOW record, in order (R99). -/
def windowCheck (s : State) (d : Line) : RecordOutcome :=
  let i := field d 4 1
  let new := windowContent d
  let rangeBad := match new with
    | some w => !windowRange w.kind d
    | none => decide (field d 5 1 ≠ 0)
  let conflict := match new with
    | some w => windowConflict s i w
    | none => false
  if i = 0 ∨ 15 < i ∨ rangeBad = true then .range
  else if conflict then .conflict
  else if new = windowEntry s i then .applied
  else if windowBusy s i new then .busy
  else .applied

/-- Applies a WINDOW record: a replaced PART_TX window frees its slots and aborts a loopback session (R99, R101). A
notice that waits for its grant when its NOTICE window goes is left to be written to its line; R101 does not say
(DESIGN CHOICE, log entry 51). -/
def applyWindow (d : Line) (s : State) : State :=
  let i := field d 4 1
  let new := windowContent d
  let old := windowEntry s i
  if new = old then s
  else
    let s1 := s.updWindows fun t => t.setIfInBounds i new
    match old with
    | some w => if w.kind = .partTx then abortLoop .window (resetSlots s1) else s1
    | none => s1

/-! ### TIMING, TIMESET and SYNTH (R49, R58, R86) -/

/-- The parameters a TIMING record carries. -/
def timingOf (d : Line) : TimingParams where
  domain := field d 4 1
  queryRate := field d 5 1
  exchangeTimeout := field d 10 2
  pathDifference := signedField d 12 4
  maximumDelay := field d 16 4
  gp := field d 6 1
  gi := field d 7 1
  tStep := field d 20 4
  tTrk := field d 24 4
  k := field d 8 1
  blockTimeout := field d 9 1
  drift := field d 28 2
  holdoverLimit := field d 30 4

/-- A value lies from `lo` to `hi`. -/
def within (lo v hi : Nat) : Bool := decide (lo ≤ v) && decide (v ≤ hi)

/-- The ranges of R86. -/
def timingOk (p : TimingParams) : Bool :=
  within 1 p.queryRate 64 && within 100 p.exchangeTimeout 5000 && decide (|p.pathDifference| ≤ 1000000) &&
    within 1 p.maximumDelay 100000000 && within 1000 p.tStep 100000000 && within 1 p.tTrk 100000000 &&
    within 1 p.k 16 && within 1 p.blockTimeout 60 && within 1 p.drift 10000 &&
    within 1000 p.holdoverLimit 100000000 && decide (p.tTrk ≤ p.tStep)

/-- The check of a TIMING record (R86). -/
def timingCheck (d : Line) : RecordOutcome := if timingOk (timingOf d) then .applied else .range

/-- Applies a TIMING record (R86, R87). -/
def applyTiming (d : Line) (s : State) : State := s.updXfer fun x => { x with params := timingOf d }

/-- The checks of a TIMESET record, in order (R49). -/
def timesetCheck (s : State) (d : Line) : RecordOutcome :=
  if 999999999 < field d 16 4 then .range
  else if qualifiedState s.xfer.state then .busy
  else .applied

/-- Applies a TIMESET record (R49). -/
def applyTimeset (d : Line) (s : State) : State := setCounter (field d 8 6) (field d 16 4) s

/-- The bounds of R57 on the settings, and on 40/N MHz and 40 × M / N MHz. -/
def synthOk (n m p : Nat) : Bool :=
  within 1 n 16 && within 8 m 255 && within 1 p 64 && decide (2 * n ≤ 40) && decide (40 ≤ 20 * n) &&
    decide (600 * n ≤ 40 * m) && decide (40 * m ≤ 1200 * n)

/-- The checks of a SYNTH record, in order (R58). -/
def synthCheck (y : Synth) (d : Line) : RecordOutcome :=
  let n := field d 5 1
  let m := field d 6 1
  let p := field d 7 1
  if synthOk n m p = false then .range
  else if flagField d 4 ∧ y.state ≠ .off ∧ (n ≠ y.n ∨ m ≠ y.m ∨ p ≠ y.p) then .busy
  else .applied

/-- The synthesizer after an applied SYNTH record (R58). The lock timer runs on the oscillator count (R171). -/
def synthAfter (y : Synth) (d : Line) (oscillator : Nat) : Synth :=
  let n := field d 5 1
  let m := field d 6 1
  let p := field d 7 1
  if flagField d 4 = false then ⟨n, m, p, false, .off, none⟩
  else if y.state = .off then ⟨n, m, p, true, .locking, some (oscillator + 80000)⟩
  else y

/-- Applies a SYNTH record (R58). -/
def applySynth (d : Line) (s : State) : State :=
  s.updTime fun t => { t with synth := synthAfter t.synth d s.oscillator }

/-! ### LOOPTEST (R142, R143) -/

/-- The parameters a LOOPTEST START carries. -/
def loopOf (d : Line) : LoopParams where
  frames := field d 8 2
  lines := field d 5 1
  interval := field d 10 2
  seed := field d 6 1
  invert := BitVec.ofNat 8 (field d 7 1)
  lossTimeout := field d 12 2
  maxLost := field d 14 2
  maxErrored := field d 16 4

/-- The checks of a LOOPTEST START, in order (R142). -/
def looptestStartCheck (s : State) (d : Line) : RecordOutcome :=
  let p := loopOf d
  if p.frames = 0 ∨ p.lines = 0 ∨ 16 < p.lines ∨ p.interval = 0 ∨ 10000 < p.interval ∨ p.lossTimeout = 0 ∨
      5000 < p.lossTimeout ∨ 1048560 < p.maxErrored then .range
  else if loopActive s.loop then .busy
  else if s.link.state ≠ .up then .busy
  else if windowOfKind s .testRx = none ∨ windowOfKind s .partTx = none ∨ (clsAt s .s).enabled = false then .conflict
  else .applied

/-- Applies a LOOPTEST START (R143). -/
def applyLooptestStart (d : Line) (s : State) : State :=
  s.updLoop fun l =>
    { l with
      state := .running
      params := loopOf d
      identifier := l.lastIdentifier + 1
      lastIdentifier := l.lastIdentifier + 1
      nextSeq := 0
      outstanding := []
      counts := Initial.loopCounts
      trips := Initial.roundTrips
      outcome := none
      cause := none
      sendTimer := some (s.now + (loopOf d).interval * 4000)
      started := satInc l.started }

/-- The check of a LOOPTEST STOP (R142). -/
def looptestStopCheck (s : State) : RecordOutcome := if loopActive s.loop then .applied else .conflict

/-- A CLEAR of the TEST group, for the loopback engine (R151). -/
def clearLoop (s : State) : State :=
  s.updLoop fun l =>
    { l with
      started := 0
      passed := 0
      failed := 0
      abortedCount := 0
      strayLines := 0
      partialLines := 0
      late := 0
      sendOrphan := 0 }

/-! ### FAULT and CLEAR (R163, R168, R169) -/

/-- Bit `n` of a field's value. -/
def bitOf (v n : Nat) : Bool := v.testBit n

/-- The mode a FAULT record carries for a condition. -/
def faultModeOf (d : Line) (c : Cond) : Option FaultMode := faultModeOfCode (field d (8 + condIndex c) 1 % 16)

/-- The retry length code a FAULT record carries for a condition. -/
def retryCodeOf (d : Line) (c : Cond) : Nat := field d (8 + condIndex c) 1 / 16

/-- The checks of a FAULT record, in order (R169). -/
def faultCheck (d : Line) : RecordOutcome :=
  if 512 ≤ field d 4 2 then .range
  else if allConds.any fun c =>
      bitOf (field d 4 2) (condIndex c) && ((faultModeOf d c).isNone || decide (1 < retryCodeOf d c)) then .range
  else .applied

/-- A selected condition after a FAULT record (R169). -/
def configured (c : Cond) (mode : FaultMode) (long : Bool) (k : Condition) : Condition :=
  { k with
    mode := mode
    longRetry := long
    latched :=
      if mode = .latch then (if k.mode = .latch then k.latched else condIsLevel c && k.raw) else false }

/-- Changes the conditions that a test selects, evaluates the fault line once, and then writes their reports in index
order (R168 to R170). -/
def changeConditions (cause : Nat) (f : Cond → Condition → Condition) (s : State) : State :=
  let s1 := evalFaultLine (s.updFault fun u => allConds.foldl (fun v c => condSet v c (f c (condGet v c))) u)
  allConds.foldl (fun t c => reportFault c (condGet s.fault c) cause t) s1

/-- Applies a FAULT record (R169). -/
def applyFault (d : Line) (s : State) : State :=
  changeConditions 6 (fun c k =>
    if bitOf (field d 4 2) (condIndex c) then
      match faultModeOf d c with
      | some m => configured c m (retryCodeOf d c == 1) k
      | none => k
    else k) s

/-- The check of a CLEAR record (R163). -/
def clearCheck (d : Line) : RecordOutcome := if 32 ≤ field d 4 1 ∨ 512 ≤ field d 6 2 then .range else .applied

/-- A condition selected by a CLEAR: the latch is cleared, and set again at once while a level condition is present
(R168). -/
def clearedLatch (c : Cond) (k : Condition) : Condition :=
  if k.mode = .latch ∧ k.latched = true then { k with latched := condIsLevel c && k.raw } else k

/-- Acts where a bit of the group set is set. -/
def whenBit (groups n : Nat) (f : State → State) (s : State) : State := if bitOf groups n then f s else s

/-- Applies a CLEAR record (R163). -/
def applyClear (d : Line) (s : State) : State :=
  let g := field d 4 1
  let s1 := whenBit g 2 clearAdmission (whenBit g 1 clearPorts (whenBit g 0 clearEcc s))
  let s2 := whenBit g 3 (xferCount fun _ => Initial.transferCounters) s1
  let s3 := whenBit g 4 (fun t => clearLoop (clearMarch t)) s2
  changeConditions 5 (fun c k => if bitOf (field d 6 2) (condIndex c) then clearedLatch c k else k) s3

/-! ### REPORT and SNAPSHOT (R157 to R159, R162) -/

/-- The checks of a REPORT CONFIGURE, in order (R158). -/
def configureCheck (s : State) (d : Line) : RecordOutcome :=
  let n := field d 6 2
  if within 16 n 1024 = false ∨ within 1 (field d 8 2) (n - 1) = false ∨ within 1 (field d 10 2) 1000 = false then
    .range
  else
    match s.rep.ring with
    | some r => if r.releasing = true ∨ r.size ≠ n then .busy else .applied
    | none =>
      match windowOfKind s .report with
      | some w => if 64 * w.size < n + 64 then .conflict else .applied
      | none => .conflict

/-- The ring after a REPORT CONFIGURE (R158). -/
def configuredRing (d : Line) : Option Ring → Ring
  | some r => { r with trigger := field d 8 2, timeout := field d 10 2 }
  | none => ⟨false, field d 6 2, field d 8 2, field d 10 2, 0, 0, 0, false, none⟩

/-- Applies a REPORT CONFIGURE (R158). -/
def applyConfigure (d : Line) (s : State) : State :=
  s.updRep fun u => { u with ring := some (configuredRing d u.ring) }

/-- The position an index names: the present consume position, or the q with C < q ≤ W (R157). -/
def consumePosition (r : Ring) (index : Nat) : Option Nat :=
  if index = r.consumed % r.size then some r.consumed
  else ((List.range (r.written - r.consumed)).map fun i => r.consumed + 1 + i).find? fun q => index = q % r.size

/-- The checks of a REPORT CONSUME, in order (R157). -/
def consumeCheck (s : State) (d : Line) : RecordOutcome :=
  match s.rep.ring with
  | none => .conflict
  | some r => if r.size ≤ field d 12 2 ∨ consumePosition r (field d 12 2) = none then .range else .applied

/-- The ring after C has moved to q; an advancing consume clears the flag and restarts or stops the timer (R157). -/
def consumedTo (q now : Nat) (r : Ring) : Ring :=
  if q = r.consumed then r
  else
    let r1 := { r with consumed := q, timeoutFlag := false }
    { r1 with timer := if 0 < visibleUnread r1 then some (now + ms r.timeout) else none }

/-- Applies a REPORT CONSUME (R157). -/
def applyConsume (d : Line) (s : State) : State :=
  s.updRep fun u =>
    { u with ring := u.ring.map fun r =>
        match consumePosition r (field d 12 2) with
        | some q => consumedTo q s.now r
        | none => r }

/-- The check of a REPORT RELEASE (R159) and of a SNAPSHOT (R162). -/
def ringActiveCheck (s : State) : RecordOutcome := if ringActive s then .applied else .conflict

/-! ### The decoder (R152 to R154) -/

/-- Applies an effect where the checks have passed. -/
def checked (o : RecordOutcome) (f : State → State) (s : State) : RecordOutcome × State :=
  if o = .applied then (.applied, f s) else (o, s)

/-- REMAP (R125): a record that finds the pool empty is refused with the effects of R121. -/
def examineRemap (d : Line) (s : State) : RecordOutcome × State :=
  let a := field d 8 8
  if a % 4096 ≠ 0 ∨ 2 ^ 36 ≤ a then (.range, s)
  else if inSpare s (a / 4096) then (.conflict, s)
  else (remapCheck s d, applyRemap d s)

/-- MEMTEST, by its action code (R129). -/
def examineMemtest (d : Line) (s : State) : RecordOutcome × State :=
  match field d 4 1 with
  | 1 => checked (memtestStartCheck s d) (applyMemtestStart d) s
  | 2 => checked (memtestOtherCheck s) (setManual true) s
  | 3 => checked (memtestOtherCheck s) (setManual false) s
  | 4 => checked (memtestOtherCheck s) applyMemtestStop s
  | _ => (.range, s)

/-- LOOPTEST, by its action code (R142). -/
def examineLooptest (d : Line) (s : State) : RecordOutcome × State :=
  match field d 4 1 with
  | 1 => checked (looptestStartCheck s d) (applyLooptestStart d) s
  | 2 => checked (looptestStopCheck s) (abortLoop .stop) s
  | _ => (.range, s)

/-- REPORT, by its action code (R157 to R159, R173). What RELEASE changes follows its result. -/
def examineReport (d : Line) (s : State) : RecordOutcome × State :=
  match field d 4 1 with
  | 1 => checked (configureCheck s d) (applyConfigure d) s
  | 2 => checked (consumeCheck s d) (applyConsume d) s
  | 3 => (ringActiveCheck s, s)
  | _ => (.range, s)

/-- The kind's own checks, and its application (R153). -/
def examineKind (kind : Nat) (d : Line) (s : State) : RecordOutcome × State :=
  match kind with
  | 0x01 => checked (windowCheck s d) (applyWindow d) s
  | 0x02 => checked (profileCheck s.link d) (applyProfile d) s
  | 0x03 => checked (classCheck s d) (applyClass d) s
  | 0x04 => checked (admitCheck s d) (applyAdmit d) s
  | 0x05 => checked (linkCheck d) (applyLink d) s
  | 0x06 => checked (timingCheck d) (applyTiming d) s
  | 0x07 => checked (timesetCheck s d) (applyTimeset d) s
  | 0x08 => checked (synthCheck s.time.synth d) (applySynth d) s
  | 0x09 => checked (portsCheck d) (applyPorts d) s
  | 0x0A => checked (scrubCheck d) (applyScrub d) s
  | 0x0B => examineRemap d s
  | 0x0C => examineMemtest d s
  | 0x0D => examineLooptest d s
  | 0x0E => checked (faultCheck d) (applyFault d) s
  | 0x0F => checked (clearCheck d) (applyClear d) s
  | 0x10 => examineReport d s
  | 0x11 => checked (ringActiveCheck s) snapshotRequest s
  | _ => (.kind, s)

/-- Counts a marked record by its outcome (R154, R164). -/
def countOutcome (o : RecordOutcome) (s : State) : State :=
  s.updDec fun c =>
    match o with
    | .applied => { c with applied := satInc c.applied }
    | .partialMask => { c with partialMask := satInc c.partialMask }
    | .kind => { c with kind := satInc c.kind }
    | .range => { c with range := satInc c.range }
    | .conflict => { c with conflict := satInc c.conflict }
    | .order => { c with order := satInc c.order }
    | .busy => { c with busy := satInc c.busy }

/-- The RECORD_RESULT of a record, timed at its examination (R154). -/
def recordResult (time : Stamp) (line : Nat) (d : Line) (o : RecordOutcome) (s : State) : State :=
  reportAt time 0x01 [⟨16, 8, lineAddress line⟩, ⟨24, 1, field d 1 1⟩, ⟨25, 1, field d 2 1⟩, ⟨26, 1, outcomeCode o⟩] s

/-- C has caught up with M in an ACTIVE ring (R157). -/
def caughtUp (s : State) : Bool :=
  match s.rep.ring with
  | some r => !r.releasing && r.consumed == r.made
  | none => false

/-- After the result of an applied CONSUME that has caught up, C advances past it (R157). -/
def passResult (s : State) : State :=
  s.updRep fun u => { u with ring := u.ring.map fun r => { r with consumed := r.made } }

/-- After the result of an applied RELEASE, the ring is RELEASING (R159). -/
def releaseRing (s : State) : State :=
  settleRelease (s.updRep fun u => { u with ring := u.ring.map fun r => { r with releasing := true } })

/-- A full-line marked record: its kind's checks, its application, its outcome counter and its result (R153, R154).
The counter is incremented after the application, so the snapshot that a SNAPSHOT record starts does not yet count
that record; R154 and R162 do not say (DESIGN CHOICE, log entry 23). -/
def examineFull (line : Nat) (d : Line) (s : State) : State :=
  let kind := field d 1 1
  let x := examineKind kind d s
  let s1 := countOutcome x.1 x.2
  let s2 := recordResult (timeNow s) line d x.1 s1
  if kind = 0x10 ∧ x.1 = .applied ∧ field d 4 1 = 2 ∧ caughtUp s1 = true then passResult s2
  else if kind = 0x10 ∧ x.1 = .applied ∧ field d 4 1 = 3 then releaseRing s2
  else s2

/-- A write to the control window is a marked record (R152). -/
def isMarkedRecord (mask : BitVec 64) (d : Line) : Bool := covers mask 0 && field d 0 1 == 0xC6

/-- The decoder examines a site write to the control window (R152). `d` is the data as observed (R173). -/
def examineRecord (line : Nat) (mask : BitVec 64) (d : Line) (s : State) : State :=
  if isMarkedRecord mask d = false then s.updDec fun c => { c with ignored := satInc c.ignored }
  else if maskFull mask = false then
    recordResult (timeNow s) line d .partialMask (countOutcome .partialMask s)
  else examineFull line d s

end Sys2Proof.Machine
end

