-- ==== Sys2Proof/Machine/LinePath.lean ====
section
/-! DEFINITION. The line ports (R89 to R98): taking a request, classification and observation, responses, and the
arrival of accesses at the lock station. -/

namespace Sys2Proof.Machine

/-! ### Port counters and answers (R89, R90, R107) -/

/-- Changes the counters of one port (R107). -/
def countPort (p : Port) (f : PortCounters → PortCounters) (s : State) : State :=
  s.updPath fun x => { x with ports := portSet x.ports p (f (portGet x.ports p)) }

/-- The ERROR response to a request: a read carries 64 zero bytes (R89). -/
def errorResponse (r : LineRequest) : Response := ⟨reqTag r, false, if reqIsWrite r then none else some Line.zero⟩

/-- The OKAY response to a write (R89). -/
def okayWrite (r : LineRequest) : Response := ⟨reqTag r, true, none⟩

/-- The OKAY response to a read (R89). -/
def okayRead (r : LineRequest) (d : Line) : Response := ⟨reqTag r, true, some d⟩

/-- A request is answered: its response is kept, it leaves the start drain, and the march goes on where the drain has
ended (R90, R130). -/
def answer (id : Nat) (x : Response) (s : State) : State :=
  marchPump (leaveDrain id (setStage id (.answered x) s))

/-! ### Taking a request (R90) -/

/-- A port takes a request into a free place; while it has none, or under the reset line, the master is stalled (R90,
R105, R107, R171). -/
def takeRequest (p : Port) (r : LineRequest) (s : State) : State :=
  if s.inReset ∨ 16 ≤ occupancy s p then s
  else
    evalLoad (countPort p (fun c =>
      if reqIsWrite r then { c with writes := satInc c.writes } else { c with reads := satInc c.reads })
      (addReq (reqLine r) .unclassified (.port p r none none) s))

/-! ### Classification (R95) -/

/-- What a port's next request turns out to be when it is classified. -/
inductive Sighting where
  /-- It fails parity (R91). -/
  | parity
  /-- It is denied, in the window of an index (R94). -/
  | denied (win : Nat)
  /-- It is refused at the fence (R95). -/
  | fenced
  /-- It is accepted, and these blocks observe it (R96). -/
  | status | statusIgnored
  | txCompletion | clearsReady | overwrite
  | rxCompletion | frame | returned
  | unmarked | refused
  /-- A marked full-line record of a kind, with byte 4, the action code of the kinds that have one. -/
  | record (kind action : Nat)
  /-- It is accepted and no block observes it now. -/
  | plain
  deriving DecidableEq, Repr

/-- The request is permitted by R94. -/
def isPermitted (win : Option (Nat × Window)) (p : Port) (r : LineRequest) : Bool :=
  match win with
  | none => true
  | some (_, w) => w.kind != .spare && permitted w p (reqIsWrite r)

/-- What the write of an accepted request is to the blocks that own its line (R96); `d` is the data as observed. A
modem write to the status line with an empty byte mask counts as ignored, a point R2 leaves open (DESIGN CHOICE, log
entry 41). -/
def sightWrite (p : Port) (w : Window) (line : Nat) (mask : BitVec 64) (d : Line) : Sighting :=
  if w.kind = .control then
    (if p ≠ .site then .plain
     else if isMarkedRecord mask d = false then .unmarked
     else if maskFull mask = false ∨ field d 1 1 = 0 ∨ 0x11 < field d 1 1 then .refused
     else .record (field d 1 1) (field d 4 1))
  else if w.kind = .status ∧ line = windowLine w 0 then
    (if p = .modem ∧ maskFull mask = true then .status else .statusIgnored)
  else if isDescriptorLine w line then
    (if p ≠ .modem then .overwrite
     else if isTxCompletion mask d then .txCompletion
     else if clearsReady mask d then .clearsReady
     else .plain)
  else if p ≠ .modem then .plain
  else if w.kind = .rxRing then (if isRxCompletion mask d then .rxCompletion else .plain)
  else if w.kind = .timingRx then .frame
  else if w.kind = .testRx then .returned
  else .plain

/-- The checks of R91, R94 and R95 in order, and what an accepted request is (R96). -/
def sight (s : State) (p : Port) (r : LineRequest) : Sighting :=
  let win := windowAt s (reqLine r)
  if parityOk r = false then .parity
  else if isPermitted win p r = false then .denied ((win.map (·.1)).getD 0xFF)
  else if fenced s (reqLine r) then .fenced
  else
    match win with
    | none => .plain
    | some (_, w) =>
      if reqIsWrite r then sightWrite p w (reqLine r) (reqMask r) (observedData (reqMask r) (reqData r)) else .plain

/-- The blocks that own the line observe the write (R96): the stamp with which it goes on, where it is stamped (R54),
and the state. -/
def observe (x : Sighting) (w : Window) (r : LineRequest) (s : State) : Option TakenStamp × State :=
  let line := reqLine r
  let mask := reqMask r
  let d := observedData mask (reqData r)
  match x with
  | .status => (none, linkTaken (statusEvent s.now d) false s)
  | .statusIgnored => (none, statusIgnored s)
  | .txCompletion => txCompletion w line d s
  | .clearsReady => (none, unlist line s)
  | .overwrite => (none, overwrite line mask d s)
  | .rxCompletion => rxCompletion d s
  | .frame => (none, frameWrite line mask d s)
  | .returned => (none, s.updLoop (loopLine line mask d))
  | .unmarked => (none, examineRecord line mask d s)
  | .refused => (none, examineRecord line mask d s)
  | .record _ _ => (none, examineRecord line mask d s)
  | .plain => (none, s)
  | .parity => (none, s)
  | .denied _ => (none, s)
  | .fenced => (none, s)

/-- Replaces a request's job and stage. -/
def setReq (id : Nat) (job : Job) (st : Stage) (s : State) : State :=
  s.updPath fun p =>
    { p with reqs := p.reqs.map fun q => if q.id = id then { q with job := job, stage := st } else q }

/-- An accepted request goes on: to the line path, or, for a write with an empty byte mask, to its answer (R95, R98).
-/
def accept (id : Nat) (p : Port) (r : LineRequest) (win : Option (Nat × Window)) (stamp : Option TakenStamp)
    (s : State) : State :=
  if reqIsWrite r ∧ maskEmpty (reqMask r) = true then
    answer id (okayWrite r) (setReq id (.port p r win stamp) .forwarded s)
  else setReq id (.port p r win stamp) .forwarded s

/-- A request that fails parity (R91). -/
def failParity (id : Nat) (p : Port) (r : LineRequest) (s : State) : State :=
  answer id (errorResponse r)
    (raiseCondition .portParity (countPort p (fun c => { c with parity := satInc c.parity }) s))

/-- A denied request: the counter, then the event and the report in either order (R94, R156). -/
def deny (id : Nat) (p : Port) (r : LineRequest) (win : Nat) (s : State) : State :=
  answer id (errorResponse r)
    (unordered [raiseCondition .accessDenied,
      report 0x02 [⟨16, 1, portCode p⟩, ⟨17, 1, flagByte (reqIsWrite r)⟩, ⟨18, 1, win⟩,
        ⟨24, 8, lineAddress (reqLine r)⟩]]
      (countPort p (fun c => { c with denied := satInc c.denied }) s))

/-- A request refused at the fence (R95). -/
def refuseFenced (id : Nat) (p : Port) (r : LineRequest) (s : State) : State :=
  answer id (errorResponse r) (countPort p (fun c => { c with fenced := satInc c.fenced }) s)

/-- The classification of one request, with all that it brings about at once (R91, R94 to R96). -/
def classifyRequest (id : Nat) (p : Port) (r : LineRequest) (s : State) : State :=
  let x := sight s p r
  match x with
  | .parity => failParity id p r s
  | .denied win => deny id p r win s
  | .fenced => refuseFenced id p r s
  | .plain | .status | .statusIgnored | .txCompletion | .clearsReady | .overwrite | .rxCompletion | .frame
  | .returned | .unmarked | .refused | .record _ _ =>
    match windowAt s (reqLine r) with
    | none => accept id p r none none s
    | some (i, w) =>
      let y := observe x w r s
      accept id p r (some (i, w)) y.1 y.2

/-- A modem descriptor read still holds back the port's classification (R96). -/
def holdsClassification (r : Req) : Bool :=
  match r.job, r.stage with
  | .port _ _ _ _, .unclassified => false
  | .port _ _ _ _, .answered _ => false
  | .port p q win _, _ => isJudgedRead p q win
  | _, _ => false

/-- The port's next request to be classified, where classification is not held back (R96). -/
def nextRequest (s : State) (p : Port) : Option (Nat × LineRequest) :=
  if s.inReset || (portQueue s p).any holdsClassification then none
  else
    (portQueue s p).findSome? fun r =>
      match r.job, r.stage with
      | .port _ q _ _, .unclassified => some (r.id, q)
      | _, _ => none

/-- A port classifies its next request where it is of the given sort; otherwise nothing happens. -/
def classifyWhen (sort : Sighting → Bool) (p : Port) (s : State) : State :=
  match nextRequest s p with
  | some (id, r) => if sort (sight s p r) then classifyRequest id p r s else s
  | none => s

/-! ### Responses (R90) -/

/-- The response of a port's oldest request, where it has been answered (R90). -/
def oldestAnswer (s : State) (p : Port) : Option (Nat × Response) :=
  match portQueue s p with
  | r :: _ =>
    match r.stage with
    | .answered x => some (r.id, x)
    | _ => none
  | [] => none

/-- A port returns the response of its oldest request: the place is freed and the load evaluated (R90, R105). -/
def returnResponse (p : Port) (s : State) : State :=
  match oldestAnswer s p with
  | some (id, x) =>
    evalLoad ((dropReq id s).updPath fun q => { q with lastResponse := portSet q.lastResponse p (some x) })
  | none => s

/-! ### The lock station (R113, R123) -/

/-- The copy engine's line of a FILL entry that is ready for its write. -/
def fillReady (s : State) : Option (Nat × RemapEntry) :=
  s.path.reqs.findSome? fun r => (fillLine s r).map fun e => (r.id, e)

/-- The copy engine's write of zeros for a FILL entry is made and reaches the station (R123). -/
def fillArrival (s : State) : State :=
  match fillReady s with
  | some (id, e) =>
    let s1 := copyData id e Line.zero s
    match headOf s1 .copy with
    | some r => takeStation r s1
    | none => s1
  | none => s

/-- The next access of a source reaches the lock station, where nothing of that source waits there before it (R113).
-/
def arrive (who : Station) (s : State) : State :=
  if s.inReset then s
  else
    match headOf s who with
    | some r => if r.stage = .forwarded then takeStation r s else s
    | none => if who = .copy then fillArrival s else s

end Sys2Proof.Machine
end

