-- ==== Sys2Proof/Machine/MemoryPort.lean ====
section
/-! DEFINITION. Completions at the memory port (R98, R104, R108 to R117, R123, R133, R134, R156, R161): the access at
its head completes, DRAM takes a write, and the source of the access learns the outcome. -/

namespace Sys2Proof.Machine

/-- The access that completes next (R104). -/
def portHead (s : State) : Option Access := s.path.memPort.head?

/-- The access at the head leaves the memory port. Where its request is gone, nothing else tells the march test of its
completion: it leaves the start drain, and the march goes on (R130, R133). -/
def popHead (s : State) : State :=
  let s1 := s.updPath fun p => { p with memPort := p.memPort.drop 1 }
  match portHead s with
  | some a => if a.live then s1 else marchPump (leaveDrain a.id s1)
  | none => s1

/-- What the memory holds for an access, as last written. -/
def stored (s : State) (a : Access) : Line := dramRead s.dram a.memLine

/-- The flipped bits of the line an access reads: those that stand, and those it finds new (R108). -/
def flipsMet (f : LineFlips) (a : Access) (s : State) : Flips := standingFlips (flipsRead s.flips a.memLine) f

/-- What the code makes of the line an access reads (R108). -/
def lineRead (f : LineFlips) (a : Access) (s : State) : EccObs := lineMet (flipsMet f a s) (stored s a) f

/-- The read at the head leaves the memory port. It does not rewrite memory: the flipped bits stay until a write
covers the line (R108). -/
def popRead (f : LineFlips) (a : Access) (s : State) : State :=
  (popHead s).updFlips fun m => flipsWrite m a.memLine (flipsMet f a s)

/-- A write completes in DRAM. -/
def commit (a : Access) (data : Line) (s : State) : State := storeLine a.memLine data s

/-- The port request an access belongs to, where the port still holds it (R107). -/
def portRequestOf (s : State) (a : Access) : Option LineRequest :=
  if a.live then
    match findReq s a.id with
    | some r =>
      match r.job with
      | .port _ q _ _ => some q
      | _ => none
    | none => none
  else none

/-- A request of the internal requester ends: it leaves the queue and the start drain (R130). -/
def finishInternal (id : Nat) (s : State) : State := marchPump (dropReq id s)

/-! ### Port reads (R98, R109 to R112) -/

/-- The outcome of a read whose requester is gone: it is counted and acted on (R107, R126), but for a read issued
before POWER_ON, whose work is gone (R126). -/
def orphanOutcome (source : IntegritySource) (a : Access) (o : EccObs) (s : State) : State :=
  if a.gone then s else takeOutcome source a.line a.memLine o s

/-- A read for a port or an internal partial write whose requester is gone: a read of a marked line has no outcome
(R112). -/
def orphanRead (source : IntegritySource) (a : Access) (o : EccObs) (s : State) : State :=
  if isMarked s a.line then s else orphanOutcome source a o s

/-- A read of a port completes; `deliver` says what an OKAY read's data become on their way to the master, and what
that does. The reports that the outcome makes come before those that `deliver` makes (a CORRECTED descriptor read that
is rejected or held); the manual gives no order of them (DESIGN CHOICE, log entry 43). -/
def completeRead (p : Port) (a : Access) (o : EccObs) (deliver : Line → State → Line × State) (s : State) : State :=
  match portRequestOf s a with
  | none => orphanRead (.port p) a o s
  | some r =>
    if isMarked s a.line then answer a.id (errorResponse r) (countMarkedRead s)
    else
      let s1 := takeOutcome (.port p) a.line a.memLine o s
      if lineOutcome o = .uncorrectable then answer a.id (errorResponse r) s1
      else
        let y := deliver (deliveredLine o (stored s a)) s1
        answer a.id (okayRead r y.1) y.2

/-- PORT_READ_COMPLETE. -/
def portReadDone (f : LineFlips) (s : State) : State :=
  match portHead s with
  | some a =>
    match a.kind with
    | .portRead p => completeRead p a (lineRead f a s) (fun d t => (d, t)) (popRead f a s)
    | _ => s
  | none => s

/-- The window with which a request was classified (R95). -/
def windowOfAccess (s : State) (a : Access) : Option (Nat × Window) :=
  match findReq s a.id with
  | some r =>
    match r.job with
    | .port _ _ win _ => win
    | _ => none
  | none => none

/-- The stamp that goes on in the data of an access's request (R54). -/
def stampOfAccess (s : State) (a : Access) : Option TakenStamp :=
  match findReq s a.id with
  | some r =>
    match r.job with
    | .port _ _ _ stamp => stamp
    | _ => none
  | none => none

/-- DESCRIPTOR_READ_JUDGED. -/
def descriptorDone (f : LineFlips) (s : State) : State :=
  match portHead s with
  | some a =>
    match a.kind with
    | .descriptorRead =>
      completeRead .modem a (lineRead f a s) (fun d t =>
        match windowOfAccess s a with
        | some (i, w) => judge i w a.line d t
        | none => (d, t)) (popRead f a s)
    | _ => s
  | none => s

/-! ### Port writes (R98, R112, R114) -/

/-- PORT_WRITE_COMPLETE. -/
def portWriteDone (s : State) : State :=
  match portHead s with
  | some a =>
    match a.kind with
    | .portWrite _ d =>
      let s1 := unmark a.line (commit a d (popHead s))
      match portRequestOf s a with
      | some r => answer a.id (okayWrite r) s1
      | none => s1
    | _ => s
  | none => s

/-- RMW_READ_COMPLETE. -/
def rmwReadDone (f : LineFlips) (s : State) : State :=
  match portHead s with
  | some a =>
    match a.kind with
    | .rmwRead p =>
      let o := lineRead f a s
      let s0 := popRead f a s
      match portRequestOf s a with
      | none => orphanRead (.port p) a o s0
      | some r =>
        if isMarked s a.line then answer a.id (errorResponse r) (releaseLock a.line (countMarkedRead s0))
        else
          let s1 := takeOutcome (.port p) a.line a.memLine o s0
          if lineOutcome o = .uncorrectable then answer a.id (errorResponse r) (releaseLock a.line s1)
          else
            setStage a.id
              (.writeReady a.memLine
                (mergeLine (writtenMask r (stampOfAccess s a)) (writtenData r (stampOfAccess s a))
                  (deliveredLine o (stored s a)))) s1
    | _ => s
  | none => s

/-- RMW_WRITE_COMPLETE. -/
def rmwWriteDone (s : State) : State :=
  match portHead s with
  | some a =>
    match a.kind with
    | .rmwWrite _ d =>
      let s1 := commit a d (popHead s)
      match portRequestOf s a with
      | some r => answer a.id (okayWrite r) (releaseLock a.line s1)
      | none => s1
    | _ => s
  | none => s

/-! ### Writes of the internal requester (R97, R112, R115, R156, R161) -/

/-- INTERNAL_PARTIAL_READ_COMPLETE. -/
def writeBackReadDone (f : LineFlips) (s : State) : State :=
  match portHead s with
  | some a =>
    match a.kind with
    | .writeBackRead =>
      let o := lineRead f a s
      let s0 := popRead f a s
      let stop := fun t : State => marchPump (releaseLock a.line (dropReq a.id t))
      if a.live = false then orphanRead .internalPartial a o s0
      else if isMarked s a.line then stop (countMarkedRead s0)
      else
        let s1 := takeOutcome .internalPartial a.line a.memLine o s0
        if lineOutcome o = .uncorrectable then stop s1
        else
          setStage a.id
            (.writeReady a.memLine (mergeLine writeBackMask writeBackData (deliveredLine o (stored s a)))) s1
    | _ => s
  | none => s

/-- A write with the part's own content completes: the line's mark leaves the set, and the source goes on (R112). -/
def ownWrite (a : Access) (d : Line) (next : State → State) (s : State) : State :=
  let s1 := unmark a.line (commit a d (popHead s))
  if a.live then next (finishInternal a.id s1) else s1

/-- INTERNAL_WRITE_COMPLETE. -/
def internalWriteDone (s : State) : State :=
  match portHead s with
  | some a =>
    match a.kind with
    | .noticeWrite d => ownWrite a d id s
    | .slotDescriptorWrite d => ownWrite a d id s
    | .writeBackWrite d =>
      let s1 := commit a d (popHead s)
      if a.live then marchPump (releaseLock a.line (dropReq a.id s1)) else s1
    | _ => s
  | none => s

/-- Writes a slot's descriptor once its frame is in memory (R69, R145). -/
def makeDescriptor (slot kind length sequence buffer : Nat) (s : State) : State :=
  match windowOfKind s .partTx with
  | some w => makeReq (windowLine w slot)
      (.slotDescriptor slot (slotDescriptorLine kind length sequence (lineAddress buffer))) s
  | none => s

/-- QUERY_FRAME_WRITE_COMPLETE. -/
def queryFrameDone (s : State) : State :=
  match portHead s with
  | some a =>
    match a.kind with
    | .queryFrameWrite d =>
      ownWrite a d (fun t =>
        match findReq s a.id with
        | some r =>
          match r.job with
          | .queryFrame j _ q _ => makeDescriptor j 1 64 q.toNat a.line t
          | _ => t
        | none => t) s
    | _ => s
  | none => s

/-- Buffer lines of a slot's test frame that have not completed. They are told by the slot alone: where the slot is
posted again while lines of its earlier frame wait, those lines hold the descriptor back too, and the last line to
complete makes the one descriptor, with its own frame's sequence. R145 speaks of one frame (DESIGN CHOICE, log entry
55). -/
def testLinesLeft (s : State) (slot : Nat) : Bool :=
  s.path.reqs.any fun r =>
    match r.job with
    | .testLine j _ _ _ => j == slot
    | _ => false

/-- The first line of a slot's buffer group; callers use it while the PART_TX window is defined. -/
def slotBufferLine (s : State) (slot : Nat) : Nat :=
  match windowOfKind s .partTx with
  | some w => slotBuffer w slot
  | none => 0

/-- TEST_FRAME_WRITE_COMPLETE: the descriptor follows the last of the frame's lines. -/
def testLineDone (s : State) : State :=
  match portHead s with
  | some a =>
    match a.kind with
    | .testLineWrite d =>
      ownWrite a d (fun t =>
        match findReq s a.id with
        | some r =>
          match r.job with
          | .testLine j q lines _ =>
            if testLinesLeft t j then t else makeDescriptor j 2 (64 * lines) q.toNat (slotBufferLine t j) t
          | _ => t
        | none => t) s
    | _ => s
  | none => s

/-- REPORT_ENTRY_WRITE_COMPLETE. -/
def reportWriteDone (s : State) : State :=
  match portHead s with
  | some a =>
    match a.kind with
    | .reportWrite d => ownWrite a d entryWritten s
    | _ => s
  | none => s

/-- SNAPSHOT_LINE_WRITE_COMPLETE. -/
def snapshotWriteDone (s : State) : State :=
  match portHead s with
  | some a =>
    match a.kind with
    | .snapshotWrite i d => ownWrite a d (fun t => if i = 63 then snapshotDone t else t) s
    | _ => s
  | none => s

/-! ### Scrubber and copy engine (R117, R123, R124) -/

/-- SCRUB_READ_COMPLETE. -/
def scrubReadDone (f : LineFlips) (s : State) : State :=
  match portHead s with
  | some a =>
    match a.kind with
    | .scrubRead =>
      let o := lineRead f a s
      if a.live = false then orphanOutcome .scrubber a o (popRead f a s)
      else
        let s1 := takeOutcome .scrubber a.line a.memLine o (popRead f a s)
        if lineOutcome o = .corrected then setStage a.id (.writeReady a.memLine (deliveredLine o (stored s a))) s1
        else scrubEnd a.id a.line s1
    | _ => s
  | none => s

/-- SCRUB_WRITEBACK_COMPLETE. -/
def scrubWriteDone (s : State) : State :=
  match portHead s with
  | some a =>
    match a.kind with
    | .scrubWrite d =>
      let s1 := commit a d (popHead s)
      if a.live = false then s1
      else scrubEnd a.id a.line (integCount (fun c => { c with scrubCorrected := satInc c.scrubCorrected }) s1)
    | _ => s
  | none => s

/-- COPY_READ_COMPLETE. Where the entry is abandoned, the MEM_UNCORRECTABLE event and report come before the
REMAP_ABANDONED report; the manual gives no order of them (DESIGN CHOICE, log entry 43). -/
def copyReadDone (f : LineFlips) (s : State) : State :=
  match portHead s with
  | some a =>
    match a.kind with
    | .copyRead =>
      let o := lineRead f a s
      if a.live = false then orphanOutcome .copyEngine a o (popRead f a s)
      else
        let s1 := takeOutcome .copyEngine a.line a.memLine o (popRead f a s)
        match copyingEntry s1 with
        | some e =>
          if lineOutcome o ≠ .uncorrectable then copyData a.id e (deliveredLine o (stored s a)) s1
          else if isMarked s1 a.line then copyData a.id e Line.zero s1
          else abandonCopy a.id e s1
        | none => s1
    | _ => s
  | none => s

/-- COPY_WRITE_COMPLETE. -/
def copyWriteDone (s : State) : State :=
  match portHead s with
  | some a =>
    match a.kind with
    | .copyWrite d =>
      let s1 := commit a d (popHead s)
      match a.live, copyingEntry s1 with
      | true, some e => copyAdvance a.id e s1
      | _, _ => s1
    | _ => s
  | none => s

/-! ### March (R133, R134, R137) -/

/-- MARCH_READ_COMPLETE. -/
def marchReadDone (f : LineFlips) (s : State) : State :=
  match portHead s with
  | some a =>
    match a.kind with
    | .marchRead =>
      let o := lineRead f a s
      let s0 := popRead f a s
      if a.live = false then s0
      else
        let s1 := (dropReq a.id s0).updMarch (checkRead a.line o (deliveredLine o (stored s a)))
        if isLastRead s.march then endMarch s1 else marchPump (s1.updMarch afterRead)
    | _ => s
  | none => s

/-- MARCH_WRITE_COMPLETE. -/
def marchWriteDone (s : State) : State :=
  match portHead s with
  | some a =>
    match a.kind with
    | .marchWrite d =>
      let s1 := commit a d (popHead s)
      if a.live = false then s1 else marchPump ((dropReq a.id s1).updMarch nextLine)
    | _ => s
  | none => s

end Sys2Proof.Machine
end

