-- ==== Sys2Proof/Machine/ResetRows.lean ====
section
/-! DEFINITION. Meanings of the rows POWER_ON to TOD_MESSAGE_END: the two resets (R171), the oscillator period and the
rollover (R45, R55), the end of a pulse and of a time-of-day message (R55, R56). -/

namespace Sys2Proof.Machine

/-! ### The reset line (R171, and the reset values of every chapter) -/

/-- The time unit at the reset line: the epoch increments, the counters are zeroed, the rest is kept (R44, R46, R51,
R55 to R57, R60). -/
def resetTime (t : TimeUnit) (freq : Int) : TimeUnit :=
  { t with
    freq := freq
    epoch := t.epoch + 1
    stampsValid := 0
    stampsInvalid := 0
    phaseSteps := 0
    stepsClamped := 0
    timesets := 0
    todReplaced := 0 }

/-- The timing state that the reset line leaves (R80). -/
def resetTiming : TimingState → TimingState
  | .track => .holdover
  | .holdover => .holdover
  | .freerun => .freerun
  | .acquire => .freerun

/-- The time transfer engine at the reset line (R63, R65, R68, R69, R77, R79, R80, R86, R88). -/
def resetXfer (x : Transfer) : Transfer :=
  { x with
    pendingTable := []
    exchanges := []
    queryTimer := none
    querySeq := 0
    slots := Vector.replicate 64 .free
    ringPointer := 0
    block := []
    state := resetTiming x.state
    runCount := 0
    holdoverAge := if x.state = .holdover then x.holdoverAge else 0
    blockTimer := none
    counters := Initial.transferCounters }

/-- The window table at the reset line: entry 0 and a SPARE window stay (R92). -/
def resetWindows (t : Vector (Option Window) 16) : Vector (Option Window) 16 :=
  t.map fun e =>
    match e with
    | some w => if w.kind = .control ∨ w.kind = .spare then some w else none
    | none => none

/-- The accesses issued to the memory port, which no request waits for any more: they complete there without a
response (R107). -/
def orphaned (l : List Access) : List Access := l.map fun a => { a with live := false }

/-- The line path at the reset line: every request and wait is gone; the accesses already issued complete without a
response (R107, R113, R126). -/
def resetPath (p : Path) : Path :=
  { Initial.path with
    nextId := p.nextId
    memPort := orphaned p.memPort
    lastResponse := p.lastResponse }

/-- The integrity unit at the reset line: the marked line set and the remap table stay (R109, R111, R116, R119, R120,
R127). -/
def resetInteg (u : Integrity) : Integrity := { Initial.integ with marked := u.marked, remaps := u.remaps }

/-- The state once the reset line is asserted. -/
def underReset (s : State) : State :=
  { s with
    inReset := true
    now := 0
    link := Initial.link
    adm := Initial.adm
    time := resetTime s.time (if s.xfer.state = .track then holdoverFreq s.xfer.history s.time.freq else s.time.freq)
    xfer := resetXfer s.xfer
    windows := resetWindows s.windows
    path := resetPath s.path
    integ := resetInteg s.integ
    march := Initial.march
    loop := { Initial.loop with lastIdentifier := s.loop.lastIdentifier }
    dec := Initial.dec
    rep := Initial.rep
    fault := Initial.fault }

/-- The interval timers that start at the end of each reset (R19, R47, R67, R117). -/
def startTimers (s : State) : State :=
  { s with
    inReset := false
    now := 0
    adm := { s.adm with refillTimer := some 40000 }
    xfer := { s.xfer with queryTimer := some (queryPeriod s.xfer.params) }
    integ := { s.integ with scrubber := { s.integ.scrubber with timer := some 40000 } } }

/-- Each level condition whose source is present is taken as a change to present, in index order (R165). -/
def takeLevels (s : State) : State :=
  setLevel .congestion (anyCongested s)
    (setLevel .timingUnqualified (!qualifiedState s.xfer.state)
      (setLevel .linkDegraded (s.link.state == .degraded) (setLevel .linkDown (isDown s.link.state) s)))

/-- The accesses issued before POWER_ON: they complete in DRAM without a response (R107), and the work they belonged
to is gone (R126). -/
def abandoned (l : List Access) : List Access := l.map fun a => { a with live := false, gone := true }

/-- POWER_ON (R171). Accesses already issued to the memory port complete there (R107, R126; log entry 42); the queue
of commands and the model's two counts are its own and stay. Where the reset line is asserted, the part leaves it: the
manual does not say whether it then stands in that reset (DESIGN CHOICE, log entry 12). -/
def execPowerOn (straps : BitVec 2) (s : State) : Host.Outcome State Fault Refusal :=
  .next { State.atPowerOn straps with
    pending := s.pending
    freeUses := s.freeUses
    path := { Initial.path with nextId := s.path.nextId, memPort := abandoned s.path.memPort } }

/-- How many oscillator periods wait in the queue before the deassertion of the reset line; none where the queue shows
no deassertion, or a POWER_ON before it. -/
def periodsAsserted : List Instr → Option Nat
  | [] => none
  | .resetLineDeassert :: _ => some 0
  | .powerOn _ :: _ => none
  | .oscillatorPeriod :: l => (periodsAsserted l).map (· + 1)
  | .rollover :: l => (periodsAsserted l).map (· + 1)
  | _ :: l => periodsAsserted l

/-- The assertion of the reset line made now is shorter than 1 µs (R171): its end waits in the queue with fewer
periods before it (DESIGN CHOICE, log entry 12). -/
def shortAssertion (s : State) : Bool :=
  match periodsAsserted s.pending with
  | some n => decide (n < Config.periodsPerUs)
  | none => false

/-- RESET_LINE_ASSERT (R171). An assertion shorter than 1 µs may be taken or not taken at all, and a free value says
which; taken, its effects are those of a full one. Asserting an asserted line changes nothing (log entry 12). -/
def execResetLineAssert (s : State) : Host.Outcome State Fault Refusal :=
  .next
    (if s.inReset then s
     else if shortAssertion s then
       let s1 := s.setFreeUses (s.freeUses + 1)
       if Config.pulseTaken s.freeUses then underReset s1 else s1
     else underReset s)

/-- RESET_LINE_DEASSERT (R171): the timers start, the level conditions are taken, and a copy resumes at its pointer
(R126). -/
def execResetLineDeassert (s : State) : Host.Outcome State Fault Refusal :=
  .next (if s.inReset then copyPump (takeLevels (startTimers s)) else s)

/-! ### The oscillator (R45, R47, R55, R56) -/

/-- What a rollover brings about, in order: the pulse, the engine's count of it, the snapshot request, the time-of-day
message (R55, R56, R84, R176). The snapshot is captured before the message, so TOD_REPLACED in it does not yet count a
message that this rollover replaces; the manual gives no order of the two (DESIGN CHOICE, log entry 13). -/
def rolledOver (s : State) : State :=
  let s1 := snapshotRequest (timingPulse (startPulse s))
  sendTod (todMessage s1) s1

/-- One oscillator period, with its rollover where it carries (R45). The interval time stands still while the reset
line is asserted (R47, R171). -/
def onePeriod (s : State) : State :=
  let s1 := (s.setOscillator (s.oscillator + 1)).setNow (if s.inReset then s.now else s.now + 1)
  let s2 := s1.updTime addPeriod
  if willRollOver s.time then rolledOver s2 else s2

/-- OSCILLATOR_PERIOD (R45). -/
def execOscillatorPeriod (s : State) : Host.Outcome State Fault Refusal := .next (onePeriod s)

/-- ROLLOVER (R55): the period that carries; where the next period does not carry, nothing happens (log entry 6). -/
def execRollover (s : State) : Host.Outcome State Fault Refusal :=
  .next (if willRollOver s.time then onePeriod s else s)

/-- PULSE_END (R55): 100 ms after the rollover the line is deasserted. -/
def execPulseEnd (s : State) : Host.Outcome State Fault Refusal :=
  .next (if due s.time.pulse s.oscillator then s.updTime fun t => { t with pulse := none } else s)

/-- TOD_MESSAGE_END (R56). -/
def execTodMessageEnd (s : State) : Host.Outcome State Fault Refusal := .next (if todDone s then endTod s else s)

end Sys2Proof.Machine
end

