-- ==== Sys2Proof/Machine/PortRows.lean ====
section
/-! DEFINITION. Meanings of the rows LINE_REQUEST_TAKEN to LOCK_STATION_ARRIVAL, and of RESPONSE_RETURNED. The rows that
name one sort of request act where the port's next request is of that sort, and then do all of its classification
(log entry 7). -/

namespace Sys2Proof.Machine

/-- LINE_REQUEST_TAKEN (R90). -/
def execLineRequestTaken (p : Port) (r : LineRequest) (s : State) : Host.Outcome State Fault Refusal :=
  .next (takeRequest p r s)

/-- REQUEST_CLASSIFIED (R95): the next request of a port, whatever it is. -/
def execRequestClassified (p : Port) (s : State) : Host.Outcome State Fault Refusal :=
  .next (classifyWhen (fun _ => true) p s)

/-- STATUS_WRITE (R5). -/
def execStatusWrite (s : State) : Host.Outcome State Fault Refusal := .next (classifyWhen (· == .status) .modem s)

/-- TX_COMPLETION (R29). -/
def execTxCompletion (s : State) : Host.Outcome State Fault Refusal :=
  .next (classifyWhen (· == .txCompletion) .modem s)

/-- DESCRIPTOR_OVERWRITE (R33), by the site or the radio port. -/
def execDescriptorOverwrite (p : Port) (s : State) : Host.Outcome State Fault Refusal :=
  .next (classifyWhen (· == .overwrite) p s)

/-- RX_COMPLETION (R37). -/
def execRxCompletion (s : State) : Host.Outcome State Fault Refusal :=
  .next (classifyWhen (· == .rxCompletion) .modem s)

/-- FRAME_WRITE (R62). -/
def execFrameWrite (s : State) : Host.Outcome State Fault Refusal := .next (classifyWhen (· == .frame) .modem s)

/-- RETURNED_LINE (R147). -/
def execReturnedLine (s : State) : Host.Outcome State Fault Refusal := .next (classifyWhen (· == .returned) .modem s)

/-- ARBITER_GRANT (R102). -/
def execArbiterGrant (s : State) : Host.Outcome State Fault Refusal := .next (grant s)

/-- LOCK_STATION_ARRIVAL (R113). -/
def execLockStationArrival (who : Station) (s : State) : Host.Outcome State Fault Refusal := .next (arrive who s)

/-- RESPONSE_RETURNED (R90). -/
def execResponseReturned (p : Port) (s : State) : Host.Outcome State Fault Refusal := .next (returnResponse p s)

end Sys2Proof.Machine
end

