-- ==== Sys2Proof/Machine/MemoryRows.lean ====
section
/-! DEFINITION. Meanings of the rows PORT_READ_COMPLETE to MARCH_WRITE_COMPLETE: each acts where the access at the head
of the memory port is of its kind (log entry 8). -/

namespace Sys2Proof.Machine

/-- PORT_READ_COMPLETE (R98). -/
def execPortReadComplete (f : LineFlips) (s : State) : Host.Outcome State Fault Refusal := .next (portReadDone f s)

/-- PORT_WRITE_COMPLETE (R98). -/
def execPortWriteComplete (s : State) : Host.Outcome State Fault Refusal := .next (portWriteDone s)

/-- DESCRIPTOR_READ_JUDGED (R21). -/
def execDescriptorReadJudged (f : LineFlips) (s : State) : Host.Outcome State Fault Refusal :=
  .next (descriptorDone f s)

/-- RMW_READ_COMPLETE (R114). -/
def execRmwReadComplete (f : LineFlips) (s : State) : Host.Outcome State Fault Refusal := .next (rmwReadDone f s)

/-- RMW_WRITE_COMPLETE (R114). -/
def execRmwWriteComplete (s : State) : Host.Outcome State Fault Refusal := .next (rmwWriteDone s)

/-- INTERNAL_PARTIAL_READ_COMPLETE (R115). -/
def execInternalPartialReadComplete (f : LineFlips) (s : State) : Host.Outcome State Fault Refusal :=
  .next (writeBackReadDone f s)

/-- INTERNAL_WRITE_COMPLETE (R97). -/
def execInternalWriteComplete (s : State) : Host.Outcome State Fault Refusal := .next (internalWriteDone s)

/-- QUERY_FRAME_WRITE_COMPLETE (R69). -/
def execQueryFrameWriteComplete (s : State) : Host.Outcome State Fault Refusal := .next (queryFrameDone s)

/-- TEST_FRAME_WRITE_COMPLETE (R145). -/
def execTestFrameWriteComplete (s : State) : Host.Outcome State Fault Refusal := .next (testLineDone s)

/-- REPORT_ENTRY_WRITE_COMPLETE (R156). -/
def execReportEntryWriteComplete (s : State) : Host.Outcome State Fault Refusal := .next (reportWriteDone s)

/-- SNAPSHOT_LINE_WRITE_COMPLETE (R161). -/
def execSnapshotLineWriteComplete (s : State) : Host.Outcome State Fault Refusal := .next (snapshotWriteDone s)

/-- SCRUB_READ_COMPLETE (R117). -/
def execScrubReadComplete (f : LineFlips) (s : State) : Host.Outcome State Fault Refusal := .next (scrubReadDone f s)

/-- SCRUB_WRITEBACK_COMPLETE (R117). -/
def execScrubWritebackComplete (s : State) : Host.Outcome State Fault Refusal := .next (scrubWriteDone s)

/-- COPY_READ_COMPLETE (R123). -/
def execCopyReadComplete (f : LineFlips) (s : State) : Host.Outcome State Fault Refusal := .next (copyReadDone f s)

/-- COPY_WRITE_COMPLETE (R123). -/
def execCopyWriteComplete (s : State) : Host.Outcome State Fault Refusal := .next (copyWriteDone s)

/-- MARCH_READ_COMPLETE (R134). -/
def execMarchReadComplete (f : LineFlips) (s : State) : Host.Outcome State Fault Refusal := .next (marchReadDone f s)

/-- MARCH_WRITE_COMPLETE (R133). -/
def execMarchWriteComplete (s : State) : Host.Outcome State Fault Refusal := .next (marchWriteDone s)

end Sys2Proof.Machine
end

