-- ==== Sys2Proof/Machine/TimerRows.lean ====
section
/-! DEFINITION. Meanings of the rows STATUS_TIMER_EXPIRY to RETRY_TIMER_EXPIRY: each acts where its timer runs and has
reached its deadline (log entry 9). -/

namespace Sys2Proof.Machine

/-- STATUS_TIMER_EXPIRY (R6). -/
def execStatusTimerExpiry (s : State) : Host.Outcome State Fault Refusal :=
  .next (if due s.link.statusTimer s.now then linkTaken statusTimerEvent false s else s)

/-- RESTORE_HOLD_EXPIRY (R7). -/
def execRestoreHoldExpiry (s : State) : Host.Outcome State Fault Refusal :=
  .next (if due s.link.restoreTimer s.now ∧ s.link.state = .restoring then linkTaken restoreEvent false s else s)

/-- UPSHIFT_HOLD_EXPIRY (R9). -/
def execUpshiftHoldExpiry (s : State) : Host.Outcome State Fault Refusal :=
  .next (if due s.link.upshiftTimer s.now ∧ carriesTraffic s.link.state then linkTaken upshiftEvent false s else s)

/-- REFILL_TIMER_EXPIRY (R20). -/
def execRefillTimerExpiry (s : State) : Host.Outcome State Fault Refusal :=
  .next (if due s.adm.refillTimer s.now then refillExpiry s else s)

/-- FLIGHT_TIMEOUT (R32). -/
def execFlightTimeout (line : BitVec 30) (s : State) : Host.Outcome State Fault Refusal :=
  .next (match flightOf s line.toNat with
    | some e => if e.expiry ≤ s.now then flightExpiry e s else s
    | none => s)

/-- AGE_TIMER_EXPIRY (R34). -/
def execAgeTimerExpiry (c : Cls) (s : State) : Host.Outcome State Fault Refusal :=
  .next (if due (clsAt s c).ageTimer s.now then ageExpiry c s else s)

/-- QUERY_TIMER_EXPIRY (R67). -/
def execQueryTimerExpiry (s : State) : Host.Outcome State Fault Refusal :=
  .next (if due s.xfer.queryTimer s.now then queryExpiry s else s)

/-- EXCHANGE_TIMEOUT (R74). -/
def execExchangeTimeout (offerSeq : BitVec 16) (s : State) : Host.Outcome State Fault Refusal :=
  .next (match s.xfer.exchanges.find? fun e => e.offerSeq = offerSeq with
    | some e => if e.expiry ≤ s.now then exchangeExpiry offerSeq s else s
    | none => s)

/-- BLOCK_TIMER_EXPIRY (R83). -/
def execBlockTimerExpiry (s : State) : Host.Outcome State Fault Refusal :=
  .next (if due s.xfer.blockTimer s.now then blockExpiry s else s)

/-- SYNTH_LOCK_EXPIRY (R57). The lock timer runs on the oscillator count (R171). -/
def execSynthLockExpiry (s : State) : Host.Outcome State Fault Refusal :=
  .next (if due s.time.synth.lockTimer s.oscillator then
    s.updTime fun t => { t with synth := { t.synth with state := .running, lockTimer := none } } else s)

/-- SCRUB_TIMER_EXPIRY (R117). -/
def execScrubTimerExpiry (s : State) : Host.Outcome State Fault Refusal :=
  .next (if due s.integ.scrubber.timer s.now then scrubExpiry s else s)

/-- SEND_TIMER_EXPIRY (R144). -/
def execSendTimerExpiry (s : State) : Host.Outcome State Fault Refusal :=
  .next (if due s.loop.sendTimer s.now ∧ s.loop.state = .running then sendExpiry s else s)

/-- LOSS_TIMEOUT (R149). -/
def execLossTimeout (frameSeq : BitVec 16) (s : State) : Host.Outcome State Fault Refusal :=
  .next (match s.loop.outstanding.find? fun e => e.frameSeq = frameSeq with
    | some e =>
      if e.created + ms s.loop.params.lossTimeout ≤ s.now then loopCheckEnd (s.updLoop (loseOutstanding e)) else s
    | none => s)

/-- REPORT_TIMER_EXPIRY (R160). -/
def execReportTimerExpiry (s : State) : Host.Outcome State Fault Refusal :=
  .next (s.updRep fun u =>
    { u with ring := u.ring.map fun r =>
        if due r.timer s.now then { r with timeoutFlag := true, timer := none } else r })

/-- A condition whose retry timer has expired (R166). -/
def retryExpired (c : Cond) (k : Condition) : Condition :=
  { k with raw := if condIsLevel c then k.raw else false, timer := none }

/-- RETRY_TIMER_EXPIRY (R166). -/
def execRetryTimerExpiry (c : Cond) (s : State) : Host.Outcome State Fault Refusal :=
  .next (if due (condGet s.fault c).timer s.now then changeCondition c (retryExpired c (condGet s.fault c)) 4 s else s)

end Sys2Proof.Machine
end

