-- ==== Sys2Proof/Machine/RecordRows.lean ====
section
/-! DEFINITION. Meanings of the rows CONTROL_WRITE_UNMARKED to SNAPSHOT: the site port's next request is a write to the
control window of the row's sort, and it is classified, examined and reported (R152 to R154; log entry 7). -/

namespace Sys2Proof.Machine

/-- The next request is a marked full-line record of a kind. -/
def isRecord (kind : Nat) : Sighting → Bool
  | .record k _ => k == kind
  | _ => false

/-- The next request is a marked full-line record of a kind with an action. -/
def isAction (kind action : Nat) : Sighting → Bool
  | .record k a => k == kind && a == action
  | _ => false

/-- CONTROL_WRITE_UNMARKED (R152). -/
def execControlWriteUnmarked (s : State) : Host.Outcome State Fault Refusal :=
  .next (classifyWhen (· == .unmarked) .site s)

/-- RECORD_PARTIAL_OR_KIND (R152, R153). -/
def execRecordPartialOrKind (s : State) : Host.Outcome State Fault Refusal :=
  .next (classifyWhen (· == .refused) .site s)

/-- WINDOW (R99). -/
def execWindowRecord (s : State) : Host.Outcome State Fault Refusal :=
  .next (classifyWhen (isRecord 0x01) .site s)

/-- PROFILE (R13). -/
def execProfileRecord (s : State) : Host.Outcome State Fault Refusal :=
  .next (classifyWhen (isRecord 0x02) .site s)

/-- CLASS (R39). -/
def execClassRecord (s : State) : Host.Outcome State Fault Refusal :=
  .next (classifyWhen (isRecord 0x03) .site s)

/-- ADMIT (R41). -/
def execAdmitRecord (s : State) : Host.Outcome State Fault Refusal :=
  .next (classifyWhen (isRecord 0x04) .site s)

/-- LINK (R15). -/
def execLinkRecord (s : State) : Host.Outcome State Fault Refusal :=
  .next (classifyWhen (isRecord 0x05) .site s)

/-- TIMING (R86). -/
def execTimingRecord (s : State) : Host.Outcome State Fault Refusal :=
  .next (classifyWhen (isRecord 0x06) .site s)

/-- TIMESET (R49). -/
def execTimesetRecord (s : State) : Host.Outcome State Fault Refusal :=
  .next (classifyWhen (isRecord 0x07) .site s)

/-- SYNTH (R58). -/
def execSynthRecord (s : State) : Host.Outcome State Fault Refusal :=
  .next (classifyWhen (isRecord 0x08) .site s)

/-- PORTS (R106). -/
def execPortsRecord (s : State) : Host.Outcome State Fault Refusal :=
  .next (classifyWhen (isRecord 0x09) .site s)

/-- SCRUB (R119). -/
def execScrubRecord (s : State) : Host.Outcome State Fault Refusal :=
  .next (classifyWhen (isRecord 0x0A) .site s)

/-- REMAP (R125). -/
def execRemapRecord (s : State) : Host.Outcome State Fault Refusal :=
  .next (classifyWhen (isRecord 0x0B) .site s)

/-- MEMTEST_START (R130). -/
def execMemtestStart (s : State) : Host.Outcome State Fault Refusal :=
  .next (classifyWhen (isAction 0x0C 1) .site s)

/-- MEMTEST_SUSPEND (R136). -/
def execMemtestSuspend (s : State) : Host.Outcome State Fault Refusal :=
  .next (classifyWhen (isAction 0x0C 2) .site s)

/-- MEMTEST_RESUME (R136). -/
def execMemtestResume (s : State) : Host.Outcome State Fault Refusal :=
  .next (classifyWhen (isAction 0x0C 3) .site s)

/-- MEMTEST_STOP (R138). -/
def execMemtestStop (s : State) : Host.Outcome State Fault Refusal :=
  .next (classifyWhen (isAction 0x0C 4) .site s)

/-- LOOPTEST_START (R143). -/
def execLooptestStart (s : State) : Host.Outcome State Fault Refusal :=
  .next (classifyWhen (isAction 0x0D 1) .site s)

/-- LOOPTEST_STOP (R150). -/
def execLooptestStop (s : State) : Host.Outcome State Fault Refusal :=
  .next (classifyWhen (isAction 0x0D 2) .site s)

/-- FAULT (R169). -/
def execFaultRecord (s : State) : Host.Outcome State Fault Refusal :=
  .next (classifyWhen (isRecord 0x0E) .site s)

/-- CLEAR (R163). -/
def execClearRecord (s : State) : Host.Outcome State Fault Refusal :=
  .next (classifyWhen (isRecord 0x0F) .site s)

/-- REPORT_CONFIGURE (R158). -/
def execReportConfigure (s : State) : Host.Outcome State Fault Refusal :=
  .next (classifyWhen (isAction 0x10 1) .site s)

/-- REPORT_CONSUME (R157). -/
def execReportConsume (s : State) : Host.Outcome State Fault Refusal :=
  .next (classifyWhen (isAction 0x10 2) .site s)

/-- REPORT_RELEASE (R159). -/
def execReportRelease (s : State) : Host.Outcome State Fault Refusal :=
  .next (classifyWhen (isAction 0x10 3) .site s)

/-- SNAPSHOT (R162). -/
def execSnapshotRecord (s : State) : Host.Outcome State Fault Refusal :=
  .next (classifyWhen (isRecord 0x11) .site s)

end Sys2Proof.Machine
end

