-- ==== Sys2Proof/Machine/Dispatch.lean ====
section
/-! DEFINITION. The meaning of every command: one arm for each constructor of `Instr`. -/

namespace Sys2Proof.Machine

def exec (i : Instr) (s : State) : Host.Outcome State Fault Refusal :=
  match i with
  | .powerOn straps => Sys2Proof.Machine.execPowerOn straps s
  | .resetLineAssert => Sys2Proof.Machine.execResetLineAssert s
  | .resetLineDeassert => Sys2Proof.Machine.execResetLineDeassert s
  | .oscillatorPeriod => Sys2Proof.Machine.execOscillatorPeriod s
  | .rollover => Sys2Proof.Machine.execRollover s
  | .pulseEnd => Sys2Proof.Machine.execPulseEnd s
  | .todMessageEnd => Sys2Proof.Machine.execTodMessageEnd s
  | .lineRequestTaken p r => Sys2Proof.Machine.execLineRequestTaken p r s
  | .requestClassified p => Sys2Proof.Machine.execRequestClassified p s
  | .statusWrite => Sys2Proof.Machine.execStatusWrite s
  | .txCompletion => Sys2Proof.Machine.execTxCompletion s
  | .descriptorOverwrite p => Sys2Proof.Machine.execDescriptorOverwrite p s
  | .rxCompletion => Sys2Proof.Machine.execRxCompletion s
  | .frameWrite => Sys2Proof.Machine.execFrameWrite s
  | .returnedLine => Sys2Proof.Machine.execReturnedLine s
  | .arbiterGrant => Sys2Proof.Machine.execArbiterGrant s
  | .lockStationArrival who => Sys2Proof.Machine.execLockStationArrival who s
  | .portReadComplete obs => Sys2Proof.Machine.execPortReadComplete obs s
  | .portWriteComplete => Sys2Proof.Machine.execPortWriteComplete s
  | .descriptorReadJudged obs => Sys2Proof.Machine.execDescriptorReadJudged obs s
  | .rmwReadComplete obs => Sys2Proof.Machine.execRmwReadComplete obs s
  | .rmwWriteComplete => Sys2Proof.Machine.execRmwWriteComplete s
  | .internalPartialReadComplete obs => Sys2Proof.Machine.execInternalPartialReadComplete obs s
  | .internalWriteComplete => Sys2Proof.Machine.execInternalWriteComplete s
  | .queryFrameWriteComplete => Sys2Proof.Machine.execQueryFrameWriteComplete s
  | .testFrameWriteComplete => Sys2Proof.Machine.execTestFrameWriteComplete s
  | .reportEntryWriteComplete => Sys2Proof.Machine.execReportEntryWriteComplete s
  | .snapshotLineWriteComplete => Sys2Proof.Machine.execSnapshotLineWriteComplete s
  | .scrubReadComplete obs => Sys2Proof.Machine.execScrubReadComplete obs s
  | .scrubWritebackComplete => Sys2Proof.Machine.execScrubWritebackComplete s
  | .copyReadComplete obs => Sys2Proof.Machine.execCopyReadComplete obs s
  | .copyWriteComplete => Sys2Proof.Machine.execCopyWriteComplete s
  | .marchReadComplete obs => Sys2Proof.Machine.execMarchReadComplete obs s
  | .marchWriteComplete => Sys2Proof.Machine.execMarchWriteComplete s
  | .responseReturned p => Sys2Proof.Machine.execResponseReturned p s
  | .statusTimerExpiry => Sys2Proof.Machine.execStatusTimerExpiry s
  | .restoreHoldExpiry => Sys2Proof.Machine.execRestoreHoldExpiry s
  | .upshiftHoldExpiry => Sys2Proof.Machine.execUpshiftHoldExpiry s
  | .refillTimerExpiry => Sys2Proof.Machine.execRefillTimerExpiry s
  | .flightTimeout line => Sys2Proof.Machine.execFlightTimeout line s
  | .ageTimerExpiry c => Sys2Proof.Machine.execAgeTimerExpiry c s
  | .queryTimerExpiry => Sys2Proof.Machine.execQueryTimerExpiry s
  | .exchangeTimeout offerSeq => Sys2Proof.Machine.execExchangeTimeout offerSeq s
  | .blockTimerExpiry => Sys2Proof.Machine.execBlockTimerExpiry s
  | .synthLockExpiry => Sys2Proof.Machine.execSynthLockExpiry s
  | .scrubTimerExpiry => Sys2Proof.Machine.execScrubTimerExpiry s
  | .sendTimerExpiry => Sys2Proof.Machine.execSendTimerExpiry s
  | .lossTimeout frameSeq => Sys2Proof.Machine.execLossTimeout frameSeq s
  | .reportTimerExpiry => Sys2Proof.Machine.execReportTimerExpiry s
  | .retryTimerExpiry c => Sys2Proof.Machine.execRetryTimerExpiry c s
  | .controlWriteUnmarked => Sys2Proof.Machine.execControlWriteUnmarked s
  | .recordPartialOrKind => Sys2Proof.Machine.execRecordPartialOrKind s
  | .windowRecord => Sys2Proof.Machine.execWindowRecord s
  | .profileRecord => Sys2Proof.Machine.execProfileRecord s
  | .classRecord => Sys2Proof.Machine.execClassRecord s
  | .admitRecord => Sys2Proof.Machine.execAdmitRecord s
  | .linkRecord => Sys2Proof.Machine.execLinkRecord s
  | .timingRecord => Sys2Proof.Machine.execTimingRecord s
  | .timesetRecord => Sys2Proof.Machine.execTimesetRecord s
  | .synthRecord => Sys2Proof.Machine.execSynthRecord s
  | .portsRecord => Sys2Proof.Machine.execPortsRecord s
  | .scrubRecord => Sys2Proof.Machine.execScrubRecord s
  | .remapRecord => Sys2Proof.Machine.execRemapRecord s
  | .memtestStart => Sys2Proof.Machine.execMemtestStart s
  | .memtestSuspend => Sys2Proof.Machine.execMemtestSuspend s
  | .memtestResume => Sys2Proof.Machine.execMemtestResume s
  | .memtestStop => Sys2Proof.Machine.execMemtestStop s
  | .looptestStart => Sys2Proof.Machine.execLooptestStart s
  | .looptestStop => Sys2Proof.Machine.execLooptestStop s
  | .faultRecord => Sys2Proof.Machine.execFaultRecord s
  | .clearRecord => Sys2Proof.Machine.execClearRecord s
  | .reportConfigure => Sys2Proof.Machine.execReportConfigure s
  | .reportConsume => Sys2Proof.Machine.execReportConsume s
  | .reportRelease => Sys2Proof.Machine.execReportRelease s
  | .snapshotRecord => Sys2Proof.Machine.execSnapshotRecord s

end Sys2Proof.Machine
end

