-- ==== Sys2Proof/Safety.lean ====
section
/-! DEFINITION. What claims about the part are stated in: the blocks of its state and which of them an event touches,
the laws of the device that the manual names, and the situations in which each row's event takes place. -/

namespace Sys2Proof.Machine

/-! ### Blocks and frames -/

/-- The fields of `State`, by name. -/
inductive Block where
  | pending | straps | inReset | oscillator | now | freeUses | dram | flips | link | adm | time | xfer | windows | path
  | integ | march | loop | dec | rep | fault
  deriving DecidableEq, Repr

/-- Two states hold the same in a block. -/
def sameBlock (s t : State) : Block → Prop
  | .pending => t.pending = s.pending
  | .straps => t.straps = s.straps
  | .inReset => t.inReset = s.inReset
  | .oscillator => t.oscillator = s.oscillator
  | .now => t.now = s.now
  | .freeUses => t.freeUses = s.freeUses
  | .dram => t.dram = s.dram
  | .flips => t.flips = s.flips
  | .link => t.link = s.link
  | .adm => t.adm = s.adm
  | .time => t.time = s.time
  | .xfer => t.xfer = s.xfer
  | .windows => t.windows = s.windows
  | .path => t.path = s.path
  | .integ => t.integ = s.integ
  | .march => t.march = s.march
  | .loop => t.loop = s.loop
  | .dec => t.dec = s.dec
  | .rep => t.rep = s.rep
  | .fault => t.fault = s.fault

/-- From `s` to `t` only the listed blocks have changed. -/
def OnlyChanges (l : List Block) (s t : State) : Prop := ∀ b, b ∉ l → sameBlock s t b

/-! ### Laws of the device -/

/-- The DRAM contents and the flipped bits that stand in it are in canonical form. The model's own law. -/
def dramLaw (s : State) : Prop := dramWf s.dram = true ∧ flipsWf s.flips = true

/-- The ranges of the time counter (R44), of F (R46), of S (R79), of the F history (R80) and of the sample block
(R77). -/
def clockLaw (s : State) : Prop :=
  s.time.nanoseconds < 1000000000 ∧ s.time.seconds < 2 ^ 48 ∧ s.time.fraction < 2 ^ 32 ∧
  (-800000 ≤ s.time.freq ∧ s.time.freq ≤ 800000) ∧
  (-16777215 ≤ s.xfer.integral ∧ s.xfer.integral ≤ 16777215) ∧
  s.xfer.history.length ≤ 4 ∧ (∀ f ∈ s.xfer.history, -800000 ≤ f ∧ f ≤ 800000) ∧
  s.xfer.block.length ≤ 8

/-- A class's credit lies between −78,840 bits and its burst, a disabled class holds credit 0 (R18) and lists nothing
(R42), a held list has at most 16 entries with distinct lines (R26), and the low mark lies below the high mark (R17).
-/
def classLaw (k : ClassState) : Prop :=
  (-78840 ≤ k.credit ∧ k.credit ≤ (k.burst : Int) * 1000) ∧
  (k.enabled = false → k.credit = 0 ∧ k.held = []) ∧
  k.held.length ≤ 16 ∧ (k.held.map (·.line)).Nodup ∧ k.lowMark < k.highMark

/-- The laws of the admission unit: those of each class; a tenant's recovery share is 0, and the shares sum to at most
1,000, also with class S's recovery share in place of its share (R17); an in-flight table of at most 64 entries with
distinct lines, none of them in a held list (R28). -/
def admissionLaw (s : State) : Prop :=
  (∀ c, classLaw (clsAt s c)) ∧ (∀ c, c ≠ .s → (clsAt s c).recoveryShare = 0) ∧
  sumClasses (fun c => (clsAt s c).share) ≤ 1000 ∧
  sumClasses (fun c => if c = .s then (clsAt s c).recoveryShare else (clsAt s c).share) ≤ 1000 ∧
  s.adm.flight.length ≤ 64 ∧ (s.adm.flight.map (·.line)).Nodup ∧
  ∀ e ∈ s.adm.flight, ∀ c, listed (clsAt s c) e.line = false

/-- A line is a descriptor line of a window of the table (R21). -/
def InDescriptorWindow (s : State) (line : Nat) : Prop :=
  ∃ i w, windowEntry s i = some w ∧ windowCovers w line = true ∧ isDescriptorLine w line = true

/-- The pending message table and the exchange table hold at most eight entries each, with distinct lines (R63) and
distinct offer sequences (R65), and at most 60 slots are POSTED with test frames (R70). -/
def tableLaw (s : State) : Prop :=
  s.xfer.pendingTable.length ≤ 8 ∧ (s.xfer.pendingTable.map (·.line)).Nodup ∧
  s.xfer.exchanges.length ≤ 8 ∧ (s.xfer.exchanges.map (·.offerSeq)).Nodup ∧
  (s.xfer.slots.toList.filter fun u => match u with
    | .test _ => true
    | .free => false
    | .query _ _ => false).length ≤ 60

/-- The link monitor's standing relations: E_tx and E_rx follow from the kept indices (R3); both are present outside
DOWN (R4); the planned profile is NONE outside UP and DEGRADED, and a valid entry there (R4, R14), whose capacity
never exceeds that of E_tx (R8); the floor decides between UP and DEGRADED (R10); the holds run only in their states
(R7, R8). -/
def linkLaw (s : State) : Prop :=
  let l := s.link
  derive l = l ∧
  (isDown l.state = false → bothPresent l = true) ∧
  (carriesTraffic l.state = false → l.planned = none ∧ l.upshiftTimer = none) ∧
  (carriesTraffic l.state = true → l.state = floorState l ∧ ∃ p, l.planned = some p ∧ (profileAt l p).valid = true ∧
    ∀ e, l.etx = some e → (profileAt l p).capacity ≤ (profileAt l e).capacity) ∧
  (l.state ≠ .restoring → l.restoreTimer = none)

/-- The ordering of the profile table (R1): the capacities of valid entries rise with the index. -/
def profileLaw (s : State) : Prop :=
  ∀ i j, i < j → j < 12 → (profileAt s.link i).valid = true → (profileAt s.link j).valid = true →
    (profileAt s.link i).capacity < (profileAt s.link j).capacity

/-- The window table (R92, R93): entry 0 is the CONTROL window of the straps; every other window has a kind of its
own, a size of 1 to 65,536 pages that its kind allows, below 2³⁶, and a class exactly where its kind has one; a SPARE
window's flags are clear (R94); no two windows share a page, and no more windows of a kind stand than are allowed. -/
def windowLaw (s : State) : Prop :=
  windowEntry s 0 = some (Initial.controlWindow s.straps) ∧
  (∀ i w, i ≠ 0 → windowEntry s i = some w →
    w.kind ≠ .control ∧ (1 ≤ w.size ∧ w.size ≤ 65536) ∧ w.base + w.size ≤ 2 ^ 24 ∧
    (w.kind = .partTx → 17 ≤ w.size) ∧ (w.kind = .status ∨ w.kind = .notice → w.size = 1) ∧
    (w.kind = .spare → w.size ≤ 32 ∧ w.perms = ⟨false, false, false, false, false, false⟩) ∧
    (w.cls.isSome = true ↔ w.kind = .txRing ∨ w.kind = .buffer)) ∧
  (∀ i j a b, i ≠ j → windowEntry s i = some a → windowEntry s j = some b →
    (a.base + a.size ≤ b.base ∨ b.base + b.size ≤ a.base) ∧
    (a.kind = b.kind → a.kind = .rxRing ∨ a.kind = .buffer ∨ (a.kind = .txRing ∧ a.cls ≠ b.cls))) ∧
  ((List.range 16).filter fun i => (windowEntry s i).map (·.kind) == some .rxRing).length ≤ 2

/-- An access at the memory port is the first or the second access of a request, and stands there as the request's
stage says. -/
def accessOf (r : Req) (a : Access) : Prop :=
  a.live = true ∧ a.line = r.line ∧
    ((r.stage = .issued a.memLine ∧ a.kind = firstAccess r.job) ∨
      (r.stage = .writeIssued a.memLine ∧ ∃ d, a.kind = secondAccess r.job d))

/-- The line path: no port holds more than 16 requests (R90); at most eight locks stand, on distinct lines, and no
holder but the internal partial writes has two (R113). The model's own numbering: no two requests and no two accesses
at the memory port share a number; an access is live exactly while its request stands, and is then that request's. -/
def pathLaw (s : State) : Prop :=
  (∀ p, occupancy s p ≤ 16) ∧
  s.path.locks.length ≤ 8 ∧ (s.path.locks.map (·.line)).Nodup ∧
  (∀ h, h ≠ .internalPartial → (s.path.locks.filter fun k => k.holder == h).length ≤ 1) ∧
  (s.path.reqs.map (·.id)).Nodup ∧ (∀ r ∈ s.path.reqs, r.id < s.path.nextId) ∧ (s.path.memPort.map (·.id)).Nodup ∧
  ∀ a ∈ s.path.memPort, a.id < s.path.nextId ∧ (a.live = true → ∃ r ∈ s.path.reqs, r.id = a.id) ∧
    ∀ r ∈ s.path.reqs, r.id = a.id → accessOf r a

/-- The arbiter's parameters lie in the ranges of R106, and LOAD_HIGH stands as its last evaluation left it: set only
above the low mark, clear only below the high mark (R105). -/
def loadLaw (s : State) : Prop :=
  (∀ q, 1 ≤ queueGet s.path.weights q ∧ queueGet s.path.weights q ≤ 15) ∧
  s.path.lowMark < s.path.highMark ∧ s.path.highMark ≤ 48 ∧
  (s.path.loadHigh = true → s.path.lowMark < portLoad s) ∧
  (s.path.loadHigh = false → portLoad s < s.path.highMark)

/-- The marked line set holds at most 64 distinct lines (R111), the suspect page list at most eight distinct pages
(R116). -/
def markLaw (s : State) : Prop :=
  s.integ.marked.length ≤ 64 ∧ s.integ.marked.Nodup ∧
  s.integ.suspects.length ≤ 8 ∧ (s.integ.suspects.map (·.page)).Nodup

/-- One remap entry's pointer agrees with its state (R120, R123). -/
def remapPointerOk (e : RemapEntry) : Prop :=
  match e.state with
  | .waiting => e.pointer = 0
  | .copying => e.pointer < 64
  | .active => e.pointer = 64

/-- The remap table: at most 32 entries, no two with one failed or one spare page, at most one COPYING, every spare
page in the SPARE window, and a SPARE window of at most 32 pages (R93, R120). -/
def remapLaw (s : State) : Prop :=
  s.integ.remaps.length ≤ 32 ∧
  (s.integ.remaps.map (·.failed)).Nodup ∧ (s.integ.remaps.map (·.spare)).Nodup ∧
  (s.integ.remaps.filter fun e => e.state == .copying).length ≤ 1 ∧
  (∀ e ∈ s.integ.remaps, inSpare s e.spare = true ∧ remapPointerOk e) ∧
  ∀ i w, windowEntry s i = some w → w.kind = .spare → w.size ≤ 32

/-- The march session (R128): the cause set is empty except while SUSPENDED, where it is not, and holds LOAD in an
active session exactly while LOAD_HIGH is set (R105, R135); an outcome is present in DONE and ABORTED alone; the
failing page list holds at most 16 distinct pages. -/
def marchLaw (s : State) : Prop :=
  ((s.march.causeManual || s.march.causeLoad) = true ↔ s.march.state = .suspended) ∧
  (marchActive s.march = true → s.march.causeLoad = s.path.loadHigh) ∧
  (s.march.outcome.isSome = true ↔ s.march.state = .done ∨ s.march.state = .aborted) ∧
  s.march.failing.length ≤ 16 ∧ s.march.failing.Nodup

/-- The fence (R131): while it stands its region has a page, the progress lies in it, and it meets no window in which
no march write may land; every request of the march lies in the region of a fence that stands, addressed to the memory
line itself, and there is at most one (R133). -/
def fenceLaw (s : State) : Prop :=
  (fenceUp s = true → 1 ≤ s.march.pageCount ∧ s.march.index < 64 * s.march.pageCount ∧
    ∀ i w, windowEntry s i = some w →
      w.kind = .control ∨ w.kind = .report ∨ w.kind = .spare ∨ w.kind = .partTx ∨ w.kind = .status ∨ w.kind = .notice ∨
        ((w.kind = .txRing ∨ w.kind = .buffer) ∧ ∃ c, w.cls = some c ∧ (clsAt s c).enabled = true) →
      w.base + w.size ≤ s.march.startPage ∨ s.march.startPage + s.march.pageCount ≤ w.base) ∧
  (∀ r ∈ s.path.reqs, stationOf r.job = .march → fenceUp s = true ∧ inRegion s.march r.line = true ∧
    ∀ m, r.stage = .draining m ∨ r.stage = .ready m ∨ r.stage = .issued m → m = r.line) ∧
  (s.path.reqs.filter fun r => stationOf r.job == .march).length ≤ 1

/-- The loopback session (R141, R146): the outstanding list holds at most 32 entries with distinct sequences, all
below the next one; frames remain while RUNNING, and the send timer runs only then (R143, R144); entries stand only
while RUNNING or DRAINING. -/
def loopLaw (s : State) : Prop :=
  s.loop.outstanding.length ≤ 32 ∧ (s.loop.outstanding.map (·.frameSeq)).Nodup ∧
  (∀ e ∈ s.loop.outstanding, e.frameSeq.toNat < s.loop.nextSeq) ∧
  s.loop.params.frames < 65536 ∧
  (s.loop.state = .running → s.loop.nextSeq < s.loop.params.frames) ∧
  s.loop.nextSeq ≤ 65535 ∧
  (loopActive s.loop = false → s.loop.outstanding = []) ∧
  (s.loop.state ≠ .running → s.loop.sendTimer = none)

/-- The number of report entries that have not reached memory. -/
def entriesWaiting (s : State) : Nat :=
  (s.path.reqs.filter fun r => match r.job with
    | .reportEntry _ => true
    | _ => false).length

/-- A configured ring: size, trigger and timeout lie in the ranges of R158; C and W never pass M (R155), and M is
ahead of W by at least the entries still to be written; at most N − 1 entries are unread (R156), and the report timer
is stopped while the timeout flag is set (R160). An UNCONFIGURED ring has no entry to be written (R159). -/
def ringLaw (s : State) : Prop :=
  (s.rep.ring = none → entriesWaiting s = 0) ∧
  ∀ r, s.rep.ring = some r →
    (16 ≤ r.size ∧ r.size ≤ 1024) ∧ (1 ≤ r.trigger ∧ r.trigger ≤ r.size - 1) ∧ (1 ≤ r.timeout ∧ r.timeout ≤ 1000) ∧
    r.consumed ≤ r.made ∧ r.written + entriesWaiting s ≤ r.made ∧
    unread r ≤ r.size - 1 ∧ (r.timeoutFlag = true → r.timer = none)

/-- The fault unit: the fault line has the level of R168; a latched flag is set only in LATCH mode (R167); a present
level condition's timer is stopped, and an event condition is raw exactly while its timer runs (R166). -/
def faultLaw (s : State) : Prop :=
  s.fault.line = faultLevel s.fault ∧
  ∀ c, ((condGet s.fault c).latched = true → (condGet s.fault c).mode = .latch) ∧
    (condIsLevel c = true → (condGet s.fault c).raw = true → (condGet s.fault c).timer = none) ∧
    (condIsLevel c = false → (condGet s.fault c).raw = (condGet s.fault c).timer.isSome)

/-! ### What an event does, in parts that several statements name -/

/-- A round trip is taken from a send stamp and a receive stamp: with both valid, of one epoch and the receive stamp
not the earlier one, it enters the figures; otherwise it is counted as skipped (R148). The sum stops at 2⁶⁴ − 1, log
entry 29. -/
def TripTaken (before after : RoundTrips) (send recv : TakenStamp) : Prop :=
  (∀ n : Nat, send.valid = true → recv.valid = true → send.epoch = recv.epoch →
    totalNs recv.stamp - totalNs send.stamp = n →
    after = ⟨satInc before.taken, if before.taken = 0 then n else min before.minimum n, max before.maximum n,
      satAdd before.sum n, before.skipped⟩) ∧
  (send.valid = false ∨ recv.valid = false ∨ send.epoch ≠ recv.epoch ∨ totalNs recv.stamp < totalNs send.stamp →
    after = { before with skipped := satInc before.skipped })

/-- The data of a write as its observers read them (R173). -/
def seen (r : LineRequest) : Line := observedData (reqMask r) (reqData r)

/-- The `k`-th entry of the ring after those of `s` and its report are made, with a time field (R156). -/
def ReportAt (s t : State) (g : Ring) (k : Nat) (time : Stamp) (code : Nat) (body : List FieldSpec) : Prop :=
  ∀ w, windowOfKind s .report = some w → ∃ q ∈ t.path.reqs, q.line = windowLine w ((g.made + k) % g.size) ∧
    q.stage = .forwarded ∧ q.job = .reportEntry
      (entryLine code (phaseBit (g.made + k) g.size) (s.rep.sequence + BitVec.ofNat 32 k).toNat time body)

/-- An entry of the ring and its report are made as the next after `s`, for a report asked for at the time of `s`
(R156). -/
def ReportMade (s t : State) (g : Ring) (code : Nat) (body : List FieldSpec) : Prop :=
  ReportAt s t g 0 (timeNow s) code body

/-- A report of an event is made as the next entry, or behind at most `n` others that the event makes: in an ACTIVE
ring with room for all of them (R156). -/
def ReportAmong (s t : State) (n : Nat) (time : Stamp) (code : Nat) (body : List FieldSpec) : Prop :=
  pathLaw s → ∀ g, s.rep.ring = some g → g.releasing = false → unread g + n < g.size - 1 →
    ∃ k ≤ n, ReportAt s t g k time code body

/-- The body of a RECORD_RESULT: the record's line, kind and tag, and its outcome (R154). -/
def resultBody (r : LineRequest) (outcome : Nat) : List FieldSpec :=
  [⟨16, 8, lineAddress (reqLine r)⟩, ⟨24, 1, field (seen r) 1 1⟩, ⟨25, 1, field (seen r) 2 1⟩, ⟨26, 1, outcome⟩]

/-- The RECORD_RESULT of a record is made as the ring's next entry (R154). -/
def ResultMade (s t : State) (g : Ring) (r : LineRequest) (outcome : Nat) : Prop :=
  ReportMade s t g 0x01 (resultBody r outcome)

/-- The report unit has taken `n` requests for reports since `s`: each takes a sequence, and is made as the next entry
of an ACTIVE ring while that has room, and otherwise dropped and counted (R156). -/
def ReportsTaken (s t : State) (n : Nat) : Prop :=
  t.rep.sequence = s.rep.sequence + BitVec.ofNat 32 n ∧
  (∀ g, s.rep.ring = some g → g.releasing = false →
    (unread g + n ≤ g.size - 1 → t.rep.ring = some { g with made := g.made + n } ∧ t.rep.dropped = s.rep.dropped) ∧
    ∀ room, g.consumed ≤ g.made → room = g.size - 1 - unread g → room ≤ n →
      t.rep.ring = some { g with made := g.made + room } ∧ t.rep.dropped = satAdd s.rep.dropped (n - room)) ∧
  ((∀ g, s.rep.ring = some g → g.releasing = true) →
    t.rep.ring = s.rep.ring ∧ t.rep.dropped = satAdd s.rep.dropped n)

/-- A record's event ends with its RECORD_RESULT: it follows the other reports that the event makes, at most `n`, and is
made where the ring has room for all of them (R154, R156; the sequence of a report, log entry 19). -/
def ResultLast (s t : State) (n : Nat) (r : LineRequest) (outcome : Nat) : Prop :=
  ∃ k ≤ n, ReportsTaken s t (k + 1) ∧
    (pathLaw s → ∀ g, s.rep.ring = some g → g.releasing = false → unread g + k < g.size - 1 →
      ReportAt s t g k (timeNow s) 0x01 (resultBody r outcome))

/-- A change of timing state is reported with its cause, the holdover age before it, and F, S and the epoch as they
stand after the event (R85), behind at most `n` other reports of the event (log entry 43; its sequence, log entry 19).
-/
def TimingStateReported (s t : State) (n : Nat) (time : Stamp) (old : TimingState) (cause age : Nat) : Prop :=
  ReportAmong s t n time 0x07 [⟨16, 1, timingStateCode old⟩, ⟨17, 1, timingStateCode t.xfer.state⟩, ⟨18, 1, cause⟩,
    ⟨20, 2, t.time.epoch.toNat⟩, ⟨24, 4, narrowSigned 4 t.time.freq⟩, ⟨28, 4, narrowSigned 4 t.xfer.integral⟩,
    ⟨32, 4, narrow 4 age⟩]

/-- An event that changes the raw or the latched flag of a condition whose mode is not OFF has one FAULT_CHANGE report
for it (R170), with a time field, behind at most `n` other reports of the event (log entry 43; its sequence, log entry
19; the fault line's level, log entry 54; the mode and the retry length as they stand after the event, log entry 59). -/
def FaultReportedAt (s t : State) (n : Nat) (time : Stamp) (c : Cond) (cause : Nat) : Prop :=
  ∀ a b : Condition, a = condGet s.fault c → b = condGet t.fault c → a.raw ≠ b.raw ∨ a.latched ≠ b.latched →
    b.mode ≠ .off → ReportAmong s t n time 0x10 [⟨16, 1, condIndex c⟩,
      ⟨17, 1, (if a.raw then 1 else 0) + if a.latched then 2 else 0⟩,
      ⟨18, 1, (if b.raw then 1 else 0) + if b.latched then 2 else 0⟩,
      ⟨19, 1, faultModeCode b.mode + if b.longRetry then 16 else 0⟩, ⟨20, 1, cause⟩,
      ⟨21, 1, if t.fault.line then 1 else 0⟩, ⟨24, 4, b.occurrences.toNat⟩]

/-- The FAULT_CHANGE report of an event, at the time of the state before it (R47, R170). -/
def FaultReported (s t : State) (n : Nat) (c : Cond) (cause : Nat) : Prop :=
  FaultReportedAt s t n (timeNow s) c cause

/-- The UNCORRECTABLE outcome of an access, by a source, whose line is not marked: the event, with its FAULT_CHANGE, and
the report that names the source, whether the line was marked or the set was full, and the line (R110, R111), in
either order (R156).
-/
def UncorrectableReported (s t : State) (source : IntegritySource) (a : Access) : Prop :=
  t.fault.memUncorrectable.raw = true ∧
  t.fault.memUncorrectable.occurrences = satInc s.fault.memUncorrectable.occurrences ∧
  FaultReported s t 1 .memUncorrectable 3 ∧
  ReportAmong s t 1 (timeNow s) 0x08 [⟨16, 1, sourceCode source⟩,
    ⟨17, 1, if s.integ.marked.length < 64 then 0 else 2⟩, ⟨24, 8, lineAddress a.line⟩, ⟨32, 8, lineAddress a.memLine⟩]

/-- A loopback session is aborted with a cause: no entry is left, the abort counts, and LOOPTEST_DONE is made (R150),
behind at most `n` other reports of the event (log entry 43; its sequence, log entry 19). -/
def SessionAborted (s t : State) (n : Nat) (cause : LoopCause) : Prop :=
  t.loop = { s.loop with
    state := .aborted, outcome := some .aborted, cause := some cause, sendTimer := none, outstanding := []
    abortedCount := satInc s.loop.abortedCount } ∧
  ReportAmong s t n (timeNow s) 0x0F (loopDoneBody t.loop)

/-- The end of a loopback session on an event that settles an entry (R150): in DRAINING an empty list ends it with its
verdict, its counter and, on FAIL, the event, and LOOPTEST_DONE is made, behind at most eight other reports of the
event (log entry 43; its sequence, log entry 19); otherwise the session goes on. -/
def SessionSettles (s t : State) : Prop :=
  (s.loop.state ≠ .draining ∨ t.loop.outstanding ≠ [] → t.loop.state = s.loop.state ∧
    t.loop.outcome = s.loop.outcome ∧ t.loop.passed = s.loop.passed ∧ t.loop.failed = s.loop.failed) ∧
  (s.loop.state = .draining → t.loop.outstanding = [] → t.loop.state = .done ∧
    ReportAmong s t 8 (timeNow s) 0x0F (loopDoneBody t.loop) ∧
    (notReturned t.loop.counts ≤ s.loop.params.maxLost ∧ erroredLines t.loop.counts ≤ s.loop.params.maxErrored →
      t.loop.outcome = some .pass ∧ t.loop.passed = satInc s.loop.passed ∧ t.loop.failed = s.loop.failed) ∧
    (s.loop.params.maxLost < notReturned t.loop.counts ∨ s.loop.params.maxErrored < erroredLines t.loop.counts →
      t.loop.outcome = some .fail ∧ t.loop.failed = satInc s.loop.failed ∧ t.loop.passed = s.loop.passed ∧
      t.fault.testFailed.raw = true))

/-- A record has been refused: its outcome's counter, its result as the next entry of a ring with room, or dropped,
and nothing else of the part (R154, R156). -/
def RecordRefused (c : Instr) (s : State) (r : LineRequest) (outcome : Nat) (dec : Decoder) : Prop :=
  ∃ t, exec c s = .next t ∧ t.dec = dec ∧ t.rep.sequence = s.rep.sequence + 1 ∧
    (pathLaw s → ∀ g, s.rep.ring = some g → g.releasing = false → unread g < g.size - 1 →
      ResultMade s t g r outcome ∧ t.rep.dropped = s.rep.dropped) ∧
    ((∀ g, s.rep.ring = some g → g.releasing = true ∨ g.size - 1 ≤ unread g) →
      t.rep.dropped = satInc s.rep.dropped) ∧
    OnlyChanges [.dec, .rep, .path] s t

/-- The refusal of a record with RANGE. -/
def RefusedRange (c : Instr) (s : State) (r : LineRequest) : Prop :=
  RecordRefused c s r 3 { s.dec with range := satInc s.dec.range }

/-- The refusal of a record with CONFLICT. -/
def RefusedConflict (c : Instr) (s : State) (r : LineRequest) : Prop :=
  RecordRefused c s r 4 { s.dec with conflict := satInc s.dec.conflict }

/-- The refusal of a PROFILE record with ORDER. -/
def RefusedOrder (c : Instr) (s : State) (r : LineRequest) : Prop :=
  RecordRefused c s r 5 { s.dec with order := satInc s.dec.order }

/-- The refusal of a record with BUSY. -/
def RefusedBusy (c : Instr) (s : State) (r : LineRequest) : Prop :=
  RecordRefused c s r 6 { s.dec with busy := satInc s.dec.busy }

/-- The states between which one event moves the link, from the state before it to the state after: through RESTORING
where a restore hold of length 0 expires as it starts, and with one step from a state to itself for the changes of the
DOWN cause or of the planned profile that an event makes outside its changes of state (R12). -/
def linkSteps (l m : LinkMonitor) : List (LinkState × LinkState) :=
  match isDown l.state, isDown m.state with
  | true, true => if m.state = l.state then [] else [(m.state, m.state)]
  | false, true => (l.state, m.state) :: if l.planned = none then [] else [(m.state, m.state)]
  | true, false =>
    (l.state, .restoring) :: if m.state = .restoring then []
      else (if m.planned = l.planned then [] else [(.restoring, .restoring)]) ++ [(.restoring, m.state)]
  | false, false =>
    (if m.planned = l.planned then [] else [(l.state, l.state)]) ++
      if m.state = l.state then [] else [(l.state, m.state)]

/-- Each step of the link has its LINK_CHANGE report, in the order made, in an ACTIVE ring with room for it (R12,
R156). The report shows the old and the new state, and the cause, E_tx, E_rx, the planned profile and the epoch as the
event leaves them (log entry 18); its sequence as the model gives it (log entry 19). -/
def LinkReported (s t : State) : Prop :=
  pathLaw s → ∀ g, s.rep.ring = some g → g.releasing = false → ∀ k old new,
    (linkSteps s.link t.link)[k]? = some (old, new) → unread g + k < g.size - 1 →
    ReportAt s t g k (timeNow s) 0x03 [⟨16, 1, linkStateCode old⟩, ⟨17, 1, linkStateCode new⟩,
      ⟨18, 1, causeField new⟩, ⟨19, 1, optByte t.link.etx⟩, ⟨20, 1, optByte t.link.erx⟩,
      ⟨21, 1, optByte t.link.planned⟩, ⟨22, 2, t.time.epoch.toNat⟩]

/-- LOAD_HIGH has been evaluated: its entries count, and each change is told to the march session, whose LOAD cause
follows it, and which is SUSPENDED while it has a cause (R105, R135). -/
def LoadTold (s t : State) : Prop :=
  t.path.loadHighEntries = (if s.path.loadHigh = false ∧ t.path.loadHigh = true then satInc s.path.loadHighEntries
    else s.path.loadHighEntries) ∧
  t.march.causeManual = s.march.causeManual ∧
  (t.path.loadHigh = s.path.loadHigh ∨ marchActive s.march = false →
    t.march.causeLoad = s.march.causeLoad ∧ t.march.state = s.march.state) ∧
  (t.path.loadHigh ≠ s.path.loadHigh → marchActive s.march = true → t.march.causeLoad = t.path.loadHigh ∧
    t.march.state = if t.march.causeManual = true ∨ t.path.loadHigh = true then .suspended else .running)

/-! ### Congestion (R34 to R36) -/

/-- The congestion state that an evaluation leaves a class with (R35): a CLEAR class becomes CONGESTED at the high
mark of held bits or at the maximum hold age, a CONGESTED one CLEAR at the low mark with a younger list (R34). -/
def CongestedBy (k : ClassState) (overhead now : Nat) (next : Bool) : Prop :=
  ∀ (bits : Nat) (old : Prop), bits = (k.held.map fun h => (h.length + overhead) * 8).sum →
    (old ↔ ∃ h rest, k.held = h :: rest ∧ ms k.maxHoldAge ≤ now - h.joined) →
    (k.congested = false → (next = true ↔ k.highMark * 1000 ≤ bits ∨ old)) ∧
    (k.congested = true → (next = false ↔ bits ≤ k.lowMark * 1000 ∧ ¬old))

/-- A class's notice is made, and is the one notice of the class that waits (R36): line k of NOTICE, with the class,
its state, the list's length, the sequence as it stood, the held bits, a credit, the hold age in ms and the time. -/
def NoticeMade (s t : State) (w : Window) (c : Cls) (credit : Int) : Prop :=
  ∀ (k : ClassState) (bits age : Nat), k = clsAt t c →
    bits = (k.held.map fun h => (h.length + plannedOverhead s.link) * 8).sum →
    (k.held = [] → age = 0) → (∀ h rest, k.held = h :: rest → age = (s.now - h.joined) / 40000) →
    ∃ q ∈ t.path.reqs, q.line = windowLine w (clsCode c) ∧ q.stage = .forwarded ∧
      q.job = .notice c (buildLine ([⟨0, 1, clsCode c⟩, ⟨1, 1, if k.congested then 1 else 0⟩, ⟨2, 1, k.held.length⟩,
        ⟨4, 4, (clsAt s c).noticeSeq.toNat⟩, ⟨8, 4, narrow 4 bits⟩, ⟨12, 4, ofSigned 4 credit⟩,
        ⟨16, 4, narrow 4 age⟩] ++ stampFields 20 26 (timeNow s))) ∧
      ∀ x ∈ t.path.reqs, isWaitingNotice c x = true → x = q

/-- Congestion as an event leaves it (R34 to R36). The classes that it evaluates have the state of R35, the others
keep theirs. A class whose state changes makes its notice, whose sequence advances; it replaces one that waits with
NOTICE_REPLACED, and without a NOTICE window NOTICE_DROPPED counts in its place (a waiting notice then stays, log
entry 51). A change of any class sets the CONGESTION condition to whether a class is CONGESTED. -/
def CongestionSettled (s t : State) (evaluated : Cls → Prop) (credit : Cls → Int) : Prop :=
  (∀ c, evaluated c → CongestedBy { clsAt t c with congested := (clsAt s c).congested } (plannedOverhead s.link) s.now
    (clsAt t c).congested) ∧
  (∀ c, ¬evaluated c → (clsAt t c).congested = (clsAt s c).congested) ∧
  (∀ c, (clsAt t c).congested = (clsAt s c).congested → (clsAt t c).noticeSeq = (clsAt s c).noticeSeq) ∧
  (∀ c, (clsAt t c).congested ≠ (clsAt s c).congested → (clsAt t c).noticeSeq = (clsAt s c).noticeSeq + 1 ∧
    (pathLaw s → ∀ w, windowOfKind s .notice = some w → NoticeMade s t w c (credit c))) ∧
  (∀ changed : List Cls, changed = allClasses.filter (fun c => (clsAt t c).congested != (clsAt s c).congested) →
    (windowOfKind s .notice = none → t.adm.noticeReplaced = s.adm.noticeReplaced ∧
      t.adm.noticeDropped = satAdd s.adm.noticeDropped changed.length) ∧
    (windowOfKind s .notice ≠ none → t.adm.noticeDropped = s.adm.noticeDropped ∧
      t.adm.noticeReplaced = satAdd s.adm.noticeReplaced
        (changed.filter fun c => s.path.reqs.any (isWaitingNotice c)).length) ∧
    (changed = [] → t.fault.congestion = s.fault.congestion) ∧
    (changed ≠ [] → s.inReset = false →
      (t.fault.congestion.raw = true ↔ ∃ c, (clsAt t c).congested = true)))

/-- A class's age timer as the list and its head set it: stopped with an empty list or an age already reached (R34).
-/
def AgeTimerSet (k : ClassState) (now : Nat) : Prop :=
  (k.held = [] → k.ageTimer = none) ∧
  ∀ h rest, k.held = h :: rest →
    k.ageTimer = if h.joined + ms k.maxHoldAge ≤ now then none else some (h.joined + ms k.maxHoldAge)

/-- The age timers follow the heads of the held lists: set where the head has changed, and otherwise left (R34). -/
def AgeTimersFollow (s t : State) : Prop :=
  ∀ c, ((clsAt t c).held.head?.map (·.line) = (clsAt s c).held.head?.map (·.line) →
      (clsAt t c).ageTimer = (clsAt s c).ageTimer) ∧
    ((clsAt t c).held.head?.map (·.line) ≠ (clsAt s c).held.head?.map (·.line) → AgeTimerSet (clsAt t c) s.now)

/-! ### What an event does, in further parts -/

/-- The link has entered DOWN: the plan and the holds end, and the entry counts (R4, R16); TRACK goes to HOLDOVER with
the mean of the F history and ACQUIRE to FREERUN, and the block is emptied (R83); a loopback session ends with cause
LINK_DOWN (R150); the fault unit is told (R165). The changes of the timing state and of the session have their reports
(R85, R150), behind the LINK_CHANGE reports and among those of the other blocks (R12, R175). -/
def WentDown (s t : State) : Prop :=
  (t.link.planned = none ∧ t.link.restoreTimer = none ∧ t.link.upshiftTimer = none ∧
    t.link.downEntries = satInc s.link.downEntries) ∧
  t.xfer = { s.xfer with
    block := []
    state := if s.xfer.state = .track ∨ s.xfer.state = .holdover then .holdover else .freerun
    holdoverAge := if s.xfer.state = .track ∨ s.xfer.state = .acquire then 0 else s.xfer.holdoverAge
    runCount := if s.xfer.state = .track ∨ s.xfer.state = .acquire then 0 else s.xfer.runCount } ∧
  t.time.freq = (if s.xfer.state = .track then holdoverFreq s.xfer.history s.time.freq else s.time.freq) ∧
  (s.xfer.state = .track ∨ s.xfer.state = .acquire →
    TimingStateReported s t 6 (timeNow s) s.xfer.state 6 s.xfer.holdoverAge) ∧
  (loopActive s.loop = true → SessionAborted s t 6 .linkDown) ∧
  (loopActive s.loop = false → t.loop = s.loop) ∧
  (s.inReset = false → t.fault.linkDown.raw = true ∧ t.fault.linkDegraded.raw = false)

/-- Neither the time transfer engine nor the loopback engine is told of DOWN. -/
def NotTold (s t : State) : Prop := t.xfer = s.xfer ∧ t.loop = s.loop ∧ t.time.freq = s.time.freq

/-- A link that has left DOWN runs its restore hold, or with a hold of length 0 has its planned profile at once, and
the floor places it (R5, R7, R10). -/
def RestoreBegun (now : Nat) (l m : LinkMonitor) : Prop :=
  (l.restoreHold ≠ 0 → m.state = .restoring ∧ m.restoreTimer = some (now + ms l.restoreHold)) ∧
  (l.restoreHold = 0 → m.planned = m.etx ∧ m.restoreTimer = none ∧
    ∀ e, m.etx = some e → m.state = if e < m.floor then .degraded else .up)

/-- The comparison of a new E_tx with the planned profile (R8); a hold of length 0 expires as it starts (R8, R9). -/
def PlanCompared (now e p : Nat) (l m : LinkMonitor) : Prop :=
  (e < p → m.planned = some e ∧ m.upshiftTimer = none ∧ m.downshifts = satInc l.downshifts ∧ m.upshifts = l.upshifts) ∧
  (e = p → m.planned = some p ∧ m.upshiftTimer = none ∧ m.downshifts = l.downshifts ∧ m.upshifts = l.upshifts) ∧
  (p < e → m.downshifts = l.downshifts ∧
    (l.upshiftHold ≠ 0 → m.planned = some p ∧ m.upshiftTimer = some (now + ms l.upshiftHold) ∧ m.upshifts = l.upshifts) ∧
    (l.upshiftHold = 0 → m.planned = some e ∧ m.upshiftTimer = none ∧ m.upshifts = satInc l.upshifts))

/-- The floor has placed a link that carries traffic (R10). -/
def FloorPlaced (m : LinkMonitor) : Prop := ∀ p, m.planned = some p → m.state = if p < m.floor then .degraded else .up

/-- What replaces a planned profile that has been made invalid: the highest valid index below it, or the lowest valid
index where none lies below (R14). -/
def Replaces (l : LinkMonitor) (p q : Nat) : Prop :=
  (profileAt l q).valid = true ∧
    ((q < p ∧ ∀ x, q < x → x < p → (profileAt l x).valid = false) ∨
      ((∀ x, x < p → (profileAt l x).valid = false) ∧ ∀ x, x < q → (profileAt l x).valid = false))

/-- The planned profile `p` was made invalid and `q` takes its place, with E_tx at `e`, which `linkLaw` keeps at `q`
or above (R14): one downshift; the hold stops where E_tx equals it, keeps running or starts where E_tx is above, and
restarts where E_tx has changed as well (R8). -/
def Replanned (now e p q : Nat) (l m : LinkMonitor) : Prop :=
  Replaces m p q → q ≤ e → m.downshifts = satInc l.downshifts ∧
    (e = q → m.planned = some q ∧ m.upshiftTimer = none ∧ m.upshifts = l.upshifts) ∧
    (∀ d, q < e → m.etx = l.etx → l.upshiftTimer = some d →
      m.planned = some q ∧ m.upshiftTimer = some d ∧ m.upshifts = l.upshifts) ∧
    (q < e → m.etx ≠ l.etx ∨ l.upshiftTimer = none →
      (l.upshiftHold ≠ 0 → m.planned = some q ∧ m.upshiftTimer = some (now + ms l.upshiftHold) ∧
        m.upshifts = l.upshifts) ∧
      (l.upshiftHold = 0 → m.planned = some e ∧ m.upshiftTimer = none ∧ m.upshifts = satInc l.upshifts))

/-- What the flight timeout or an overwrite of the descriptor on a line does to its slot, which is freed (R68), and to
the exchange entry of a query, which is removed with QUERY_LOST (R72), counted also where the entry is gone (log entry
15). -/
def SlotLost (s t : State) (line : Nat) : Prop :=
  ((∀ j, slotOfLine s line = some j → slotAt s j = .free) → t.xfer = s.xfer ∧ t.loop = s.loop) ∧
  ∀ (j : Nat) (slots : Vector Slot 64), slotOfLine s line = some j → slots = s.xfer.slots.setIfInBounds j .free →
    (∀ q, slotAt s j = .test q → t.xfer = { s.xfer with slots := slots }) ∧
    ∀ o q, slotAt s j = .query o q → t.loop = s.loop ∧
      (findExchange s o q = none → t.xfer = { s.xfer with
        slots := slots, counters := { s.xfer.counters with queryLost := satInc s.xfer.counters.queryLost } }) ∧
      ∀ e, findExchange s o q = some e → t.xfer = { s.xfer with
        slots := slots, exchanges := s.xfer.exchanges.filter fun y => y.offerSeq != o
        counters := { s.xfer.counters with queryLost := satInc s.xfer.counters.queryLost } }

/-- What the rejection of a slot descriptor with a sequence does. One that fits neither the user nor the sequence of a
POSTED slot counts REJECT_ORPHAN and changes nothing else; otherwise the slot is freed (R68), a query's entry returns
to OFFERED with QUERY_REJECTED (R72; counted also where the entry is gone, log entry 15), and a test frame's entry
leaves as unsent (R146). -/
def SlotRejected (s t : State) (line sequence : Nat) : Prop :=
  ∀ orphan : Transfer, orphan = { s.xfer with
      counters := { s.xfer.counters with rejectOrphan := satInc s.xfer.counters.rejectOrphan } } →
  ((∀ j, slotOfLine s line = some j → slotAt s j = .free) → t.xfer = orphan ∧ t.loop = s.loop) ∧
  ∀ (j : Nat) (slots : Vector Slot 64), slotOfLine s line = some j → slots = s.xfer.slots.setIfInBounds j .free →
    (∀ o q, slotAt s j = .query o q → t.loop = s.loop ∧ (sequence ≠ q.toNat → t.xfer = orphan) ∧
      (sequence = q.toNat →
        (findExchange s o q = none → t.xfer = { s.xfer with
          slots := slots
          counters := { s.xfer.counters with queryRejected := satInc s.xfer.counters.queryRejected } }) ∧
        ∀ e, findExchange s o q = some e → t.xfer = { s.xfer with
          slots := slots
          exchanges := s.xfer.exchanges.map fun y => if y.offerSeq = e.offerSeq
            then { e with state := .offered, querySeq := none, c := none, d := none } else y
          counters := { s.xfer.counters with queryRejected := satInc s.xfer.counters.queryRejected } })) ∧
    ∀ q, slotAt s j = .test q → (sequence ≠ q.toNat → t.xfer = orphan ∧ t.loop = s.loop) ∧
      (sequence = q.toNat → t.xfer = { s.xfer with slots := slots } ∧
        (outstandingOf s.loop j q = none → t.loop = { s.loop with sendOrphan := satInc s.loop.sendOrphan }) ∧
        ∀ e, outstandingOf s.loop j q = some e → SessionSettles s t ∧
          (e.state = .posted → t.loop.trips = s.loop.trips ∧
            t.loop.counts = { s.loop.counts with unsent := satInc s.loop.counts.unsent } ∧
            t.loop.outstanding = s.loop.outstanding.filter fun x => x.frameSeq != q) ∧
          ∀ u, e.state = .returnedEarly u → t.loop.counts = s.loop.counts ∧
            t.loop.trips = { s.loop.trips with skipped := satInc s.loop.trips.skipped } ∧
            t.loop.outstanding = s.loop.outstanding.filter fun x => x.frameSeq != q)

/-- A CORRECTED outcome is taken against its page (R116). `known` is the page's entry of the suspect page list, and
`n` the count it reaches. Below the threshold the entry is counted up or made, in a full list in place of one with the
lowest count, of equals the earliest made, which SUSPECT_REPLACED counts. At the threshold it leaves the list: a page
outside SPARE is remapped where automatic remapping is on (R121), which has its report, and any other has its
SUSPECT_PAGE report, with the count and the first time. The order of the entries in the list is the model's choice
(log entry 46), and so are the reports' sequences (log entry 19) and what an interval time that has passed its 8 bytes
shows (log entry 60). -/
def SuspectCounted (s t : State) (page n : Nat) (known : Option Suspect) : Prop :=
  known = s.integ.suspects.find? (fun x => x.page = page) → (∀ e, known = some e → n = e.count + 1) →
    (known = none → n = 1) →
  (known = none ∧ 8 ≤ s.integ.suspects.length →
    t.integ.counters.suspectReplaced = satInc s.integ.counters.suspectReplaced) ∧
  (known ≠ none ∨ s.integ.suspects.length < 8 →
    t.integ.counters.suspectReplaced = s.integ.counters.suspectReplaced) ∧
  (n < s.integ.suspectThreshold ∨ s.integ.autoRemap = false ∨ inSpare s page = true →
    t.integ.remaps = s.integ.remaps ∧ t.integ.counters.remapDuplicate = s.integ.counters.remapDuplicate ∧
    t.integ.counters.remapExhausted = s.integ.counters.remapExhausted) ∧
  (n < s.integ.suspectThreshold →
    (∀ e, known = some e →
      t.integ.suspects = s.integ.suspects.map fun x => if x.page = page then { x with count := x.count + 1 } else x) ∧
    (known = none → s.integ.suspects.length < 8 → t.integ.suspects = s.integ.suspects ++ [⟨page, 1, s.now⟩]) ∧
    (known = none → 8 ≤ s.integ.suspects.length →
      ∃ w ∈ s.integ.suspects, (∀ x ∈ s.integ.suspects, w.count < x.count ∨ (w.count = x.count ∧ w.first ≤ x.first)) ∧
        t.integ.suspects = s.integ.suspects.filter (fun x => x.page != w.page) ++ [⟨page, 1, s.now⟩])) ∧
  (s.integ.suspectThreshold ≤ n →
    (∀ x ∈ t.integ.suspects, x.page ≠ page ∧ x ∈ s.integ.suspects) ∧
    (∀ e, known = some e → t.integ.suspects = s.integ.suspects.filter fun x => x.page != page) ∧
    (known = none → s.integ.suspects.length < 8 → t.integ.suspects = s.integ.suspects) ∧
    (s.integ.autoRemap = false ∨ inSpare s page = true → ∀ first, (∀ e, known = some e → first = e.first) →
      (known = none → first = s.now) →
      ReportAmong s t 0 (timeNow s) 0x09 [⟨16, 8, pageAddress page⟩, ⟨24, 1, n⟩, ⟨32, 8, narrow 8 first⟩]) ∧
    (s.integ.autoRemap = true → inSpare s page = false →
      (remapHas s page = true → t.integ.remaps = s.integ.remaps ∧
        t.integ.counters.remapDuplicate = satInc s.integ.counters.remapDuplicate ∧
        t.integ.counters.remapExhausted = s.integ.counters.remapExhausted) ∧
      (∀ p, remapHas s page = false → poolPage s = some p →
        t.integ.remaps.map (·.failed) = s.integ.remaps.map (·.failed) ++ [page] ∧
        (∃ e ∈ t.integ.remaps, e.failed = page ∧ e.spare = p ∧ e.source = .copy ∧ e.created = timeNow s) ∧
        t.integ.counters.remapDuplicate = s.integ.counters.remapDuplicate ∧
        t.integ.counters.remapExhausted = s.integ.counters.remapExhausted ∧
        ReportAmong s t 0 (timeNow s) 0x0A [⟨16, 8, pageAddress page⟩, ⟨24, 8, pageAddress p⟩, ⟨32, 1, 0⟩]) ∧
      (remapHas s page = false → poolPage s = none → t.integ.remaps = s.integ.remaps ∧
        t.integ.counters.remapDuplicate = s.integ.counters.remapDuplicate ∧
        t.integ.counters.remapExhausted = satInc s.integ.counters.remapExhausted ∧
        t.fault.remapExhausted.raw = true ∧
        ReportAmong s t 1 (timeNow s) 0x0B [⟨16, 8, pageAddress page⟩, ⟨32, 1, 0⟩])))

/-- What the outcome of a read leaves in the integrity unit, whatever made the read, but for a march read and a read
that ends at its line's mark (R109 to R111, R116). CORRECTED counts ECC_CORRECTED, replaces LAST_CORRECTED and is
taken against the page of the line address. UNCORRECTABLE counts ECC_UNCORRECTABLE and fills FIRST_UNCORRECTABLE where
it holds none; of a line that is not marked it has its event and its report, and the line joins the end of the marked
line set, or counts MARK_OVERFLOW where 64 are held; of a line that is, it has neither, and the set stands. What an
outcome does not touch stays as it was. -/
def OutcomeTaken (s t : State) (source : IntegritySource) (a : Access) (o : EccOutcome) : Prop :=
  (t.integ.suspectThreshold = s.integ.suspectThreshold ∧ t.integ.autoRemap = s.integ.autoRemap ∧
    t.integ.counters.markedReads = s.integ.counters.markedReads) ∧
  (o = .corrected → t.integ.counters.corrected = satInc s.integ.counters.corrected ∧
    t.integ.lastCorrected = some ⟨a.line, a.memLine, source, timeNow s⟩ ∧
    ∀ n known, SuspectCounted s t (pageOf a.line) n known) ∧
  (o ≠ .corrected → t.integ.counters.corrected = s.integ.counters.corrected ∧
    t.integ.lastCorrected = s.integ.lastCorrected ∧ t.integ.suspects = s.integ.suspects ∧
    t.integ.counters.suspectReplaced = s.integ.counters.suspectReplaced ∧
    t.integ.counters.remapDuplicate = s.integ.counters.remapDuplicate ∧
    t.integ.counters.remapExhausted = s.integ.counters.remapExhausted) ∧
  (o = .uncorrectable → t.integ.counters.uncorrectable = satInc s.integ.counters.uncorrectable ∧
    (∀ c, s.integ.firstUncorrectable = some c → t.integ.firstUncorrectable = some c) ∧
    (s.integ.firstUncorrectable = none →
      t.integ.firstUncorrectable = some ⟨a.line, a.memLine, source, timeNow s⟩) ∧
    (a.line ∈ s.integ.marked → t.integ.marked = s.integ.marked ∧
      t.integ.counters.markOverflow = s.integ.counters.markOverflow ∧ t.fault = s.fault ∧ t.rep = s.rep) ∧
    (a.line ∉ s.integ.marked → UncorrectableReported s t source a ∧
      (s.integ.marked.length < 64 → t.integ.marked = s.integ.marked ++ [a.line] ∧
        t.integ.counters.markOverflow = s.integ.counters.markOverflow) ∧
      (64 ≤ s.integ.marked.length → t.integ.marked = s.integ.marked ∧
        t.integ.counters.markOverflow = satInc s.integ.counters.markOverflow))) ∧
  (o ≠ .uncorrectable → t.integ.counters.uncorrectable = s.integ.counters.uncorrectable ∧
    t.integ.firstUncorrectable = s.integ.firstUncorrectable ∧ t.integ.marked = s.integ.marked ∧
    t.integ.counters.markOverflow = s.integ.counters.markOverflow ∧
    t.fault.memUncorrectable = s.fault.memUncorrectable)

/-- The scrubber and its counters stand. -/
def ScrubKept (s t : State) : Prop :=
  t.integ.scrubber = s.integ.scrubber ∧ t.integ.counters.scrubLines = s.integ.counters.scrubLines ∧
  t.integ.counters.scrubCorrected = s.integ.counters.scrubCorrected ∧
  t.integ.counters.scrubSkipped = s.integ.counters.scrubSkipped

/-- The remap table and its count of abandoned entries stand, but for the request that a CORRECTED outcome may make
(R116, R121). -/
def RemapsKept (s t : State) (o : EccOutcome) : Prop :=
  (o ≠ .corrected → t.integ.remaps = s.integ.remaps) ∧
  t.integ.counters.remapAbandoned = s.integ.counters.remapAbandoned

/-- A line under a background or its complement, by the table of R132. -/
def IsBackground (checker inverse : Bool) (line : Nat) (d : Line) : Prop :=
  ∀ i < 64,
    (checker = false → getByte d i = if inverse then 0xFF#8 else 0x00#8) ∧
    (checker = true → line % 2 = i / 8 % 2 → getByte d i = if inverse then 0xAA#8 else 0x55#8) ∧
    (checker = true → line % 2 ≠ i / 8 % 2 → getByte d i = if inverse then 0x55#8 else 0xAA#8)

/-- The march has one request, the access that its progress names (R133): at the line of the progress a read, or a
write, of B in elements 1, 3 and 5 and of ~B in elements 2 and 4. -/
def MarchIssued (t : State) : Prop :=
  ∃ q ∈ t.path.reqs, q.line = 64 * t.march.startPage + t.march.index ∧ q.stage = .forwarded ∧
    (∀ x ∈ t.path.reqs, stationOf x.job = .march → x = q) ∧
    (t.march.writeNext = false → q.job = .march none) ∧
    (t.march.writeNext = true → ∃ d, q.job = .march (some d) ∧
      IsBackground t.march.checker (t.march.element = 2 ∨ t.march.element = 4) q.line d)

/-- An event leaves the march no access outstanding among the requests and accesses given: it then makes its next one
where it is RUNNING and its start drain is empty, and none otherwise (R130, R133, R135; within the event that makes it
possible, log entry 26). -/
def MarchGoesOn (t : State) (reqs : List Req) (accesses : List Access) : Prop :=
  (∀ q ∈ reqs, stationOf q.job ≠ .march) → (∀ x ∈ accesses, x.kind ≠ .marchRead ∧ ∀ d, x.kind ≠ .marchWrite d) →
    t.inReset = false →
    (t.march.state = .running → t.march.drain = [] → MarchIssued t) ∧
    (t.march.state ≠ .running ∨ t.march.drain ≠ [] → ∀ q ∈ t.path.reqs, stationOf q.job ≠ .march)

/-- The time unit once a stamp has been counted (R53, R60). -/
def stampCounted (u : TimeUnit) (c : TakenStamp) : TimeUnit :=
  if c.valid then { u with stampsValid := satInc u.stampsValid }
  else { u with stampsInvalid := satInc u.stampsInvalid }

/-- A grant issues the next access of a request, with the memory line it was given at the lock station. -/
def IssuedAs (r : Req) (a : Access) : Prop :=
  a.id = r.id ∧ a.line = r.line ∧ a.live = true ∧ a.gone = false ∧
  (∀ m, r.stage = .ready m ∨ r.stage = .draining m → a.memLine = m ∧ a.kind = firstAccess r.job) ∧
  ∀ m d, r.stage = .writeReady m d → a.memLine = m ∧ a.kind = secondAccess r.job d

/-- The memory line that the lock station gives a request, by a remap table (R122). -/
def stationLine (remaps : List RemapEntry) (r : Req) : Nat :=
  if namesMemoryLine r.job then r.line else redirectLine remaps r.line

/-- The lock on a line is released (R113): the other locks stand, and of the accesses that wait on the line the one
that began first is taken again, with the remap table given: it passes the station, or takes its lock where it needs
one and may have it. -/
def LockReleasedUnder (remaps : List RemapEntry) (s t : State) (line : Nat) : Prop :=
  (∀ k ∈ s.path.locks, k.line ≠ line → k ∈ t.path.locks) ∧
  (s.path.waits = [] → t.path.locks = s.path.locks.filter fun k => k.line != line) ∧
  ∀ (pre rest : List Nat) (n : Nat) (q : Req), s.path.waits = pre ++ n :: rest → findReq s n = some q →
    q.stage = .waitLine → q.line = line →
    (∀ i ∈ pre, ∀ x, findReq s i = some x → x.stage ≠ .waitLine ∨ x.line ≠ line) →
    (lockHolder q.job = none →
      ∃ u ∈ t.path.reqs, u.id = n ∧ u.stage = .ready (stationLine remaps q)) ∧
    ∀ h, lockHolder q.job = some h → (s.path.locks.filter fun k => k.line != line).length < 8 →
      (h = .internalPartial ∨ ∀ k ∈ s.path.locks, k.line ≠ line → k.holder ≠ h) → ⟨line, h⟩ ∈ t.path.locks ∧
      ∃ u ∈ t.path.reqs, u.id = n ∧ u.stage = .draining (stationLine remaps q)

/-- The lock on a line is released by an event that leaves the remap table (R113). -/
def LockReleased (s t : State) (line : Nat) : Prop := LockReleasedUnder s.integ.remaps s t line

/-- A line has become the one request of a background unit. -/
def SetsOut (t : State) (line : Nat) (job : Job) : Prop :=
  ∃ q ∈ t.path.reqs, q.line = line ∧ q.stage = .forwarded ∧ q.job = job ∧
    ∀ x ∈ t.path.reqs, stationOf x.job = stationOf job → x = q

/-- The copy engine has no request. -/
def CopyRests (t : State) : Prop := ∀ x ∈ t.path.reqs, stationOf x.job ≠ .copy

/-- An event leaves the copy engine no request among those given, and the remap table as given: the engine then sets
out on the line at the COPYING entry's pointer; where none is COPYING, on line 0 of the WAITING entry made earliest,
which becomes COPYING; and on none where none is WAITING (R123; within the event, log entry 26). -/
def CopyGoesOn (t : State) (remaps : List RemapEntry) (reqs : List Req) : Prop :=
  (∀ q ∈ reqs, stationOf q.job ≠ .copy) → t.inReset = false →
  (∀ e, remaps.find? (fun x => x.state == .copying) = some e →
    t.integ.remaps = remaps ∧ SetsOut t (64 * e.failed + e.pointer) .copyLine) ∧
  (remaps.find? (fun x => x.state == .copying) = none →
    (∀ e, remaps.find? (fun x => x.state == .waiting) = some e → SetsOut t (64 * e.failed) .copyLine ∧
      t.integ.remaps = remaps.map fun x => if x.failed = e.failed then { e with state := .copying, pointer := 0 } else x) ∧
    (remaps.find? (fun x => x.state == .waiting) = none → t.integ.remaps = remaps ∧ CopyRests t))

/-- The scrubber after it has taken `k` lines, from a position and on to the next (R117). -/
def scrubbed (c : Scrubber) (p : Nat → Nat) (k : Nat) : Scrubber :=
  { c with
    position := p k, allowance := c.allowance - k
    passCount := satAdd c.passCount ((List.range k).filter fun n => c.endLine ≤ p n).length }

/-- An event leaves the scrubber no request among those given: while it is not paused and has allowance it then walks
its positions from where it stands, which return to the start line past the end line with one pass counted. Each line
it meets in the fence spends allowance and counts SCRUB_SKIPPED; it sets out on the first that is not (R117, R118;
within the event, log entry 26). -/
def ScrubGoesOn (s t : State) (reqs : List Req) : Prop :=
  (∀ q ∈ reqs, stationOf q.job ≠ .scrub) →
  ∀ c skipped, c = s.integ.scrubber → skipped = s.integ.counters.scrubSkipped →
    (s.inReset = true ∨ s.path.loadHigh = true → t.integ.scrubber = c ∧ t.integ.counters.scrubSkipped = skipped ∧
      ∀ x ∈ t.path.reqs, stationOf x.job ≠ .scrub) ∧
    ∀ (p : Nat → Nat) (k : Nat), s.inReset = false → s.path.loadHigh = false → p 0 = c.position →
      (∀ n, p (n + 1) = if c.endLine ≤ p n then c.startLine else p n + 1) → (∀ n < k, fenced s (p n) = true) →
      (k = c.allowance → t.integ.scrubber = scrubbed c p k ∧ t.integ.counters.scrubSkipped = satAdd skipped k ∧
        ∀ x ∈ t.path.reqs, stationOf x.job ≠ .scrub) ∧
      (k < c.allowance → fenced s (p k) = false → t.integ.scrubber = scrubbed c p (k + 1) ∧
        t.integ.counters.scrubSkipped = satAdd skipped k ∧ SetsOut t (p k) .scrub)

/-! ### The situations of the rows -/

/-- The next request that a port classifies (R96). -/
def Next (s : State) (p : Port) (id : Nat) (r : LineRequest) : Prop := nextRequest s p = some (id, r)

/-- The site port's next request is a marked full-line record of a kind, with an action code in byte 4. -/
def RecordNext (s : State) (id : Nat) (r : LineRequest) (kind action : Nat) : Prop :=
  Next s .site id r ∧ sight s .site r = .record kind action

/-- The modem port's next request is of a sort, in a window of the table. -/
def ModemNext (s : State) (id : Nat) (r : LineRequest) (x : Sighting) (i : Nat) (w : Window) : Prop :=
  Next s .modem id r ∧ sight s .modem r = x ∧ windowAt s (reqLine r) = some (i, w)

/-- The row that names a record of a kind with an action (R153); MEMTEST, LOOPTEST and REPORT have a row for each
action. -/
def recordRow (kind action : Nat) : Option Instr :=
  match kind with
  | 0x01 => some .windowRecord | 0x02 => some .profileRecord | 0x03 => some .classRecord
  | 0x04 => some .admitRecord | 0x05 => some .linkRecord | 0x06 => some .timingRecord | 0x07 => some .timesetRecord
  | 0x08 => some .synthRecord | 0x09 => some .portsRecord | 0x0A => some .scrubRecord | 0x0B => some .remapRecord
  | 0x0C => [(1, .memtestStart), (2, .memtestSuspend), (3, .memtestResume), (4, .memtestStop)].lookup action
  | 0x0D => [(1, .looptestStart), (2, .looptestStop)].lookup action
  | 0x0E => some .faultRecord | 0x0F => some .clearRecord
  | 0x10 => [(1, .reportConfigure), (2, .reportConsume), (3, .reportRelease)].lookup action
  | 0x11 => some .snapshotRecord
  | _ => none

/-- The row that names a request of a sort at a port, where one does (log entry 7). -/
def rowFor (p : Port) : Sighting → Option Instr
  | .status => some .statusWrite
  | .txCompletion => some .txCompletion
  | .overwrite => some (.descriptorOverwrite p)
  | .rxCompletion => some .rxCompletion
  | .frame => some .frameWrite
  | .returned => some .returnedLine
  | .unmarked => some .controlWriteUnmarked
  | .refused => some .recordPartialOrKind
  | .record k a => recordRow k a
  | .parity => none | .denied _ => none | .fenced => none | .statusIgnored => none | .clearsReady => none
  | .plain => none

/-- A request has been forwarded to the lock station as this work. -/
def Forwarded (t : State) (id : Nat) (job : Job) : Prop :=
  ∃ q ∈ t.path.reqs, q.id = id ∧ q.stage = .forwarded ∧ q.job = job

/-- A modem completion goes on with its stamp (R54): a full line as one write of the data with the stamp in them, any
other as a read-modify-write, whose mask takes the bytes of the stamp. -/
def GoesOnStamped (t : State) (id : Nat) (r : LineRequest) (i : Nat) (w : Window) (c : TakenStamp) : Prop :=
  Forwarded t id (.port .modem r (some (i, w)) (some c)) ∧
  (maskFull (reqMask r) = true →
    firstAccess (.port .modem r (some (i, w)) (some c)) = .portWrite .modem (stampedData (reqData r) c)) ∧
  (maskFull (reqMask r) = false → firstAccess (.port .modem r (some (i, w)) (some c)) = .rmwRead .modem ∧
    writtenMask r (some c) = maskAdd (reqMask r) 21 13 ∧ writtenData r (some c) = stampedData (reqData r) c)

/-- A request has been answered. -/
def Answered (t : State) (id : Nat) (x : Response) : Prop :=
  ∃ q ∈ t.path.reqs, q.id = id ∧ q.stage = .answered x

/-- A record has been counted APPLIED, and nothing else has been counted by the decoder (R154, R164). -/
def RecordApplied (s t : State) : Prop := t.dec = { s.dec with applied := satInc s.dec.applied }

/-- A record that leaves the ring to its reports has been applied: it counts APPLIED, and its RECORD_RESULT of outcome
0 follows at most `n` other reports of its event (R154, R156). -/
def RecordDone (s t : State) (n : Nat) (r : LineRequest) : Prop := RecordApplied s t ∧ ResultLast s t n r 0

/-- The access is a write. -/
def storesLine : AccessKind → Bool
  | .portWrite _ _ | .rmwWrite _ _ | .writeBackWrite _ | .noticeWrite _ | .reportWrite _ | .snapshotWrite _ _
  | .queryFrameWrite _ | .testLineWrite _ | .slotDescriptorWrite _ | .marchWrite _ | .scrubWrite _ | .copyWrite _ => true
  | .portRead _ | .descriptorRead | .rmwRead _ | .writeBackRead | .marchRead | .scrubRead | .copyRead => false

/-- A line has been written in DRAM: it holds the data, no stored bit of it is flipped (R108), and every other line is
as it was. -/
def LineWritten (s t : State) (m : Nat) (d : Line) : Prop :=
  dramRead t.dram m = d ∧ flipsRead t.flips m = Flips.none ∧
  ∀ k, k ≠ m → dramRead t.dram k = dramRead s.dram k ∧ flipsRead t.flips k = flipsRead s.flips k

/-- A line has been read: its flipped bits stay, with those the read found new, and those of every other line stay as
they were (R108). -/
def FlipsKept (s t : State) (m : Nat) (f : LineFlips) : Prop :=
  (∀ (w : Fin 8) x, f[w.val]? = some x → (flipsRead t.flips m)[w] = (flipsRead s.flips m)[w] ||| x.fresh) ∧
  ∀ k, k ≠ m → flipsRead t.flips k = flipsRead s.flips k

/-- What the code makes of a line by the number `n` of flipped bits in each of its words (R108): up to one in each
word, the line as written, CORRECTED where a word has one; two in a word, UNCORRECTABLE; three or more, one of the
three outcomes, with data other than those written where they pass. The worst of the eight counts. -/
def CodeRead (flips : Flips) (written : Line) (f : LineFlips) (o : EccObs) : Prop :=
  ∀ n : Fin 8 → Nat, (∀ w, n w = ((List.range 72).filter fun i => (flips[w]).getLsbD i).length) →
  ((∀ w, n w ≤ 1) → deliveredLine o written = written ∧
    ((∀ w, n w = 0) → lineOutcome o = .clean) ∧ ((∃ w, n w = 1) → lineOutcome o = .corrected)) ∧
  ((∃ w, n w = 2) → lineOutcome o = .uncorrectable) ∧
  (lineOutcome o ≠ .uncorrectable → ∀ w : Fin 8,
    (n w ≤ 1 → wordOf (deliveredLine o written) w = wordOf written w) ∧
    (3 ≤ n w → wordOf (deliveredLine o written) w ≠ wordOf written w)) ∧
  ∀ (w : Fin 8) x, f[w.val]? = some x → 3 ≤ n w →
    (x.many = .uncorrectable → lineOutcome o = .uncorrectable) ∧
    ∀ d, d ≠ wordOf written w →
      (x.many = .corrected d → lineOutcome o ≠ .clean) ∧
      (x.many = .clean d → (∀ v, v ≠ w → n v = 0) → lineOutcome o = .clean) ∧
      (x.many = .corrected d → (∀ v, v ≠ w → n v ≤ 1) → lineOutcome o = .corrected) ∧
      (x.many = .clean d ∨ x.many = .corrected d → lineOutcome o ≠ .uncorrectable →
        wordOf (deliveredLine o written) w = d)

/-- The access that completes next at the memory port (R104). -/
def Completes (s : State) (a : Access) : Prop := portHead s = some a

end Sys2Proof.Machine
end

