-- ==== Sys2Proof/Certificates/Slice0/Obligations.lean ====
section
/-! DEFINITION. The statements for the provers, in the order of the blocks. A statement that rests on a choice of the
model names the log entry. -/

section

open Sys2Proof Sys2Proof.Machine

/-! ### The queue of commands and the laws of the device -/

/-- A step carries out the command at the front of the queue, with the queue's rest; on an empty queue the part idles
(log entry 1). The model's own queue; derived. -/
def Obligations.StepTakesFrontCommand : Prop :=
  (∀ (c : Instr) (rest : List Instr) (s : State), s.pending = c :: rest → step s = exec c (s.setPending rest)) ∧
  ∀ s : State, s.pending = [] → step s = .next s

/-- After power-on, at each setting of the straps, every law of the device stated below holds; `State.reset` is the
setting 00. -/
def Obligations.PowerOnMeetsLaws : Prop :=
  State.reset = State.atPowerOn 0 ∧ ∀ straps : BitVec 2,
    let s := State.atPowerOn straps
    dramLaw s ∧ clockLaw s ∧ admissionLaw s ∧ tableLaw s ∧ profileLaw s ∧ linkLaw s ∧ windowLaw s ∧ pathLaw s ∧
      loadLaw s ∧ markLaw s ∧ remapLaw s ∧ marchLaw s ∧ fenceLaw s ∧ loopLaw s ∧ ringLaw s ∧ faultLaw s

/-- Every step keeps the canonical form of the DRAM contents and of the flipped bits that stand in it (the model's
own), and a stored bit of any line that is flipped stays flipped until a write covers its line, or POWER_ON: R108 says
so of a line read as CORRECTED, and for every line it is the model's choice (DESIGN CHOICE, log entry 28). -/
def Obligations.DramCanonicalKept : Prop :=
  ∀ s t : State, dramLaw s → step s = .next t → dramLaw t ∧
    ∀ (m : Nat) (w : Fin 8), (flipsRead s.flips m)[w] &&& (flipsRead t.flips m)[w] = (flipsRead s.flips m)[w] ∨
      (∃ a, Completes s a ∧ a.memLine = m ∧ storesLine a.kind = true) ∨
      ∃ straps rest, s.pending = .powerOn straps :: rest

/-- Every step keeps the ranges of the time counter (R44), F (R46), S (R79), the F history (R80, R82) and the sample
block (R77). -/
def Obligations.ClockRangesKept : Prop := ∀ s t : State, clockLaw s → step s = .next t → clockLaw t

/-- Every step keeps the laws of the admission unit: credit between −78,840 bits and the burst, credit 0 in a disabled
class (R18); shares that sum to 1,000 at most and a low mark below each high mark (R17); held lists of at most 16
distinct lines, empty in a disabled class (R26, R42); an in-flight table of at most 64 distinct lines, none of them
listed (R28). A line in flight stays a descriptor line of the window table (R28, R100), and a line enters the table
only by the judgement of a read that was classified in a TX_RING or PART_TX window, for that window's class (R21, R27,
R95; a WINDOW record may come between the classification and the judgement, log entry 49). -/
def Obligations.AdmissionLawKept : Prop :=
  ∀ s t : State, admissionLaw s → step s = .next t → admissionLaw t ∧
    (∀ e ∈ t.adm.flight, inFlight s e.line = true → InDescriptorWindow s e.line → InDescriptorWindow t e.line) ∧
    ∀ e ∈ t.adm.flight, inFlight s e.line = false → ∃ a i w, Completes s a ∧ a.kind = .descriptorRead ∧
      a.line = e.line ∧ windowOfAccess s a = some (i, w) ∧ e.cls = windowClass w ∧
      (pathLaw s → w.kind = .txRing ∨ w.kind = .partTx)

/-- Every step keeps the tables of the time transfer engine in bounds: at most eight pending messages on distinct
lines (R63), at most eight exchanges with distinct offer sequences (R65), at most 60 slots POSTED for test frames
(R70). -/
def Obligations.TransferTablesKept : Prop := ∀ s t : State, tableLaw s → step s = .next t → tableLaw t

/-- Every step keeps the ordering of the profile table (R1) and the standing relations of the link monitor (R3, R4,
R7, R8, R10, R14), among them that the planned capacity never exceeds that of E_tx in UP and DEGRADED (R8). -/
def Obligations.LinkLawKept : Prop :=
  ∀ s t : State, profileLaw s → linkLaw s → step s = .next t → profileLaw t ∧ linkLaw t

/-- Every step keeps the line path in bounds: at most 16 requests in each port (R90), at most eight locks on distinct
lines, and no holder but the internal partial writes with two (R113); and the model's numbering of requests, by which
each live access at the memory port is the first or second access of its request (log entry 37). -/
def Obligations.PathLawKept : Prop := ∀ s t : State, pathLaw s → step s = .next t → pathLaw t

/-- Every step keeps the arbiter's parameters in their ranges (R106) and LOAD_HIGH as its evaluation leaves it: set
only above the low mark, clear only below the high mark (R105). -/
def Obligations.LoadLawKept : Prop := ∀ s t : State, pathLaw s → loadLaw s → step s = .next t → loadLaw t

/-- Every step keeps the marked line set at no more than 64 distinct lines (R111) and the suspect page list at no more
than eight distinct pages (R116); and no upstream read of a marked line completes with OKAY: a request that a step
answers OKAY with data names a line that was not marked (R112). -/
def Obligations.MarkLawKept : Prop :=
  ∀ s t : State, pathLaw s → markLaw s → step s = .next t → markLaw t ∧
    ∀ q ∈ t.path.reqs, ∀ x d, q.stage = .answered x → x.okay = true → x.data = some d →
      (∃ q' ∈ s.path.reqs, q'.id = q.id ∧ q'.stage = .answered x) ∨ isMarked s q.line = false

/-- Every step keeps the laws of the window table: entry 0 as the straps give it (R92), the kinds, sizes and classes
of R93, no page shared and no more windows of a kind than R93 allows, a SPARE window without permissions (R94). Every
step keeps the laws of the remap table: at most 32 entries, no two with one failed or one spare page, at most one
COPYING, the pointer as the state says, and every spare page in the SPARE window (R120, R123). -/
def Obligations.WindowAndRemapLawsKept : Prop :=
  (∀ s t : State, windowLaw s → step s = .next t → windowLaw t) ∧
  ∀ s t : State, remapLaw s → step s = .next t → remapLaw t

/-- Every step keeps the march session's relations: a cause set that is not empty exactly in SUSPENDED and that holds
LOAD in an active session exactly while LOAD_HIGH is set (R105, R135), an outcome exactly in DONE and ABORTED, at most
16 distinct failing pages (R128, R134). While the fence stands, its region stays clear of CONTROL, REPORT, SPARE,
PART_TX, STATUS and NOTICE windows and of the TX_RING and BUFFER windows of enabled classes, and the march's one
request names a line of the region, addressed as the memory line itself (R131, R133). -/
def Obligations.MarchLawKept : Prop :=
  (∀ s t : State, marchLaw s → step s = .next t → marchLaw t) ∧
  ∀ s t : State, pathLaw s → fenceLaw s → step s = .next t → fenceLaw t

/-- Every step keeps the loopback session's relations: at most 32 outstanding entries with distinct sequences below
the next one, entries only while RUNNING or DRAINING, frames left while RUNNING (R141, R144, R146, R150). -/
def Obligations.LoopLawKept : Prop := ∀ s t : State, loopLaw s → step s = .next t → loopLaw t

/-- Every step keeps the ring's parameters in range (R158), C and W at M or less (R155), with W behind M by at least
the entries still to be written, the unread count at N − 1 or less (R156), and the report timer stopped while the
timeout flag is set (R160). -/
def Obligations.RingLawKept : Prop := ∀ s t : State, pathLaw s → ringLaw s → step s = .next t → ringLaw t

/-- Every step keeps the fault line at the level of R168, latched flags to LATCH mode (R167), and the timers of the
conditions as R166 runs them. -/
def Obligations.FaultLawKept : Prop := ∀ s t : State, faultLaw s → step s = .next t → faultLaw t

/-! ### The two resets (R171) and the oscillator (R45, R55 to R57) -/

/-- POWER_ON leaves every block at the values the chapters give for power-on (R171): the time unit (R44, R57), the
link monitor (R4, R15), the classes (R17), the time transfer engine (R80, R86), the window table (R92), the line path
with its arbiter (R102, R105), the integrity unit (R119, R120), the test engines, the decoder, the report unit and the
fault unit (R165). The two reports of the level conditions then present were dropped, each with its sequence (log
entry 19); fields of the idle test sessions that have no reset value in the manual are at 0 (log entry 10), DRAM that
nothing has written reads as zeros (log entry 3), and accesses already issued complete at the memory port without a
response (R107, log entry 42): the work they belonged to is gone, so a read among them leaves no outcome at its
completion (R126). A part whose reset line is asserted leaves that reset (log entry 12). The commands that wait and
the count of free values are the model's own and stay (log entry 11). -/
def Obligations.PowerOnSetsResetValues : Prop :=
  (∀ (straps : BitVec 2) (s : State), ∃ t, exec (.powerOn straps) s = .next t ∧
    t.pending = s.pending ∧ t.freeUses = s.freeUses ∧ t.straps = straps ∧ t.inReset = false ∧ t.now = 0 ∧
    t.oscillator = 0 ∧ t.dram = [] ∧ t.flips = [] ∧
    t.time = ⟨0, 0, 0, 0, 0, ⟨5, 96, 25, false, .off, none⟩, none, none, none, 0, 0, 0, 0, 0, 0⟩ ∧
    (t.link.state = .down .noStatus ∧ t.link.kept = none ∧ t.link.etx = none ∧ t.link.erx = none ∧
      t.link.planned = none ∧ (∀ i, profileAt t.link i = ⟨false, 0, 0, 0, 0⟩) ∧ t.link.floor = 0 ∧
      t.link.statusTimeout = 50 ∧ t.link.restoreHold = 2000 ∧ t.link.upshiftHold = 5000 ∧
      t.link.statusTimer = none ∧ t.link.restoreTimer = none ∧ t.link.upshiftTimer = none ∧ t.link.statusTaken = 0 ∧
      t.link.statusIgnored = 0 ∧ t.link.downEntries = 0 ∧ t.link.downshifts = 0 ∧ t.link.upshifts = 0) ∧
    ((∀ c, clsAt t c = ⟨false, 0, 0, 0, 100, false, 500, 100, 50, 0, [], false, none, 0,
        ⟨0, 0, 0, 0, 0, 0, 0, 0, 0, 0, 0, 0⟩⟩) ∧ t.adm.flight = [] ∧ t.adm.flightTimeout = 100 ∧
      t.adm.refillTimer = some (ms 1) ∧ t.adm.rxClassInvalid = 0 ∧ t.adm.noticeDropped = 0 ∧
      t.adm.noticeReplaced = 0 ∧ t.adm.writebackDropped = 0) ∧
    (t.xfer.params = ⟨0, 8, 1000, 0, 5000000, 8, 1, 100000, 1000, 4, 8, 10, 10000⟩ ∧ t.xfer.state = .freerun ∧
      t.xfer.integral = 0 ∧ t.xfer.history = [] ∧ t.xfer.block = [] ∧ t.xfer.runCount = 0 ∧ t.xfer.holdoverAge = 0 ∧
      t.xfer.lastOffset = 0 ∧ t.xfer.lastDelay = 0 ∧ t.xfer.pendingTable = [] ∧ t.xfer.exchanges = [] ∧
      t.xfer.querySeq = 0 ∧ (∀ j, slotAt t j = .free) ∧ t.xfer.ringPointer = 0 ∧ t.xfer.queryTimer = some (ms 125) ∧
      t.xfer.blockTimer = none ∧
      t.xfer.counters = ⟨0, 0, 0, 0, 0, 0, 0, 0, 0, 0, 0, 0, 0, 0, 0, 0, 0, 0, 0, 0, 0, 0, 0, 0, 0, 0, 0, 0⟩) ∧
    (windowEntry t 0 = some ⟨.control, [0, 0x100, 0x1000, 0x10000].getD straps.toNat 0, 1, none,
        ⟨true, true, false, false, false, false⟩⟩ ∧
      ∀ i, i ≠ 0 → windowEntry t i = none) ∧
    (t.path.reqs = [] ∧ t.path.waits = [] ∧ t.path.locks = [] ∧
      t.path.memPort = (s.path.memPort.map fun a => { a with live := false, gone := true }) ∧
        t.path.weights = ⟨2, 6, 6, 2⟩ ∧
      t.path.current = .internal ∧ t.path.remaining = 0 ∧ t.path.lowMark = 8 ∧ t.path.highMark = 32 ∧
      t.path.loadHigh = false ∧ (∀ p, portGet t.path.ports p = ⟨0, 0, 0, 0, 0⟩) ∧ t.path.grants = ⟨0, 0, 0, 0⟩ ∧
      t.path.loadHighEntries = 0) ∧
    t.integ = ⟨none, none, [], [], 4, false, ⟨0, 0, 0, 0, 0, 0, some (ms 1)⟩, [], ⟨0, 0, 0, 0, 0, 0, 0, 0, 0, 0, 0⟩⟩ ∧
    (t.march.state = .idle ∧ t.march.causeManual = false ∧ t.march.causeLoad = false ∧ t.march.failing = [] ∧
      t.march.failingReads = 0 ∧ t.march.unlisted = 0 ∧ t.march.firstFailure = none ∧ t.march.outcome = none ∧
      t.march.started = 0 ∧ t.march.passed = 0 ∧ t.march.failed = 0 ∧ t.march.abortedCount = 0 ∧ t.march.reads = 0 ∧
      t.march.failedReads = 0 ∧ t.march = Initial.march) ∧
    (t.loop.state = .idle ∧ t.loop.lastIdentifier = 0 ∧ t.loop.outstanding = [] ∧ t.loop.outcome = none ∧
      t.loop.counts = ⟨0, 0, 0, 0, 0, 0, 0, 0, 0, 0, 0, 0, 0⟩ ∧ t.loop.trips = ⟨0, 0, 0, 0, 0⟩ ∧ t.loop.started = 0 ∧
      t.loop.passed = 0 ∧ t.loop.failed = 0 ∧ t.loop.abortedCount = 0 ∧ t.loop.strayLines = 0 ∧
      t.loop.partialLines = 0 ∧ t.loop.late = 0 ∧ t.loop.sendOrphan = 0 ∧ t.loop = Initial.loop) ∧
    t.dec = ⟨0, 0, 0, 0, 0, 0, 0, 0⟩ ∧ t.rep = ⟨none, 2, false, false, 0, 2, 0, 0, 0⟩ ∧
    t.fault.line = false ∧ t.fault.assertions = 0 ∧
    ∀ c, condGet t.fault c = if c = .linkDown ∨ c = .timingUnqualified then ⟨.report, false, true, false, none, 1⟩
      else ⟨.report, false, false, false, none, 0⟩) ∧
  ∀ (s : State) (a : Access) (f : LineFlips), Completes s a → a.live = false → a.gone = true →
    ∀ c ∈ [Instr.portReadComplete f, .descriptorReadJudged f, .rmwReadComplete f, .internalPartialReadComplete f,
      .scrubReadComplete f, .copyReadComplete f, .marchReadComplete f], ∃ t, exec c s = .next t ∧
      OnlyChanges [.path, .march, .flips] s t

/-- RESET_LINE_ASSERT, where its end does not wait in the queue within 1 µs, keeps the DRAM with its flipped bits, the
straps, the time counter and the second outputs, the synthesizer, the servo's S, history and parameters, the marked
line set, the remap table, the last session identifier, the CONTROL and SPARE windows and the accesses already issued;
it increments the epoch and leaves the rest at its reset values (R171; fields of the idle test sessions that have none
are at 0, log entry 10). In TRACK it enters HOLDOVER, with F at the mean of the history (R80, R83; R46 says that the
line keeps F, log entry 33). A shorter assertion has the same effects or none (R171), and uses up one free value; how
the model knows it, and that asserting an asserted line changes nothing, is its choice (log entry 12). -/
def Obligations.ResetLineKeepsAndClears : Prop :=
  (∀ s : State, s.inReset = false → shortAssertion s = false →
    ∃ t, exec .resetLineAssert s = .next t ∧ t.inReset = true ∧ t.now = 0 ∧
    t.dram = s.dram ∧ t.flips = s.flips ∧ t.straps = s.straps ∧ t.oscillator = s.oscillator ∧ t.pending = s.pending ∧
    t.freeUses = s.freeUses ∧
    t.time = { s.time with
      freq := if s.xfer.state = .track then holdoverFreq s.xfer.history s.time.freq else s.time.freq
      epoch := s.time.epoch + 1
      stampsValid := 0, stampsInvalid := 0, phaseSteps := 0, stepsClamped := 0, timesets := 0, todReplaced := 0 } ∧
    t.xfer = { s.xfer with
      pendingTable := [], exchanges := [], queryTimer := none, querySeq := 0, slots := Vector.replicate 64 .free
      ringPointer := 0, block := [], runCount := 0, blockTimer := none
      state := if s.xfer.state = .track ∨ s.xfer.state = .holdover then .holdover else .freerun
      holdoverAge := if s.xfer.state = .holdover then s.xfer.holdoverAge else 0
      counters := ⟨0, 0, 0, 0, 0, 0, 0, 0, 0, 0, 0, 0, 0, 0, 0, 0, 0, 0, 0, 0, 0, 0, 0, 0, 0, 0, 0, 0⟩ } ∧
    (∀ i, windowEntry t i = match windowEntry s i with
      | some w => if w.kind = .control ∨ w.kind = .spare then some w else none
      | none => none) ∧
    (t.path.reqs = [] ∧ t.path.waits = [] ∧ t.path.locks = [] ∧
      t.path.memPort = (s.path.memPort.map fun a => { a with live := false }) ∧ t.path.weights = ⟨2, 6, 6, 2⟩ ∧
      t.path.current = .internal ∧ t.path.remaining = 0 ∧ t.path.lowMark = 8 ∧ t.path.highMark = 32 ∧
      t.path.loadHigh = false ∧ (∀ p, portGet t.path.ports p = ⟨0, 0, 0, 0, 0⟩) ∧ t.path.grants = ⟨0, 0, 0, 0⟩ ∧
      t.path.loadHighEntries = 0) ∧
    t.integ = ⟨none, none, s.integ.marked, [], 4, false, ⟨0, 0, 0, 0, 0, 0, none⟩, s.integ.remaps,
      ⟨0, 0, 0, 0, 0, 0, 0, 0, 0, 0, 0⟩⟩ ∧
    (t.link = Initial.link ∧ t.adm = Initial.adm ∧ t.march = Initial.march ∧ t.dec = Initial.dec ∧
      t.rep = Initial.rep ∧ t.fault = Initial.fault ∧
      t.loop = { Initial.loop with lastIdentifier := s.loop.lastIdentifier })) ∧
  (∀ s : State, s.inReset = false → shortAssertion s = true →
    exec .resetLineAssert s = .next { s with freeUses := s.freeUses + 1 } ∨
    ∃ t, exec .resetLineAssert { s with pending := [], freeUses := s.freeUses + 1 } = .next t ∧
      exec .resetLineAssert s = .next { t with pending := s.pending }) ∧
  (∀ s : State, shortAssertion s = true ↔ ∃ pre post, s.pending = pre ++ .resetLineDeassert :: post ∧
    .resetLineDeassert ∉ pre ∧ (∀ x, .powerOn x ∉ pre) ∧ pre.count .oscillatorPeriod + pre.count .rollover < 40) ∧
  ∀ s : State, s.inReset = true → exec .resetLineAssert s = .next s

/-- RESET_LINE_DEASSERT starts the refill, query and scrub timers at interval time 0, and takes each level condition as
its source then stands (R165, R171). The rest of the integrity unit stands; the copy of a COPYING entry goes on with
the line at its pointer, and where there is none the earliest WAITING entry is taken (R123, R126); that its request is
made within the event is the model's choice (log entry 26). That deasserting a deasserted line changes nothing is the
model's choice (log entry 12). -/
def Obligations.ResetEndStartsTimersAndLevels : Prop :=
  (∀ s : State, s.inReset = true → ∃ t, exec .resetLineDeassert s = .next t ∧ t.inReset = false ∧ t.now = 0 ∧
    t.adm = { s.adm with refillTimer := some (ms 1) } ∧
    t.xfer = { s.xfer with queryTimer := some (40000000 / s.xfer.params.queryRate) } ∧
    t.integ = { s.integ with
      scrubber := { s.integ.scrubber with timer := some (ms 1) }, remaps := t.integ.remaps } ∧
    (copyBusy s = true → t.integ.remaps = s.integ.remaps) ∧
    (copyBusy s = false →
      (∀ e, copyingEntry s = some e → t.integ.remaps = s.integ.remaps ∧
        ∃ q ∈ t.path.reqs, q.line = 64 * e.failed + e.pointer ∧ q.stage = .forwarded ∧ q.job = .copyLine) ∧
      (copyingEntry s = none → (∀ e ∈ s.integ.remaps, e.state ≠ .waiting) → t.integ.remaps = s.integ.remaps) ∧
      ∀ pre e post, copyingEntry s = none → s.integ.remaps = pre ++ e :: post → e.state = .waiting →
        (∀ x ∈ pre, x.state ≠ .waiting) →
        t.integ.remaps = s.integ.remaps.map (fun x => if x.failed = e.failed
          then { e with state := .copying, pointer := 0 } else x) ∧
        ∃ q ∈ t.path.reqs, q.line = 64 * e.failed ∧ q.stage = .forwarded ∧ q.job = .copyLine) ∧
    t.fault.linkDown.raw = isDown s.link.state ∧ t.fault.linkDegraded.raw = (s.link.state == .degraded) ∧
    t.fault.timingUnqualified.raw = (!qualifiedState s.xfer.state) ∧ t.fault.congestion.raw = anyCongested s ∧
    OnlyChanges [.inReset, .now, .adm, .xfer, .integ, .path, .rep, .fault] s t) ∧
  ∀ s : State, s.inReset = false → exec .resetLineDeassert s = .next s

/-- An oscillator period adds I to the sub-second quantity and advances the interval time outside the reset line; where
the sum stays below one second nothing else changes (R45, R47). The period that carries into the seconds, by either of
the two rows that name it: the counter (R45), the 1PPS pulse of 100 ms (R55), the holdover age and its limit (R84; its
TIMING_STATE report, R85: sequence and place, log entries 19 and 43), the time-of-day message with the state after that
count, which is sent on an idle line, waits for one being sent, and replaces a waiting one with TOD_REPLACED (R56,
R176), and the snapshot request, which starts a snapshot of the state after that count, is remembered, merged or
dropped (R55, R161). The capture is taken before the message is sent and before the state becomes WRITING, with the
sequence advanced (log entries 13, 19 and 23; the layout of its lines, log entries 21, 22, 23, 54, 57 and 60). A
ROLLOVER where the next period does not carry changes nothing (log entry 6). -/
def Obligations.PeriodAndRollover : Prop :=
  (∀ (s : State) (q : Nat),
      q = s.time.nanoseconds * 4294967296 + s.time.fraction + (increment s.time.freq).toNat →
      q / 4294967296 < 1000000000 → ∃ t, exec .oscillatorPeriod s = .next t ∧
        t.time = { s.time with nanoseconds := q / 4294967296, fraction := q % 4294967296 } ∧
        t.oscillator = s.oscillator + 1 ∧ (s.inReset = false → t.now = s.now + 1) ∧ (s.inReset = true → t.now = s.now) ∧
        OnlyChanges [.oscillator, .now, .time] s t) ∧
  (∀ (s : State) (q : Nat),
    q = s.time.nanoseconds * 4294967296 + s.time.fraction + (increment s.time.freq).toNat →
    1000000000 ≤ q / 4294967296 → ∃ t, exec .rollover s = .next t ∧ exec .oscillatorPeriod s = .next t ∧
      t.time.seconds = (s.time.seconds + 1) % 2 ^ 48 ∧ t.time.nanoseconds + 1000000000 = q / 4294967296 ∧
      t.time.fraction = q % 4294967296 ∧ t.time.freq = s.time.freq ∧ t.time.epoch = s.time.epoch ∧
      t.time.pulse = some (s.oscillator + 1 + ms 100) ∧ pulseLine t = true ∧
      (s.xfer.state ≠ .holdover → t.xfer = s.xfer) ∧
      (s.xfer.state = .holdover → s.xfer.params.holdoverLimit < (s.xfer.holdoverAge + 1) * s.xfer.params.drift →
        t.xfer.state = .freerun ∧ t.xfer.holdoverAge = 0 ∧
        TimingStateReported s t 1 (timeNow t) .holdover 7 (s.xfer.holdoverAge + 1)) ∧
      (s.xfer.state = .holdover → (s.xfer.holdoverAge + 1) * s.xfer.params.drift ≤ s.xfer.params.holdoverLimit →
        t.xfer = { s.xfer with holdoverAge := s.xfer.holdoverAge + 1 }) ∧
      (∀ m, m = ⟨t.time.seconds, timingStateCode t.xfer.state, qualifiedState t.xfer.state,
          if t.xfer.state = .holdover then t.xfer.holdoverAge else 0⟩ →
        (s.time.todSending = none → t.time.todSending = some ⟨m, s.oscillator + 1⟩ ∧
          t.time.todWaiting = s.time.todWaiting ∧ t.time.todReplaced = s.time.todReplaced) ∧
        (s.time.todSending ≠ none → t.time.todSending = s.time.todSending ∧ t.time.todWaiting = some m ∧
          t.time.todReplaced = if s.time.todWaiting = none then s.time.todReplaced else satInc s.time.todReplaced)) ∧
      (∀ g, s.rep.ring = some g → g.releasing = false → t.rep.snapshotWriting = true ∧
        t.rep.snapshotDropped = s.rep.snapshotDropped ∧
        (s.rep.snapshotWriting = false → t.rep.snapshotSequence = s.rep.snapshotSequence + 1 ∧
          t.rep.snapshotRemembered = s.rep.snapshotRemembered ∧ ∀ (w : Window) (c : State),
            windowOfKind s .report = some w → c = { t with
              rep := { t.rep with snapshotWriting := false }
              time := { t.time with
                todSending := s.time.todSending, todWaiting := s.time.todWaiting, todReplaced := s.time.todReplaced } } →
            ∀ n < 64, ∃ q ∈ t.path.reqs, q.line = windowLine w (g.size + n) ∧ q.stage = .forwarded ∧
              q.job = .snapshotLine n (snapshotLine c (snapshotFields c) n)) ∧
        (s.rep.snapshotWriting = true → t.rep.snapshotSequence = s.rep.snapshotSequence ∧
          t.rep.snapshotRemembered = true ∧ t.rep.snapshotMerged =
            if s.rep.snapshotRemembered then satInc s.rep.snapshotMerged else s.rep.snapshotMerged)) ∧
      ((∀ g, s.rep.ring = some g → g.releasing = true) →
        t.rep.snapshotDropped = satInc s.rep.snapshotDropped ∧ t.rep.snapshotWriting = s.rep.snapshotWriting ∧
        t.rep.snapshotSequence = s.rep.snapshotSequence) ∧
      OnlyChanges [.oscillator, .now, .freeUses, .time, .xfer, .path, .rep, .fault] s t) ∧
  ∀ s : State, willRollOver s.time = false → exec .rollover s = .next s

/-- The timing-qualified line is asserted in TRACK and HOLDOVER and deasserted in FREERUN and ACQUIRE, in every state
of the part (R59). A class that needs timing is admitted by the same level, and the message that each rollover makes
carries it as its qualified flag, sent at once or waiting; after power-on it is deasserted, and the reset line leaves
it as it was, with HOLDOVER for TRACK and HOLDOVER. -/
def Obligations.QualifiedLineFollowsState : Prop :=
  ∀ s : State,
    (qualifiedLine s = true ↔ s.xfer.state = .track ∨ s.xfer.state = .holdover) ∧
    (qualifiedLine s = false ↔ s.xfer.state = .freerun ∨ s.xfer.state = .acquire) ∧
    (∀ (w : Window) (d : Line), windowClass w ≠ .s → (clsAt s (windowClass w)).needsTiming = true →
      isTimingDescriptor w d = false → (admissible s w d = true ↔ (clsAt s (windowClass w)).enabled = true ∧
        carriesTraffic s.link.state = true ∧ qualifiedLine s = true)) ∧
    (willRollOver s.time = true → ∃ t m, exec .rollover s = .next t ∧ m.qualified = qualifiedLine t ∧
      (s.time.todSending = none → t.time.todSending = some ⟨m, s.oscillator + 1⟩) ∧
      (s.time.todSending ≠ none → t.time.todWaiting = some m)) ∧
    (∀ straps, ∃ t, exec (.powerOn straps) s = .next t ∧ t.xfer.state = .freerun ∧ qualifiedLine t = false) ∧
    (s.inReset = false → ∃ t, exec .resetLineAssert s = .next t ∧ qualifiedLine t = qualifiedLine s ∧
      (shortAssertion s = false → s.xfer.state = .track ∨ s.xfer.state = .holdover → t.xfer.state = .holdover))

/-- The ends that run on the oscillator count: the 1PPS pulse (R55), a time-of-day message after its 140 bit times,
which a waiting message follows at once (R56), and the synthesizer's lock (R57). The time-of-day line carries each
byte of the message being sent as a start bit, its 8 data bits with the least significant first, and a stop bit, and
is high between messages (R56; the start bit low and the stop bit high, log entry 35). The report timer's expiry sets
the timeout flag (R160). The 1PPS line is asserted while its pulse lasts (R55). The attention line is asserted while
the ring is ACTIVE or RELEASING and its visible unread count is at least the trigger or its timeout flag is set
(R160). The radio reference runs in RUNNING alone, at 40 MHz × M / (N × P) × (1 + F / 16 × 10⁻⁹), given as a numerator
and a denominator in Hz (R57). A retry timer's expiry stops it and, for an event condition, clears its raw flag, which
FAULT_CHANGE reports (R170; its sequence and the fault line's level in it, log entries 19 and 54); the latch stays,
and the fault line is evaluated (R166 to R168). -/
def Obligations.OutputAndReportTimersEnd : Prop :=
  (∀ (s : State) (d : Nat), s.time.pulse = some d → d ≤ s.oscillator →
    exec .pulseEnd s = .next { s with time := { s.time with pulse := none } }) ∧
  (∀ s : State, (pulseLine s = true ↔ ∃ d, s.time.pulse = some d) ∧
    (attentionLine s = true ↔ ∃ g, s.rep.ring = some g ∧
      (g.trigger ≤ g.written - g.consumed ∨ g.timeoutFlag = true)) ∧
    (s.time.synth.state = .running → radioReference s = some
      (40000000 * s.time.synth.m * (16 * 10 ^ 9 + s.time.freq), s.time.synth.n * s.time.synth.p * (16 * 10 ^ 9))) ∧
    (s.time.synth.state ≠ .running → radioReference s = none)) ∧
  (∀ (s : State) (m : TodSending), s.time.todSending = some m →
    140 * 40000000 ≤ (s.oscillator - m.start) * 115200 →
    exec .todMessageEnd s = .next { s with time := { s.time with
      todSending := s.time.todWaiting.map fun w => ⟨w, s.oscillator⟩, todWaiting := none } }) ∧
  (∀ (s : State) (m : TodSending) (k : Nat), s.time.todSending = some m →
    k = (s.oscillator - m.start) * 115200 / 40000000 →
    (k < 140 → todLine s = if k % 10 = 0 then false else if k % 10 = 9 then true
      else ((todBytes m.message).getD (k / 10) 0).getLsbD (k % 10 - 1)) ∧
    (140 ≤ k → todLine s = true)) ∧
  (∀ s : State, s.time.todSending = none → todLine s = true) ∧
  (∀ (s : State) (d : Nat), s.time.synth.lockTimer = some d → d ≤ s.oscillator →
    exec .synthLockExpiry s = .next { s with time := { s.time with
      synth := { s.time.synth with state := .running, lockTimer := none } } }) ∧
  (∀ (s : State) (r : Ring) (d : Nat), s.rep.ring = some r → r.timer = some d → d ≤ s.now →
    exec .reportTimerExpiry s = .next { s with rep := { s.rep with
      ring := some { r with timeoutFlag := true, timer := none } } }) ∧
  ∀ (s : State) (c : Cond) (d : Nat), (condGet s.fault c).timer = some d → d ≤ s.now → ∃ t,
    exec (.retryTimerExpiry c) s = .next t ∧
    condGet t.fault c = { condGet s.fault c with
      raw := if condIsLevel c then (condGet s.fault c).raw else false, timer := none } ∧
    (∀ x, x ≠ c → condGet t.fault x = condGet s.fault x) ∧ t.fault.line = faultLevel t.fault ∧
    FaultReported s t 0 c 4 ∧ OnlyChanges [.fault, .rep, .path] s t

/-! ### Line ports, lock station and arbiter (R89 to R106, R113) -/

/-- A port with a free place takes a request at the end of its queue, counts it, and LOAD_HIGH is evaluated on the new
load: its entries count, and the LOAD cause of an active march session follows it (R105, R107, R135); a full port, or
the reset line, stalls the master and nothing changes (R90, R107, R171). -/
def Obligations.RequestTakenOrStalled : Prop :=
  ∀ (p : Port) (r : LineRequest) (s : State),
    (s.inReset = false → occupancy s p < 16 → ∃ t, exec (.lineRequestTaken p r) s = .next t ∧
      s.path.reqs ++ [⟨s.path.nextId, reqLine r, .unclassified, .port p r none none⟩] <+: t.path.reqs ∧
      occupancy t p = occupancy s p + 1 ∧ (∀ q, q ≠ p → occupancy t q = occupancy s q) ∧
      (reqIsWrite r = true → portGet t.path.ports p =
        { portGet s.path.ports p with writes := satInc (portGet s.path.ports p).writes }) ∧
      (reqIsWrite r = false → portGet t.path.ports p =
        { portGet s.path.ports p with reads := satInc (portGet s.path.ports p).reads }) ∧
      (s.path.loadHigh = true → t.path.loadHigh = !decide (portLoad s + 1 ≤ s.path.lowMark)) ∧
      (s.path.loadHigh = false → t.path.loadHigh = decide (s.path.highMark ≤ portLoad s + 1)) ∧ LoadTold s t ∧
      OnlyChanges [.path, .march, .integ] s t) ∧
    (s.inReset = true ∨ 16 ≤ occupancy s p → exec (.lineRequestTaken p r) s = .next s)

/-- A classified request that fails parity, is denied, or meets the fence is answered ERROR and counted, with the
event that its cause has and the event's FAULT_CHANGE (R170; the fault line's level in it, log entry 54); a denied one
has its ACCESS_DENIED report as well, as the next entry of a ring with room, or behind the FAULT_CHANGE as the one
after it (R91, R94, R95, R156; the reports' sequences as the model gives them, log entry 19). One in open memory is
forwarded, or answered OKAY where it is a write with an empty byte mask (R98). -/
def Obligations.ClassificationChecksInOrder : Prop :=
  ∀ (s : State) (p : Port) (id : Nat) (r : LineRequest), Next s p id r →
    (parityOk r = false → ∃ t, exec (.requestClassified p) s = .next t ∧ Answered t id (errorResponse r) ∧
      portGet t.path.ports p = { portGet s.path.ports p with parity := satInc (portGet s.path.ports p).parity } ∧
      t.fault.portParity.raw = true ∧ t.fault.portParity.occurrences = satInc s.fault.portParity.occurrences ∧
      FaultReported s t 0 .portParity 3 ∧ OnlyChanges [.path, .march, .rep, .fault] s t) ∧
    (parityOk r = true → isPermitted (windowAt s (reqLine r)) p r = false → ∃ t,
      exec (.requestClassified p) s = .next t ∧ Answered t id (errorResponse r) ∧
      portGet t.path.ports p = { portGet s.path.ports p with denied := satInc (portGet s.path.ports p).denied } ∧
      t.fault.accessDenied.raw = true ∧ t.fault.accessDenied.occurrences = satInc s.fault.accessDenied.occurrences ∧
      (∀ i v, windowAt s (reqLine r) = some (i, v) → ReportAmong s t 1 (timeNow s) 0x02 [⟨16, 1, portCode p⟩,
        ⟨17, 1, if reqIsWrite r then 1 else 0⟩, ⟨18, 1, i⟩, ⟨24, 8, lineAddress (reqLine r)⟩]) ∧
      FaultReported s t 1 .accessDenied 3 ∧
      OnlyChanges [.path, .march, .rep, .fault, .freeUses] s t) ∧
    (parityOk r = true → isPermitted (windowAt s (reqLine r)) p r = true → fenced s (reqLine r) = true → ∃ t,
      exec (.requestClassified p) s = .next t ∧ Answered t id (errorResponse r) ∧
      portGet t.path.ports p = { portGet s.path.ports p with fenced := satInc (portGet s.path.ports p).fenced } ∧
      OnlyChanges [.path, .march] s t) ∧
    (parityOk r = true → fenced s (reqLine r) = false → windowAt s (reqLine r) = none → ∃ t,
      exec (.requestClassified p) s = .next t ∧ OnlyChanges [.path, .march] s t ∧
      (reqIsWrite r = true ∧ maskEmpty (reqMask r) = true → Answered t id (okayWrite r)) ∧
      (reqIsWrite r = false ∨ maskEmpty (reqMask r) = false → Forwarded t id (.port p r none none)))

/-- Whatever observes an accepted request, the request itself goes on as its master gave it, to the lock station with
its window, or, for a write with an empty byte mask, to its answer OKAY (R96, R98). Only a TX or an RX completion may
go on with a stamp, which enters its data (R54). The rows that name one sort of request classify it as
REQUEST_CLASSIFIED does (log entry 7). Two sorts have no row of their own. A write to the status line that is no status
write, by the site or the radio port or by the modem port without a full mask, counts STATUS_IGNORED and changes
nothing else of the link (R2, R16; with an empty mask, log entry 41). A modem write to a descriptor line that clears
its ready flag and is no completion leaves the in-flight table as it is, and takes the line off the held lists (R26, R29),
whose heads set their age timers and whose classes are evaluated, with a notice and the CONGESTION condition at a
change (R34 to R36; the notice's sequence, log entry 19; a waiting notice where no NOTICE window stands, log entry
51). -/
def Obligations.AcceptedRequestGoesOn : Prop :=
  ∀ (s : State) (p : Port) (id : Nat) (r : LineRequest), Next s p id r →
    parityOk r = true → isPermitted (windowAt s (reqLine r)) p r = true → fenced s (reqLine r) = false → ∃ t,
      exec (.requestClassified p) s = .next t ∧
      (reqIsWrite r = true ∧ maskEmpty (reqMask r) = true → Answered t id (okayWrite r)) ∧
      (reqIsWrite r = false ∨ maskEmpty (reqMask r) = false → ∃ stamp,
        Forwarded t id (.port p r (windowAt s (reqLine r)) stamp) ∧
        (sight s p r ≠ .txCompletion → sight s p r ≠ .rxCompletion → stamp = none)) ∧
      (∀ c, rowFor p (sight s p r) = some c → exec c s = .next t) ∧
      ∀ i w, windowAt s (reqLine r) = some (i, w) → reqIsWrite r = true →
        (w.kind = .status → reqLine r = windowLine w 0 → p ≠ .modem ∨ maskFull (reqMask r) = false →
          t.link = { s.link with statusIgnored := satInc s.link.statusIgnored } ∧
          OnlyChanges [.link, .path, .march] s t) ∧
        (isDescriptorLine w (reqLine r) = true → p = .modem → covers (reqMask r) 0 = true →
          descReady (seen r) = false →
          covers (reqMask r) 2 = false ∨ (descStatus (seen r) ≠ 1 ∧ descStatus (seen r) ≠ 2) →
          (∀ c, (clsAt t c).held = ((clsAt s c).held.filter fun h => h.line != reqLine r) ∧
            (clsAt t c).credit = (clsAt s c).credit ∧ (clsAt t c).counters = (clsAt s c).counters) ∧
          AgeTimersFollow s t ∧
          CongestionSettled s t (fun c => listed (clsAt s c) (reqLine r) = true) (fun c => (clsAt s c).credit) ∧
          t.adm.flight = s.adm.flight ∧ OnlyChanges [.adm, .path, .march, .rep, .fault] s t)

/-- A grant goes to the current queue while its turn lasts and it has a candidate, and otherwise begins a turn of the
next queue round that has one (R102); it issues one access to the end of the memory port (R104) and counts it (R107).
With no candidate, or under the reset line, nothing happens. The internal queue's candidate is the oldest request not
yet granted of its priority, and the oldest of each higher priority is not ready (R103, log entries 20 and 52). -/
def Obligations.GrantIssuesOneAccess : Prop :=
  ∀ s : State,
    (s.inReset = false → ∀ r, candidate s s.path.current = some r → 0 < s.path.remaining → ∃ t a,
      exec .arbiterGrant s = .next t ∧ t.path.memPort = s.path.memPort ++ [a] ∧ IssuedAs r a ∧
      t.path.current = s.path.current ∧ t.path.remaining = s.path.remaining - 1 ∧
      queueGet t.path.grants s.path.current = satInc (queueGet s.path.grants s.path.current) ∧
      OnlyChanges [.path] s t) ∧
    (s.inReset = false → (candidate s s.path.current = none ∨ s.path.remaining = 0) →
      ∀ (pre : List Queue) (q : Queue) (rest : List Queue) (r : Req), cycleFrom s.path.current = pre ++ q :: rest →
      (∀ x ∈ pre, candidate s x = none) → candidate s q = some r → ∃ t a,
        exec .arbiterGrant s = .next t ∧ t.path.memPort = s.path.memPort ++ [a] ∧ IssuedAs r a ∧
        t.path.current = q ∧ t.path.remaining = queueGet s.path.weights q - 1 ∧
        queueGet t.path.grants q = satInc (queueGet s.path.grants q) ∧ OnlyChanges [.path] s t) ∧
    (s.inReset = true ∨ (∀ q, candidate s q = none) → exec .arbiterGrant s = .next s) ∧
    ∀ r, candidate s .internal = some r → grantable s r = true ∧ 1 ≤ priorityOf r.job ∧
      (∃ pre post, s.path.reqs = pre ++ r :: post ∧
        ∀ q ∈ pre, priorityOf q.job = priorityOf r.job → ungranted q = false) ∧
      ∀ (k : Nat) (pre post : List Req) (q : Req), 1 ≤ k → k < priorityOf r.job → s.path.reqs = pre ++ q :: post →
        priorityOf q.job = k → ungranted q = true → (∀ x ∈ pre, priorityOf x.job = k → ungranted x = false) →
        grantable s q = false

/-- The four cases of an access at the lock station (R113): it waits on a locked line, it takes a lock where it needs
one, the table has room and its holder has none yet, it waits for a free entry, or it passes; what passes or takes a
lock is redirected now (R122). A holder that has its one lock waits as for a free entry (log entry 20). The copy
engine's line of a FILL entry, locked and drained, makes no read: its write of 64 zero bytes to the spare page comes
to the station (R123). -/
def Obligations.StationTakesAccess : Prop :=
  (∀ (s : State) (who : Station) (r : Req), s.inReset = false → headOf s who = some r → r.stage = .forwarded →
    ∃ t, exec (.lockStationArrival who) s = .next t ∧ OnlyChanges [.path] s t ∧
      t.path.memPort = s.path.memPort ∧
      (lineLocked s r.line = true → t.path.locks = s.path.locks ∧ t.path.waits.getLast? = some r.id ∧
        ∃ q ∈ t.path.reqs, q.id = r.id ∧ q.stage = .waitLine) ∧
      (lineLocked s r.line = false → lockHolder r.job = none → t.path.locks = s.path.locks ∧
        ∃ q ∈ t.path.reqs, q.id = r.id ∧ q.stage =
          .ready (stationLine s.integ.remaps r)) ∧
      (∀ h, lineLocked s r.line = false → lockHolder r.job = some h → s.path.locks.length < 8 →
        (h = .internalPartial ∨ ∀ k ∈ s.path.locks, k.holder ≠ h) → t.path.locks = s.path.locks ++ [⟨r.line, h⟩] ∧
        ∃ q ∈ t.path.reqs, q.id = r.id ∧ q.stage =
          .draining (stationLine s.integ.remaps r)) ∧
      (∀ h, lineLocked s r.line = false → lockHolder r.job = some h →
        (8 ≤ s.path.locks.length ∨ (h ≠ .internalPartial ∧ ∃ k ∈ s.path.locks, k.holder = h)) →
        t.path.locks = s.path.locks ∧ t.path.waits.getLast? = some r.id ∧
        ∃ q ∈ t.path.reqs, q.id = r.id ∧ q.stage = .waitTable)) ∧
  ∀ (s : State) (r : Req) (e : RemapEntry) (m spare : Nat), pathLaw s → s.inReset = false → r ∈ s.path.reqs →
    r.job = .copyLine → r.stage = .draining m → drained s r = true → copyingEntry s = some e → e.source = .fill →
    (∀ q ∈ s.path.reqs, stationOf q.job = .copy → q = r) → spare = 64 * e.spare + e.pointer → ∃ t,
      exec (.lockStationArrival .copy) s = .next t ∧ OnlyChanges [.path, .march] s t ∧
      t.path.locks = s.path.locks ∧ t.path.memPort = s.path.memPort ∧ (∀ q ∈ t.path.reqs, q.id ≠ r.id) ∧
      ∃ q ∈ t.path.reqs, q.line = spare ∧ q.job = .copyWrite (Vector.replicate 64 0) ∧
        (lineLocked s spare = false → q.stage = .ready spare) ∧
        (lineLocked s spare = true → q.stage = .waitLine ∧ t.path.waits.getLast? = some q.id)

/-- A port returns the response of its oldest request, and its place is free again (R90); LOAD_HIGH is evaluated, its
entries count, and the LOAD cause of an active march session follows it (R105, R107, R135). A port whose oldest
request is not answered returns nothing. -/
def Obligations.ResponseFreesPlace : Prop :=
  ∀ (s : State) (p : Port), pathLaw s →
    (∀ (q : Req) (rest : List Req) (x : Response), portQueue s p = q :: rest → q.stage = .answered x → ∃ t,
      exec (.responseReturned p) s = .next t ∧ portGet t.path.lastResponse p = some x ∧
      occupancy t p + 1 = occupancy s p ∧ (∀ u, u ≠ p → occupancy t u = occupancy s u) ∧
      (s.path.loadHigh = true → t.path.loadHigh = !decide (portLoad s - 1 ≤ s.path.lowMark)) ∧
      (s.path.loadHigh = false → t.path.loadHigh = decide (s.path.highMark ≤ portLoad s - 1)) ∧ LoadTold s t ∧
      OnlyChanges [.path, .march, .integ] s t) ∧
    (∀ (q : Req) (rest : List Req), portQueue s p = q :: rest → (∀ x, q.stage ≠ .answered x) →
      exec (.responseReturned p) s = .next s)

/-! ### Link monitor (R1 to R16) -/

/-- A status write keeps its carrier and indices, derives E_tx and E_rx, restarts the status timer and counts (R3, R6,
R16); it moves the link by the table of R5, restarts no running hold in RESTORING, and compares a changed E_tx with
the planned profile (R8), after which the floor places the link (R10). A hold of length 0 expires as it starts (R7,
R8, R9). An entry into DOWN ends the plan and is told to the other blocks (R4, R12, R83, R150). The epoch steps once
where an effective profile changes or the link enters or leaves DOWN (R11). Each change of state, and the changes of
the DOWN cause and of the planned profile, have their LINK_CHANGE reports, the first that the event makes (R12; what
they show of the monitor, log entry 18; their sequences, log entry 19); the reports of the other blocks stand behind
them (R85, R150; log entry 43). -/
def Obligations.StatusWriteMovesLink : Prop :=
  ∀ (s : State) (id : Nat) (r : LineRequest) (i : Nat) (w : Window), ModemNext s id r .status i w →
    ∃ t, exec .statusWrite s = .next t ∧ OnlyChanges [.link, .time, .xfer, .loop, .path, .rep, .fault, .freeUses] s t ∧
      t.link.kept = some ⟨field (seen r) 0 1, field (seen r) 1 1, field (seen r) 2 1⟩ ∧
      t.link.etx = effective s.link (field (seen r) 1 1) ∧ t.link.erx = effective s.link (field (seen r) 2 1) ∧
      t.link.statusTimer = some (s.now + ms s.link.statusTimeout) ∧
      t.link.statusTaken = satInc s.link.statusTaken ∧ t.link.statusIgnored = s.link.statusIgnored ∧
      t.link.profiles = s.link.profiles ∧ t.link.floor = s.link.floor ∧
      (field (seen r) 0 1 ≠ 1 → t.link.state = .down .carrier) ∧
      (field (seen r) 0 1 = 1 → (t.link.etx = none ∨ t.link.erx = none) → t.link.state = .down .profile) ∧
      (field (seen r) 0 1 = 1 → t.link.etx ≠ none → t.link.erx ≠ none →
        (isDown s.link.state = true → RestoreBegun s.now s.link t.link) ∧
        (s.link.state = .restoring → t.link.state = .restoring ∧ t.link.restoreTimer = s.link.restoreTimer) ∧
        (carriesTraffic s.link.state = true → FloorPlaced t.link ∧
          (t.link.etx = s.link.etx → t.link.planned = s.link.planned ∧ t.link.upshiftTimer = s.link.upshiftTimer) ∧
          ∀ e p, t.link.etx = some e → s.link.planned = some p → t.link.etx ≠ s.link.etx →
            PlanCompared s.now e p s.link t.link)) ∧
      (isDown s.link.state = false → isDown t.link.state = true → WentDown s t) ∧
      (isDown s.link.state = true ∨ isDown t.link.state = false → NotTold s t) ∧
      t.time = { s.time with
        epoch := if t.link.etx ≠ s.link.etx ∨ t.link.erx ≠ s.link.erx ∨ isDown t.link.state ≠ isDown s.link.state
          then s.time.epoch + 1 else s.time.epoch
        freq := t.time.freq } ∧
      LinkReported s t

/-- The link monitor's timers: a status timeout leaves DOWN(STALE) (R6); a restore hold makes E_tx the planned profile
and the floor places the link (R7, R10); an upshift hold raises the planned profile to E_tx and counts (R9, R10). An
entry into DOWN takes TRACK to HOLDOVER with the mean of the F history and ACQUIRE to FREERUN (R83), and ends a
loopback session with cause LINK_DOWN (R150). Their changes have their LINK_CHANGE reports, the first that the event
makes (R12; log entries 18 and 19), and those of the other blocks stand behind them (R85, R150; log entry 43). -/
def Obligations.LinkTimersExpire : Prop :=
  (∀ s : State, due s.link.statusTimer s.now = true → ∃ t, exec .statusTimerExpiry s = .next t ∧
    t.link.state = .down .stale ∧ t.link.statusTimer = none ∧ t.link.kept = s.link.kept ∧ LinkReported s t ∧
    (isDown s.link.state = false → WentDown s t ∧ t.time.epoch = s.time.epoch + 1) ∧
    (isDown s.link.state = true → t.link = { s.link with state := .down .stale, statusTimer := none } ∧
      t.time.epoch = s.time.epoch ∧ NotTold s t) ∧
    OnlyChanges [.link, .time, .xfer, .loop, .path, .rep, .fault, .freeUses] s t) ∧
  (∀ s : State, due s.link.restoreTimer s.now = true → s.link.state = .restoring → ∃ t,
    exec .restoreHoldExpiry s = .next t ∧ t.link.planned = s.link.etx ∧ t.link.restoreTimer = none ∧
    t.link.state = (match s.link.etx with
      | some e => if e < s.link.floor then .degraded else .up
      | none => .up) ∧ t.time = s.time ∧ LinkReported s t ∧
    OnlyChanges [.link, .path, .rep, .fault, .freeUses] s t) ∧
  ∀ s : State, due s.link.upshiftTimer s.now = true → carriesTraffic s.link.state = true → ∃ t,
    exec .upshiftHoldExpiry s = .next t ∧ t.link.planned = s.link.etx ∧ t.link.upshiftTimer = none ∧
    t.link.upshifts = satInc s.link.upshifts ∧
    t.link.state = (match s.link.etx with
      | some e => if e < s.link.floor then .degraded else .up
      | none => .up) ∧ t.time = s.time ∧ LinkReported s t ∧
    OnlyChanges [.link, .path, .rep, .fault, .freeUses] s t

/-! ### Samples (R75 to R77) -/

/-- An exchange's four stamps are validated in order: invalid flags, epochs that differ from each other or from the
current one, differences above 2,147,483,647 ns, each with its counter and no other effect (R75). The others give θ =
floor(((B − A) − (D − C) − Q) / 2) and delay = floor(((B − A) + (D − C)) / 2), of which a delay below 0 or above the
maximum is discarded (R76). An accepted sample restarts the block timer and joins the block, moving FREERUN to ACQUIRE
with its report (R76, R81, R85; the report's sequence, log entry 19); the eighth makes the selection of the sample
with the least delay, the newest of equals, which is handed to the servo (R77). -/
def Obligations.SampleComputed : Prop :=
  ∀ (s : State) (a d : Stamp) (b c : TakenStamp) (ba dc delay theta : Int) (x : Transfer)
    (discard : (TransferCounters → TransferCounters) → State),
    ba = totalNs b.stamp - totalNs a → dc = totalNs d - totalNs c.stamp →
    2 * delay ≤ ba + dc → ba + dc < 2 * delay + 2 →
    2 * theta ≤ ba - dc - s.xfer.params.pathDifference → ba - dc - s.xfer.params.pathDifference < 2 * theta + 2 →
    (∀ f, discard f = { s with xfer := { s.xfer with counters := f s.xfer.counters } }) →
    x = { s.xfer with
      counters := { s.xfer.counters with samplesAccepted := satInc s.xfer.counters.samplesAccepted }
      blockTimer := some (s.now + ms (1000 * s.xfer.params.blockTimeout)) } →
    (b.valid = false ∨ c.valid = false →
      computeSample a b c d s = discard fun k => { k with invalid := satInc k.invalid }) ∧
    (b.valid = true → c.valid = true →
      (b.epoch ≠ c.epoch ∨ b.epoch ≠ s.time.epoch →
        computeSample a b c d s = discard fun k => { k with epochDiscard := satInc k.epochDiscard }) ∧
      (b.epoch = c.epoch → b.epoch = s.time.epoch →
        (2147483647 < |ba| ∨ 2147483647 < |dc| →
          computeSample a b c d s = discard fun k => { k with sampleRange := satInc k.sampleRange }) ∧
        (|ba| ≤ 2147483647 → |dc| ≤ 2147483647 →
          (delay < 0 → computeSample a b c d s = discard fun k => { k with negative := satInc k.negative }) ∧
          (0 ≤ delay → (s.xfer.params.maximumDelay : Int) < delay →
            computeSample a b c d s = discard fun k => { k with tooLong := satInc k.tooLong }) ∧
          (0 ≤ delay → delay ≤ s.xfer.params.maximumDelay →
            (s.xfer.block.length < 7 → (computeSample a b c d s).time = s.time ∧
              (computeSample a b c d s).xfer = { x with
                block := s.xfer.block ++ [⟨theta, delay⟩]
                state := if s.xfer.state = .freerun then .acquire else s.xfer.state
                runCount := if s.xfer.state = .freerun then 0 else s.xfer.runCount } ∧
              (s.xfer.state = .freerun →
                TimingStateReported s (computeSample a b c d s) 0 (timeNow s) .freerun 1 s.xfer.holdoverAge)) ∧
            (7 ≤ s.xfer.block.length → s.xfer.state ≠ .freerun → ∃ (y : Sample) (pre post : List Sample),
              s.xfer.block ++ [⟨theta, delay⟩] = pre ++ y :: post ∧ (∀ z ∈ pre, y.delay ≤ z.delay) ∧
              (∀ z ∈ post, y.delay < z.delay) ∧
              computeSample a b c d s = applySelection y.offset { s with xfer := { x with
                block := [], lastOffset := y.offset, lastDelay := y.delay
                counters := { x.counters with selections := satInc x.counters.selections } } })))))

/-! ### Admission unit (R17 to R43) -/

/-- A completion for a line that is not in the in-flight table passes unchanged, is stamped and handed to no engine,
counts UNMATCHED for the class of the window, and the line leaves the held lists (R31), whose heads set their age
timers (R34). -/
def Obligations.UnmatchedCompletionPasses : Prop :=
  ∀ (s : State) (id : Nat) (r : LineRequest) (i : Nat) (w : Window), ModemNext s id r .txCompletion i w →
    inFlight s (reqLine r) = false → ∃ t, exec .txCompletion s = .next t ∧
      Forwarded t id (.port .modem r (some (i, w)) none) ∧
      (clsAt t (windowClass w)).counters = { (clsAt s (windowClass w)).counters with
        unmatched := satInc (clsAt s (windowClass w)).counters.unmatched } ∧
      (∀ c, c ≠ windowClass w → (clsAt t c).counters = (clsAt s c).counters) ∧
      (∀ c, (clsAt t c).credit = (clsAt s c).credit ∧
        (clsAt t c).held = (clsAt s c).held.filter fun h => h.line != reqLine r) ∧ AgeTimersFollow s t ∧
      t.adm.flight = s.adm.flight ∧ t.time = s.time ∧ t.xfer = s.xfer ∧ t.loop = s.loop ∧
      OnlyChanges [.adm, .path, .march, .rep, .fault] s t

/-- A completion for a line in flight removes its entry, counts SENT or NOT_SENT for the entry's class, and on
NOT_SENT refunds the debit up to the burst, to an enabled class alone (R29, R42); the line leaves the held lists (log
entry 16), whose heads set their age timers and whose classes are evaluated as at any leave, with a notice that shows
the credit after the refund and the CONGESTION condition at a change (R34 to R36; log entries 16, 19 and 51). Where
the entry's kind is TIMING or TEST (the kind is the entry's, log entry 14) the completion goes on with its stamp: a
full line with the stamp, its flag and the epoch in bytes 21 to 33, a partial one as a read-modify-write, which adds
these bytes to its mask (R30, R54). A DATA completion goes on as written and is handed to no engine; of the removal
the time transfer engine is told, and frees the slot whose line it is (R30, R68), of which that engine's tables keep
their entries (log entry 53). An unmatched completion too evaluates the classes that list its line, with a notice and
the CONGESTION condition at a change (R34 to R36; log entries 19 and 51). -/
def Obligations.MatchedCompletionSettles : Prop :=
  (∀ (s : State) (id : Nat) (r : LineRequest) (i : Nat) (w : Window), ModemNext s id r .txCompletion i w →
    inFlight s (reqLine r) = false → ∃ t, exec .txCompletion s = .next t ∧
      CongestionSettled s t (fun c => listed (clsAt s c) (reqLine r) = true) (fun c => (clsAt s c).credit)) ∧
  ∀ (s : State) (id : Nat) (r : LineRequest) (i : Nat) (w : Window) (e : FlightEntry),
    ModemNext s id r .txCompletion i w → flightOf s (reqLine r) = some e → ∃ t, exec .txCompletion s = .next t ∧
      t.adm.flight = s.adm.flight.filter (fun x => x.line != reqLine r) ∧
      (∀ c, (clsAt t c).held = (clsAt s c).held.filter fun h => h.line != reqLine r) ∧ AgeTimersFollow s t ∧
      CongestionSettled s t (fun c => listed (clsAt s c) (reqLine r) = true) (fun c => (clsAt t c).credit) ∧
      (descStatus (seen r) = 1 → (clsAt t e.cls).credit = (clsAt s e.cls).credit ∧
        (clsAt t e.cls).counters = { (clsAt s e.cls).counters with
          sent := satInc (clsAt s e.cls).counters.sent }) ∧
      (descStatus (seen r) = 2 →
        (clsAt t e.cls).credit = (if (clsAt s e.cls).enabled then
          min ((clsAt s e.cls).credit + e.debit) ((clsAt s e.cls).burst * 1000) else (clsAt s e.cls).credit) ∧
        (clsAt t e.cls).counters = { (clsAt s e.cls).counters with
          notSent := satInc (clsAt s e.cls).counters.notSent }) ∧
      (∀ c, c ≠ e.cls → (clsAt t c).credit = (clsAt s c).credit ∧ (clsAt t c).counters = (clsAt s c).counters) ∧
      (e.kind ≠ 1 → e.kind ≠ 2 → Forwarded t id (.port .modem r (some (i, w)) none) ∧ t.time = s.time ∧
        t.loop = s.loop ∧ (slotOfLine s (reqLine r) = none → t.xfer = s.xfer) ∧
        ∀ j, slotOfLine s (reqLine r) = some j →
          t.xfer = { s.xfer with slots := s.xfer.slots.setIfInBounds j .free }) ∧
      (e.kind = 1 ∨ e.kind = 2 → GoesOnStamped t id r i w (takeStamp s true (seen r))) ∧
      OnlyChanges [.adm, .path, .march, .rep, .fault, .time, .xfer, .loop, .freeUses] s t

/-- The stamp of a completion: the arrival less the residence and the latency of the profile it names, with the epoch
at the arrival (R52); invalid, and the arrival itself, where the profile index is above 11 or names no valid entry or
the residence is above 1,000,000 ns, and 0 where the difference falls below zero (R53). -/
def Obligations.StampIsArrivalLessDelays : Prop :=
  ∀ (s : State) (tx : Bool) (d : Line) (e : ProfileEntry) (n : Int), e = profileAt s.link (descAirProfile d) →
    n = totalNs (timeNow s) - descResidence d - (if tx then e.txLatency else e.rxLatency) →
    (takeStamp s tx d).epoch = s.time.epoch ∧
    (descAirProfile d ≤ 11 → e.valid = true → descResidence d ≤ 1000000 →
      (0 ≤ n → (takeStamp s tx d).valid = true ∧
        (clockLaw s → totalNs (takeStamp s tx d).stamp = n)) ∧
      (n < 0 → (takeStamp s tx d).valid = false ∧ (takeStamp s tx d).stamp = ⟨0, 0⟩)) ∧
    (11 < descAirProfile d ∨ e.valid = false ∨ 1000000 < descResidence d →
      (takeStamp s tx d).valid = false ∧ (takeStamp s tx d).stamp = timeNow s)

/-- A site or radio write to a descriptor line removes its in-flight entry without refund and counts OVERWRITTEN; one
that clears ready takes the line from the held lists (R33), whose heads set their age timers and whose classes are
evaluated, with a notice and the CONGESTION condition at a change (R34 to R36; the notice's sequence, log entry 19; a
waiting notice where no NOTICE window stands, log entry 51). The overwrite of a slot's descriptor in flight frees the
slot (R68), and a query's exchange entry is removed with QUERY_LOST (R72), which counts also where that entry is gone
by then (log entry 15). -/
def Obligations.OverwriteRemovesEntry : Prop :=
  ∀ (s : State) (p : Port) (id : Nat) (r : LineRequest), Next s p id r → sight s p r = .overwrite →
    ∃ t, exec (.descriptorOverwrite p) s = .next t ∧
      t.adm.flight = s.adm.flight.filter (fun x => x.line != reqLine r) ∧
      (∀ c, (clsAt t c).credit = (clsAt s c).credit) ∧
      (∀ e, flightOf s (reqLine r) = some e → (clsAt t e.cls).counters = { (clsAt s e.cls).counters with
        overwritten := satInc (clsAt s e.cls).counters.overwritten }) ∧
      (inFlight s (reqLine r) = true → SlotLost s t (reqLine r)) ∧
      (inFlight s (reqLine r) = false → t.xfer = s.xfer ∧ t.loop = s.loop ∧
        ∀ c, (clsAt t c).counters = (clsAt s c).counters) ∧
      (clearsReady (reqMask r) (seen r) = true → ∀ c,
        (clsAt t c).held = (clsAt s c).held.filter fun h => h.line != reqLine r) ∧
      (clearsReady (reqMask r) (seen r) = false → ∀ c, (clsAt t c).held = (clsAt s c).held) ∧ AgeTimersFollow s t ∧
      CongestionSettled s t
        (fun c => clearsReady (reqMask r) (seen r) = true ∧ listed (clsAt s c) (reqLine r) = true)
        (fun c => (clsAt s c).credit) ∧
      OnlyChanges [.adm, .path, .march, .rep, .fault, .xfer, .loop] s t

/-- An RX completion counts a frame and its length, or an errored frame, for the class its descriptor names (R37); one
RECEIVED of kind TIMING or TEST goes on with its stamp, a full line with it in bytes 21 to 33, any other as written
(R38, R54). -/
def Obligations.RxCompletionCounts : Prop :=
  ∀ (s : State) (id : Nat) (r : LineRequest) (i : Nat) (w : Window), ModemNext s id r .rxCompletion i w →
    ∃ t, exec .rxCompletion s = .next t ∧
      (∀ c, clsOfCode (descClass (seen r)) = some c → descStatus (seen r) = 3 →
        (clsAt t c).counters = { (clsAt s c).counters with
          rxFrames := satInc (clsAt s c).counters.rxFrames
          rxBytes := if 64 ≤ descLength (seen r) ∧ descLength (seen r) ≤ 9600
            then satAdd (clsAt s c).counters.rxBytes (descLength (seen r)) else (clsAt s c).counters.rxBytes }) ∧
      (∀ c, clsOfCode (descClass (seen r)) = some c → descStatus (seen r) = 4 →
        (clsAt t c).counters = { (clsAt s c).counters with rxErrored := satInc (clsAt s c).counters.rxErrored }) ∧
      (4 < descClass (seen r) → t.adm = { s.adm with rxClassInvalid := satInc s.adm.rxClassInvalid }) ∧
      (descStatus (seen r) = 3 ∧ (descKind (seen r) = 1 ∨ descKind (seen r) = 2) →
        GoesOnStamped t id r i w (takeStamp s false (seen r))) ∧
      (descStatus (seen r) = 4 ∨ (descKind (seen r) ≠ 1 ∧ descKind (seen r) ≠ 2) →
        Forwarded t id (.port .modem r (some (i, w)) none) ∧ OnlyChanges [.adm, .path] s t) ∧
      OnlyChanges [.adm, .path, .time, .xfer, .loop, .rep, .fault, .freeUses] s t

/-- A refill adds to each enabled class its guaranteed grant, floor(share × C / 1,000), with class S's recovery share
outside TRACK, and its part of the remainder by weight among the backlogged classes, up to its burst; a disabled class
gets nothing (R19, R20). The timer restarts. The age timer stops at its own expiry (R34). Every class is evaluated
after a refill, and a class at its age timer's expiry (R34, R35); a change of state makes the class's notice, with the
credit after the refill, in place of one that waits, or is counted dropped, and sets the CONGESTION condition (R36;
log entries 19 and 51). A flight timeout removes its entry without refund, counts LOST for the entry's class and makes
its FLIGHT_TIMEOUT report as the next entry of a ring with room, before what the loss makes elsewhere (R32, R156; log
entries 19 and 43); that of a slot's descriptor frees the slot (R68), and a query's exchange entry is removed with
QUERY_LOST (R72), which counts also where that entry is gone by then (log entry 15). -/
def Obligations.AdmissionTimersExpire : Prop :=
  (∀ (s : State) (d : Nat) (share grant : Cls → Nat) (R W : Nat), s.adm.refillTimer = some d → d ≤ s.now →
    (∀ c, share c = if c = .s ∧ s.xfer.state ≠ .track then (clsAt s c).recoveryShare else (clsAt s c).share) →
    (∀ c, grant c = if (clsAt s c).enabled then share c * capacity s.link / 1000 else 0) →
    R = capacity s.link - (grant .s + grant .t0 + grant .t1 + grant .t2 + grant .t3) →
    W = sumClasses (fun c => if backlogged (clsAt s c) then (clsAt s c).weight else 0) → ∃ t,
      exec .refillTimerExpiry s = .next t ∧ t.adm.refillTimer = some (d + ms 1) ∧
      (∀ c, (clsAt t c).held = (clsAt s c).held ∧ (clsAt t c).credit =
        if (clsAt s c).enabled then
          min ((clsAt s c).credit + grant c +
            (if backlogged (clsAt s c) ∧ W ≠ 0 then R * (clsAt s c).weight / W else 0 : Nat)) ((clsAt s c).burst * 1000)
        else (clsAt s c).credit) ∧
      (∀ c, (clsAt t c).ageTimer = (clsAt s c).ageTimer) ∧
      CongestionSettled s t (fun _ => True) (fun c => (clsAt t c).credit) ∧
      t.adm.flight = s.adm.flight ∧ OnlyChanges [.adm, .path, .march, .rep, .fault] s t) ∧
  (∀ (s : State) (c : Cls), due (clsAt s c).ageTimer s.now = true → ∃ t, exec (.ageTimerExpiry c) s = .next t ∧
    (clsAt t c).ageTimer = none ∧ (∀ x, x ≠ c → (clsAt t x).ageTimer = (clsAt s x).ageTimer) ∧
    CongestionSettled s t (fun x => x = c) (fun x => (clsAt s x).credit) ∧
    (∀ x, (clsAt t x).held = (clsAt s x).held ∧ (clsAt t x).credit = (clsAt s x).credit) ∧
    OnlyChanges [.adm, .path, .march, .rep, .fault] s t) ∧
  ∀ (s : State) (line : BitVec 30) (e : FlightEntry), flightOf s line.toNat = some e → e.expiry ≤ s.now → ∃ t,
    exec (.flightTimeout line) s = .next t ∧ t.adm.flight = s.adm.flight.filter (fun x => x.line != line.toNat) ∧
    (clsAt t e.cls).counters = { (clsAt s e.cls).counters with lost := satInc (clsAt s e.cls).counters.lost } ∧
    (∀ c, c ≠ e.cls → (clsAt t c).counters = (clsAt s c).counters) ∧ SlotLost s t line.toNat ∧
    (∀ c, (clsAt t c).credit = (clsAt s c).credit ∧ (clsAt t c).held = (clsAt s c).held) ∧
    ReportAmong s t 0 (timeNow s) 0x05 ([⟨16, 8, lineAddress line.toNat⟩, ⟨24, 1, clsCode e.cls⟩, ⟨25, 1, e.kind⟩,
      ⟨26, 2, e.length⟩, ⟨28, 4, e.debit⟩] ++ stampFields 32 40 e.admitTime ++ [⟨44, 2, e.epoch.toNat⟩]) ∧
    OnlyChanges [.adm, .path, .rep, .xfer, .loop, .fault] s t

/-! ### Time transfer engine, loopback engine and the remaining timers -/

/-- A frame write to a TIMING_RX line is handled by the tests of R62 in order; a parsed frame becomes the newest entry
of the pending message table, in place of an entry of its line, and pushes out the oldest of a full table (R63). The
entry's query sequence holds bytes 4 and 5, which an OFFER's entry never uses (log entry 45). Of two entries with one
arrival time the one entered first is the oldest (log entry 50). -/
def Obligations.FrameWriteEntersTable : Prop :=
  ∀ (s : State) (id : Nat) (r : LineRequest) (i : Nat) (w : Window) (good : Prop) (m : PendingMessage)
    (rest : List PendingMessage), ModemNext s id r .frame i w →
    (good ↔ (field (seen r) 0 1 = 1 ∨ field (seen r) 0 1 = 3) ∧ field (seen r) 12 4 ≤ 999999999) →
    m = ⟨reqLine r, field (seen r) 0 1 == 1, BitVec.ofNat 16 (field (seen r) 2 2), BitVec.ofNat 16 (field (seen r) 4 2),
      ⟨field (seen r) 6 6, field (seen r) 12 4⟩, s.now⟩ →
    rest = s.xfer.pendingTable.filter (fun y => y.line != reqLine r) → ∃ t,
      exec .frameWrite s = .next t ∧ OnlyChanges [.xfer, .path, .march] s t ∧
      (maskFull (reqMask r) = false → t.xfer = { s.xfer with
        pendingTable := rest
        counters := { s.xfer.counters with partialFrame := satInc s.xfer.counters.partialFrame } }) ∧
      (maskFull (reqMask r) = true → ¬good → t.xfer = { s.xfer with
        pendingTable := rest
        counters := { s.xfer.counters with badFrame := satInc s.xfer.counters.badFrame } }) ∧
      (maskFull (reqMask r) = true → good → field (seen r) 1 1 ≠ s.xfer.params.domain → t.xfer = { s.xfer with
        pendingTable := rest
        counters := { s.xfer.counters with domainMismatch := satInc s.xfer.counters.domainMismatch } }) ∧
      (maskFull (reqMask r) = true → good → field (seen r) 1 1 = s.xfer.params.domain →
        ((∃ y ∈ s.xfer.pendingTable, y.line = reqLine r) → t.xfer = { s.xfer with
          pendingTable := rest ++ [m]
          counters := { s.xfer.counters with pendingReplaced := satInc s.xfer.counters.pendingReplaced } }) ∧
        ((∀ y ∈ s.xfer.pendingTable, y.line ≠ reqLine r) →
          (s.xfer.pendingTable.length < 8 → t.xfer = { s.xfer with pendingTable := s.xfer.pendingTable ++ [m] }) ∧
          (8 ≤ s.xfer.pendingTable.length → t.xfer = { s.xfer with
            pendingTable := s.xfer.pendingTable.drop 1 ++ [m]
            counters := { s.xfer.counters with pendingDropped := satInc s.xfer.counters.pendingDropped } })))

/-- A returned line is handled by the tests of R147 in order; a line that fits the session is checked against the
pattern of its frame and line (R145), and every differing byte is counted. Such a line updates the outstanding entry
of its frame sequence, where there is one: the lines seen, up to L, and for line 0 the first buffer line, which any
other entry that held it loses (R147). -/
def Obligations.ReturnedLineChecked : Prop :=
  ∀ (s : State) (id : Nat) (r : LineRequest) (i : Nat) (w : Window) (bad : Nat), ModemNext s id r .returned i w →
    bad = ((List.range 48).filter fun k => getByte (seen r) (16 + k) !=
      patternByte s.loop.params (field (seen r) 4 2) (field (seen r) 1 1) k).length → ∃ t,
      exec .returnedLine s = .next t ∧ OnlyChanges [.loop, .path, .march] s t ∧
      (loopActive s.loop = false → t.loop = { s.loop with strayLines := satInc s.loop.strayLines }) ∧
      (loopActive s.loop = true → maskFull (reqMask r) = false →
        t.loop = { s.loop with partialLines := satInc s.loop.partialLines }) ∧
      (loopActive s.loop = true → maskFull (reqMask r) = true →
        (field (seen r) 0 1 ≠ s.loop.identifier.toNat →
          t.loop = { s.loop with counts := { s.loop.counts with foreign := satInc s.loop.counts.foreign } }) ∧
        (field (seen r) 0 1 = s.loop.identifier.toNat →
          ((field (seen r) 2 1 ≠ s.loop.params.lines ∨ s.loop.params.lines ≤ field (seen r) 1 1) →
            t.loop = { s.loop with counts := { s.loop.counts with badHeader := satInc s.loop.counts.badHeader } }) ∧
          (field (seen r) 2 1 = s.loop.params.lines → field (seen r) 1 1 < s.loop.params.lines →
            t.loop = { s.loop with
              outstanding := t.loop.outstanding
              counts := { s.loop.counts with
                linesChecked := satInc s.loop.counts.linesChecked
                mismatchBytes := satAdd s.loop.counts.mismatchBytes bad
                mismatchLines := if bad = 0 then s.loop.counts.mismatchLines
                  else satInc s.loop.counts.mismatchLines } } ∧
            ∀ (n : Nat) (q : BitVec 16), n = field (seen r) 1 1 → q = BitVec.ofNat 16 (field (seen r) 4 2) →
              ((∀ e ∈ s.loop.outstanding, e.frameSeq ≠ q) → t.loop.outstanding = s.loop.outstanding) ∧
              ((∃ e ∈ s.loop.outstanding, e.frameSeq = q) →
                (n ≠ 0 → t.loop.outstanding = s.loop.outstanding.map fun e =>
                  if e.frameSeq = q then { e with seen := min s.loop.params.lines (e.seen + 1) } else e) ∧
                (n = 0 → t.loop.outstanding = s.loop.outstanding.map fun e =>
                  if e.frameSeq = q then
                    { e with seen := min s.loop.params.lines (e.seen + 1), firstLine := some (reqLine r) }
                  else if e.firstLine = some (reqLine r) then { e with firstLine := none } else e)))))

/-- The query timer restarts and sends a query for the newest OFFERED entry where the link is not DOWN and a slot is
FREE, or counts why it sends none (R67, R69; of two with one created time the one entered last, log entry 50); the
query's frame carries the domain of this expiry, whatever a TIMING record changes before it is written (R87, log entry
56), and QUERIES_SENT counts at it (log entry 15). An exchange timeout removes its entry and counts (R74). The block
timer's expiry empties the block and takes TRACK to HOLDOVER with the mean of the F history and ACQUIRE to FREERUN,
keeping S and the history (R83), with its TIMING_STATE report (R85; log entries 19 and 43). -/
def Obligations.TransferTimersExpire : Prop :=
  (∀ (s : State) (d : Nat), s.xfer.queryTimer = some d → d ≤ s.now → ∃ t, exec .queryTimerExpiry s = .next t ∧
      t.xfer.queryTimer = some (d + 40000000 / s.xfer.params.queryRate) ∧ OnlyChanges [.xfer, .path] s t ∧
      (isDown s.link.state = true → t.path = s.path ∧ t.xfer.exchanges = s.xfer.exchanges ∧
        t.xfer.counters = { s.xfer.counters with noLink := satInc s.xfer.counters.noLink }) ∧
      (isDown s.link.state = false → newestOffered s.xfer = none → t.path = s.path ∧
        t.xfer.counters = { s.xfer.counters with noOffer := satInc s.xfer.counters.noOffer }) ∧
      (∀ e, isDown s.link.state = false → newestOffered s.xfer = some e →
        (windowOfKind s .partTx = none ∨ nextFreeSlot s = none) → t.path = s.path ∧
        t.xfer.counters = { s.xfer.counters with noSlot := satInc s.xfer.counters.noSlot }) ∧
      ∀ e w j, isDown s.link.state = false → newestOffered s.xfer = some e → windowOfKind s .partTx = some w →
        nextFreeSlot s = some j →
        slotAt t j = .query e.offerSeq s.xfer.querySeq ∧ t.xfer.ringPointer = (j + 1) % 64 ∧
        t.xfer.querySeq = s.xfer.querySeq + 1 ∧
        t.xfer.counters = { s.xfer.counters with queriesSent := satInc s.xfer.counters.queriesSent } ∧
        t.xfer.exchanges = s.xfer.exchanges.map (fun y => if y.offerSeq = e.offerSeq
          then { e with querySeq := some s.xfer.querySeq, state := .querySent } else y) ∧
        t.path.reqs = s.path.reqs ++ [⟨s.path.nextId, slotBuffer w j, .forwarded, .queryFrame j e.offerSeq s.xfer.querySeq
          (buildLine ([⟨0, 1, 2⟩, ⟨1, 1, s.xfer.params.domain⟩, ⟨2, 2, e.offerSeq.toNat⟩,
            ⟨4, 2, s.xfer.querySeq.toNat⟩] ++ stampFields 6 12 (timeNow s)))⟩]) ∧
  (∀ (s : State) (q : BitVec 16) (e : Exchange), s.xfer.exchanges.find? (fun x => x.offerSeq = q) = some e →
    e.expiry ≤ s.now → ∃ t, exec (.exchangeTimeout q) s = .next t ∧ OnlyChanges [.xfer] s t ∧
      t.xfer = { s.xfer with
        exchanges := s.xfer.exchanges.filter fun x => x.offerSeq != q
        counters := { s.xfer.counters with exchangeTimedOut := satInc s.xfer.counters.exchangeTimedOut } }) ∧
  ∀ s : State, due s.xfer.blockTimer s.now = true → ∃ t, exec .blockTimerExpiry s = .next t ∧
    t.xfer.blockTimer = none ∧ t.xfer.block = [] ∧ t.xfer.integral = s.xfer.integral ∧
    t.xfer.history = s.xfer.history ∧
    (s.xfer.state = .track → t.xfer.state = .holdover ∧ t.xfer.holdoverAge = 0 ∧
      t.time.freq = holdoverFreq s.xfer.history s.time.freq) ∧
    (s.xfer.state = .acquire → t.xfer.state = .freerun ∧ t.time = s.time) ∧
    (s.xfer.state = .holdover ∨ s.xfer.state = .freerun → t.xfer.state = s.xfer.state ∧ t.time = s.time) ∧
    (s.xfer.state = .track ∨ s.xfer.state = .acquire →
      TimingStateReported s t 1 (timeNow s) s.xfer.state 5 s.xfer.holdoverAge) ∧
    OnlyChanges [.xfer, .time, .rep, .path, .fault, .freeUses] s t

/-- A TIMING completion that is routed to the time transfer engine. A received one finds its pending entry or counts
NO_PAYLOAD (R64): an OFFER enters the exchange table, in place of an entry of its sequence or of the oldest of a full
table (R66; of two with one created time the one entered first, log entry 50), and an ANSWER gives its entry D, or with
C known the sample, or counts ANSWER_UNMATCHED (R73). The completion of a query on its slot frees the slot (R68) and
gives the entry C, or with D known the sample; NOT_SENT leaves the entry OFFERED; without such an entry, or on a slot
that holds no query, it counts C_ORPHAN (R71; a NOT_SENT whose entry is gone, log entry 15). That the completion is one
of kind TIMING is read from its in-flight entry, whatever kind byte the write shows (the model's choice, log entry 14).
The stamp counts as valid or invalid, and a sample is computed after that, with the entry removed (R53, R75). -/
def Obligations.TimingCompletionsReachExchange : Prop :=
  (∀ (s : State) (id : Nat) (r : LineRequest) (i : Nat) (w : Window) (b : TakenStamp) (u : TimeUnit),
    ModemNext s id r .rxCompletion i w → descStatus (seen r) = 3 → descKind (seen r) = 1 →
    b = takeStamp s false (seen r) → u = stampCounted s.time b → ∃ t, exec .rxCompletion s = .next t ∧
      ((∀ m ∈ s.xfer.pendingTable, lineAddress m.line ≠ descBuffer (seen r)) → t.time = u ∧ t.xfer = { s.xfer with
        counters := { s.xfer.counters with noPayload := satInc s.xfer.counters.noPayload } }) ∧
      ∀ (m : PendingMessage) (rest : List PendingMessage),
        s.xfer.pendingTable.find? (fun y => lineAddress y.line = descBuffer (seen r)) = some m →
        rest = s.xfer.pendingTable.filter (fun y => y.line != m.line) →
        (m.offer = true → t.time = u ∧ ∀ e : Exchange, e = ⟨m.offerSeq, m.carried, b, none, none, none, .offered, s.now,
            s.now + ms s.xfer.params.exchangeTimeout⟩ →
          ((∃ y ∈ s.xfer.exchanges, y.offerSeq = m.offerSeq) → t.xfer = { s.xfer with
            pendingTable := rest, exchanges := (s.xfer.exchanges.filter fun y => y.offerSeq != m.offerSeq) ++ [e]
            counters := { s.xfer.counters with offerDuplicate := satInc s.xfer.counters.offerDuplicate } }) ∧
          ((∀ y ∈ s.xfer.exchanges, y.offerSeq ≠ m.offerSeq) →
            (s.xfer.exchanges.length < 8 → t.xfer = { s.xfer with
              pendingTable := rest, exchanges := s.xfer.exchanges ++ [e] }) ∧
            (8 ≤ s.xfer.exchanges.length → t.xfer = { s.xfer with
              pendingTable := rest, exchanges := s.xfer.exchanges.drop 1 ++ [e]
              counters := { s.xfer.counters with exchangeEvicted := satInc s.xfer.counters.exchangeEvicted } }))) ∧
        (m.offer = false →
          ((∀ e, findExchange s m.offerSeq m.querySeq = some e → e.state = .offered ∨ e.state = .answeredEarly) →
            t.time = u ∧ t.xfer = { s.xfer with
              pendingTable := rest
              counters := { s.xfer.counters with answerUnmatched := satInc s.xfer.counters.answerUnmatched } }) ∧
          ∀ e, findExchange s m.offerSeq m.querySeq = some e →
            (e.state = .querySent → t.time = u ∧ t.xfer = { s.xfer with
              pendingTable := rest
              exchanges := s.xfer.exchanges.map fun y => if y.offerSeq = e.offerSeq
                then { e with d := some m.carried, state := .answeredEarly } else y }) ∧
            ∀ c v, e.state = .queried → e.c = some c → v = computeSample e.a e.b c m.carried { s with
                time := u
                xfer := { s.xfer with
                  pendingTable := rest, exchanges := s.xfer.exchanges.filter fun y => y.offerSeq != e.offerSeq } } →
              t.time = v.time ∧ t.xfer = v.xfer)) ∧
  ∀ (s : State) (id : Nat) (r : LineRequest) (i : Nat) (w : Window) (f : FlightEntry) (c : TakenStamp) (u : TimeUnit),
    ModemNext s id r .txCompletion i w → flightOf s (reqLine r) = some f → f.kind = 1 → c = takeStamp s true (seen r) →
    u = stampCounted s.time c → ∃ t, exec .txCompletion s = .next t ∧
      ((∀ j, slotOfLine s (reqLine r) = some j → slotAt s j = .free) → t.time = u ∧ t.xfer = { s.xfer with
        counters := { s.xfer.counters with cOrphan := satInc s.xfer.counters.cOrphan } }) ∧
      ∀ (j : Nat) (slots : Vector Slot 64), slotOfLine s (reqLine r) = some j →
        slots = s.xfer.slots.setIfInBounds j .free →
        (∀ q, slotAt s j = .test q → t.time = u ∧ t.xfer = { s.xfer with
          slots := slots, counters := { s.xfer.counters with cOrphan := satInc s.xfer.counters.cOrphan } }) ∧
        ∀ o q, slotAt s j = .query o q →
          ((∀ e, findExchange s o q = some e → e.state = .offered ∨ e.state = .queried) → t.time = u ∧
            t.xfer = { s.xfer with
              slots := slots, counters := { s.xfer.counters with cOrphan := satInc s.xfer.counters.cOrphan } }) ∧
          ∀ e, findExchange s o q = some e →
            (descStatus (seen r) = 1 → e.state = .querySent → t.time = u ∧ t.xfer = { s.xfer with
              slots := slots
              exchanges := s.xfer.exchanges.map fun y => if y.offerSeq = e.offerSeq
                then { e with c := some c, state := .queried } else y }) ∧
            (∀ d v, descStatus (seen r) = 1 → e.state = .answeredEarly → e.d = some d →
              v = computeSample e.a e.b c d { s with
                time := u
                xfer := { s.xfer with
                  slots := slots, exchanges := s.xfer.exchanges.filter fun y => y.offerSeq != e.offerSeq } } →
              t.time = v.time ∧ t.xfer = v.xfer) ∧
            (descStatus (seen r) = 2 → e.state = .querySent ∨ e.state = .answeredEarly → t.time = u ∧
              t.xfer = { s.xfer with
                slots := slots
                exchanges := s.xfer.exchanges.map fun y => if y.offerSeq = e.offerSeq
                  then { e with state := .offered, querySeq := none, c := none, d := none } else y
                counters := { s.xfer.counters with queryNotSent := satInc s.xfer.counters.queryNotSent } })

/-- The scrub timer restarts and renews the allowance; a scrubber that is neither paused nor busy walks its positions
from where it stands, which return to the start line past the end line with one pass counted. Each line it meets in the
fence spends allowance and counts SCRUB_SKIPPED; it sets out on the first that is not, or stands still when the
allowance is spent, as at rate 0 (R117, R118). R118 says when a line may be taken; that the walk and its request come
within the event of the expiry is the model's choice (log entry 26). -/
def Obligations.ScrubTimerTakesLine : Prop :=
  ∀ (s : State) (d : Nat), s.integ.scrubber.timer = some d → d ≤ s.now → ∃ t, exec .scrubTimerExpiry s = .next t ∧
    t.integ.scrubber.timer = some (d + ms 1) ∧ OnlyChanges [.integ, .path] s t ∧
    (s.inReset = true ∨ s.path.loadHigh = true ∨ scrubBusy s = true ∨ s.integ.scrubber.rate = 0 →
      t.path = s.path ∧ t.integ = { s.integ with scrubber := { s.integ.scrubber with
        allowance := s.integ.scrubber.rate, timer := some (d + ms 1) } }) ∧
    ∀ (p : Nat → Nat) (k : Nat) (c : Scrubber), s.inReset = false → s.path.loadHigh = false → scrubBusy s = false →
      c = s.integ.scrubber → p 0 = c.position →
      (∀ n, p (n + 1) = if c.endLine ≤ p n then c.startLine else p n + 1) → (∀ n < k, fenced s (p n) = true) →
      (k = c.rate → t.path = s.path ∧ t.integ = { s.integ with
        counters := { s.integ.counters with scrubSkipped := satAdd s.integ.counters.scrubSkipped k }
        scrubber := { c with
          position := p k, allowance := 0, timer := some (d + ms 1)
          passCount := satAdd c.passCount ((List.range k).filter fun n => c.endLine ≤ p n).length } }) ∧
      (k < c.rate → fenced s (p k) = false →
        t.path.reqs = s.path.reqs ++ [⟨s.path.nextId, p k, .forwarded, .scrub⟩] ∧ t.integ = { s.integ with
          counters := { s.integ.counters with scrubSkipped := satAdd s.integ.counters.scrubSkipped k }
          scrubber := { c with
            position := p (k + 1), allowance := c.rate - (k + 1), timer := some (d + ms 1)
            passCount := satAdd c.passCount ((List.range (k + 1)).filter fun n => c.endLine ≤ p n).length } })

/-- The send timer of a RUNNING session restarts and generates the next frame, or counts why it waits: a full
outstanding list, then a slot (R144, R70). A frame enters the list as POSTED (R146), takes its slot (R68) and makes
one write for each of its lines (R145); the last frame begins DRAINING. -/
def Obligations.SendTimerGeneratesFrame : Prop :=
  ∀ (s : State) (d : Nat), s.loop.sendTimer = some d → d ≤ s.now → s.loop.state = .running → ∃ t,
    exec .sendTimerExpiry s = .next t ∧ OnlyChanges [.loop, .xfer, .path] s t ∧
    (32 ≤ s.loop.outstanding.length → t.loop = { s.loop with
      sendTimer := some (d + s.loop.params.interval * 4000)
      counts := { s.loop.counts with waitList := satInc s.loop.counts.waitList } }) ∧
    (s.loop.outstanding.length < 32 → (windowOfKind s .partTx = none ∨ freeSlots s < 5) → t.loop = { s.loop with
      sendTimer := some (d + s.loop.params.interval * 4000)
      counts := { s.loop.counts with waitSlot := satInc s.loop.counts.waitSlot } }) ∧
    ∀ w j, s.loop.outstanding.length < 32 → windowOfKind s .partTx = some w → nextFreeSlot s = some j →
      5 ≤ freeSlots s →
      t.loop.outstanding = s.loop.outstanding ++
        [⟨BitVec.ofNat 16 s.loop.nextSeq, j, s.now, .posted, none, 0⟩] ∧
      t.loop.nextSeq = s.loop.nextSeq + 1 ∧
      t.loop.counts = { s.loop.counts with generated := satInc s.loop.counts.generated } ∧
      slotAt t j = .test (BitVec.ofNat 16 s.loop.nextSeq) ∧
      (s.loop.nextSeq + 1 = s.loop.params.frames → t.loop.state = .draining ∧ t.loop.sendTimer = none) ∧
      (s.loop.nextSeq + 1 ≠ s.loop.params.frames → t.loop.state = .running ∧
        t.loop.sendTimer = some (d + s.loop.params.interval * 4000)) ∧
      t.path.reqs.length = s.path.reqs.length + s.loop.params.lines ∧
      ∀ n < s.loop.params.lines, ∃ q ∈ t.path.reqs, q.line = slotBuffer w j + n ∧ q.stage = .forwarded ∧
        q.job = .testLine j (BitVec.ofNat 16 s.loop.nextSeq) s.loop.params.lines
          (testFrameLine s.loop.identifier.toNat s.loop.params s.loop.nextSeq n)

/-- What settles an entry of the outstanding list (R146), and in DRAINING ends the session with the last, whose
LOOPTEST_DONE is made among the reports of the event (R150; its sequence and place, log entries 19 and 43). Its loss
timeout: LOST, or a skipped round trip for one RETURNED_EARLY (R149). The TX completion of its frame's descriptor: SENT
gives it the send stamp, or with the return known the round trip; NOT_SENT removes it; that the completion is one of
kind TEST is read from its in-flight entry, whatever kind byte the write shows (the model's choice, log entry 14). The
flight timeout or an overwrite of the descriptor leaves it UNSTAMPED. Its return: counted with its missing lines, and
with the send stamp known the round trip is taken (R148). The sum of round trips, a 64-bit number, stops at 2⁶⁴ − 1
(the model's choice, log entry 29). An event without an entry counts SEND_ORPHAN, and a return without one counts as
late, where no session is active too (the model's choice, log entry 29); a second return of an entry still there is
matched again and changes its entry no more (log entry 48). -/
def Obligations.OutstandingEntriesSettle : Prop :=
  (∀ (s : State) (q : BitVec 16) (e : Outstanding), s.loop.outstanding.find? (fun x => x.frameSeq = q) = some e →
    e.created + ms s.loop.params.lossTimeout ≤ s.now → ∃ t, exec (.lossTimeout q) s = .next t ∧
      OnlyChanges [.loop, .rep, .path, .fault] s t ∧ SessionSettles s t ∧
      t.loop.outstanding = s.loop.outstanding.filter (fun x => x.frameSeq != q) ∧
      ((∀ u, e.state ≠ .returnedEarly u) → t.loop.trips = s.loop.trips ∧
        t.loop.counts = { s.loop.counts with lost := satInc s.loop.counts.lost }) ∧
      (∀ u, e.state = .returnedEarly u → t.loop.counts = s.loop.counts ∧
        t.loop.trips = { s.loop.trips with skipped := satInc s.loop.trips.skipped })) ∧
  (∀ (s : State) (id : Nat) (r : LineRequest) (i : Nat) (w : Window) (f : FlightEntry) (j : Nat) (q : BitVec 16)
    (c : TakenStamp), ModemNext s id r .txCompletion i w → flightOf s (reqLine r) = some f → f.kind = 2 →
    slotOfLine s (reqLine r) = some j → slotAt s j = .test q → c = takeStamp s true (seen r) → ∃ t,
      exec .txCompletion s = .next t ∧ t.xfer = { s.xfer with slots := s.xfer.slots.setIfInBounds j .free } ∧
      (outstandingOf s.loop j q = none → t.loop = { s.loop with sendOrphan := satInc s.loop.sendOrphan }) ∧
      ∀ e, outstandingOf s.loop j q = some e → SessionSettles s t ∧
        (descStatus (seen r) = 1 → t.loop.counts = s.loop.counts ∧
          (e.state = .posted → t.loop.trips = s.loop.trips ∧ t.loop.outstanding = s.loop.outstanding.map fun x =>
            if x.frameSeq = q then { e with state := .sent c } else x) ∧
          ∀ u, e.state = .returnedEarly u → TripTaken s.loop.trips t.loop.trips c u ∧
            t.loop.outstanding = s.loop.outstanding.filter fun x => x.frameSeq != q) ∧
        (descStatus (seen r) = 2 →
          (e.state = .posted → t.loop.trips = s.loop.trips ∧
            t.loop.counts = { s.loop.counts with unsent := satInc s.loop.counts.unsent } ∧
            t.loop.outstanding = s.loop.outstanding.filter fun x => x.frameSeq != q) ∧
          ∀ u, e.state = .returnedEarly u → t.loop.counts = s.loop.counts ∧
            t.loop.trips = { s.loop.trips with skipped := satInc s.loop.trips.skipped } ∧
            t.loop.outstanding = s.loop.outstanding.filter fun x => x.frameSeq != q)) ∧
  (∀ (s : State) (command : Instr) (line : Nat) (f : FlightEntry) (j : Nat) (q : BitVec 16),
    flightOf s line = some f → slotOfLine s line = some j → slotAt s j = .test q →
    (∃ l : BitVec 30, command = .flightTimeout l ∧ l.toNat = line ∧ f.expiry ≤ s.now) ∨
      (∃ p id r, command = .descriptorOverwrite p ∧ Next s p id r ∧ sight s p r = .overwrite ∧ reqLine r = line) → ∃ t,
      exec command s = .next t ∧ t.xfer = { s.xfer with slots := s.xfer.slots.setIfInBounds j .free } ∧
      (outstandingOf s.loop j q = none → t.loop = { s.loop with sendOrphan := satInc s.loop.sendOrphan }) ∧
      ∀ e, outstandingOf s.loop j q = some e → SessionSettles s t ∧ t.loop.counts = s.loop.counts ∧
        (e.state = .posted → t.loop.trips = s.loop.trips ∧ t.loop.outstanding = s.loop.outstanding.map fun x =>
          if x.frameSeq = q then { e with state := .unstamped } else x) ∧
        ∀ u, e.state = .returnedEarly u → t.loop.trips = { s.loop.trips with skipped := satInc s.loop.trips.skipped } ∧
          t.loop.outstanding = s.loop.outstanding.filter fun x => x.frameSeq != q) ∧
  ∀ (s : State) (id : Nat) (r : LineRequest) (i : Nat) (w : Window) (c : TakenStamp)
    (found : Option Outstanding), ModemNext s id r .rxCompletion i w → descStatus (seen r) = 3 →
    descKind (seen r) = 2 → c = takeStamp s false (seen r) →
    found = s.loop.outstanding.find? (fun x => x.firstLine.map lineAddress = some (descBuffer (seen r))) → ∃ t,
      exec .rxCompletion s = .next t ∧
      (loopActive s.loop = false ∨ found = none → t.loop = { s.loop with
        counts := { s.loop.counts with late := satInc s.loop.counts.late }, late := satInc s.loop.late }) ∧
      ∀ e, loopActive s.loop = true → found = some e → SessionSettles s t ∧ t.loop.late = s.loop.late ∧
        t.loop.counts = { s.loop.counts with
          returned := satInc s.loop.counts.returned
          missing := satAdd s.loop.counts.missing (s.loop.params.lines - e.seen) } ∧
        (e.state = .posted → t.loop.trips = s.loop.trips ∧ t.loop.outstanding = s.loop.outstanding.map fun x =>
          if x.frameSeq = e.frameSeq then { e with state := .returnedEarly c } else x) ∧
        (∀ u, e.state = .sent u → TripTaken s.loop.trips t.loop.trips u c ∧
          t.loop.outstanding = s.loop.outstanding.filter fun x => x.frameSeq != e.frameSeq) ∧
        (e.state = .unstamped → t.loop.trips = { s.loop.trips with skipped := satInc s.loop.trips.skipped } ∧
          t.loop.outstanding = s.loop.outstanding.filter fun x => x.frameSeq != e.frameSeq) ∧
        ∀ u, e.state = .returnedEarly u → t.loop.trips = s.loop.trips ∧ t.loop.outstanding = s.loop.outstanding

/-- A selection is handed to the servo and the timing state machine, which in FREERUN cannot happen (R81). Above T_step
it steps the counter by θ, clears S and the block, keeps F and steps the epoch (R48, R78); otherwise S and F take their
new values where F stays in range, and else F is held at its bound and S kept (R79). The run count and the state follow
by R81 in ACQUIRE, by R84 and then R81 in HOLDOVER, and by R82 in TRACK; F enters the history in TRACK, and at the
entry into it. A change of the qualification is told to the fault unit, and each change of state and each step has its
report (R50, R85; their sequences, log entry 19; their order, log entries 43 and 44), a step's with θ, which below −2³¹
ns shows the field's least value (the model's choice, log entry 24). Where a selection moves ACQUIRE to TRACK, or TRACK
to ACQUIRE, the change of TIMING_UNQUALIFIED has its FAULT_CHANGE report (R165, R170; the fault line's level, log entry
54), which like TIMING_STATE shows the counter after a step (log entry 44). -/
def Obligations.SelectionServo : Prop :=
  ∀ (s t : State) (theta integral freq : Int) (run : Nat), s.xfer.state ≠ .freerun → t = applySelection theta s →
    integral = max (-16777215) (min (s.xfer.integral + theta) 16777215) →
    freq = -((s.xfer.params.gp : Int) * theta + (s.xfer.params.gi : Int) * integral) →
    run = (if s.xfer.state = .holdover then 0 else s.xfer.runCount) →
    OnlyChanges [.time, .xfer, .path, .rep, .fault, .freeUses] s t ∧ t.xfer.params = s.xfer.params ∧
    t.xfer.exchanges = s.xfer.exchanges ∧ t.xfer.blockTimer = s.xfer.blockTimer ∧
    t.xfer.holdoverAge = (if s.xfer.state = .holdover then 0 else s.xfer.holdoverAge) ∧
    ((s.xfer.params.tStep : Int) < |theta| →
      t.xfer.state = .acquire ∧ t.xfer.runCount = 0 ∧ t.xfer.integral = 0 ∧ t.xfer.history = s.xfer.history ∧
      t.xfer.block = [] ∧ t.time.freq = s.time.freq ∧ t.time.epoch = s.time.epoch + 1 ∧
      t.time.phaseSteps = satInc s.time.phaseSteps ∧
      t.xfer.counters = { s.xfer.counters with stepSelections := satInc s.xfer.counters.stepSelections } ∧
      (0 ≤ totalNs (timeNow s) - theta → totalNs (timeNow s) - theta < 2 ^ 48 * 1000000000 →
        totalNs (timeNow t) = totalNs (timeNow s) - theta ∧ t.time.fraction = s.time.fraction ∧
        t.time.stepsClamped = s.time.stepsClamped) ∧
      (totalNs (timeNow s) - theta < 0 → timeNow t = ⟨0, 0⟩ ∧ t.time.fraction = 0 ∧
        t.time.stepsClamped = satInc s.time.stepsClamped)) ∧
    (|theta| ≤ (s.xfer.params.tStep : Int) →
      t.xfer.block = s.xfer.block ∧
      (-800000 ≤ freq ∧ freq ≤ 800000 → t.time = { s.time with freq := freq } ∧ t.xfer.integral = integral ∧
        t.xfer.counters = s.xfer.counters) ∧
      (freq < -800000 ∨ 800000 < freq → t.time = { s.time with freq := if 0 ≤ freq then 800000 else -800000 } ∧
        t.xfer.integral = s.xfer.integral ∧
        t.xfer.counters = { s.xfer.counters with fClamped := satInc s.xfer.counters.fClamped }) ∧
      (s.xfer.state ≠ .track →
        ((s.xfer.params.tTrk : Int) < |theta| →
          t.xfer.state = .acquire ∧ t.xfer.runCount = 0 ∧ t.xfer.history = s.xfer.history) ∧
        (|theta| ≤ (s.xfer.params.tTrk : Int) →
          (run + 1 < s.xfer.params.k →
            t.xfer.state = .acquire ∧ t.xfer.runCount = run + 1 ∧ t.xfer.history = s.xfer.history) ∧
          (s.xfer.params.k ≤ run + 1 → t.xfer.state = .track ∧ t.xfer.runCount = 0 ∧
            t.xfer.history = (s.xfer.history ++ [t.time.freq]).drop (s.xfer.history.length + 1 - 4)))) ∧
      (s.xfer.state = .track →
        t.xfer.history = (s.xfer.history ++ [t.time.freq]).drop (s.xfer.history.length + 1 - 4) ∧
        (|theta| ≤ (s.xfer.params.tTrk : Int) → t.xfer.state = .track ∧ t.xfer.runCount = 0) ∧
        ((s.xfer.params.tTrk : Int) < |theta| →
          (run + 1 < s.xfer.params.k → t.xfer.state = .track ∧ t.xfer.runCount = run + 1) ∧
          (s.xfer.params.k ≤ run + 1 → t.xfer.state = .acquire ∧ t.xfer.runCount = 0)))) ∧
    (s.inReset = false → qualifiedState t.xfer.state ≠ qualifiedState s.xfer.state →
      t.fault.timingUnqualified.raw = !qualifiedState t.xfer.state) ∧
    ((s.xfer.params.tStep : Int) < |theta| → ReportAmong s t 2 (timeNow t) 0x06 ([⟨16, 1, 0⟩,
      ⟨17, 1, if totalNs (timeNow s) - theta < 0 then 1 else 0⟩, ⟨18, 2, t.time.epoch.toNat⟩,
      ⟨20, 4, narrowSigned 4 theta⟩] ++ stampFields 24 32 (timeNow s) ++ stampFields 40 48 (timeNow t))) ∧
    (s.xfer.state = .acquire → t.xfer.state = .track →
      TimingStateReported s t 1 (timeNow s) .acquire 2 s.xfer.holdoverAge ∧
      FaultReported s t 1 .timingUnqualified 2) ∧
    (s.xfer.state = .track → t.xfer.state = .acquire →
      ((s.xfer.params.tStep : Int) < |theta| → TimingStateReported s t 2 (timeNow t) .track 3 s.xfer.holdoverAge ∧
        FaultReportedAt s t 2 (timeNow t) .timingUnqualified 1) ∧
      (|theta| ≤ (s.xfer.params.tStep : Int) → TimingStateReported s t 1 (timeNow s) .track 4 s.xfer.holdoverAge ∧
        FaultReported s t 1 .timingUnqualified 1)) ∧
    (s.xfer.state = .holdover →
      ReportAmong s t 1 (timeNow s) 0x07 [⟨16, 1, 3⟩, ⟨17, 1, 1⟩, ⟨18, 1, 8⟩, ⟨20, 2, s.time.epoch.toNat⟩,
        ⟨24, 4, narrowSigned 4 s.time.freq⟩, ⟨28, 4, narrowSigned 4 s.xfer.integral⟩,
        ⟨32, 4, narrow 4 s.xfer.holdoverAge⟩] ∧
      (t.xfer.state = .track → TimingStateReported s t 3 (timeNow s) .acquire 2 0))

/-! ### Memory port (R98, R104, R108 to R117, R122 to R124, R133, R134) -/

/-- A port read completes with what the code makes of the line, by the number of flipped bits in each word, and the
flipped bits stay in DRAM (R108; an operand whose passing data are those written, log entry 28). CLEAN and CORRECTED
answer OKAY with the delivered data, UNCORRECTABLE answers ERROR, and the outcome is counted, captured and marked by
R109 to R111, and reported as the next entry of a ring with room, or behind the event's FAULT_CHANGE as the one after
it (R110, R156, R170; the fault line's level in that report, log entry 54); a read of a marked line answers ERROR and
counts MARKED_READS (R112), and nothing else counts it, which R109 leaves to be read (log entry 25). A CORRECTED
outcome is taken against its page in the suspect page list; at the threshold the page is remapped, with the report of
the request, or reported with its count and first time as the next entry of a ring with room (R116, R121; an interval
time that has passed its 8 bytes, log entry 60; of two entries with one count and one first time, and the order of the
list, the model's choices of log entry 46; the reports' sequences, log entry 19). FIRST_UNCORRECTABLE is kept while it
holds one. The scrubber, DRAM and the locks stand. -/
def Obligations.PortReadAnswered : Prop :=
  ∀ (s : State) (a : Access) (p : Port) (f : LineFlips) (o : EccObs) (r : LineRequest), Completes s a →
    o = lineRead f a s → a.kind = .portRead p →
    portRequestOf s a = some r → ∃ t, exec (.portReadComplete f) s = .next t ∧
      (dramLaw s → FlipsKept s t a.memLine f ∧ (LineFlips.wellFormed f = true →
        CodeRead (flipsRead t.flips a.memLine) (dramRead s.dram a.memLine) f o)) ∧
      t.path.memPort = s.path.memPort.drop 1 ∧ t.path.locks = s.path.locks ∧
      OnlyChanges [.path, .march, .flips, .integ, .rep, .fault, .freeUses] s t ∧
      (isMarked s a.line = true → Answered t a.id (errorResponse r) ∧ t.integ = { s.integ with
        counters := { s.integ.counters with markedReads := satInc s.integ.counters.markedReads } } ∧
        OnlyChanges [.path, .march, .flips, .integ] s t) ∧
      (isMarked s a.line = false → lineOutcome o = .clean →
        Answered t a.id (okayRead r (deliveredLine o (dramRead s.dram a.memLine))) ∧
        OnlyChanges [.path, .march, .flips] s t) ∧
      (isMarked s a.line = false → lineOutcome o = .corrected →
        Answered t a.id (okayRead r (deliveredLine o (dramRead s.dram a.memLine)))) ∧
      (isMarked s a.line = false → lineOutcome o = .uncorrectable → Answered t a.id (errorResponse r)) ∧
      (isMarked s a.line = false → OutcomeTaken s t (.port p) a (lineOutcome o) ∧ ScrubKept s t ∧
        RemapsKept s t (lineOutcome o))

/-- A modem read of a descriptor line is judged on the delivered data: not ready or in flight passes (R22); an invalid
descriptor is rejected with ready cleared (R23), its write-back made, or dropped where 16 are held, and its
ADMIT_REJECT report made in a ring with room, after the reports that the outcome and the unlisting make (log entry 43;
its sequence, log entry 19); in PART_TX it frees the slot that recorded its sequence (R68, R72, R146; QUERY_REJECTED
also where the exchange entry is gone, log entry 15); a valid one is admitted exactly where R24 and R25 let it, with
its debit and its in-flight entry (R27, R28), and is otherwise held with ready cleared (R25, R26), a listed line with
its length replaced (R26). The window is that of the read's classification, whatever the table holds by then (log entry
49). The reasons are those of R23, of which the first that holds counts: the length outside 64 to 9,600, a class field
that is not the window's class, a kind that the window does not carry, and a buffer that is not aligned or lies in no
buffer memory of the class, for PART_TX its pages 1 to 16. A change of a held list sets the age timer of a new head and
evaluates its class, with a notice at a change, which shows the credit before a debit, and the CONGESTION condition
(R34 to R36; log entries 16, 19 and 51). A read of a marked line, or one with an UNCORRECTABLE outcome, is answered
ERROR and not judged (R98, R112), and the outcome has its event and report (R110, R170; log entry 54); a marked one
counts MARKED_READS and nothing else (log entry 25). The outcome of a read of a line that is not marked, judged or not,
is counted, captured, marked and taken against its page as that of any port read (R109 to R111, R116; the order of the
suspects, log entry 46; the first time in SUSPECT_PAGE past its 8 bytes, log entry 60). -/
def Obligations.DescriptorJudged : Prop :=
  (∀ (s : State) (a : Access) (f : LineFlips) (o : EccObs) (r : LineRequest), Completes s a → o = lineRead f a s →
    a.kind = .descriptorRead →
    portRequestOf s a = some r → isMarked s a.line = true ∨ lineOutcome o = .uncorrectable → ∃ t,
      exec (.descriptorReadJudged f) s = .next t ∧ (dramLaw s → FlipsKept s t a.memLine f) ∧
        Answered t a.id (errorResponse r) ∧
      (isMarked s a.line = true → t.integ = { s.integ with
        counters := { s.integ.counters with markedReads := satInc s.integ.counters.markedReads } }) ∧
      (isMarked s a.line = false → OutcomeTaken s t (.port .modem) a .uncorrectable ∧ ScrubKept s t ∧
        RemapsKept s t .uncorrectable) ∧
      OnlyChanges [.path, .march, .flips, .integ, .rep, .fault, .freeUses] s t) ∧
  ∀ (s : State) (a : Access) (f : LineFlips) (o : EccObs) (r : LineRequest) (i : Nat) (w : Window) (d : Line) (c : Cls)
    (short alien strange outside timing admits : Prop) (first lines debit : Nat) (reason : Option Nat),
    Completes s a → o = lineRead f a s → a.kind = .descriptorRead → portRequestOf s a = some r →
    windowOfAccess s a = some (i, w) → isMarked s a.line = false → lineOutcome o ≠ .uncorrectable →
    d = deliveredLine o (dramRead s.dram a.memLine) → c = windowClass w →
    (short ↔ descLength d < 64 ∨ 9600 < descLength d) → (alien ↔ descClass d ≠ clsCode c) →
    (strange ↔ (w.kind = .partTx ∧ descKind d ≠ 1 ∧ descKind d ≠ 2) ∨ (w.kind ≠ .partTx ∧ descKind d ≠ 0)) →
    first = descBuffer d / 64 → lines = (descLength d + 63) / 64 →
    (outside ↔ descBuffer d % 64 ≠ 0 ∨
      (w.kind = .partTx ∧ (first < windowLine w 64 ∨ windowLine w (64 * 17) < first + lines)) ∨
      (w.kind ≠ .partTx ∧ ∀ j b, windowEntry s j = some b → b.kind = .buffer → b.cls = w.cls →
        first < windowLine b 0 ∨ windowLine b (64 * b.size) < first + lines)) →
    (short → reason = some 1) → (¬short → alien → reason = some 2) → (¬short → ¬alien → strange → reason = some 3) →
    (¬short → ¬alien → ¬strange → outside → reason = some 4) →
    (¬short → ¬alien → ¬strange → ¬outside → reason = none) →
    (timing ↔ w.kind = .partTx ∧ descKind d = 1) →
    (admits ↔ ((timing ∧ isDown s.link.state = false) ∨ (¬timing ∧ (clsAt s c).enabled = true ∧
        carriesTraffic s.link.state = true ∧
        (c = .s ∨ (clsAt s c).needsTiming = false ∨ qualifiedState s.xfer.state = true))) ∧
      s.adm.flight.length < 64 ∧ (∀ h rest, (clsAt s c).held = h :: rest → h.line = a.line) ∧
      (1 ≤ (clsAt s c).credit ∨ timing)) →
    debit = (if (clsAt s c).enabled then (descLength d + plannedOverhead s.link) * 8 else 0) → ∃ t,
      exec (.descriptorReadJudged f) s = .next t ∧ (dramLaw s → FlipsKept s t a.memLine f) ∧
      OnlyChanges [.path, .march, .flips, .integ, .rep, .fault, .freeUses, .adm, .xfer, .loop] s t ∧ AgeTimersFollow s t ∧
      OutcomeTaken s t (.port .modem) a (lineOutcome o) ∧ ScrubKept s t ∧ RemapsKept s t (lineOutcome o) ∧
      (lineOutcome o = .clean → t.integ = s.integ) ∧
      (descReady d = false → Answered t a.id (okayRead r d) ∧ t.adm.flight = s.adm.flight ∧
        CongestionSettled s t (fun x => listed (clsAt s x) a.line = true) (fun x => (clsAt s x).credit) ∧
        ∀ x, (clsAt t x).credit = (clsAt s x).credit ∧ (clsAt t x).counters = (clsAt s x).counters ∧
          (clsAt t x).held = (clsAt s x).held.filter fun h => h.line != a.line) ∧
      (descReady d = true → inFlight s a.line = true → Answered t a.id (okayRead r d) ∧ t.adm = s.adm ∧
        t.fault.congestion = s.fault.congestion) ∧
      (descReady d = true → inFlight s a.line = false →
        (∀ code, reason = some code → Answered t a.id (okayRead r (readyCleared d)) ∧ t.adm.flight = s.adm.flight ∧
          CongestionSettled s t (fun x => listed (clsAt s x) a.line = true) (fun x => (clsAt s x).credit) ∧
          (∀ x, (clsAt t x).credit = (clsAt s x).credit) ∧
          (∀ x, (clsAt t x).held = (clsAt s x).held.filter fun h => h.line != a.line) ∧
          (clsAt t c).counters = { (clsAt s c).counters with rejected := satInc (clsAt s c).counters.rejected } ∧
          (∀ n, pathLaw s → n = (s.path.reqs.filter fun q => q.job == .writeBack).length →
            (n < 16 → t.adm.writebackDropped = s.adm.writebackDropped ∧ ∃ q ∈ t.path.reqs, s.path.nextId ≤ q.id ∧
              q.line = a.line ∧ q.stage = .forwarded ∧ q.job = .writeBack) ∧
            (16 ≤ n → t.adm.writebackDropped = satInc s.adm.writebackDropped ∧
              ∀ q ∈ t.path.reqs, q.job = .writeBack → q ∈ s.path.reqs)) ∧
          ReportAmong s t 7 (timeNow s) 0x04 [⟨16, 8, lineAddress a.line⟩, ⟨24, 1, i⟩, ⟨25, 1, descClass d⟩,
            ⟨26, 1, code⟩, ⟨28, 2, descLength d⟩] ∧
          (w.kind = .partTx → SlotRejected s t a.line (descSequence d)) ∧
          (w.kind ≠ .partTx → t.xfer = s.xfer ∧ t.loop = s.loop)) ∧
        (reason = none → ¬admits → Answered t a.id (okayRead r (readyCleared d)) ∧
          CongestionSettled s t
            (fun x => x = c ∧ (clsAt s c).enabled = true ∧
              (listed (clsAt s c) a.line = true ∨ (clsAt s c).held.length < 16))
            (fun x => (clsAt s x).credit) ∧
          t.adm.flight = s.adm.flight ∧ (∀ x, (clsAt t x).credit = (clsAt s x).credit) ∧
          (clsAt t c).counters.heldReads = satInc (clsAt s c).counters.heldReads ∧
          ((clsAt s c).enabled = true → listed (clsAt s c) a.line = true →
            (clsAt t c).held = (clsAt s c).held.map (fun h => if h.line = a.line
              then { h with length := descLength d } else h) ∧
            (clsAt t c).counters.heldUnlisted = (clsAt s c).counters.heldUnlisted) ∧
          ((clsAt s c).enabled = true → listed (clsAt s c) a.line = false → (clsAt s c).held.length < 16 →
            (clsAt t c).held = (clsAt s c).held ++ [⟨a.line, descLength d, s.now⟩]) ∧
          ((clsAt s c).enabled = false ∨ (listed (clsAt s c) a.line = false ∧ 16 ≤ (clsAt s c).held.length) →
            (clsAt t c).held = (clsAt s c).held ∧
            (clsAt t c).counters.heldUnlisted = satInc (clsAt s c).counters.heldUnlisted)) ∧
        (reason = none → admits → Answered t a.id (okayRead r d) ∧
          CongestionSettled s t (fun x => listed (clsAt s x) a.line = true) (fun x => (clsAt s x).credit) ∧
          t.adm.flight = s.adm.flight ++ [⟨a.line, c, descKind d, descLength d, debit, timeNow s, s.time.epoch,
            s.now + ms s.adm.flightTimeout⟩] ∧
          (clsAt t c).credit = max ((clsAt s c).credit - debit) (-78840) ∧
          (clsAt t c).counters = { (clsAt s c).counters with admitted := satInc (clsAt s c).counters.admitted } ∧
          (∀ x, (clsAt t x).held = (clsAt s x).held.filter fun h => h.line != a.line) ∧
          ∀ x, x ≠ c → (clsAt t x).credit = (clsAt s x).credit))

/-- A whole-line port write reaches its memory line and no other, clears its line's mark, and answers OKAY (R98, R112).
A read-modify-write: its read merges the covered bytes with the delivered line, or ends the request with ERROR and no
write on a marked line and on UNCORRECTABLE, which has its event and report (R110, R112, R114, R170; their sequences
and the fault line's level, log entries 19 and 54); its write reaches memory and answers OKAY. Either end releases the
lock, and the access that began first to wait on the line is taken again (R113). A stamped completion is merged with
its stamp (R54). The internal requester's clearing of a ready flag goes the same way (R115). The outcome of either read
of a line that is not marked is counted, captured, marked and taken against its page (R109 to R111, R116; the order of
the suspects, log entry 46; the first time in SUSPECT_PAGE past its 8 bytes, log entry 60). That a marked read counts
MARKED_READS alone is read from R112 (log entry 25). -/
def Obligations.PortAndPartialWrites : Prop :=
  (∀ (s : State) (a : Access) (p : Port) (d : Line), dramLaw s → Completes s a → a.kind = .portWrite p d →
    ∃ t, exec .portWriteComplete s = .next t ∧ LineWritten s t a.memLine d ∧
      t.integ = { s.integ with marked := s.integ.marked.filter fun l => l != a.line } ∧
      t.path.memPort = s.path.memPort.drop 1 ∧ t.path.locks = s.path.locks ∧
      (∀ r, portRequestOf s a = some r → Answered t a.id (okayWrite r)) ∧
      OnlyChanges [.dram, .flips, .integ, .path, .march] s t) ∧
  (∀ (s : State) (a : Access) (p : Port) (f : LineFlips) (o : EccObs) (r : LineRequest), pathLaw s → Completes s a →
    o = lineRead f a s →
    a.kind = .rmwRead p → portRequestOf s a = some r → ∃ t, exec (.rmwReadComplete f) s = .next t ∧ (dramLaw s →
      FlipsKept s t a.memLine f) ∧
      t.path.memPort = s.path.memPort.drop 1 ∧
      (isMarked s a.line = true → Answered t a.id (errorResponse r) ∧ t.integ = { s.integ with
        counters := { s.integ.counters with markedReads := satInc s.integ.counters.markedReads } } ∧
        OnlyChanges [.path, .march, .flips, .integ] s t) ∧
      (isMarked s a.line = false → lineOutcome o = .uncorrectable → Answered t a.id (errorResponse r)) ∧
      (isMarked s a.line = false → OutcomeTaken s t (.port p) a (lineOutcome o) ∧ ScrubKept s t ∧
        RemapsKept s t (lineOutcome o)) ∧
      (isMarked s a.line = false → lineOutcome o = .clean → OnlyChanges [.path, .march, .flips] s t) ∧
      (isMarked s a.line = true ∨ lineOutcome o = .uncorrectable → LockReleased s t a.line) ∧
      (∀ mask data, isMarked s a.line = false → lineOutcome o ≠ .uncorrectable →
        (stampOfAccess s a = none → mask = reqMask r ∧ data = reqData r) →
        (∀ c, stampOfAccess s a = some c → mask = maskAdd (reqMask r) 21 13 ∧ data = stampedData (reqData r) c) →
        t.path.locks = s.path.locks ∧ ∃ q ∈ t.path.reqs, q.id = a.id ∧ q.stage = .writeReady a.memLine
          (mergeLine mask data (deliveredLine o (dramRead s.dram a.memLine)))) ∧
      OnlyChanges [.path, .march, .flips, .integ, .rep, .fault, .freeUses] s t) ∧
  (∀ (s : State) (a : Access) (p : Port) (d : Line) (r : LineRequest), dramLaw s → pathLaw s → Completes s a →
    a.kind = .rmwWrite p d → portRequestOf s a = some r → ∃ t, exec .rmwWriteComplete s = .next t ∧
      LineWritten s t a.memLine d ∧
      Answered t a.id (okayWrite r) ∧ t.path.memPort = s.path.memPort.drop 1 ∧ LockReleased s t a.line ∧
      OnlyChanges [.dram, .flips, .path, .march] s t) ∧
  (∀ (s : State) (a : Access) (f : LineFlips) (o : EccObs) (q0 : Req), pathLaw s → Completes s a →
    o = lineRead f a s → a.kind = .writeBackRead →
    a.live = true → findReq s a.id = some q0 → ∃ t, exec (.internalPartialReadComplete f) s = .next t ∧ (dramLaw s →
      FlipsKept s t a.memLine f) ∧
      (isMarked s a.line = true ∨ lineOutcome o = .uncorrectable →
        (∀ q ∈ t.path.reqs, q.id ≠ a.id) ∧ LockReleased s t a.line) ∧
      (isMarked s a.line = true → t.integ = { s.integ with
        counters := { s.integ.counters with markedReads := satInc s.integ.counters.markedReads } } ∧
        OnlyChanges [.path, .march, .flips, .integ] s t) ∧
      (isMarked s a.line = false → OutcomeTaken s t .internalPartial a (lineOutcome o) ∧ ScrubKept s t ∧
        RemapsKept s t (lineOutcome o)) ∧
      (isMarked s a.line = false → lineOutcome o = .clean → OnlyChanges [.path, .march, .flips] s t) ∧
      (isMarked s a.line = false → lineOutcome o ≠ .uncorrectable → t.path.locks = s.path.locks ∧
        ∃ q ∈ t.path.reqs, q.id = a.id ∧ q.stage = .writeReady a.memLine
          (mergeLine writeBackMask writeBackData (deliveredLine o (dramRead s.dram a.memLine)))) ∧
      OnlyChanges [.path, .march, .flips, .integ, .rep, .fault, .freeUses] s t) ∧
  ∀ (s : State) (a : Access) (d : Line), dramLaw s → pathLaw s → Completes s a → a.kind = .writeBackWrite d →
    a.live = true → ∃ t, exec .internalWriteComplete s = .next t ∧ LineWritten s t a.memLine d ∧
      (∀ q ∈ t.path.reqs, q.id ≠ a.id) ∧
      LockReleased s t a.line ∧
      OnlyChanges [.dram, .flips, .path, .march] s t

/-- The writes of the part's own lines reach memory, clear their line's mark and leave the internal requester (R97,
R112): notices and slot descriptors; a query frame, which a slot descriptor follows (R69); a test frame's line, which
one follows after the last of the slot (R145; a slot posted again while lines wait, log entry 55); a report entry,
which advances W (R156); and the lines of a snapshot, whose last line leaves the snapshot unit IDLE, or with a
remembered request WRITING the next snapshot, which it captures as the state stands (R161, log entry 23; the layout of
its lines, log entries 21, 22, 54, 57 and 60). With a RELEASING ring a remembered request is dropped and counted, and
the entry or the snapshot that ends what is left to be written leaves the ring UNCONFIGURED (R159, R161). -/
def Obligations.OwnWritesComplete : Prop :=
  ∀ (s : State) (a : Access) (d : Line) (c : Instr), dramLaw s → pathLaw s → Completes s a → a.live = true →
    (a.kind = .noticeWrite d ∨ a.kind = .slotDescriptorWrite d) ∧ c = .internalWriteComplete ∨
      a.kind = .queryFrameWrite d ∧ c = .queryFrameWriteComplete ∨
      a.kind = .testLineWrite d ∧ c = .testFrameWriteComplete ∨
      a.kind = .reportWrite d ∧ c = .reportEntryWriteComplete ∨
      (∃ i, a.kind = .snapshotWrite i d) ∧ c = .snapshotLineWriteComplete → ∃ t, exec c s = .next t ∧
      LineWritten s t a.memLine d ∧
      t.integ = { s.integ with marked := s.integ.marked.filter fun l => l != a.line } ∧
      t.path.memPort = s.path.memPort.drop 1 ∧ (∀ q ∈ t.path.reqs, q.id ≠ a.id) ∧
      (a.kind = .queryFrameWrite d → ∀ q j f v x w, findReq s a.id = some q → q.job = .queryFrame j f v x →
        windowOfKind s .partTx = some w → ∃ u ∈ t.path.reqs, u.line = windowLine w j ∧ u.stage = .forwarded ∧
          u.job = .slotDescriptor j (slotDescriptorLine 1 64 v.toNat (lineAddress a.line))) ∧
      (a.kind = .testLineWrite d → ∀ q j v n x w, findReq s a.id = some q → q.job = .testLine j v n x →
        windowOfKind s .partTx = some w →
        (∀ u ∈ s.path.reqs, u.id ≠ a.id → ∀ v' n' x', u.job ≠ .testLine j v' n' x') →
        ∃ u ∈ t.path.reqs, u.line = windowLine w j ∧ u.stage = .forwarded ∧
          u.job = .slotDescriptor j (slotDescriptorLine 2 (64 * n) v.toNat (lineAddress (slotBuffer w j)))) ∧
      (a.kind = .reportWrite d → ∀ r, s.rep.ring = some r → r.releasing = false → ∃ r', t.rep.ring = some r' ∧
        r'.written = r.written + 1 ∧ r'.made = r.made ∧ r'.consumed = r.consumed ∧ r'.timeoutFlag = r.timeoutFlag ∧
        (visibleUnread r = 0 → visibleUnread r' ≠ 0 → r.timeoutFlag = false →
          r'.timer = some (s.now + ms r.timeout))) ∧
      (a.kind = .reportWrite d → ∀ r, s.rep.ring = some r → r.releasing = true →
        (r.written + 1 = r.made → s.rep.snapshotWriting = false → t.rep = { s.rep with ring := none }) ∧
        (r.written + 1 ≠ r.made ∨ s.rep.snapshotWriting = true → ∃ r', t.rep = { s.rep with ring := some r' } ∧
          r'.releasing = true ∧ r'.written = r.written + 1 ∧ r'.made = r.made ∧ r'.consumed = r.consumed ∧
          r'.timeoutFlag = r.timeoutFlag)) ∧
      (a.kind = .reportWrite d → s.rep.ring = none → t.rep = s.rep) ∧
      (∀ i, a.kind = .snapshotWrite i d → i ≠ 63 → t.rep = s.rep) ∧
      (∀ r, a.kind = .snapshotWrite 63 d → s.rep.ring = some r → r.releasing = false →
        s.rep.snapshotRemembered = false → t.rep = { s.rep with
          snapshotsWritten := satInc s.rep.snapshotsWritten, snapshotWriting := false }) ∧
      (∀ r, a.kind = .snapshotWrite 63 d → s.rep.ring = some r → r.releasing = false →
        s.rep.snapshotRemembered = true → t.rep = { s.rep with
          snapshotsWritten := satInc s.rep.snapshotsWritten, snapshotWriting := true, snapshotRemembered := false
          snapshotSequence := s.rep.snapshotSequence + 1 } ∧
        ∀ (w : Window) (c : State), windowOfKind s .report = some w →
          c = { t with rep := { t.rep with snapshotWriting := s.rep.snapshotWriting } } →
          ∀ n < 64, ∃ q ∈ t.path.reqs, q.line = windowLine w (r.size + n) ∧ q.stage = .forwarded ∧
            q.job = .snapshotLine n (snapshotLine c (snapshotFields c) n)) ∧
      (a.kind = .snapshotWrite 63 d → (∀ r, s.rep.ring = some r → r.releasing = true) → t.rep = { s.rep with
        snapshotsWritten := satInc s.rep.snapshotsWritten, snapshotWriting := false, snapshotRemembered := false
        snapshotDropped := if s.rep.snapshotRemembered then satInc s.rep.snapshotDropped else s.rep.snapshotDropped
        ring := t.rep.ring } ∧
        (s.rep.ring = none → t.rep.ring = none) ∧
        ∀ r, s.rep.ring = some r → (r.written = r.made → t.rep.ring = none) ∧
          (r.written ≠ r.made → t.rep.ring = some r)) ∧
      OnlyChanges [.dram, .flips, .integ, .path, .march, .rep] s t

/-- The scrubber writes back a CORRECTED line and passes any other (R117). The copy engine writes what it has read to
the spare page, or zeros for a line whose loss is marked, and abandons the entry where the mark finds no room (R123,
R124); a completed copy advances the pointer, and the entry becomes ACTIVE at 64. Each keeps the lock on its line until
the line's end, the completion of the write-back or of the copy write, or the read that ends it, which releases it and
takes the access that began first to wait on it (R113, R117, R123, R124). In the same event the unit takes its next
line: the scrubber the first from its position on that the fence does not skip, unless it is paused or its allowance is
spent (R117, R118), the copy engine that at the pointer, or the first of the next WAITING entry (R123; both within the
event, the model's choice, log entry 26). An UNCORRECTABLE outcome has its event and its report, before that of an
abandoned entry (R110, R124, R170; log entries 43 and 54), and an entry that becomes ACTIVE has its report (R123; the
reports' sequences, log entry 19). The outcome of either read, of a marked line too, is counted, captured, marked and
taken against its page (R109 to R112, R116; the order of the suspects, log entry 46; the first time in SUSPECT_PAGE
past its 8 bytes, log entry 60); of a marked line an UNCORRECTABLE outcome is counted and does no more. SCRUB_CORRECTED
and SCRUB_LINES count at the end of the line's work, the write-back's completion for a corrected one (log entry 26). -/
def Obligations.ScrubAndCopyAccesses : Prop :=
  (∀ (s : State) (a : Access) (f : LineFlips) (o : EccObs) (q0 : Req), pathLaw s → Completes s a →
    o = lineRead f a s → a.kind = .scrubRead →
    a.live = true → findReq s a.id = some q0 → ∃ t, exec (.scrubReadComplete f) s = .next t ∧ (dramLaw s →
      FlipsKept s t a.memLine f) ∧
      (lineOutcome o = .corrected → t.integ.counters.scrubLines = s.integ.counters.scrubLines ∧
        t.path.locks = s.path.locks ∧ ∃ q ∈ t.path.reqs, q.id = a.id ∧
          q.stage = .writeReady a.memLine (deliveredLine o (dramRead s.dram a.memLine))) ∧
      (lineOutcome o ≠ .corrected → t.integ.counters.scrubLines = satInc s.integ.counters.scrubLines ∧
        (∀ q ∈ t.path.reqs, q.id ≠ a.id) ∧ LockReleased s t a.line ∧
        ScrubGoesOn s t (s.path.reqs.filter fun q => q.id != a.id)) ∧
      OutcomeTaken s t .scrubber a (lineOutcome o) ∧ RemapsKept s t (lineOutcome o) ∧
      t.integ.counters.scrubCorrected = s.integ.counters.scrubCorrected ∧
      (lineOutcome o = .corrected → ScrubKept s t) ∧
      (lineOutcome o = .clean → OnlyChanges [.path, .march, .flips, .integ] s t) ∧
      OnlyChanges [.path, .march, .flips, .integ, .rep, .fault, .freeUses] s t) ∧
  (∀ (s : State) (a : Access) (d : Line), dramLaw s → pathLaw s → Completes s a → a.kind = .scrubWrite d →
    a.live = true → ∃ t, exec .scrubWritebackComplete s = .next t ∧ LineWritten s t a.memLine d ∧
      (∀ q ∈ t.path.reqs, q.id ≠ a.id) ∧ LockReleased s t a.line ∧
      ScrubGoesOn s t (s.path.reqs.filter fun q => q.id != a.id) ∧
      t.integ.counters.scrubLines = satInc s.integ.counters.scrubLines ∧
      t.integ.counters.scrubCorrected = satInc s.integ.counters.scrubCorrected ∧ t.integ.marked = s.integ.marked ∧
      OnlyChanges [.dram, .flips, .path, .march, .integ] s t) ∧
  (∀ (s : State) (a : Access) (f : LineFlips) (o : EccObs) (e : RemapEntry), Completes s a → o = lineRead f a s →
    a.kind = .copyRead → a.live = true →
    copyingEntry s = some e → ∃ t, exec (.copyReadComplete f) s = .next t ∧ (dramLaw s → FlipsKept s t a.memLine f) ∧
      (lineOutcome o ≠ .uncorrectable → ∃ q ∈ t.path.reqs, q.line = 64 * e.spare + e.pointer ∧ q.stage = .forwarded ∧
        q.job = .copyWrite (deliveredLine o (dramRead s.dram a.memLine))) ∧
      (lineOutcome o = .uncorrectable → isMarked s a.line = true ∨ s.integ.marked.length < 64 →
        ∃ q ∈ t.path.reqs, q.line = 64 * e.spare + e.pointer ∧ q.stage = .forwarded ∧ q.job = .copyWrite Line.zero) ∧
      (lineOutcome o = .uncorrectable → isMarked s a.line = false → 64 ≤ s.integ.marked.length →
        (∀ x ∈ t.integ.remaps, x.failed ≠ e.failed) ∧
        t.integ.counters.remapAbandoned = satInc s.integ.counters.remapAbandoned ∧
        (pathLaw s → remapLaw s → LockReleasedUnder t.integ.remaps s t (64 * e.failed + e.pointer) ∧
          CopyGoesOn t (s.integ.remaps.filter fun x => x.failed != e.failed)
            (s.path.reqs.filter fun q => q.id != a.id)) ∧
        ReportAmong s t 2 (timeNow s) 0x0D
          [⟨16, 8, pageAddress e.failed⟩, ⟨24, 8, pageAddress e.spare⟩, ⟨33, 1, e.pointer⟩]) ∧
      OutcomeTaken s t .copyEngine a (lineOutcome o) ∧ ScrubKept s t ∧
      (lineOutcome o ≠ .uncorrectable ∨ isMarked s a.line = true ∨ s.integ.marked.length < 64 →
        t.path.locks = s.path.locks ∧ RemapsKept s t (lineOutcome o)) ∧
      (lineOutcome o = .clean → OnlyChanges [.path, .march, .flips] s t) ∧
      OnlyChanges [.path, .march, .flips, .integ, .rep, .fault, .freeUses] s t) ∧
  ∀ (s : State) (a : Access) (d : Line) (e : RemapEntry), dramLaw s → pathLaw s → remapLaw s → Completes s a →
    a.kind = .copyWrite d → a.live = true → copyingEntry s = some e → ∃ t, exec .copyWriteComplete s = .next t ∧
      LineWritten s t a.memLine d ∧ (∀ q ∈ t.path.reqs, q.id ≠ a.id) ∧
      LockReleasedUnder t.integ.remaps s t (64 * e.failed + e.pointer) ∧
      CopyGoesOn t (s.integ.remaps.map fun x => if x.failed = e.failed then
          { e with pointer := e.pointer + 1, state := if e.pointer = 63 then .active else .copying } else x)
        (s.path.reqs.filter fun q => q.id != a.id) ∧
      (e.pointer < 63 → { e with pointer := e.pointer + 1 } ∈ t.integ.remaps) ∧
      (e.pointer = 63 → { e with pointer := 64, state := .active } ∈ t.integ.remaps ∧ ReportAmong s t 0 (timeNow s) 0x0C
        [⟨16, 8, pageAddress e.failed⟩, ⟨24, 8, pageAddress e.spare⟩, ⟨32, 1, remapSourceCode e.source⟩]) ∧
      t.integ.marked = s.integ.marked ∧ t.integ.counters = s.integ.counters ∧
      OnlyChanges [.dram, .flips, .path, .march, .integ, .rep] s t

/-- A march read is compared, byte by byte, with the background of its element at its line (R132, R133), and leaves the
integrity unit alone. A failing read counts; the first of the session leaves its element, its line and its kind, which
is UNCORRECTABLE, CORRECTED or MISMATCH in that order; its page is listed, or counted as unlisted where 16 are (R134).
The write of the line comes next, and in element 6 the read of the next line. The march's last read ends the session
with the verdict, its progress kept (log entry 47), and on FAIL with the auto-remap flag makes a FILL request for each
page of the failing page list, in list order, of which only the remap table and two counters change, and MEMTEST_DONE
follows the reports of these requests (R137; its sequence, log entry 19). A march write reaches memory, leaves the
marks, and the progress goes to the next line or element (R131, R133). After either completion in RUNNING, with an
empty start drain and no access outstanding, the march makes the one access that its progress names, at its line, a
read, or a write of B in elements 1, 3 and 5 and of ~B in elements 2 and 4; otherwise it makes none (R130, R132, R133,
R135; that it makes it within the event is log entry 26). -/
def Obligations.MarchAccesses : Prop :=
  (∀ (s : State) (a : Access) (f : LineFlips) (o : EccObs) (good last : Prop), Completes s a → o = lineRead f a s →
    a.kind = .marchRead → a.live = true →
    (good ↔ lineOutcome o = .clean ∧ IsBackground s.march.checker (s.march.element = 3 ∨ s.march.element = 5) a.line
      (deliveredLine o (dramRead s.dram a.memLine))) →
    (last ↔ s.march.element = 6 ∧ s.march.index + 1 = 64 * s.march.pageCount) → ∃ t,
      exec (.marchReadComplete f) s = .next t ∧ (dramLaw s → FlipsKept s t a.memLine f) ∧
        t.path.memPort = s.path.memPort.drop 1 ∧
      t.march.reads = satInc s.march.reads ∧
      (good → t.march.failingReads = s.march.failingReads ∧ t.march.failedReads = s.march.failedReads ∧
        t.march.firstFailure = s.march.firstFailure ∧ t.march.failing = s.march.failing ∧
        t.march.unlisted = s.march.unlisted) ∧
      (¬good → t.march.failingReads = satInc s.march.failingReads ∧
        t.march.failedReads = satInc s.march.failedReads ∧
        (pageOf a.line ∈ s.march.failing → t.march.failing = s.march.failing ∧
          t.march.unlisted = s.march.unlisted) ∧
        (pageOf a.line ∉ s.march.failing → s.march.failing.length < 16 →
          t.march.failing = s.march.failing ++ [pageOf a.line] ∧ t.march.unlisted = s.march.unlisted) ∧
        (pageOf a.line ∉ s.march.failing → 16 ≤ s.march.failing.length → t.march.failing = s.march.failing ∧
          t.march.unlisted = satInc s.march.unlisted) ∧
        (∀ x, s.march.firstFailure = some x → t.march.firstFailure = some x) ∧
        (s.march.firstFailure = none → t.march.firstFailure = some ⟨s.march.element, a.line,
          if lineOutcome o = .uncorrectable then .uncorrectable
          else if lineOutcome o = .corrected then .corrected else .mismatch⟩)) ∧
      (a.id ∉ s.march.drain → t.march.drain = s.march.drain) ∧
      (s.march.element ≠ 6 → t.march.writeNext = true ∧ t.march.index = s.march.index) ∧
      (s.march.element = 6 → ¬last → t.march.writeNext = false ∧ t.march.index = s.march.index + 1) ∧
      (¬last → t.march = { s.march with
          reads := t.march.reads, failingReads := t.march.failingReads, failedReads := t.march.failedReads
          firstFailure := t.march.firstFailure, failing := t.march.failing, unlisted := t.march.unlisted
          index := t.march.index, writeNext := t.march.writeNext, drain := t.march.drain } ∧
        OnlyChanges [.path, .march, .flips] s t) ∧
      (last → t.march = { s.march with
          state := .done, causeManual := false, causeLoad := false, outcome := t.march.outcome
          reads := t.march.reads, failingReads := t.march.failingReads, failedReads := t.march.failedReads
          firstFailure := t.march.firstFailure, failing := t.march.failing, unlisted := t.march.unlisted
          passed := t.march.passed, failed := t.march.failed, drain := t.march.drain } ∧
        ReportAmong s t (2 * t.march.failing.length) (timeNow s) 0x0E (memtestDoneBody t.march) ∧
        (t.march.failingReads = 0 → t.march.outcome = some .pass ∧ t.march.passed = satInc s.march.passed ∧
          t.march.failed = s.march.failed ∧ t.fault = s.fault) ∧
        (t.march.failingReads ≠ 0 → t.march.outcome = some .fail ∧ t.march.failed = satInc s.march.failed ∧
          t.march.passed = s.march.passed ∧ t.fault.testFailed.raw = true) ∧
        (s.march.autoRemap = false ∨ t.march.failingReads = 0 → t.integ = s.integ) ∧
        (s.march.autoRemap = true → t.march.failingReads ≠ 0 →
          (∀ page ∈ t.march.failing, remapHas t page = true ∨ poolPage t = none) ∧
          (∃ new, t.integ.remaps.map (·.failed) = s.integ.remaps.map (·.failed) ++ new ∧
            new.Sublist t.march.failing) ∧
          (∀ e ∈ t.integ.remaps, remapHas s e.failed = false → e.source = .fill ∧ e.created = timeNow s) ∧
          t.integ = { s.integ with
            remaps := t.integ.remaps
            counters := { s.integ.counters with
              remapDuplicate := t.integ.counters.remapDuplicate
              remapExhausted := t.integ.counters.remapExhausted } })) ∧
      MarchGoesOn t (s.path.reqs.filter fun q => q.id != a.id) (s.path.memPort.drop 1) ∧
      OnlyChanges [.path, .march, .flips, .integ, .rep, .fault, .freeUses] s t) ∧
  ∀ (s : State) (a : Access) (d : Line) (ends : Prop), dramLaw s → Completes s a → a.kind = .marchWrite d →
    a.live = true →
    (ends ↔ if s.march.element = 4 ∨ s.march.element = 5 then s.march.index = 0
      else s.march.index + 1 = 64 * s.march.pageCount) →
    ∃ t, exec .marchWriteComplete s = .next t ∧ LineWritten s t a.memLine d ∧
      t.path.memPort = s.path.memPort.drop 1 ∧
      (¬ends → t.march.element = s.march.element ∧
        t.march.index = (if s.march.element = 4 ∨ s.march.element = 5 then s.march.index - 1
          else s.march.index + 1) ∧ (t.march.writeNext = true ↔ s.march.element = 1)) ∧
      (ends → t.march.element = s.march.element + 1 ∧ t.march.writeNext = false ∧
        t.march.index = if s.march.element + 1 = 4 ∨ s.march.element + 1 = 5 then 64 * s.march.pageCount - 1
          else 0) ∧
      (a.id ∉ s.march.drain → t.march.drain = s.march.drain) ∧
      t.march = { s.march with
        element := t.march.element, index := t.march.index, writeNext := t.march.writeNext
        drain := t.march.drain } ∧
      MarchGoesOn t (s.path.reqs.filter fun q => q.id != a.id) (s.path.memPort.drop 1) ∧
      OnlyChanges [.dram, .flips, .path, .march] s t

/-! ### Records (R13 to R15, R39 to R42, R49, R58, R86, R99 to R101, R106, R119, R125, R129 to R138, R142, R143, R150,
R152 to R154, R157 to R163, R168, R169) -/

/-- An unmarked write to the control window is counted IGNORED and passes, with no report (R152); a marked record with
a partial mask, and one of an unknown kind or action, are counted and reported, and nothing else of the part changes
(R153, R154, R173). The result carries the report sequence as it stood, which then advances (log entry 19). -/
def Obligations.RefusedRecords : Prop :=
  (∀ (s : State) (id : Nat) (r : LineRequest), Next s .site id r → sight s .site r = .unmarked →
    ∃ t, exec .controlWriteUnmarked s = .next t ∧ t.dec = { s.dec with ignored := satInc s.dec.ignored } ∧
      (maskEmpty (reqMask r) = false → Forwarded t id (.port .site r (windowAt s (reqLine r)) none)) ∧
      OnlyChanges [.dec, .path, .march] s t) ∧
  (∀ (s : State) (id : Nat) (r : LineRequest), pathLaw s → Next s .site id r → sight s .site r = .refused →
    ∃ t, exec .recordPartialOrKind s = .next t ∧ t.rep.sequence = s.rep.sequence + 1 ∧
      (maskFull (reqMask r) = false → t.dec = { s.dec with partialMask := satInc s.dec.partialMask }) ∧
      (maskFull (reqMask r) = true → (field (seen r) 1 1 = 0 ∨ 0x11 < field (seen r) 1 1) ∧
        t.dec = { s.dec with kind := satInc s.dec.kind }) ∧
      (∀ ring, s.rep.ring = some ring → ring.releasing = false → unread ring < ring.size - 1 →
        ResultMade s t ring r (if maskFull (reqMask r) then 2 else 1)) ∧
      OnlyChanges [.dec, .rep, .path] s t) ∧
  ∀ (s : State) (id : Nat) (r : LineRequest) (k a : Nat), RecordNext s id r k a →
    (k = 0x0C ∧ (a = 0 ∨ 4 < a) ∨ k = 0x0D ∧ (a = 0 ∨ 2 < a) ∨ k = 0x10 ∧ (a = 0 ∨ 3 < a)) →
    RefusedRange (.requestClassified .site) s r

/-- A WINDOW record by its checks in order (R99): the index, the kind and the ranges of R93, else RANGE; the number of
windows of its kind, TX_RING's one for each class and shared pages, else CONFLICT; contents that its entry already has,
APPLIED with no change; the table of R100, else BUSY. Applied, it replaces the entry whole, with the six permission
flags of byte 7 (none for SPARE, R94), or undefines it; a replaced PART_TX frees every slot, withdraws its writes and
aborts a loopback session, with its LOOPTEST_DONE (R68, R101, R150). Applied, with or without a change, it counts, and
its RECORD_RESULT of outcome 0 follows every other report of the event, where the ring has room (R154, R156). A refusal
has its counter and its result, and changes nothing else (R154; the reports' sequences, log entry 19). -/
def Obligations.WindowRecord : Prop :=
  ∀ (s : State) (id : Nat) (r : LineRequest) (i base n : Nat) (d : Line) (new : Option Window)
    (ok clash busy : Prop), RecordNext s id r 0x01 i → d = seen r → base = field d 8 8 → n = field d 16 4 →
    (field d 5 1 = 0 → new = none) →
    (∀ k, windowKindOfCode (field d 5 1) = some k → new = some ⟨k, base / 4096, n,
      if k = .txRing ∨ k = .buffer then clsOfCode (field d 6 1) else none,
      if k = .spare then ⟨false, false, false, false, false, false⟩
      else ⟨(getByte d 7).getLsbD 0, (getByte d 7).getLsbD 1, (getByte d 7).getLsbD 2, (getByte d 7).getLsbD 3,
        (getByte d 7).getLsbD 4, (getByte d 7).getLsbD 5⟩⟩) →
    (ok ↔ 1 ≤ i ∧ i ≤ 15 ∧ (field d 5 1 = 0 ∨ ∃ k, windowKindOfCode (field d 5 1) = some k ∧
      base % 4096 = 0 ∧ 1 ≤ n ∧ n ≤ 65536 ∧ base + n * 4096 ≤ 2 ^ 36 ∧ (k = .partTx → 17 ≤ n) ∧
      (k = .status ∨ k = .notice → n = 1) ∧ (k = .spare → n ≤ 32) ∧ (k = .txRing ∨ k = .buffer → field d 6 1 ≤ 4))) →
    (clash ↔ ∃ w, new = some w ∧
      ((∃ j o, j ≠ i ∧ windowEntry s j = some o ∧ o.base < w.base + w.size ∧ w.base < o.base + o.size) ∨
        (∃ j o, j ≠ i ∧ windowEntry s j = some o ∧ o.kind = w.kind ∧ w.kind ≠ .rxRing ∧ w.kind ≠ .buffer ∧
          (w.kind = .txRing → o.cls = w.cls)) ∨
        (w.kind = .rxRing ∧ ∃ j j' o o', j ≠ j' ∧ j ≠ i ∧ j' ≠ i ∧ windowEntry s j = some o ∧
          windowEntry s j' = some o' ∧ o.kind = .rxRing ∧ o'.kind = .rxRing))) →
    (busy ↔ (∃ w, windowEntry s i = some w ∧
        (((w.kind = .txRing ∨ w.kind = .partTx) ∧ ∃ line, windowCovers w line = true ∧
            (inFlight s line = true ∨ ∃ c, listed (clsAt s c) line = true)) ∨
          (w.kind = .spare ∧ s.integ.remaps ≠ []) ∨ (w.kind = .report ∧ s.rep.ring ≠ none) ∨
          fenceMeets s w.base w.size = true)) ∨
      ∃ w, new = some w ∧ fenceMeets s w.base w.size = true) →
    (¬ok → RefusedRange .windowRecord s r) ∧ (ok → clash → RefusedConflict .windowRecord s r) ∧
    (ok → ¬clash → new ≠ windowEntry s i → busy → RefusedBusy .windowRecord s r) ∧
    ∃ t, exec .windowRecord s = .next t ∧
      (ok → ¬clash → new = windowEntry s i → RecordDone s t 0 r ∧ OnlyChanges [.dec, .rep, .path] s t) ∧
      (ok → ¬clash → new ≠ windowEntry s i → ¬busy → RecordDone s t 1 r ∧ windowEntry t i = new ∧
        (∀ j, j ≠ i → windowEntry t j = windowEntry s j) ∧
        ((∀ w, windowEntry s i = some w → w.kind ≠ .partTx) → OnlyChanges [.windows, .dec, .rep, .path] s t) ∧
        (∀ w, windowEntry s i = some w → w.kind = .partTx →
          t.xfer = { s.xfer with slots := Vector.replicate 64 .free, ringPointer := 0 } ∧
          (∀ q ∈ t.path.reqs, stationOf q.job ≠ .partTx) ∧
          (loopActive s.loop = true → SessionAborted s t 0 .window) ∧
          (loopActive s.loop = false → t.loop = s.loop)) ∧
        OnlyChanges [.windows, .dec, .rep, .path, .march, .xfer, .loop] s t)

/-- A PROFILE record replaces its entry, derives E_tx and E_rx again, and steps the epoch once for all that it changes
(R11, R13, R14). In DOWN with cause PROFILE a LOCKED link with both goes to RESTORING, and no other DOWN moves; a link
without one of them goes to DOWN with cause PROFILE, which the other blocks are told (R12, R83, R150). In UP and
DEGRADED a planned profile made invalid is replaced, a changed E_tx is compared with it, and the floor places the link
(R8, R10, R14). A LINK record sets the floor and the lengths, and the floor places a link that carries traffic (R10,
R15). Each is refused with RANGE for a value outside its range, and a PROFILE that would break the ordering with ORDER
(R13, R15), with its counter and its result alone (R154). The changes have their LINK_CHANGE reports, the first that
the record makes (R12; log entries 18 and 19), and those of the other blocks stand behind them (R85, R150; log entry
43); an applied record counts, and its RECORD_RESULT of outcome 0 follows them all, where the ring has room (R154,
R156). -/
def Obligations.LinkRecords : Prop :=
  (∀ (s : State) (id : Nat) (r : LineRequest) (i : Nat) (d : Line) (e : ProfileEntry), RecordNext s id r 0x02 i →
    d = seen r → i ≤ 11 →
    e = (if flagField d 5 then ⟨true, field d 8 4, field d 6 1, field d 12 4, field d 16 4⟩
      else ⟨false, 0, 0, 0, 0⟩) →
    (e.valid = true → 1 ≤ e.capacity ∧ e.capacity ≤ 2000000 ∧ e.txLatency ≤ 1000000 ∧ e.rxLatency ≤ 1000000) →
    ((∀ j, j ≤ 11 → e.valid = true → (profileAt s.link j).valid = true →
        (j < i → (profileAt s.link j).capacity < e.capacity) ∧
        (i < j → e.capacity < (profileAt s.link j).capacity)) →
      ∃ t, exec .profileRecord s = .next t ∧ profileAt t.link i = e ∧
        (∀ j, j ≠ i → profileAt t.link j = profileAt s.link j) ∧
        t.link.etx = (match s.link.kept with
          | some k => effective t.link k.txIndex
          | none => none) ∧
        t.link.erx = (match s.link.kept with
          | some k => effective t.link k.rxIndex
          | none => none) ∧
        (isDown s.link.state = true → s.link.state = .down .profile → keptLocked s.link = true →
          bothPresent t.link = true → RestoreBegun s.now s.link t.link) ∧
        (isDown s.link.state = true →
          s.link.state ≠ .down .profile ∨ keptLocked s.link = false ∨ bothPresent t.link = false →
          t.link.state = s.link.state ∧ t.link.planned = s.link.planned ∧ t.link.restoreTimer = s.link.restoreTimer) ∧
        (isDown s.link.state = false → bothPresent t.link = false → t.link.state = .down .profile ∧ WentDown s t) ∧
        (isDown s.link.state = true ∨ bothPresent t.link = true → NotTold s t) ∧
        (s.link.state = .restoring → bothPresent t.link = true → t.link.state = .restoring ∧
          t.link.restoreTimer = s.link.restoreTimer) ∧
        (∀ p, carriesTraffic s.link.state = true → bothPresent t.link = true → s.link.planned = some p →
          FloorPlaced t.link ∧
          ((profileAt t.link p).valid = true → t.link.etx = s.link.etx → t.link.planned = some p ∧
            t.link.upshiftTimer = s.link.upshiftTimer ∧ t.link.downshifts = s.link.downshifts) ∧
          ∀ x, t.link.etx = some x →
            ((profileAt t.link p).valid = true → t.link.etx ≠ s.link.etx → PlanCompared s.now x p s.link t.link) ∧
            ((profileAt t.link p).valid = false → ∀ q, Replanned s.now x p q s.link t.link)) ∧
        t.link.kept = s.link.kept ∧ t.link.floor = s.link.floor ∧ t.link.statusTimer = s.link.statusTimer ∧
        t.time = { s.time with
          epoch := if t.link.etx ≠ s.link.etx ∨ t.link.erx ≠ s.link.erx ∨ isDown t.link.state ≠ isDown s.link.state ∨
              e.valid ≠ (profileAt s.link i).valid ∨ e.txLatency ≠ (profileAt s.link i).txLatency ∨
              e.rxLatency ≠ (profileAt s.link i).rxLatency
            then s.time.epoch + 1 else s.time.epoch
          freq := t.time.freq } ∧
        LinkReported s t ∧ RecordDone s t 7 r ∧
        OnlyChanges [.link, .time, .xfer, .loop, .path, .rep, .fault, .freeUses, .dec] s t) ∧
    (∀ j, j ≤ 11 → e.valid = true → (profileAt s.link j).valid = true →
      (j < i ∧ e.capacity ≤ (profileAt s.link j).capacity ∨ i < j ∧ (profileAt s.link j).capacity ≤ e.capacity) →
      RefusedOrder .profileRecord s r)) ∧
  (∀ (s : State) (id : Nat) (r : LineRequest) (i : Nat) (d : Line), RecordNext s id r 0x05 i → d = seen r → i ≤ 11 →
    1 ≤ field d 6 2 → field d 6 2 ≤ 1000 → field d 8 2 ≤ 60000 → field d 10 2 ≤ 60000 →
    ∃ t, exec .linkRecord s = .next t ∧
      t.link = { s.link with
        floor := i, statusTimeout := field d 6 2, restoreHold := field d 8 2, upshiftHold := field d 10 2
        state := t.link.state } ∧
      (carriesTraffic s.link.state = false → t.link.state = s.link.state) ∧
      (carriesTraffic s.link.state = true → t.link.state = (match s.link.planned with
        | some p => if p < i then .degraded else .up
        | none => .up)) ∧
      LinkReported s t ∧ RecordDone s t 3 r ∧ OnlyChanges [.link, .path, .rep, .fault, .freeUses, .dec] s t) ∧
  ∀ (s : State) (id : Nat) (r : LineRequest) (i : Nat) (d : Line) (c : Instr), d = seen r →
    (RecordNext s id r 0x02 i ∧ c = .profileRecord ∧ (11 < i ∨ (flagField d 5 = true ∧
        (field d 8 4 = 0 ∨ 2000000 < field d 8 4 ∨ 1000000 < field d 12 4 ∨ 1000000 < field d 16 4)))) ∨
      (RecordNext s id r 0x05 i ∧ c = .linkRecord ∧
        (11 < i ∨ field d 6 2 = 0 ∨ 1000 < field d 6 2 ∨ 60000 < field d 8 2 ∨ 60000 < field d 10 2)) →
    RefusedRange c s r

/-- A CLASS record sets its class's parameters, cuts the credit to the burst, sets the age timer and evaluates the
class (R34, R39, R40), or is refused with RANGE for a value outside the ranges of R17 or a low mark not below the high
mark, and with CONFLICT where the shares exceed 1,000. An ADMIT record enables and disables classes (R41, R42), or is
refused with RANGE for an unknown action or a timeout above 1,000 ms, and with BUSY where a class it enables meets the
fence; disabling empties the credit and the list and evaluates the class, and class S takes a loopback session with it,
whose LOOPTEST_DONE follows the class's own reports (R150; log entry 43). A change of congestion makes the class's
notice and sets the CONGESTION condition (R35, R36; log entry 51). An applied record counts, and its RECORD_RESULT of
outcome 0 follows every other report of the event, where the ring has room (R154, R156). A refusal has its counter and
its result, and changes nothing else (R154; the sequences of reports and notices, log entry 19). -/
def Obligations.AdmissionRecords : Prop :=
  (∀ (s : State) (id : Nat) (r : LineRequest) (a : Nat) (d : Line) (c : Cls) (share : Cls → Nat) (recovery : Nat),
    RecordNext s id r 0x03 a → d = seen r → clsOfCode a = some c → field d 8 2 ≤ 1000 →
    (c = .s → field d 10 2 ≤ 1000) → 1 ≤ field d 12 2 → 1 ≤ field d 14 2 → field d 16 2 < field d 14 2 →
    1 ≤ field d 18 2 → field d 18 2 ≤ 10000 →
    (∀ x, share x = if x = c then field d 8 2 else (clsAt s x).share) →
    recovery = (if c = .s then field d 10 2 else (clsAt s .s).recoveryShare) →
    (sumClasses share ≤ 1000 → sumClasses (fun x => if x = .s then recovery else share x) ≤ 1000 →
      ∃ t, exec .classRecord s = .next t ∧ (clsAt t c).share = field d 8 2 ∧ (clsAt t c).weight = field d 6 1 ∧
        (clsAt t c).burst = field d 12 2 ∧ (clsAt t c).highMark = field d 14 2 ∧ (clsAt t c).lowMark = field d 16 2 ∧
        (clsAt t c).maxHoldAge = field d 18 2 ∧ (c = .s → (clsAt t c).recoveryShare = field d 10 2) ∧
        (c ≠ .s → (clsAt t c).needsTiming = flagField d 5) ∧
        (clsAt t c).credit = min (clsAt s c).credit (field d 12 2 * 1000) ∧
        (clsAt t c).enabled = (clsAt s c).enabled ∧ (clsAt t c).held = (clsAt s c).held ∧
        (clsAt t c).counters = (clsAt s c).counters ∧
        AgeTimerSet (clsAt t c) s.now ∧ CongestionSettled s t (fun x => x = c) (fun x => (clsAt t x).credit) ∧
        (∀ x, x ≠ c → clsAt t x = clsAt s x) ∧ t.adm.flight = s.adm.flight ∧ RecordDone s t 1 r ∧
        OnlyChanges [.adm, .path, .march, .rep, .fault, .dec] s t) ∧
    (1000 < sumClasses share ∨ 1000 < sumClasses (fun x => if x = .s then recovery else share x) →
      RefusedConflict .classRecord s r)) ∧
  (∀ (s : State) (id : Nat) (r : LineRequest) (a : Nat) (d : Line), RecordNext s id r 0x03 a → d = seen r →
    4 < a ∨ 1000 < field d 8 2 ∨ (a = 0 ∧ 1000 < field d 10 2) ∨ field d 12 2 = 0 ∨ field d 14 2 = 0 ∨
      field d 14 2 ≤ field d 16 2 ∨ field d 18 2 = 0 ∨ 10000 < field d 18 2 → RefusedRange .classRecord s r) ∧
  ∀ (s : State) (id : Nat) (r : LineRequest) (a : Nat) (d : Line) (action : Cls → Nat), RecordNext s id r 0x04 a →
    d = seen r → (∀ c, action c = field d (4 + clsCode c) 1) →
    ((∃ c, 2 < action c) ∨ 1000 < field d 10 2 → RefusedRange .admitRecord s r) ∧
    ((∀ c, action c ≤ 2) → field d 10 2 ≤ 1000 → (∀ c, action c = 1 → (clsAt s c).enabled = true ∨ classFenced s c = false) →
      ∃ t, exec .admitRecord s = .next t ∧
        (∀ c, action c = 0 → (clsAt t c).enabled = (clsAt s c).enabled ∧ (clsAt t c).credit = (clsAt s c).credit ∧
          (clsAt t c).held = (clsAt s c).held) ∧
        (∀ c, action c = 1 → (clsAt t c).enabled = true ∧ (clsAt t c).held = (clsAt s c).held ∧
          (clsAt t c).credit = if (clsAt s c).enabled then (clsAt s c).credit else 0) ∧
        (∀ c, action c = 2 → (clsAt s c).enabled = true → (clsAt t c).enabled = false ∧ (clsAt t c).credit = 0 ∧
          (clsAt t c).held = []) ∧
        (∀ c, action c = 2 → (clsAt s c).enabled = false → (clsAt t c).enabled = false) ∧
        (∀ c, (clsAt t c).counters = (clsAt s c).counters) ∧ t.adm.flight = s.adm.flight ∧
        t.adm.flightTimeout = (if field d 10 2 = 0 then s.adm.flightTimeout else field d 10 2) ∧
        AgeTimersFollow s t ∧ CongestionSettled s t (fun c => action c = 2 ∧ (clsAt s c).enabled = true)
          (fun c => (clsAt t c).credit) ∧
        (action .s = 2 → (clsAt s .s).enabled = true → loopActive s.loop = true → SessionAborted s t 1 .cls) ∧
        (action .s ≠ 2 ∨ (clsAt s .s).enabled = false ∨ loopActive s.loop = false → t.loop = s.loop) ∧
        RecordDone s t 6 r ∧
        OnlyChanges [.adm, .loop, .path, .march, .rep, .fault, .dec] s t) ∧
    ((∀ c, action c ≤ 2) → field d 10 2 ≤ 1000 → ∀ c, action c = 1 → (clsAt s c).enabled = false →
      classFenced s c = true → RefusedBusy .admitRecord s r)

/-- A TIMING record replaces the engine's parameters, or is refused with RANGE for a value outside the ranges of R86
(R86, R87). A TIMESET record sets the counter, steps the epoch, empties the block and makes its TIME_STEP report (R49,
R50), or is refused with RANGE for the nanoseconds and with BUSY in a qualified state. A SYNTH record disables the
synthesizer, or enables one that is OFF, which locks for 2 ms (R57, R58); settings outside the ranges and frequencies
of R57 are refused with RANGE, and new settings for one that runs with BUSY. An applied record counts, and its
RECORD_RESULT of outcome 0 follows TIME_STEP, where the ring has room (R154, R156). A refusal has its counter and its
result, and changes nothing else (R154; the reports' sequences, log entry 19). -/
def Obligations.TimeRecords : Prop :=
  (∀ (s : State) (id : Nat) (r : LineRequest) (a : Nat) (d : Line), RecordNext s id r 0x06 a → d = seen r →
    1 ≤ field d 5 1 → field d 5 1 ≤ 64 → 100 ≤ field d 10 2 → field d 10 2 ≤ 5000 →
    -1000000 ≤ signedField d 12 4 → signedField d 12 4 ≤ 1000000 → 1 ≤ field d 16 4 → field d 16 4 ≤ 100000000 →
    1000 ≤ field d 20 4 → field d 20 4 ≤ 100000000 → 1 ≤ field d 24 4 → field d 24 4 ≤ field d 20 4 →
    1 ≤ field d 8 1 → field d 8 1 ≤ 16 → 1 ≤ field d 9 1 → field d 9 1 ≤ 60 → 1 ≤ field d 28 2 →
    field d 28 2 ≤ 10000 → 1000 ≤ field d 30 4 → field d 30 4 ≤ 100000000 →
    ∃ t, exec .timingRecord s = .next t ∧ t.xfer = { s.xfer with
        params := ⟨a, field d 5 1, field d 10 2, signedField d 12 4, field d 16 4, field d 6 1, field d 7 1,
          field d 20 4, field d 24 4, field d 8 1, field d 9 1, field d 28 2, field d 30 4⟩ } ∧
      RecordDone s t 0 r ∧ OnlyChanges [.xfer, .rep, .path, .dec] s t) ∧
  (∀ (s : State) (id : Nat) (r : LineRequest) (a : Nat) (d : Line), RecordNext s id r 0x06 a → d = seen r →
    field d 5 1 = 0 ∨ 64 < field d 5 1 ∨ field d 10 2 < 100 ∨ 5000 < field d 10 2 ∨ signedField d 12 4 < -1000000 ∨
      1000000 < signedField d 12 4 ∨ field d 16 4 = 0 ∨ 100000000 < field d 16 4 ∨ field d 20 4 < 1000 ∨
      100000000 < field d 20 4 ∨ field d 24 4 = 0 ∨ 100000000 < field d 24 4 ∨ field d 20 4 < field d 24 4 ∨
      field d 8 1 = 0 ∨ 16 < field d 8 1 ∨ field d 9 1 = 0 ∨ 60 < field d 9 1 ∨ field d 28 2 = 0 ∨
      10000 < field d 28 2 ∨ field d 30 4 < 1000 ∨ 100000000 < field d 30 4 → RefusedRange .timingRecord s r) ∧
  (∀ (s : State) (id : Nat) (r : LineRequest) (a : Nat) (d : Line), RecordNext s id r 0x07 a → d = seen r →
    (999999999 < field d 16 4 → RefusedRange .timesetRecord s r) ∧
    (field d 16 4 ≤ 999999999 → qualifiedState s.xfer.state = true → RefusedBusy .timesetRecord s r) ∧
    (field d 16 4 ≤ 999999999 → qualifiedState s.xfer.state = false → ∃ t, exec .timesetRecord s = .next t ∧
      t.time = { s.time with
        seconds := field d 8 6, nanoseconds := field d 16 4, fraction := 0, epoch := s.time.epoch + 1
        timesets := satInc s.time.timesets } ∧
      t.xfer = { s.xfer with block := [] } ∧
      ReportAmong s t 0 (timeNow t) 0x06 ([⟨16, 1, 1⟩, ⟨17, 1, 0⟩, ⟨18, 2, t.time.epoch.toNat⟩, ⟨20, 4, 0⟩] ++
        stampFields 24 32 (timeNow s) ++ stampFields 40 48 (timeNow t)) ∧
      RecordDone s t 1 r ∧ OnlyChanges [.time, .xfer, .rep, .path, .dec] s t)) ∧
  ∀ (s : State) (id : Nat) (r : LineRequest) (a n m p : Nat) (d : Line), RecordNext s id r 0x08 a → d = seen r →
    n = field d 5 1 → m = field d 6 1 → p = field d 7 1 →
    (n = 0 ∨ 16 < n ∨ m < 8 ∨ 255 < m ∨ p = 0 ∨ 64 < p ∨ 40 < 2 * n ∨ 20 * n < 40 ∨ 40 * m < 600 * n ∨
      1200 * n < 40 * m → RefusedRange .synthRecord s r) ∧
    (1 ≤ n → n ≤ 16 → 8 ≤ m → m ≤ 255 → 1 ≤ p → p ≤ 64 → 2 * n ≤ 40 → 40 ≤ 20 * n → 600 * n ≤ 40 * m →
      40 * m ≤ 1200 * n →
    (flagField d 4 = false → ∃ t, exec .synthRecord s = .next t ∧
      t.time = { s.time with synth := ⟨n, m, p, false, .off, none⟩ } ∧ RecordDone s t 0 r ∧
      OnlyChanges [.time, .rep, .path, .dec] s t) ∧
    (flagField d 4 = true → s.time.synth.state = .off → ∃ t, exec .synthRecord s = .next t ∧
      t.time = { s.time with synth := ⟨n, m, p, true, .locking, some (s.oscillator + 80000)⟩ } ∧ RecordDone s t 0 r ∧
      OnlyChanges [.time, .rep, .path, .dec] s t) ∧
    (flagField d 4 = true → s.time.synth.state ≠ .off → n = s.time.synth.n → m = s.time.synth.m → p = s.time.synth.p →
      ∃ t, exec .synthRecord s = .next t ∧ RecordDone s t 0 r ∧ OnlyChanges [.rep, .path, .dec] s t) ∧
    (flagField d 4 = true → s.time.synth.state ≠ .off → (n ≠ s.time.synth.n ∨ m ≠ s.time.synth.m ∨ p ≠ s.time.synth.p) →
      RefusedBusy .synthRecord s r))

/-- A PORTS record sets the weights and the marks, and LOAD_HIGH is evaluated against them at once, of which the march
session is told (R105, R106, R107, R135). A SCRUB record sets the range, the rate, the threshold and automatic
remapping, and a moved range starts over (R119). Each is refused with RANGE for a value outside its range. A REMAP
record makes an entry with the pool's lowest page and its REMAP_QUEUED report, and counts a duplicate; it is refused
with RANGE for an address that is not a page's, with CONFLICT for a page of SPARE, and with CONFLICT, an event, a
report and a counter where the pool is empty (R121, R125, R170). An applied record counts, and its RECORD_RESULT of
outcome 0 follows every other report of the event, where the ring has room; a refusal has its counter and its result,
that for an empty pool behind REMAP_EXHAUSTED and FAULT_CHANGE (R154, R156; the reports' sequences and the fault line's
level in FAULT_CHANGE, log entries 19 and 54). -/
def Obligations.MemoryRecords : Prop :=
  (∀ (s : State) (id : Nat) (r : LineRequest) (a : Nat) (d : Line), RecordNext s id r 0x09 a → d = seen r →
    1 ≤ a → a ≤ 15 → 1 ≤ field d 5 1 → field d 5 1 ≤ 15 → 1 ≤ field d 6 1 → field d 6 1 ≤ 15 → 1 ≤ field d 7 1 →
    field d 7 1 ≤ 15 → field d 8 1 < field d 9 1 → field d 9 1 ≤ 48 → ∃ t, exec .portsRecord s = .next t ∧
      t.path.weights = ⟨a, field d 5 1, field d 6 1, field d 7 1⟩ ∧ t.path.lowMark = field d 8 1 ∧
      t.path.highMark = field d 9 1 ∧
      (s.path.loadHigh = true → t.path.loadHigh = !decide (portLoad s ≤ field d 8 1)) ∧
      (s.path.loadHigh = false → t.path.loadHigh = decide (field d 9 1 ≤ portLoad s)) ∧ LoadTold s t ∧
      RecordDone s t 0 r ∧ OnlyChanges [.path, .march, .integ, .rep, .dec] s t) ∧
  (∀ (s : State) (id : Nat) (r : LineRequest) (a : Nat) (d : Line), RecordNext s id r 0x09 a → d = seen r →
    a = 0 ∨ 15 < a ∨ field d 5 1 = 0 ∨ 15 < field d 5 1 ∨ field d 6 1 = 0 ∨ 15 < field d 6 1 ∨ field d 7 1 = 0 ∨
      15 < field d 7 1 ∨ field d 9 1 ≤ field d 8 1 ∨ 48 < field d 9 1 → RefusedRange .portsRecord s r) ∧
  (∀ (s : State) (id : Nat) (r : LineRequest) (a : Nat) (d : Line), RecordNext s id r 0x0A a → d = seen r →
    a ≤ 64 → 1 ≤ field d 6 1 → field d 8 8 % 64 = 0 → field d 16 8 % 64 = 0 → field d 16 8 < 2 ^ 36 →
    field d 8 8 ≤ field d 16 8 → ∃ t, exec .scrubRecord s = .next t ∧
      t.integ = { s.integ with
        autoRemap := flagField d 5, suspectThreshold := field d 6 1, scrubber := t.integ.scrubber } ∧
      t.integ.scrubber.rate = a ∧ t.integ.scrubber.startLine = field d 8 8 / 64 ∧
      t.integ.scrubber.endLine = field d 16 8 / 64 ∧ t.integ.scrubber.timer = s.integ.scrubber.timer ∧
      t.integ.scrubber.allowance = s.integ.scrubber.allowance ∧
      (s.integ.scrubber.startLine ≠ field d 8 8 / 64 ∨ s.integ.scrubber.endLine ≠ field d 16 8 / 64 →
        t.integ.scrubber.position = field d 8 8 / 64 ∧ t.integ.scrubber.passCount = 0) ∧
      (s.integ.scrubber.startLine = field d 8 8 / 64 → s.integ.scrubber.endLine = field d 16 8 / 64 →
        t.integ.scrubber.position = s.integ.scrubber.position ∧
        t.integ.scrubber.passCount = s.integ.scrubber.passCount) ∧
      RecordDone s t 0 r ∧ OnlyChanges [.integ, .rep, .path, .dec] s t) ∧
  (∀ (s : State) (id : Nat) (r : LineRequest) (a : Nat) (d : Line), RecordNext s id r 0x0A a → d = seen r →
    64 < a ∨ field d 6 1 = 0 ∨ field d 8 8 % 64 ≠ 0 ∨ field d 16 8 % 64 ≠ 0 ∨ 2 ^ 36 ≤ field d 8 8 ∨
      2 ^ 36 ≤ field d 16 8 ∨ field d 16 8 < field d 8 8 → RefusedRange .scrubRecord s r) ∧
  (∀ (s : State) (id : Nat) (r : LineRequest) (a : Nat) (d : Line), RecordNext s id r 0x0B a → d = seen r →
    (field d 8 8 % 4096 ≠ 0 ∨ 2 ^ 36 ≤ field d 8 8 → RefusedRange .remapRecord s r) ∧
    ∀ page, field d 8 8 = 4096 * page → field d 8 8 < 2 ^ 36 → inSpare s page = true → RefusedConflict .remapRecord s r) ∧
  ∀ (s : State) (id : Nat) (r : LineRequest) (a : Nat) (d : Line) (page : Nat), RecordNext s id r 0x0B a → d = seen r →
    field d 8 8 = 4096 * page → field d 8 8 < 2 ^ 36 → inSpare s page = false →
    (remapHas s page = true → ∃ t, exec .remapRecord s = .next t ∧ t.integ = { s.integ with
      counters := { s.integ.counters with remapDuplicate := satInc s.integ.counters.remapDuplicate } } ∧
      RecordDone s t 0 r ∧ OnlyChanges [.integ, .rep, .path, .dec] s t) ∧
    (∀ p, remapHas s page = false → poolPage s = some p → ∃ t e, exec .remapRecord s = .next t ∧
      e ∈ t.integ.remaps ∧ e.failed = page ∧ e.spare = p ∧ e.source = .copy ∧ e.pointer = 0 ∧ e.state ≠ .active ∧
      e.created = timeNow s ∧ t.integ.remaps.map (·.failed) = s.integ.remaps.map (·.failed) ++ [page] ∧
      t.integ.counters = s.integ.counters ∧ ReportAmong s t 0 (timeNow s) 0x0A
        [⟨16, 8, pageAddress page⟩, ⟨24, 8, pageAddress p⟩, ⟨32, 1, 0⟩] ∧
      RecordDone s t 1 r ∧ OnlyChanges [.integ, .rep, .path, .dec] s t) ∧
    (remapHas s page = false → poolPage s = none → ∃ t, exec .remapRecord s = .next t ∧
      t.integ = { s.integ with
        counters := { s.integ.counters with remapExhausted := satInc s.integ.counters.remapExhausted } } ∧
      t.fault.remapExhausted.raw = true ∧ FaultReported s t 1 .remapExhausted 3 ∧
      ReportAmong s t 1 (timeNow s) 0x0B [⟨16, 8, pageAddress page⟩, ⟨32, 1, 0⟩] ∧
      t.dec = { s.dec with conflict := satInc s.dec.conflict } ∧ ResultLast s t 2 r 4 ∧
      OnlyChanges [.integ, .rep, .path, .fault, .freeUses, .dec] s t)

/-- MEMTEST START begins a session at the march's first write, suspended where LOAD_HIGH is set, behind the requests of
its region that are past classification and the accesses still at the memory port (R129, R130, log entry 27); SUSPEND
and RESUME work on the MANUAL cause (R136). After these three the march makes the access that its progress names where
it is RUNNING with an empty start drain and has none outstanding, and none otherwise (R130, R135; log entry 26). STOP
aborts the session, whose progress stays as it was (log entry 47), and withdraws its request (R138). LOOPTEST START
begins a session with the next identifier, an empty list, and every count and round-trip figure of the session at 0
(R142, R143); STOP aborts it (R150). Those that need a session are refused with CONFLICT where none is active. A
MEMTEST START is refused with RANGE, BUSY or CONFLICT by R129, a LOOPTEST START with RANGE, BUSY, or CONFLICT without
TEST_RX, PART_TX or class S (R142). The two STOPs make MEMTEST_DONE and LOOPTEST_DONE (R138, R150). An applied record
counts, and its RECORD_RESULT of outcome 0 follows them, where the ring has room (R154, R156). A refusal has its
counter and its result, and changes nothing else (R154; the reports' sequences, log entry 19). -/
def Obligations.TestRecords : Prop :=
  (∀ (s : State) (id : Nat) (r : LineRequest) (d : Line) (first n : Nat), RecordNext s id r 0x0C 1 → d = seen r →
    n = field d 16 2 →
    (field d 8 8 % 4096 ≠ 0 ∨ n = 0 ∨ 4096 < n ∨ 2 ^ 36 < field d 8 8 + n * 4096 ∨ 1 < field d 5 1 →
      RefusedRange .memtestStart s r) ∧
    (field d 8 8 = 4096 * first → 1 ≤ n → n ≤ 4096 → field d 8 8 + n * 4096 ≤ 2 ^ 36 →
    field d 5 1 ≤ 1 →
    (marchActive s.march = false → regionForbidden s first n = false → ∃ t, exec .memtestStart s = .next t ∧
      t.march = { s.march with
        state := if s.path.loadHigh then .suspended else .running
        startPage := first, pageCount := n, checker := field d 5 1 == 1, autoRemap := flagField d 6
        causeManual := false, causeLoad := s.path.loadHigh, element := 1, index := 0, writeNext := true
        failing := [], failingReads := 0, unlisted := 0, firstFailure := none, outcome := none
        drain := t.march.drain, started := satInc s.march.started } ∧
      t.march.drain = (s.path.reqs.filter (inDrain t.march)).map (·.id) ++
        (s.path.memPort.filter fun x => !x.live && inRegion t.march x.line && isDrainAccess x.kind).map (·.id) ∧
      (pathLaw s → MarchGoesOn t s.path.reqs s.path.memPort) ∧ RecordDone s t 0 r ∧ OnlyChanges [.march, .path, .rep, .dec] s t) ∧
    (marchActive s.march = true → RefusedBusy .memtestStart s r) ∧
    (marchActive s.march = false → regionForbidden s first n = true → RefusedConflict .memtestStart s r))) ∧
  (∀ (s : State) (id : Nat) (r : LineRequest) (a : Nat) (c : Instr), RecordNext s id r 0x0C a →
    recordRow 0x0C a = some c → c ≠ .memtestStart →
    (marchActive s.march = false → RefusedConflict c s r) ∧
    (marchActive s.march = true → c = .memtestSuspend → ∃ t, exec c s = .next t ∧
      t.march = { s.march with state := .suspended, causeManual := true } ∧
      (pathLaw s → MarchGoesOn t s.path.reqs s.path.memPort) ∧ RecordDone s t 0 r ∧
      OnlyChanges [.march, .path, .rep, .dec] s t) ∧
    (marchActive s.march = true → c = .memtestResume → ∃ t, exec c s = .next t ∧
      t.march = { s.march with
        state := if s.march.causeLoad then .suspended else .running, causeManual := false } ∧
      (pathLaw s → MarchGoesOn t s.path.reqs s.path.memPort) ∧ RecordDone s t 0 r ∧
      OnlyChanges [.march, .path, .rep, .dec] s t) ∧
    (marchActive s.march = true → c = .memtestStop → ∃ t, exec c s = .next t ∧
      t.march = { s.march with
        state := .aborted, causeManual := false, causeLoad := false, drain := [], outcome := some .aborted
        abortedCount := satInc s.march.abortedCount } ∧
      (∀ q ∈ t.path.reqs, stationOf q.job ≠ .march) ∧
      (∀ x ∈ t.path.memPort, (x.kind = .marchRead ∨ ∃ y, x.kind = .marchWrite y) → x.live = false) ∧
      ReportAmong s t 0 (timeNow s) 0x0E (memtestDoneBody t.march) ∧
      RecordDone s t 1 r ∧ OnlyChanges [.march, .path, .rep, .dec] s t)) ∧
  (∀ (s : State) (id : Nat) (r : LineRequest) (d : Line), RecordNext s id r 0x0D 1 → d = seen r →
    (field d 8 2 = 0 ∨ field d 5 1 = 0 ∨ 16 < field d 5 1 ∨ field d 10 2 = 0 ∨ 10000 < field d 10 2 ∨
      field d 12 2 = 0 ∨ 5000 < field d 12 2 ∨ 1048560 < field d 16 4 → RefusedRange .looptestStart s r) ∧
    (1 ≤ field d 8 2 → 1 ≤ field d 5 1 → field d 5 1 ≤ 16 → 1 ≤ field d 10 2 → field d 10 2 ≤ 10000 → 1 ≤ field d 12 2 →
    field d 12 2 ≤ 5000 → field d 16 4 ≤ 1048560 →
    (loopActive s.loop = false → s.link.state = .up → windowOfKind s .testRx ≠ none → windowOfKind s .partTx ≠ none →
      (clsAt s .s).enabled = true → ∃ t, exec .looptestStart s = .next t ∧
      t.loop = { s.loop with
        state := .running, outcome := none, cause := none
        params := ⟨field d 8 2, field d 5 1, field d 10 2, field d 6 1, getByte d 7, field d 12 2, field d 14 2,
          field d 16 4⟩
        identifier := s.loop.lastIdentifier + 1, lastIdentifier := s.loop.lastIdentifier + 1
        nextSeq := 0, outstanding := [], counts := ⟨0, 0, 0, 0, 0, 0, 0, 0, 0, 0, 0, 0, 0⟩, trips := ⟨0, 0, 0, 0, 0⟩
        sendTimer := some (s.now + field d 10 2 * 4000), started := satInc s.loop.started } ∧
      RecordDone s t 0 r ∧ OnlyChanges [.loop, .rep, .path, .dec] s t) ∧
    (loopActive s.loop = true ∨ s.link.state ≠ .up → RefusedBusy .looptestStart s r) ∧
    (loopActive s.loop = false → s.link.state = .up →
      windowOfKind s .testRx = none ∨ windowOfKind s .partTx = none ∨ (clsAt s .s).enabled = false →
      RefusedConflict .looptestStart s r))) ∧
  ∀ (s : State) (id : Nat) (r : LineRequest), RecordNext s id r 0x0D 2 →
    (loopActive s.loop = true → ∃ t, exec .looptestStop s = .next t ∧
      SessionAborted s t 0 .stop ∧ RecordDone s t 1 r ∧ OnlyChanges [.loop, .rep, .path, .dec] s t) ∧
    (loopActive s.loop = false → RefusedConflict .looptestStop s r)

/-- A FAULT record gives each selected condition its mode and retry length: the latch keeps its flag from LATCH to
LATCH, takes the raw flag of a level condition on entry to LATCH, and is clear in every other mode (R169). A CLEAR
record zeroes every counter of the groups it selects and clears the selected latches, which a present level condition
sets again (R163, R168). The fault line follows, and each condition whose flags change has its FAULT_CHANGE report
(R170; its sequence and the fault line's level, log entries 19 and 54; the mode and the retry length that it shows are
those after the record, the model's choice, log entry 59). An applied record counts, and its RECORD_RESULT of outcome 0
follows these reports, where the ring has room (R154, R156). A FAULT record is refused with RANGE for a condition, mode
or retry code that does not exist, and a CLEAR record for a group or condition that does not, with its counter and its
result alone (R154). -/
def Obligations.FaultRecords : Prop :=
  (∀ (s : State) (id : Nat) (r : LineRequest) (a : Nat) (d : Line) (mode : Cond → FaultMode),
    RecordNext s id r 0x0E a → d = seen r → field d 4 2 < 512 →
    (∀ c, (field d 4 2).testBit (condIndex c) = true →
      faultModeOfCode (field d (8 + condIndex c) 1 % 16) = some (mode c) ∧ field d (8 + condIndex c) 1 / 16 ≤ 1) →
    ∃ t, exec .faultRecord s = .next t ∧
      (∀ c, (field d 4 2).testBit (condIndex c) = true → condGet t.fault c = { condGet s.fault c with
        mode := mode c
        longRetry := field d (8 + condIndex c) 1 / 16 == 1
        latched := if mode c ≠ .latch then false
          else if (condGet s.fault c).mode = .latch then (condGet s.fault c).latched
          else condIsLevel c && (condGet s.fault c).raw }) ∧
      (∀ c, (field d 4 2).testBit (condIndex c) = false → condGet t.fault c = condGet s.fault c) ∧
      t.fault.line = faultLevel t.fault ∧
      t.fault.assertions = (if s.fault.line = false ∧ t.fault.line = true then satInc s.fault.assertions
        else s.fault.assertions) ∧
      (∀ c, FaultReported s t 8 c 6) ∧ RecordDone s t 9 r ∧ OnlyChanges [.fault, .rep, .path, .dec] s t) ∧
  (∀ (s : State) (id : Nat) (r : LineRequest) (a : Nat) (d : Line), RecordNext s id r 0x0E a → d = seen r →
    512 ≤ field d 4 2 ∨ (∃ c, (field d 4 2).testBit (condIndex c) = true ∧
      (3 < field d (8 + condIndex c) 1 % 16 ∨ 1 < field d (8 + condIndex c) 1 / 16)) → RefusedRange .faultRecord s r) ∧
  (∀ (s : State) (id : Nat) (r : LineRequest) (a : Nat) (d : Line), RecordNext s id r 0x0F a → d = seen r →
    32 ≤ a ∨ 512 ≤ field d 6 2 → RefusedRange .clearRecord s r) ∧
  ∀ (s : State) (id : Nat) (r : LineRequest) (a : Nat) (d : Line), RecordNext s id r 0x0F a → d = seen r → a < 32 →
    field d 6 2 < 512 → ∃ t, exec .clearRecord s = .next t ∧
      (a.testBit 0 = false → t.integ = s.integ) ∧
      (a.testBit 0 = true → t.integ = { s.integ with
        counters := ⟨0, 0, 0, 0, 0, 0, 0, 0, 0, 0, 0⟩, lastCorrected := none, firstUncorrectable := none }) ∧
      (a.testBit 1 = true → (∀ p, portGet t.path.ports p = ⟨0, 0, 0, 0, 0⟩) ∧ t.path.grants = ⟨0, 0, 0, 0⟩ ∧
        t.path.loadHighEntries = 0) ∧
      (a.testBit 1 = false → t.path.ports = s.path.ports ∧ t.path.grants = s.path.grants ∧
        t.path.loadHighEntries = s.path.loadHighEntries) ∧
      (a.testBit 2 = false → t.adm = s.adm) ∧
      (a.testBit 2 = true →
        (∀ c, clsAt t c = { clsAt s c with counters := ⟨0, 0, 0, 0, 0, 0, 0, 0, 0, 0, 0, 0⟩ }) ∧
        t.adm = { s.adm with
          classes := t.adm.classes, rxClassInvalid := 0, noticeDropped := 0, noticeReplaced := 0
          writebackDropped := 0 }) ∧
      (a.testBit 3 = false → t.xfer = s.xfer) ∧
      (a.testBit 3 = true → t.xfer = { s.xfer with
        counters := ⟨0, 0, 0, 0, 0, 0, 0, 0, 0, 0, 0, 0, 0, 0, 0, 0, 0, 0, 0, 0, 0, 0, 0, 0, 0, 0, 0, 0⟩ }) ∧
      (a.testBit 4 = false → t.march = s.march ∧ t.loop = s.loop) ∧
      (a.testBit 4 = true → t.march = { s.march with
          started := 0, passed := 0, failed := 0, abortedCount := 0, reads := 0, failedReads := 0 } ∧
        t.loop = { s.loop with
          started := 0, passed := 0, failed := 0, abortedCount := 0, strayLines := 0, partialLines := 0, late := 0
          sendOrphan := 0 }) ∧
      (∀ c, condGet t.fault c = { condGet s.fault c with
        latched := if (field d 6 2).testBit (condIndex c) = true ∧ (condGet s.fault c).mode = .latch ∧
            (condGet s.fault c).latched = true then condIsLevel c && (condGet s.fault c).raw
          else (condGet s.fault c).latched }) ∧
      t.fault.line = faultLevel t.fault ∧ (∀ c, FaultReported s t 8 c 5) ∧ RecordDone s t 9 r ∧
      OnlyChanges [.integ, .path, .adm, .xfer, .march, .loop, .fault, .rep, .dec] s t

/-- REPORT CONFIGURE makes an ACTIVE ring whose first entry is the record's own result, and gives one that is ACTIVE
with the same N its trigger and timeout; it is refused with RANGE, BUSY or CONFLICT, in that order (R158). CONSUME
moves C to the position its index names, restarts or stops the report timer and clears the flag, and passes its own
result where it has caught up with M (R157). RELEASE makes its result as the last entry, where the ring has room for
it, and leaves the ring RELEASING, or UNCONFIGURED where nothing is left to be written; it is refused with CONFLICT
where no ring is ACTIVE (R159). Each result names the record's line, kind and tag with outcome 0 (R154; its sequence
and time, log entry 19); one without room in the ring is dropped and counted (R156). -/
def Obligations.ReportRecords : Prop :=
  (∀ (s : State) (id : Nat) (r : LineRequest) (d : Line) (n : Nat) (ok : Prop), pathLaw s →
    RecordNext s id r 0x10 1 → d = seen r → n = field d 6 2 →
    (ok ↔ 16 ≤ n ∧ n ≤ 1024 ∧ 1 ≤ field d 8 2 ∧ field d 8 2 ≤ n - 1 ∧ 1 ≤ field d 10 2 ∧ field d 10 2 ≤ 1000) → ∃ t,
    exec .reportConfigure s = .next t ∧ OnlyChanges [.rep, .path, .dec] s t ∧
      (∀ w, ok → s.rep.ring = none → windowOfKind s .report = some w → n + 64 ≤ 64 * w.size →
        t.rep = { s.rep with
          ring := some ⟨false, n, field d 8 2, field d 10 2, 1, 0, 0, false, none⟩, sequence := s.rep.sequence + 1 } ∧
        ResultMade s t ⟨false, n, field d 8 2, field d 10 2, 0, 0, 0, false, none⟩ r 0 ∧ RecordApplied s t) ∧
      (∀ g, ok → s.rep.ring = some g → g.releasing = false → g.size = n → RecordApplied s t ∧
        (unread g < n - 1 → ResultMade s t g r 0 ∧ t.rep = { s.rep with
          ring := some { g with trigger := field d 8 2, timeout := field d 10 2, made := g.made + 1 }
          sequence := s.rep.sequence + 1 }) ∧
        (n - 1 ≤ unread g → t.rep = { s.rep with
          ring := some { g with trigger := field d 8 2, timeout := field d 10 2 }
          sequence := s.rep.sequence + 1, dropped := satInc s.rep.dropped })) ∧
      (¬ok → RefusedRange .reportConfigure s r) ∧
      (∀ g, ok → s.rep.ring = some g → g.releasing = true ∨ g.size ≠ n → RefusedBusy .reportConfigure s r) ∧
      (ok → s.rep.ring = none → (∀ w, windowOfKind s .report = some w → 64 * w.size < n + 64) →
        RefusedConflict .reportConfigure s r)) ∧
  (∀ (s : State) (id : Nat) (r : LineRequest) (d : Line) (g : Ring) (q : Nat), pathLaw s → RecordNext s id r 0x10 2 →
    d = seen r → s.rep.ring = some g → 2 ≤ g.size → g.written - g.consumed < g.size → g.written ≤ g.made →
    g.consumed ≤ q → (q ≤ g.written ∨ q = g.consumed) → field d 12 2 = q % g.size →
    ∃ t g', exec .reportConsume s = .next t ∧ t.rep.ring = some g' ∧
      (q = g.made → g.releasing = false → g'.consumed = g.made + 1) ∧
      (q ≠ g.made ∨ g.releasing = true → g'.consumed = q) ∧
      (q = g.consumed → g'.timeoutFlag = g.timeoutFlag ∧ g'.timer = g.timer) ∧
      (q ≠ g.consumed → g'.timeoutFlag = false ∧
        g'.timer = if q < g.written then some (s.now + ms g.timeout) else none) ∧
      (g.releasing = false → g.made - q < g.size - 1 → ResultMade s t g r 0 ∧ g'.made = g.made + 1 ∧
        t.rep.dropped = s.rep.dropped) ∧
      (g.releasing = true ∨ g.size - 1 ≤ g.made - q → g'.made = g.made ∧ t.rep.dropped = satInc s.rep.dropped) ∧
      g'.size = g.size ∧ g'.timeout = g.timeout ∧ g'.written = g.written ∧ g'.releasing = g.releasing ∧
      g'.trigger = g.trigger ∧ t.rep.sequence = s.rep.sequence + 1 ∧ RecordApplied s t ∧
      OnlyChanges [.rep, .path, .dec] s t) ∧
  (∀ (s : State) (id : Nat) (r : LineRequest) (d : Line), RecordNext s id r 0x10 2 → d = seen r →
      (s.rep.ring = none → RefusedConflict .reportConsume s r) ∧
      ∀ g, s.rep.ring = some g → g.size ≤ field d 12 2 ∨ (field d 12 2 ≠ g.consumed % g.size ∧
          ∀ q, g.consumed < q → q ≤ g.written → field d 12 2 ≠ q % g.size) → RefusedRange .reportConsume s r) ∧
  ∀ (s : State) (id : Nat) (r : LineRequest), pathLaw s → RecordNext s id r 0x10 3 →
    (∀ g, s.rep.ring = some g → g.releasing = false → g.written ≤ g.made →
      ∃ t, exec .reportRelease s = .next t ∧ RecordApplied s t ∧ OnlyChanges [.rep, .path, .dec] s t ∧
        (unread g < g.size - 1 → ResultMade s t g r 0 ∧ t.rep = { s.rep with
          ring := some { g with releasing := true, made := g.made + 1 }, sequence := s.rep.sequence + 1 }) ∧
        (g.size - 1 ≤ unread g → t.rep = { s.rep with
          ring := if g.written = g.made ∧ s.rep.snapshotWriting = false then none else some { g with releasing := true }
          sequence := s.rep.sequence + 1, dropped := satInc s.rep.dropped })) ∧
    ((∀ g, s.rep.ring = some g → g.releasing = true) → RefusedConflict .reportRelease s r)

/-- A SNAPSHOT record is refused with CONFLICT unless the ring is ACTIVE. Applied, it makes one snapshot request, which
starts, remembers or merges a snapshot (R161), and then its RECORD_RESULT; a snapshot that starts captures the part
before that result (R162), which names the record's line, kind and tag with outcome 0 as the next entry of a ring with
room (R154; the result's time and sequence, log entry 19). The capture is taken with its sequence advanced and before
the state becomes WRITING (log entries 19 and 23), and its lines are the model's layout of R174 (log entries 21, 22,
23, 54, 57 and 60). -/
def Obligations.SnapshotRecord : Prop :=
  ∀ (s c : State) (id : Nat) (r : LineRequest) (a : Nat), pathLaw s → RecordNext s id r 0x11 a →
    c = { s with rep := { s.rep with snapshotSequence := s.rep.snapshotSequence + 1 } } →
    (∀ g, s.rep.ring = some g → g.releasing = false → ∃ t, exec .snapshotRecord s = .next t ∧ RecordApplied s t ∧
      OnlyChanges [.rep, .path, .dec] s t ∧ t.rep.snapshotWriting = true ∧ t.rep.sequence = s.rep.sequence + 1 ∧
      (s.rep.snapshotWriting = false → t.rep.snapshotSequence = s.rep.snapshotSequence + 1 ∧
        t.rep.snapshotRemembered = s.rep.snapshotRemembered ∧
        ∀ w, windowOfKind s .report = some w →
          (∀ n < 64, ∃ q ∈ t.path.reqs, q.line = windowLine w (g.size + n) ∧ q.stage = .forwarded ∧
            q.job = .snapshotLine n (snapshotLine c (snapshotFields c) n)) ∧
          (unread g < g.size - 1 → ResultMade s t g r 0 ∧ t.path.reqs.map (·.line) = s.path.reqs.map (·.line) ++
            (List.range 64).map (fun n => windowLine w (g.size + n)) ++ [windowLine w (g.made % g.size)])) ∧
      (s.rep.snapshotWriting = true → t.rep.snapshotSequence = s.rep.snapshotSequence ∧
        t.rep.snapshotRemembered = true ∧ (unread g < g.size - 1 → ResultMade s t g r 0) ∧
        (s.rep.snapshotRemembered = false → t.rep.snapshotMerged = s.rep.snapshotMerged) ∧
        (s.rep.snapshotRemembered = true → t.rep.snapshotMerged = satInc s.rep.snapshotMerged))) ∧
    ((∀ g, s.rep.ring = some g → g.releasing = true) → RefusedConflict .snapshotRecord s r)

end
end

