-- ==== Sys2Proof/Laws/State.lean ====
section
/-! SUPPORT. The fields of the state after each update of one block: one lemma per field per update, so that no proof
unfolds a record update. -/

namespace Sys2Proof.Machine

section Updates

variable (s : State)

/-! `updLink` -/

@[simp] theorem State.updLink_pending (f : LinkMonitor → LinkMonitor) : (s.updLink f).pending = s.pending := rfl
@[simp] theorem State.updLink_straps (f : LinkMonitor → LinkMonitor) : (s.updLink f).straps = s.straps := rfl
@[simp] theorem State.updLink_inReset (f : LinkMonitor → LinkMonitor) : (s.updLink f).inReset = s.inReset := rfl
@[simp] theorem State.updLink_oscillator (f : LinkMonitor → LinkMonitor) : (s.updLink f).oscillator = s.oscillator := rfl
@[simp] theorem State.updLink_now (f : LinkMonitor → LinkMonitor) : (s.updLink f).now = s.now := rfl
@[simp] theorem State.updLink_freeUses (f : LinkMonitor → LinkMonitor) : (s.updLink f).freeUses = s.freeUses := rfl
@[simp] theorem State.updLink_dram (f : LinkMonitor → LinkMonitor) : (s.updLink f).dram = s.dram := rfl
@[simp] theorem State.updLink_flips (f : LinkMonitor → LinkMonitor) : (s.updLink f).flips = s.flips := rfl
@[simp] theorem State.updLink_link (f : LinkMonitor → LinkMonitor) : (s.updLink f).link = f s.link := rfl
@[simp] theorem State.updLink_adm (f : LinkMonitor → LinkMonitor) : (s.updLink f).adm = s.adm := rfl
@[simp] theorem State.updLink_time (f : LinkMonitor → LinkMonitor) : (s.updLink f).time = s.time := rfl
@[simp] theorem State.updLink_xfer (f : LinkMonitor → LinkMonitor) : (s.updLink f).xfer = s.xfer := rfl
@[simp] theorem State.updLink_windows (f : LinkMonitor → LinkMonitor) : (s.updLink f).windows = s.windows := rfl
@[simp] theorem State.updLink_path (f : LinkMonitor → LinkMonitor) : (s.updLink f).path = s.path := rfl
@[simp] theorem State.updLink_integ (f : LinkMonitor → LinkMonitor) : (s.updLink f).integ = s.integ := rfl
@[simp] theorem State.updLink_march (f : LinkMonitor → LinkMonitor) : (s.updLink f).march = s.march := rfl
@[simp] theorem State.updLink_loop (f : LinkMonitor → LinkMonitor) : (s.updLink f).loop = s.loop := rfl
@[simp] theorem State.updLink_dec (f : LinkMonitor → LinkMonitor) : (s.updLink f).dec = s.dec := rfl
@[simp] theorem State.updLink_rep (f : LinkMonitor → LinkMonitor) : (s.updLink f).rep = s.rep := rfl
@[simp] theorem State.updLink_fault (f : LinkMonitor → LinkMonitor) : (s.updLink f).fault = s.fault := rfl

/-! `updAdm` -/

@[simp] theorem State.updAdm_pending (f : Admission → Admission) : (s.updAdm f).pending = s.pending := rfl
@[simp] theorem State.updAdm_straps (f : Admission → Admission) : (s.updAdm f).straps = s.straps := rfl
@[simp] theorem State.updAdm_inReset (f : Admission → Admission) : (s.updAdm f).inReset = s.inReset := rfl
@[simp] theorem State.updAdm_oscillator (f : Admission → Admission) : (s.updAdm f).oscillator = s.oscillator := rfl
@[simp] theorem State.updAdm_now (f : Admission → Admission) : (s.updAdm f).now = s.now := rfl
@[simp] theorem State.updAdm_freeUses (f : Admission → Admission) : (s.updAdm f).freeUses = s.freeUses := rfl
@[simp] theorem State.updAdm_dram (f : Admission → Admission) : (s.updAdm f).dram = s.dram := rfl
@[simp] theorem State.updAdm_flips (f : Admission → Admission) : (s.updAdm f).flips = s.flips := rfl
@[simp] theorem State.updAdm_link (f : Admission → Admission) : (s.updAdm f).link = s.link := rfl
@[simp] theorem State.updAdm_adm (f : Admission → Admission) : (s.updAdm f).adm = f s.adm := rfl
@[simp] theorem State.updAdm_time (f : Admission → Admission) : (s.updAdm f).time = s.time := rfl
@[simp] theorem State.updAdm_xfer (f : Admission → Admission) : (s.updAdm f).xfer = s.xfer := rfl
@[simp] theorem State.updAdm_windows (f : Admission → Admission) : (s.updAdm f).windows = s.windows := rfl
@[simp] theorem State.updAdm_path (f : Admission → Admission) : (s.updAdm f).path = s.path := rfl
@[simp] theorem State.updAdm_integ (f : Admission → Admission) : (s.updAdm f).integ = s.integ := rfl
@[simp] theorem State.updAdm_march (f : Admission → Admission) : (s.updAdm f).march = s.march := rfl
@[simp] theorem State.updAdm_loop (f : Admission → Admission) : (s.updAdm f).loop = s.loop := rfl
@[simp] theorem State.updAdm_dec (f : Admission → Admission) : (s.updAdm f).dec = s.dec := rfl
@[simp] theorem State.updAdm_rep (f : Admission → Admission) : (s.updAdm f).rep = s.rep := rfl
@[simp] theorem State.updAdm_fault (f : Admission → Admission) : (s.updAdm f).fault = s.fault := rfl

/-! `updTime` -/

@[simp] theorem State.updTime_pending (f : TimeUnit → TimeUnit) : (s.updTime f).pending = s.pending := rfl
@[simp] theorem State.updTime_straps (f : TimeUnit → TimeUnit) : (s.updTime f).straps = s.straps := rfl
@[simp] theorem State.updTime_inReset (f : TimeUnit → TimeUnit) : (s.updTime f).inReset = s.inReset := rfl
@[simp] theorem State.updTime_oscillator (f : TimeUnit → TimeUnit) : (s.updTime f).oscillator = s.oscillator := rfl
@[simp] theorem State.updTime_now (f : TimeUnit → TimeUnit) : (s.updTime f).now = s.now := rfl
@[simp] theorem State.updTime_freeUses (f : TimeUnit → TimeUnit) : (s.updTime f).freeUses = s.freeUses := rfl
@[simp] theorem State.updTime_dram (f : TimeUnit → TimeUnit) : (s.updTime f).dram = s.dram := rfl
@[simp] theorem State.updTime_flips (f : TimeUnit → TimeUnit) : (s.updTime f).flips = s.flips := rfl
@[simp] theorem State.updTime_link (f : TimeUnit → TimeUnit) : (s.updTime f).link = s.link := rfl
@[simp] theorem State.updTime_adm (f : TimeUnit → TimeUnit) : (s.updTime f).adm = s.adm := rfl
@[simp] theorem State.updTime_time (f : TimeUnit → TimeUnit) : (s.updTime f).time = f s.time := rfl
@[simp] theorem State.updTime_xfer (f : TimeUnit → TimeUnit) : (s.updTime f).xfer = s.xfer := rfl
@[simp] theorem State.updTime_windows (f : TimeUnit → TimeUnit) : (s.updTime f).windows = s.windows := rfl
@[simp] theorem State.updTime_path (f : TimeUnit → TimeUnit) : (s.updTime f).path = s.path := rfl
@[simp] theorem State.updTime_integ (f : TimeUnit → TimeUnit) : (s.updTime f).integ = s.integ := rfl
@[simp] theorem State.updTime_march (f : TimeUnit → TimeUnit) : (s.updTime f).march = s.march := rfl
@[simp] theorem State.updTime_loop (f : TimeUnit → TimeUnit) : (s.updTime f).loop = s.loop := rfl
@[simp] theorem State.updTime_dec (f : TimeUnit → TimeUnit) : (s.updTime f).dec = s.dec := rfl
@[simp] theorem State.updTime_rep (f : TimeUnit → TimeUnit) : (s.updTime f).rep = s.rep := rfl
@[simp] theorem State.updTime_fault (f : TimeUnit → TimeUnit) : (s.updTime f).fault = s.fault := rfl

/-! `updXfer` -/

@[simp] theorem State.updXfer_pending (f : Transfer → Transfer) : (s.updXfer f).pending = s.pending := rfl
@[simp] theorem State.updXfer_straps (f : Transfer → Transfer) : (s.updXfer f).straps = s.straps := rfl
@[simp] theorem State.updXfer_inReset (f : Transfer → Transfer) : (s.updXfer f).inReset = s.inReset := rfl
@[simp] theorem State.updXfer_oscillator (f : Transfer → Transfer) : (s.updXfer f).oscillator = s.oscillator := rfl
@[simp] theorem State.updXfer_now (f : Transfer → Transfer) : (s.updXfer f).now = s.now := rfl
@[simp] theorem State.updXfer_freeUses (f : Transfer → Transfer) : (s.updXfer f).freeUses = s.freeUses := rfl
@[simp] theorem State.updXfer_dram (f : Transfer → Transfer) : (s.updXfer f).dram = s.dram := rfl
@[simp] theorem State.updXfer_flips (f : Transfer → Transfer) : (s.updXfer f).flips = s.flips := rfl
@[simp] theorem State.updXfer_link (f : Transfer → Transfer) : (s.updXfer f).link = s.link := rfl
@[simp] theorem State.updXfer_adm (f : Transfer → Transfer) : (s.updXfer f).adm = s.adm := rfl
@[simp] theorem State.updXfer_time (f : Transfer → Transfer) : (s.updXfer f).time = s.time := rfl
@[simp] theorem State.updXfer_xfer (f : Transfer → Transfer) : (s.updXfer f).xfer = f s.xfer := rfl
@[simp] theorem State.updXfer_windows (f : Transfer → Transfer) : (s.updXfer f).windows = s.windows := rfl
@[simp] theorem State.updXfer_path (f : Transfer → Transfer) : (s.updXfer f).path = s.path := rfl
@[simp] theorem State.updXfer_integ (f : Transfer → Transfer) : (s.updXfer f).integ = s.integ := rfl
@[simp] theorem State.updXfer_march (f : Transfer → Transfer) : (s.updXfer f).march = s.march := rfl
@[simp] theorem State.updXfer_loop (f : Transfer → Transfer) : (s.updXfer f).loop = s.loop := rfl
@[simp] theorem State.updXfer_dec (f : Transfer → Transfer) : (s.updXfer f).dec = s.dec := rfl
@[simp] theorem State.updXfer_rep (f : Transfer → Transfer) : (s.updXfer f).rep = s.rep := rfl
@[simp] theorem State.updXfer_fault (f : Transfer → Transfer) : (s.updXfer f).fault = s.fault := rfl

/-! `updWindows` -/

@[simp] theorem State.updWindows_pending (f : Vector (Option Window) 16 → Vector (Option Window) 16) : (s.updWindows f).pending = s.pending := rfl
@[simp] theorem State.updWindows_straps (f : Vector (Option Window) 16 → Vector (Option Window) 16) : (s.updWindows f).straps = s.straps := rfl
@[simp] theorem State.updWindows_inReset (f : Vector (Option Window) 16 → Vector (Option Window) 16) : (s.updWindows f).inReset = s.inReset := rfl
@[simp] theorem State.updWindows_oscillator (f : Vector (Option Window) 16 → Vector (Option Window) 16) : (s.updWindows f).oscillator = s.oscillator := rfl
@[simp] theorem State.updWindows_now (f : Vector (Option Window) 16 → Vector (Option Window) 16) : (s.updWindows f).now = s.now := rfl
@[simp] theorem State.updWindows_freeUses (f : Vector (Option Window) 16 → Vector (Option Window) 16) : (s.updWindows f).freeUses = s.freeUses := rfl
@[simp] theorem State.updWindows_dram (f : Vector (Option Window) 16 → Vector (Option Window) 16) : (s.updWindows f).dram = s.dram := rfl
@[simp] theorem State.updWindows_flips (f : Vector (Option Window) 16 → Vector (Option Window) 16) : (s.updWindows f).flips = s.flips := rfl
@[simp] theorem State.updWindows_link (f : Vector (Option Window) 16 → Vector (Option Window) 16) : (s.updWindows f).link = s.link := rfl
@[simp] theorem State.updWindows_adm (f : Vector (Option Window) 16 → Vector (Option Window) 16) : (s.updWindows f).adm = s.adm := rfl
@[simp] theorem State.updWindows_time (f : Vector (Option Window) 16 → Vector (Option Window) 16) : (s.updWindows f).time = s.time := rfl
@[simp] theorem State.updWindows_xfer (f : Vector (Option Window) 16 → Vector (Option Window) 16) : (s.updWindows f).xfer = s.xfer := rfl
@[simp] theorem State.updWindows_windows (f : Vector (Option Window) 16 → Vector (Option Window) 16) : (s.updWindows f).windows = f s.windows := rfl
@[simp] theorem State.updWindows_path (f : Vector (Option Window) 16 → Vector (Option Window) 16) : (s.updWindows f).path = s.path := rfl
@[simp] theorem State.updWindows_integ (f : Vector (Option Window) 16 → Vector (Option Window) 16) : (s.updWindows f).integ = s.integ := rfl
@[simp] theorem State.updWindows_march (f : Vector (Option Window) 16 → Vector (Option Window) 16) : (s.updWindows f).march = s.march := rfl
@[simp] theorem State.updWindows_loop (f : Vector (Option Window) 16 → Vector (Option Window) 16) : (s.updWindows f).loop = s.loop := rfl
@[simp] theorem State.updWindows_dec (f : Vector (Option Window) 16 → Vector (Option Window) 16) : (s.updWindows f).dec = s.dec := rfl
@[simp] theorem State.updWindows_rep (f : Vector (Option Window) 16 → Vector (Option Window) 16) : (s.updWindows f).rep = s.rep := rfl
@[simp] theorem State.updWindows_fault (f : Vector (Option Window) 16 → Vector (Option Window) 16) : (s.updWindows f).fault = s.fault := rfl

/-! `updPath` -/

@[simp] theorem State.updPath_pending (f : Path → Path) : (s.updPath f).pending = s.pending := rfl
@[simp] theorem State.updPath_straps (f : Path → Path) : (s.updPath f).straps = s.straps := rfl
@[simp] theorem State.updPath_inReset (f : Path → Path) : (s.updPath f).inReset = s.inReset := rfl
@[simp] theorem State.updPath_oscillator (f : Path → Path) : (s.updPath f).oscillator = s.oscillator := rfl
@[simp] theorem State.updPath_now (f : Path → Path) : (s.updPath f).now = s.now := rfl
@[simp] theorem State.updPath_freeUses (f : Path → Path) : (s.updPath f).freeUses = s.freeUses := rfl
@[simp] theorem State.updPath_dram (f : Path → Path) : (s.updPath f).dram = s.dram := rfl
@[simp] theorem State.updPath_flips (f : Path → Path) : (s.updPath f).flips = s.flips := rfl
@[simp] theorem State.updPath_link (f : Path → Path) : (s.updPath f).link = s.link := rfl
@[simp] theorem State.updPath_adm (f : Path → Path) : (s.updPath f).adm = s.adm := rfl
@[simp] theorem State.updPath_time (f : Path → Path) : (s.updPath f).time = s.time := rfl
@[simp] theorem State.updPath_xfer (f : Path → Path) : (s.updPath f).xfer = s.xfer := rfl
@[simp] theorem State.updPath_windows (f : Path → Path) : (s.updPath f).windows = s.windows := rfl
@[simp] theorem State.updPath_path (f : Path → Path) : (s.updPath f).path = f s.path := rfl
@[simp] theorem State.updPath_integ (f : Path → Path) : (s.updPath f).integ = s.integ := rfl
@[simp] theorem State.updPath_march (f : Path → Path) : (s.updPath f).march = s.march := rfl
@[simp] theorem State.updPath_loop (f : Path → Path) : (s.updPath f).loop = s.loop := rfl
@[simp] theorem State.updPath_dec (f : Path → Path) : (s.updPath f).dec = s.dec := rfl
@[simp] theorem State.updPath_rep (f : Path → Path) : (s.updPath f).rep = s.rep := rfl
@[simp] theorem State.updPath_fault (f : Path → Path) : (s.updPath f).fault = s.fault := rfl

/-! `updInteg` -/

@[simp] theorem State.updInteg_pending (f : Integrity → Integrity) : (s.updInteg f).pending = s.pending := rfl
@[simp] theorem State.updInteg_straps (f : Integrity → Integrity) : (s.updInteg f).straps = s.straps := rfl
@[simp] theorem State.updInteg_inReset (f : Integrity → Integrity) : (s.updInteg f).inReset = s.inReset := rfl
@[simp] theorem State.updInteg_oscillator (f : Integrity → Integrity) : (s.updInteg f).oscillator = s.oscillator := rfl
@[simp] theorem State.updInteg_now (f : Integrity → Integrity) : (s.updInteg f).now = s.now := rfl
@[simp] theorem State.updInteg_freeUses (f : Integrity → Integrity) : (s.updInteg f).freeUses = s.freeUses := rfl
@[simp] theorem State.updInteg_dram (f : Integrity → Integrity) : (s.updInteg f).dram = s.dram := rfl
@[simp] theorem State.updInteg_flips (f : Integrity → Integrity) : (s.updInteg f).flips = s.flips := rfl
@[simp] theorem State.updInteg_link (f : Integrity → Integrity) : (s.updInteg f).link = s.link := rfl
@[simp] theorem State.updInteg_adm (f : Integrity → Integrity) : (s.updInteg f).adm = s.adm := rfl
@[simp] theorem State.updInteg_time (f : Integrity → Integrity) : (s.updInteg f).time = s.time := rfl
@[simp] theorem State.updInteg_xfer (f : Integrity → Integrity) : (s.updInteg f).xfer = s.xfer := rfl
@[simp] theorem State.updInteg_windows (f : Integrity → Integrity) : (s.updInteg f).windows = s.windows := rfl
@[simp] theorem State.updInteg_path (f : Integrity → Integrity) : (s.updInteg f).path = s.path := rfl
@[simp] theorem State.updInteg_integ (f : Integrity → Integrity) : (s.updInteg f).integ = f s.integ := rfl
@[simp] theorem State.updInteg_march (f : Integrity → Integrity) : (s.updInteg f).march = s.march := rfl
@[simp] theorem State.updInteg_loop (f : Integrity → Integrity) : (s.updInteg f).loop = s.loop := rfl
@[simp] theorem State.updInteg_dec (f : Integrity → Integrity) : (s.updInteg f).dec = s.dec := rfl
@[simp] theorem State.updInteg_rep (f : Integrity → Integrity) : (s.updInteg f).rep = s.rep := rfl
@[simp] theorem State.updInteg_fault (f : Integrity → Integrity) : (s.updInteg f).fault = s.fault := rfl

/-! `updMarch` -/

@[simp] theorem State.updMarch_pending (f : March → March) : (s.updMarch f).pending = s.pending := rfl
@[simp] theorem State.updMarch_straps (f : March → March) : (s.updMarch f).straps = s.straps := rfl
@[simp] theorem State.updMarch_inReset (f : March → March) : (s.updMarch f).inReset = s.inReset := rfl
@[simp] theorem State.updMarch_oscillator (f : March → March) : (s.updMarch f).oscillator = s.oscillator := rfl
@[simp] theorem State.updMarch_now (f : March → March) : (s.updMarch f).now = s.now := rfl
@[simp] theorem State.updMarch_freeUses (f : March → March) : (s.updMarch f).freeUses = s.freeUses := rfl
@[simp] theorem State.updMarch_dram (f : March → March) : (s.updMarch f).dram = s.dram := rfl
@[simp] theorem State.updMarch_flips (f : March → March) : (s.updMarch f).flips = s.flips := rfl
@[simp] theorem State.updMarch_link (f : March → March) : (s.updMarch f).link = s.link := rfl
@[simp] theorem State.updMarch_adm (f : March → March) : (s.updMarch f).adm = s.adm := rfl
@[simp] theorem State.updMarch_time (f : March → March) : (s.updMarch f).time = s.time := rfl
@[simp] theorem State.updMarch_xfer (f : March → March) : (s.updMarch f).xfer = s.xfer := rfl
@[simp] theorem State.updMarch_windows (f : March → March) : (s.updMarch f).windows = s.windows := rfl
@[simp] theorem State.updMarch_path (f : March → March) : (s.updMarch f).path = s.path := rfl
@[simp] theorem State.updMarch_integ (f : March → March) : (s.updMarch f).integ = s.integ := rfl
@[simp] theorem State.updMarch_march (f : March → March) : (s.updMarch f).march = f s.march := rfl
@[simp] theorem State.updMarch_loop (f : March → March) : (s.updMarch f).loop = s.loop := rfl
@[simp] theorem State.updMarch_dec (f : March → March) : (s.updMarch f).dec = s.dec := rfl
@[simp] theorem State.updMarch_rep (f : March → March) : (s.updMarch f).rep = s.rep := rfl
@[simp] theorem State.updMarch_fault (f : March → March) : (s.updMarch f).fault = s.fault := rfl

/-! `updLoop` -/

@[simp] theorem State.updLoop_pending (f : Loopback → Loopback) : (s.updLoop f).pending = s.pending := rfl
@[simp] theorem State.updLoop_straps (f : Loopback → Loopback) : (s.updLoop f).straps = s.straps := rfl
@[simp] theorem State.updLoop_inReset (f : Loopback → Loopback) : (s.updLoop f).inReset = s.inReset := rfl
@[simp] theorem State.updLoop_oscillator (f : Loopback → Loopback) : (s.updLoop f).oscillator = s.oscillator := rfl
@[simp] theorem State.updLoop_now (f : Loopback → Loopback) : (s.updLoop f).now = s.now := rfl
@[simp] theorem State.updLoop_freeUses (f : Loopback → Loopback) : (s.updLoop f).freeUses = s.freeUses := rfl
@[simp] theorem State.updLoop_dram (f : Loopback → Loopback) : (s.updLoop f).dram = s.dram := rfl
@[simp] theorem State.updLoop_flips (f : Loopback → Loopback) : (s.updLoop f).flips = s.flips := rfl
@[simp] theorem State.updLoop_link (f : Loopback → Loopback) : (s.updLoop f).link = s.link := rfl
@[simp] theorem State.updLoop_adm (f : Loopback → Loopback) : (s.updLoop f).adm = s.adm := rfl
@[simp] theorem State.updLoop_time (f : Loopback → Loopback) : (s.updLoop f).time = s.time := rfl
@[simp] theorem State.updLoop_xfer (f : Loopback → Loopback) : (s.updLoop f).xfer = s.xfer := rfl
@[simp] theorem State.updLoop_windows (f : Loopback → Loopback) : (s.updLoop f).windows = s.windows := rfl
@[simp] theorem State.updLoop_path (f : Loopback → Loopback) : (s.updLoop f).path = s.path := rfl
@[simp] theorem State.updLoop_integ (f : Loopback → Loopback) : (s.updLoop f).integ = s.integ := rfl
@[simp] theorem State.updLoop_march (f : Loopback → Loopback) : (s.updLoop f).march = s.march := rfl
@[simp] theorem State.updLoop_loop (f : Loopback → Loopback) : (s.updLoop f).loop = f s.loop := rfl
@[simp] theorem State.updLoop_dec (f : Loopback → Loopback) : (s.updLoop f).dec = s.dec := rfl
@[simp] theorem State.updLoop_rep (f : Loopback → Loopback) : (s.updLoop f).rep = s.rep := rfl
@[simp] theorem State.updLoop_fault (f : Loopback → Loopback) : (s.updLoop f).fault = s.fault := rfl

/-! `updDec` -/

@[simp] theorem State.updDec_pending (f : Decoder → Decoder) : (s.updDec f).pending = s.pending := rfl
@[simp] theorem State.updDec_straps (f : Decoder → Decoder) : (s.updDec f).straps = s.straps := rfl
@[simp] theorem State.updDec_inReset (f : Decoder → Decoder) : (s.updDec f).inReset = s.inReset := rfl
@[simp] theorem State.updDec_oscillator (f : Decoder → Decoder) : (s.updDec f).oscillator = s.oscillator := rfl
@[simp] theorem State.updDec_now (f : Decoder → Decoder) : (s.updDec f).now = s.now := rfl
@[simp] theorem State.updDec_freeUses (f : Decoder → Decoder) : (s.updDec f).freeUses = s.freeUses := rfl
@[simp] theorem State.updDec_dram (f : Decoder → Decoder) : (s.updDec f).dram = s.dram := rfl
@[simp] theorem State.updDec_flips (f : Decoder → Decoder) : (s.updDec f).flips = s.flips := rfl
@[simp] theorem State.updDec_link (f : Decoder → Decoder) : (s.updDec f).link = s.link := rfl
@[simp] theorem State.updDec_adm (f : Decoder → Decoder) : (s.updDec f).adm = s.adm := rfl
@[simp] theorem State.updDec_time (f : Decoder → Decoder) : (s.updDec f).time = s.time := rfl
@[simp] theorem State.updDec_xfer (f : Decoder → Decoder) : (s.updDec f).xfer = s.xfer := rfl
@[simp] theorem State.updDec_windows (f : Decoder → Decoder) : (s.updDec f).windows = s.windows := rfl
@[simp] theorem State.updDec_path (f : Decoder → Decoder) : (s.updDec f).path = s.path := rfl
@[simp] theorem State.updDec_integ (f : Decoder → Decoder) : (s.updDec f).integ = s.integ := rfl
@[simp] theorem State.updDec_march (f : Decoder → Decoder) : (s.updDec f).march = s.march := rfl
@[simp] theorem State.updDec_loop (f : Decoder → Decoder) : (s.updDec f).loop = s.loop := rfl
@[simp] theorem State.updDec_dec (f : Decoder → Decoder) : (s.updDec f).dec = f s.dec := rfl
@[simp] theorem State.updDec_rep (f : Decoder → Decoder) : (s.updDec f).rep = s.rep := rfl
@[simp] theorem State.updDec_fault (f : Decoder → Decoder) : (s.updDec f).fault = s.fault := rfl

/-! `updRep` -/

@[simp] theorem State.updRep_pending (f : Reports → Reports) : (s.updRep f).pending = s.pending := rfl
@[simp] theorem State.updRep_straps (f : Reports → Reports) : (s.updRep f).straps = s.straps := rfl
@[simp] theorem State.updRep_inReset (f : Reports → Reports) : (s.updRep f).inReset = s.inReset := rfl
@[simp] theorem State.updRep_oscillator (f : Reports → Reports) : (s.updRep f).oscillator = s.oscillator := rfl
@[simp] theorem State.updRep_now (f : Reports → Reports) : (s.updRep f).now = s.now := rfl
@[simp] theorem State.updRep_freeUses (f : Reports → Reports) : (s.updRep f).freeUses = s.freeUses := rfl
@[simp] theorem State.updRep_dram (f : Reports → Reports) : (s.updRep f).dram = s.dram := rfl
@[simp] theorem State.updRep_flips (f : Reports → Reports) : (s.updRep f).flips = s.flips := rfl
@[simp] theorem State.updRep_link (f : Reports → Reports) : (s.updRep f).link = s.link := rfl
@[simp] theorem State.updRep_adm (f : Reports → Reports) : (s.updRep f).adm = s.adm := rfl
@[simp] theorem State.updRep_time (f : Reports → Reports) : (s.updRep f).time = s.time := rfl
@[simp] theorem State.updRep_xfer (f : Reports → Reports) : (s.updRep f).xfer = s.xfer := rfl
@[simp] theorem State.updRep_windows (f : Reports → Reports) : (s.updRep f).windows = s.windows := rfl
@[simp] theorem State.updRep_path (f : Reports → Reports) : (s.updRep f).path = s.path := rfl
@[simp] theorem State.updRep_integ (f : Reports → Reports) : (s.updRep f).integ = s.integ := rfl
@[simp] theorem State.updRep_march (f : Reports → Reports) : (s.updRep f).march = s.march := rfl
@[simp] theorem State.updRep_loop (f : Reports → Reports) : (s.updRep f).loop = s.loop := rfl
@[simp] theorem State.updRep_dec (f : Reports → Reports) : (s.updRep f).dec = s.dec := rfl
@[simp] theorem State.updRep_rep (f : Reports → Reports) : (s.updRep f).rep = f s.rep := rfl
@[simp] theorem State.updRep_fault (f : Reports → Reports) : (s.updRep f).fault = s.fault := rfl

/-! `updFault` -/

@[simp] theorem State.updFault_pending (f : FaultUnit → FaultUnit) : (s.updFault f).pending = s.pending := rfl
@[simp] theorem State.updFault_straps (f : FaultUnit → FaultUnit) : (s.updFault f).straps = s.straps := rfl
@[simp] theorem State.updFault_inReset (f : FaultUnit → FaultUnit) : (s.updFault f).inReset = s.inReset := rfl
@[simp] theorem State.updFault_oscillator (f : FaultUnit → FaultUnit) : (s.updFault f).oscillator = s.oscillator := rfl
@[simp] theorem State.updFault_now (f : FaultUnit → FaultUnit) : (s.updFault f).now = s.now := rfl
@[simp] theorem State.updFault_freeUses (f : FaultUnit → FaultUnit) : (s.updFault f).freeUses = s.freeUses := rfl
@[simp] theorem State.updFault_dram (f : FaultUnit → FaultUnit) : (s.updFault f).dram = s.dram := rfl
@[simp] theorem State.updFault_flips (f : FaultUnit → FaultUnit) : (s.updFault f).flips = s.flips := rfl
@[simp] theorem State.updFault_link (f : FaultUnit → FaultUnit) : (s.updFault f).link = s.link := rfl
@[simp] theorem State.updFault_adm (f : FaultUnit → FaultUnit) : (s.updFault f).adm = s.adm := rfl
@[simp] theorem State.updFault_time (f : FaultUnit → FaultUnit) : (s.updFault f).time = s.time := rfl
@[simp] theorem State.updFault_xfer (f : FaultUnit → FaultUnit) : (s.updFault f).xfer = s.xfer := rfl
@[simp] theorem State.updFault_windows (f : FaultUnit → FaultUnit) : (s.updFault f).windows = s.windows := rfl
@[simp] theorem State.updFault_path (f : FaultUnit → FaultUnit) : (s.updFault f).path = s.path := rfl
@[simp] theorem State.updFault_integ (f : FaultUnit → FaultUnit) : (s.updFault f).integ = s.integ := rfl
@[simp] theorem State.updFault_march (f : FaultUnit → FaultUnit) : (s.updFault f).march = s.march := rfl
@[simp] theorem State.updFault_loop (f : FaultUnit → FaultUnit) : (s.updFault f).loop = s.loop := rfl
@[simp] theorem State.updFault_dec (f : FaultUnit → FaultUnit) : (s.updFault f).dec = s.dec := rfl
@[simp] theorem State.updFault_rep (f : FaultUnit → FaultUnit) : (s.updFault f).rep = s.rep := rfl
@[simp] theorem State.updFault_fault (f : FaultUnit → FaultUnit) : (s.updFault f).fault = f s.fault := rfl

/-! `updDram` -/

@[simp] theorem State.updDram_pending (f : Dram → Dram) : (s.updDram f).pending = s.pending := rfl
@[simp] theorem State.updDram_straps (f : Dram → Dram) : (s.updDram f).straps = s.straps := rfl
@[simp] theorem State.updDram_inReset (f : Dram → Dram) : (s.updDram f).inReset = s.inReset := rfl
@[simp] theorem State.updDram_oscillator (f : Dram → Dram) : (s.updDram f).oscillator = s.oscillator := rfl
@[simp] theorem State.updDram_now (f : Dram → Dram) : (s.updDram f).now = s.now := rfl
@[simp] theorem State.updDram_freeUses (f : Dram → Dram) : (s.updDram f).freeUses = s.freeUses := rfl
@[simp] theorem State.updDram_dram (f : Dram → Dram) : (s.updDram f).dram = f s.dram := rfl
@[simp] theorem State.updDram_flips (f : Dram → Dram) : (s.updDram f).flips = s.flips := rfl
@[simp] theorem State.updDram_link (f : Dram → Dram) : (s.updDram f).link = s.link := rfl
@[simp] theorem State.updDram_adm (f : Dram → Dram) : (s.updDram f).adm = s.adm := rfl
@[simp] theorem State.updDram_time (f : Dram → Dram) : (s.updDram f).time = s.time := rfl
@[simp] theorem State.updDram_xfer (f : Dram → Dram) : (s.updDram f).xfer = s.xfer := rfl
@[simp] theorem State.updDram_windows (f : Dram → Dram) : (s.updDram f).windows = s.windows := rfl
@[simp] theorem State.updDram_path (f : Dram → Dram) : (s.updDram f).path = s.path := rfl
@[simp] theorem State.updDram_integ (f : Dram → Dram) : (s.updDram f).integ = s.integ := rfl
@[simp] theorem State.updDram_march (f : Dram → Dram) : (s.updDram f).march = s.march := rfl
@[simp] theorem State.updDram_loop (f : Dram → Dram) : (s.updDram f).loop = s.loop := rfl
@[simp] theorem State.updDram_dec (f : Dram → Dram) : (s.updDram f).dec = s.dec := rfl
@[simp] theorem State.updDram_rep (f : Dram → Dram) : (s.updDram f).rep = s.rep := rfl
@[simp] theorem State.updDram_fault (f : Dram → Dram) : (s.updDram f).fault = s.fault := rfl

/-! `updFlips` -/

@[simp] theorem State.updFlips_pending (f : FlipMap → FlipMap) : (s.updFlips f).pending = s.pending := rfl
@[simp] theorem State.updFlips_straps (f : FlipMap → FlipMap) : (s.updFlips f).straps = s.straps := rfl
@[simp] theorem State.updFlips_inReset (f : FlipMap → FlipMap) : (s.updFlips f).inReset = s.inReset := rfl
@[simp] theorem State.updFlips_oscillator (f : FlipMap → FlipMap) : (s.updFlips f).oscillator = s.oscillator := rfl
@[simp] theorem State.updFlips_now (f : FlipMap → FlipMap) : (s.updFlips f).now = s.now := rfl
@[simp] theorem State.updFlips_freeUses (f : FlipMap → FlipMap) : (s.updFlips f).freeUses = s.freeUses := rfl
@[simp] theorem State.updFlips_dram (f : FlipMap → FlipMap) : (s.updFlips f).dram = s.dram := rfl
@[simp] theorem State.updFlips_flips (f : FlipMap → FlipMap) : (s.updFlips f).flips = f s.flips := rfl
@[simp] theorem State.updFlips_link (f : FlipMap → FlipMap) : (s.updFlips f).link = s.link := rfl
@[simp] theorem State.updFlips_adm (f : FlipMap → FlipMap) : (s.updFlips f).adm = s.adm := rfl
@[simp] theorem State.updFlips_time (f : FlipMap → FlipMap) : (s.updFlips f).time = s.time := rfl
@[simp] theorem State.updFlips_xfer (f : FlipMap → FlipMap) : (s.updFlips f).xfer = s.xfer := rfl
@[simp] theorem State.updFlips_windows (f : FlipMap → FlipMap) : (s.updFlips f).windows = s.windows := rfl
@[simp] theorem State.updFlips_path (f : FlipMap → FlipMap) : (s.updFlips f).path = s.path := rfl
@[simp] theorem State.updFlips_integ (f : FlipMap → FlipMap) : (s.updFlips f).integ = s.integ := rfl
@[simp] theorem State.updFlips_march (f : FlipMap → FlipMap) : (s.updFlips f).march = s.march := rfl
@[simp] theorem State.updFlips_loop (f : FlipMap → FlipMap) : (s.updFlips f).loop = s.loop := rfl
@[simp] theorem State.updFlips_dec (f : FlipMap → FlipMap) : (s.updFlips f).dec = s.dec := rfl
@[simp] theorem State.updFlips_rep (f : FlipMap → FlipMap) : (s.updFlips f).rep = s.rep := rfl
@[simp] theorem State.updFlips_fault (f : FlipMap → FlipMap) : (s.updFlips f).fault = s.fault := rfl

/-! `setFreeUses` -/

@[simp] theorem State.setFreeUses_pending (v : Nat) : (s.setFreeUses v).pending = s.pending := rfl
@[simp] theorem State.setFreeUses_straps (v : Nat) : (s.setFreeUses v).straps = s.straps := rfl
@[simp] theorem State.setFreeUses_inReset (v : Nat) : (s.setFreeUses v).inReset = s.inReset := rfl
@[simp] theorem State.setFreeUses_oscillator (v : Nat) : (s.setFreeUses v).oscillator = s.oscillator := rfl
@[simp] theorem State.setFreeUses_now (v : Nat) : (s.setFreeUses v).now = s.now := rfl
@[simp] theorem State.setFreeUses_freeUses (v : Nat) : (s.setFreeUses v).freeUses = v := rfl
@[simp] theorem State.setFreeUses_dram (v : Nat) : (s.setFreeUses v).dram = s.dram := rfl
@[simp] theorem State.setFreeUses_flips (v : Nat) : (s.setFreeUses v).flips = s.flips := rfl
@[simp] theorem State.setFreeUses_link (v : Nat) : (s.setFreeUses v).link = s.link := rfl
@[simp] theorem State.setFreeUses_adm (v : Nat) : (s.setFreeUses v).adm = s.adm := rfl
@[simp] theorem State.setFreeUses_time (v : Nat) : (s.setFreeUses v).time = s.time := rfl
@[simp] theorem State.setFreeUses_xfer (v : Nat) : (s.setFreeUses v).xfer = s.xfer := rfl
@[simp] theorem State.setFreeUses_windows (v : Nat) : (s.setFreeUses v).windows = s.windows := rfl
@[simp] theorem State.setFreeUses_path (v : Nat) : (s.setFreeUses v).path = s.path := rfl
@[simp] theorem State.setFreeUses_integ (v : Nat) : (s.setFreeUses v).integ = s.integ := rfl
@[simp] theorem State.setFreeUses_march (v : Nat) : (s.setFreeUses v).march = s.march := rfl
@[simp] theorem State.setFreeUses_loop (v : Nat) : (s.setFreeUses v).loop = s.loop := rfl
@[simp] theorem State.setFreeUses_dec (v : Nat) : (s.setFreeUses v).dec = s.dec := rfl
@[simp] theorem State.setFreeUses_rep (v : Nat) : (s.setFreeUses v).rep = s.rep := rfl
@[simp] theorem State.setFreeUses_fault (v : Nat) : (s.setFreeUses v).fault = s.fault := rfl

/-! `setNow` -/

@[simp] theorem State.setNow_pending (v : Nat) : (s.setNow v).pending = s.pending := rfl
@[simp] theorem State.setNow_straps (v : Nat) : (s.setNow v).straps = s.straps := rfl
@[simp] theorem State.setNow_inReset (v : Nat) : (s.setNow v).inReset = s.inReset := rfl
@[simp] theorem State.setNow_oscillator (v : Nat) : (s.setNow v).oscillator = s.oscillator := rfl
@[simp] theorem State.setNow_now (v : Nat) : (s.setNow v).now = v := rfl
@[simp] theorem State.setNow_freeUses (v : Nat) : (s.setNow v).freeUses = s.freeUses := rfl
@[simp] theorem State.setNow_dram (v : Nat) : (s.setNow v).dram = s.dram := rfl
@[simp] theorem State.setNow_flips (v : Nat) : (s.setNow v).flips = s.flips := rfl
@[simp] theorem State.setNow_link (v : Nat) : (s.setNow v).link = s.link := rfl
@[simp] theorem State.setNow_adm (v : Nat) : (s.setNow v).adm = s.adm := rfl
@[simp] theorem State.setNow_time (v : Nat) : (s.setNow v).time = s.time := rfl
@[simp] theorem State.setNow_xfer (v : Nat) : (s.setNow v).xfer = s.xfer := rfl
@[simp] theorem State.setNow_windows (v : Nat) : (s.setNow v).windows = s.windows := rfl
@[simp] theorem State.setNow_path (v : Nat) : (s.setNow v).path = s.path := rfl
@[simp] theorem State.setNow_integ (v : Nat) : (s.setNow v).integ = s.integ := rfl
@[simp] theorem State.setNow_march (v : Nat) : (s.setNow v).march = s.march := rfl
@[simp] theorem State.setNow_loop (v : Nat) : (s.setNow v).loop = s.loop := rfl
@[simp] theorem State.setNow_dec (v : Nat) : (s.setNow v).dec = s.dec := rfl
@[simp] theorem State.setNow_rep (v : Nat) : (s.setNow v).rep = s.rep := rfl
@[simp] theorem State.setNow_fault (v : Nat) : (s.setNow v).fault = s.fault := rfl

/-! `setOscillator` -/

@[simp] theorem State.setOscillator_pending (v : Nat) : (s.setOscillator v).pending = s.pending := rfl
@[simp] theorem State.setOscillator_straps (v : Nat) : (s.setOscillator v).straps = s.straps := rfl
@[simp] theorem State.setOscillator_inReset (v : Nat) : (s.setOscillator v).inReset = s.inReset := rfl
@[simp] theorem State.setOscillator_oscillator (v : Nat) : (s.setOscillator v).oscillator = v := rfl
@[simp] theorem State.setOscillator_now (v : Nat) : (s.setOscillator v).now = s.now := rfl
@[simp] theorem State.setOscillator_freeUses (v : Nat) : (s.setOscillator v).freeUses = s.freeUses := rfl
@[simp] theorem State.setOscillator_dram (v : Nat) : (s.setOscillator v).dram = s.dram := rfl
@[simp] theorem State.setOscillator_flips (v : Nat) : (s.setOscillator v).flips = s.flips := rfl
@[simp] theorem State.setOscillator_link (v : Nat) : (s.setOscillator v).link = s.link := rfl
@[simp] theorem State.setOscillator_adm (v : Nat) : (s.setOscillator v).adm = s.adm := rfl
@[simp] theorem State.setOscillator_time (v : Nat) : (s.setOscillator v).time = s.time := rfl
@[simp] theorem State.setOscillator_xfer (v : Nat) : (s.setOscillator v).xfer = s.xfer := rfl
@[simp] theorem State.setOscillator_windows (v : Nat) : (s.setOscillator v).windows = s.windows := rfl
@[simp] theorem State.setOscillator_path (v : Nat) : (s.setOscillator v).path = s.path := rfl
@[simp] theorem State.setOscillator_integ (v : Nat) : (s.setOscillator v).integ = s.integ := rfl
@[simp] theorem State.setOscillator_march (v : Nat) : (s.setOscillator v).march = s.march := rfl
@[simp] theorem State.setOscillator_loop (v : Nat) : (s.setOscillator v).loop = s.loop := rfl
@[simp] theorem State.setOscillator_dec (v : Nat) : (s.setOscillator v).dec = s.dec := rfl
@[simp] theorem State.setOscillator_rep (v : Nat) : (s.setOscillator v).rep = s.rep := rfl
@[simp] theorem State.setOscillator_fault (v : Nat) : (s.setOscillator v).fault = s.fault := rfl

/-! `setInReset` -/

@[simp] theorem State.setInReset_pending (v : Bool) : (s.setInReset v).pending = s.pending := rfl
@[simp] theorem State.setInReset_straps (v : Bool) : (s.setInReset v).straps = s.straps := rfl
@[simp] theorem State.setInReset_inReset (v : Bool) : (s.setInReset v).inReset = v := rfl
@[simp] theorem State.setInReset_oscillator (v : Bool) : (s.setInReset v).oscillator = s.oscillator := rfl
@[simp] theorem State.setInReset_now (v : Bool) : (s.setInReset v).now = s.now := rfl
@[simp] theorem State.setInReset_freeUses (v : Bool) : (s.setInReset v).freeUses = s.freeUses := rfl
@[simp] theorem State.setInReset_dram (v : Bool) : (s.setInReset v).dram = s.dram := rfl
@[simp] theorem State.setInReset_flips (v : Bool) : (s.setInReset v).flips = s.flips := rfl
@[simp] theorem State.setInReset_link (v : Bool) : (s.setInReset v).link = s.link := rfl
@[simp] theorem State.setInReset_adm (v : Bool) : (s.setInReset v).adm = s.adm := rfl
@[simp] theorem State.setInReset_time (v : Bool) : (s.setInReset v).time = s.time := rfl
@[simp] theorem State.setInReset_xfer (v : Bool) : (s.setInReset v).xfer = s.xfer := rfl
@[simp] theorem State.setInReset_windows (v : Bool) : (s.setInReset v).windows = s.windows := rfl
@[simp] theorem State.setInReset_path (v : Bool) : (s.setInReset v).path = s.path := rfl
@[simp] theorem State.setInReset_integ (v : Bool) : (s.setInReset v).integ = s.integ := rfl
@[simp] theorem State.setInReset_march (v : Bool) : (s.setInReset v).march = s.march := rfl
@[simp] theorem State.setInReset_loop (v : Bool) : (s.setInReset v).loop = s.loop := rfl
@[simp] theorem State.setInReset_dec (v : Bool) : (s.setInReset v).dec = s.dec := rfl
@[simp] theorem State.setInReset_rep (v : Bool) : (s.setInReset v).rep = s.rep := rfl
@[simp] theorem State.setInReset_fault (v : Bool) : (s.setInReset v).fault = s.fault := rfl

/-! `setPending` -/

@[simp] theorem State.setPending_pending (v : List Instr) : (s.setPending v).pending = v := rfl
@[simp] theorem State.setPending_straps (v : List Instr) : (s.setPending v).straps = s.straps := rfl
@[simp] theorem State.setPending_inReset (v : List Instr) : (s.setPending v).inReset = s.inReset := rfl
@[simp] theorem State.setPending_oscillator (v : List Instr) : (s.setPending v).oscillator = s.oscillator := rfl
@[simp] theorem State.setPending_now (v : List Instr) : (s.setPending v).now = s.now := rfl
@[simp] theorem State.setPending_freeUses (v : List Instr) : (s.setPending v).freeUses = s.freeUses := rfl
@[simp] theorem State.setPending_dram (v : List Instr) : (s.setPending v).dram = s.dram := rfl
@[simp] theorem State.setPending_flips (v : List Instr) : (s.setPending v).flips = s.flips := rfl
@[simp] theorem State.setPending_link (v : List Instr) : (s.setPending v).link = s.link := rfl
@[simp] theorem State.setPending_adm (v : List Instr) : (s.setPending v).adm = s.adm := rfl
@[simp] theorem State.setPending_time (v : List Instr) : (s.setPending v).time = s.time := rfl
@[simp] theorem State.setPending_xfer (v : List Instr) : (s.setPending v).xfer = s.xfer := rfl
@[simp] theorem State.setPending_windows (v : List Instr) : (s.setPending v).windows = s.windows := rfl
@[simp] theorem State.setPending_path (v : List Instr) : (s.setPending v).path = s.path := rfl
@[simp] theorem State.setPending_integ (v : List Instr) : (s.setPending v).integ = s.integ := rfl
@[simp] theorem State.setPending_march (v : List Instr) : (s.setPending v).march = s.march := rfl
@[simp] theorem State.setPending_loop (v : List Instr) : (s.setPending v).loop = s.loop := rfl
@[simp] theorem State.setPending_dec (v : List Instr) : (s.setPending v).dec = s.dec := rfl
@[simp] theorem State.setPending_rep (v : List Instr) : (s.setPending v).rep = s.rep := rfl
@[simp] theorem State.setPending_fault (v : List Instr) : (s.setPending v).fault = s.fault := rfl

end Updates

end Sys2Proof.Machine
end

