-- ==== Sys2Proof/Laws/Frames.lean ====
section
/-! SUPPORT. What each shared operation leaves alone: `<operation>_erase` says which blocks it can change (the state is
the same once those are erased), and `<operation>_frame` reads that off block by block. -/

namespace Sys2Proof.Machine

/-- The state with the listed blocks erased. -/
def eraseBlocks (l : List Block) (s : State) : State where
  pending := if .pending ∈ l then [] else s.pending
  straps := if .straps ∈ l then 0 else s.straps
  inReset := if .inReset ∈ l then false else s.inReset
  oscillator := if .oscillator ∈ l then 0 else s.oscillator
  now := if .now ∈ l then 0 else s.now
  freeUses := if .freeUses ∈ l then 0 else s.freeUses
  dram := if .dram ∈ l then [] else s.dram
  flips := if .flips ∈ l then [] else s.flips
  link := if .link ∈ l then Initial.link else s.link
  adm := if .adm ∈ l then Initial.adm else s.adm
  time := if .time ∈ l then Initial.time else s.time
  xfer := if .xfer ∈ l then Initial.xfer else s.xfer
  windows := if .windows ∈ l then Initial.windows 0 else s.windows
  path := if .path ∈ l then Initial.path else s.path
  integ := if .integ ∈ l then Initial.integ else s.integ
  march := if .march ∈ l then Initial.march else s.march
  loop := if .loop ∈ l then Initial.loop else s.loop
  dec := if .dec ∈ l then Initial.dec else s.dec
  rep := if .rep ∈ l then Initial.rep else s.rep
  fault := if .fault ∈ l then Initial.fault else s.fault

/-- A block that is not erased reads the same after the erasure, and one that is erased reads the same in every
state. -/
theorem sameBlock_erase {l : List Block} {s t : State} (b : Block) :
    sameBlock (eraseBlocks l s) (eraseBlocks l t) b ↔ b ∈ l ∨ sameBlock s t b := by
  by_cases hb : b ∈ l <;> cases b <;> simp [eraseBlocks, sameBlock, hb]

/-- A state is the sum of its blocks. -/
theorem eq_of_sameBlock {s t : State} (h : ∀ b, sameBlock s t b) : t = s := by
  cases s; cases t
  exact State.mk.injEq .. |>.mpr
    ⟨h .pending, h .straps, h .inReset, h .oscillator, h .now, h .freeUses, h .dram, h .flips, h .link, h .adm, h .time,
      h .xfer, h .windows, h .path, h .integ, h .march, h .loop, h .dec, h .rep, h .fault⟩

theorem onlyChanges_iff {l : List Block} {s t : State} :
    OnlyChanges l s t ↔ eraseBlocks l t = eraseBlocks l s := by
  constructor
  · exact fun h => eq_of_sameBlock fun b => sameBlock_erase b |>.mpr (Decidable.or_iff_not_imp_left.mpr (h b))
  · exact fun h b hb => (sameBlock_erase (s := s) (t := t) b |>.mp (by rw [h]; cases b <;> rfl)).resolve_left hb

/-! ### Updates of one block -/

@[simp] theorem updLink_erase {l f s} (h : Block.link ∈ l) : eraseBlocks l (State.updLink f s) = eraseBlocks l s := by
  simp [eraseBlocks, h]

@[simp] theorem updAdm_erase {l f s} (h : Block.adm ∈ l) : eraseBlocks l (State.updAdm f s) = eraseBlocks l s := by
  simp [eraseBlocks, h]

@[simp] theorem updTime_erase {l f s} (h : Block.time ∈ l) : eraseBlocks l (State.updTime f s) = eraseBlocks l s := by
  simp [eraseBlocks, h]

@[simp] theorem updXfer_erase {l f s} (h : Block.xfer ∈ l) : eraseBlocks l (State.updXfer f s) = eraseBlocks l s := by
  simp [eraseBlocks, h]

@[simp] theorem updWindows_erase {l f s} (h : Block.windows ∈ l) : eraseBlocks l (State.updWindows f s) = eraseBlocks l s := by
  simp [eraseBlocks, h]

@[simp] theorem updPath_erase {l f s} (h : Block.path ∈ l) : eraseBlocks l (State.updPath f s) = eraseBlocks l s := by
  simp [eraseBlocks, h]

@[simp] theorem updInteg_erase {l f s} (h : Block.integ ∈ l) : eraseBlocks l (State.updInteg f s) = eraseBlocks l s := by
  simp [eraseBlocks, h]

@[simp] theorem updMarch_erase {l f s} (h : Block.march ∈ l) : eraseBlocks l (State.updMarch f s) = eraseBlocks l s := by
  simp [eraseBlocks, h]

@[simp] theorem updLoop_erase {l f s} (h : Block.loop ∈ l) : eraseBlocks l (State.updLoop f s) = eraseBlocks l s := by
  simp [eraseBlocks, h]

@[simp] theorem updDec_erase {l f s} (h : Block.dec ∈ l) : eraseBlocks l (State.updDec f s) = eraseBlocks l s := by
  simp [eraseBlocks, h]

@[simp] theorem updRep_erase {l f s} (h : Block.rep ∈ l) : eraseBlocks l (State.updRep f s) = eraseBlocks l s := by
  simp [eraseBlocks, h]

@[simp] theorem updFault_erase {l f s} (h : Block.fault ∈ l) : eraseBlocks l (State.updFault f s) = eraseBlocks l s := by
  simp [eraseBlocks, h]

@[simp] theorem updDram_erase {l f s} (h : Block.dram ∈ l) : eraseBlocks l (State.updDram f s) = eraseBlocks l s := by
  simp [eraseBlocks, h]

@[simp] theorem updFlips_erase {l f s} (h : Block.flips ∈ l) : eraseBlocks l (State.updFlips f s) = eraseBlocks l s := by
  simp [eraseBlocks, h]

@[simp] theorem setFreeUses_erase {l f s} (h : Block.freeUses ∈ l) : eraseBlocks l (State.setFreeUses f s) = eraseBlocks l s := by
  simp [eraseBlocks, h]

@[simp] theorem setNow_erase {l f s} (h : Block.now ∈ l) : eraseBlocks l (State.setNow f s) = eraseBlocks l s := by
  simp [eraseBlocks, h]

@[simp] theorem setOscillator_erase {l f s} (h : Block.oscillator ∈ l) : eraseBlocks l (State.setOscillator f s) = eraseBlocks l s := by
  simp [eraseBlocks, h]

/-! ### Machine/Ops.lean -/

@[simp] theorem storeLine_erase {l a b s} (h : [.dram, .flips] ⊆ l) :
    eraseBlocks l (storeLine a b s) = eraseBlocks l s := by
  simp at h
  simp [storeLine, h]

@[simp] theorem storeLine_frame {a b s} :
    (storeLine a b s).pending = s.pending ∧ (storeLine a b s).straps = s.straps ∧
    (storeLine a b s).inReset = s.inReset ∧ (storeLine a b s).oscillator = s.oscillator ∧
    (storeLine a b s).now = s.now ∧ (storeLine a b s).freeUses = s.freeUses ∧ (storeLine a b s).link = s.link ∧
    (storeLine a b s).adm = s.adm ∧ (storeLine a b s).time = s.time ∧ (storeLine a b s).xfer = s.xfer ∧
    (storeLine a b s).windows = s.windows ∧ (storeLine a b s).path = s.path ∧ (storeLine a b s).integ = s.integ ∧
    (storeLine a b s).march = s.march ∧ (storeLine a b s).loop = s.loop ∧ (storeLine a b s).dec = s.dec ∧
    (storeLine a b s).rep = s.rep ∧ (storeLine a b s).fault = s.fault := by
  simpa [eraseBlocks] using storeLine_erase (l := [.dram, .flips]) (List.Subset.refl _) (a := a) (b := b) (s := s)

/-- A fact that every step of a fold keeps, the fold keeps. -/
theorem foldl_keeps {α β : Type} (g : State → β) {f : State → α → State} (acts : List α) (s : State)
    (h : ∀ t, ∀ x ∈ acts, g (f t x) = g t) : g (acts.foldl f s) = g s :=
  List.foldlRecOn (motive := fun t => g t = g s) acts f rfl fun t ht x hx => (h t x hx).trans ht

theorem foldl_erase {l : List Block} {α : Type} {f : State → α → State} (acts : List α) (s : State)
    (h : ∀ t, ∀ x ∈ acts, eraseBlocks l (f t x) = eraseBlocks l t) :
    eraseBlocks l (acts.foldl f s) = eraseBlocks l s := foldl_keeps (eraseBlocks l) acts s h

theorem mem_permute {α : Type} {x : α} {k : Nat} {l : List α} : x ∈ permute k l ↔ x ∈ l := by
  induction l generalizing k with
  | nil => simp [permute]
  | cons y ys ih =>
    have hl : (permute (k / (ys.length + 1)) ys).length = ys.length := by
      clear ih x
      generalize k / (ys.length + 1) = m
      induction ys generalizing m with
      | nil => rfl
      | cons z zs ih => rw [permute, List.length_insertIdx_of_le_length] <;>
          simp [ih, Nat.lt_succ_iff.mp (Nat.mod_lt _ (Nat.succ_pos _))]
    rw [permute, List.mem_insertIdx, ih, List.mem_cons]
    rw [hl]; exact Nat.lt_succ_iff.mp (Nat.mod_lt _ (Nat.succ_pos _))

theorem unordered_erase {l : List Block} {acts : List (State → State)} {s : State} (hl : .freeUses ∈ l)
    (h : ∀ f ∈ acts, ∀ t, eraseBlocks l (f t) = eraseBlocks l t) :
    eraseBlocks l (unordered acts s) = eraseBlocks l s := by
  rw [unordered, foldl_erase, setFreeUses_erase hl]
  intro t f hf
  exact h f (mem_permute.mp hf) t

@[simp] theorem addReq_erase {l a b c s} (h : [.path] ⊆ l) :
    eraseBlocks l (addReq a b c s) = eraseBlocks l s := by
  simp at h
  simp [addReq, h]

@[simp] theorem addReq_frame {a b c s} :
    (addReq a b c s).pending = s.pending ∧ (addReq a b c s).straps = s.straps ∧ (addReq a b c s).inReset = s.inReset ∧
    (addReq a b c s).oscillator = s.oscillator ∧ (addReq a b c s).now = s.now ∧ (addReq a b c s).freeUses = s.freeUses ∧
    (addReq a b c s).dram = s.dram ∧ (addReq a b c s).flips = s.flips ∧ (addReq a b c s).link = s.link ∧
    (addReq a b c s).adm = s.adm ∧ (addReq a b c s).time = s.time ∧ (addReq a b c s).xfer = s.xfer ∧
    (addReq a b c s).windows = s.windows ∧ (addReq a b c s).integ = s.integ ∧ (addReq a b c s).march = s.march ∧
    (addReq a b c s).loop = s.loop ∧ (addReq a b c s).dec = s.dec ∧ (addReq a b c s).rep = s.rep ∧
    (addReq a b c s).fault = s.fault := by
  simpa [eraseBlocks] using addReq_erase (l := [.path]) (List.Subset.refl _) (a := a) (b := b) (c := c) (s := s)

@[simp] theorem makeReq_erase {l a b s} (h : [.path] ⊆ l) :
    eraseBlocks l (makeReq a b s) = eraseBlocks l s := by
  simp at h
  simp [makeReq, h]

@[simp] theorem makeReq_frame {a b s} :
    (makeReq a b s).pending = s.pending ∧ (makeReq a b s).straps = s.straps ∧ (makeReq a b s).inReset = s.inReset ∧
    (makeReq a b s).oscillator = s.oscillator ∧ (makeReq a b s).now = s.now ∧ (makeReq a b s).freeUses = s.freeUses ∧
    (makeReq a b s).dram = s.dram ∧ (makeReq a b s).flips = s.flips ∧ (makeReq a b s).link = s.link ∧
    (makeReq a b s).adm = s.adm ∧ (makeReq a b s).time = s.time ∧ (makeReq a b s).xfer = s.xfer ∧
    (makeReq a b s).windows = s.windows ∧ (makeReq a b s).integ = s.integ ∧ (makeReq a b s).march = s.march ∧
    (makeReq a b s).loop = s.loop ∧ (makeReq a b s).dec = s.dec ∧ (makeReq a b s).rep = s.rep ∧
    (makeReq a b s).fault = s.fault := by
  simpa [eraseBlocks] using makeReq_erase (l := [.path]) (List.Subset.refl _) (a := a) (b := b) (s := s)

@[simp] theorem setStage_erase {l a b s} (h : [.path] ⊆ l) :
    eraseBlocks l (setStage a b s) = eraseBlocks l s := by
  simp at h
  simp [setStage, h]

@[simp] theorem setStage_frame {a b s} :
    (setStage a b s).pending = s.pending ∧ (setStage a b s).straps = s.straps ∧ (setStage a b s).inReset = s.inReset ∧
    (setStage a b s).oscillator = s.oscillator ∧ (setStage a b s).now = s.now ∧ (setStage a b s).freeUses = s.freeUses ∧
    (setStage a b s).dram = s.dram ∧ (setStage a b s).flips = s.flips ∧ (setStage a b s).link = s.link ∧
    (setStage a b s).adm = s.adm ∧ (setStage a b s).time = s.time ∧ (setStage a b s).xfer = s.xfer ∧
    (setStage a b s).windows = s.windows ∧ (setStage a b s).integ = s.integ ∧ (setStage a b s).march = s.march ∧
    (setStage a b s).loop = s.loop ∧ (setStage a b s).dec = s.dec ∧ (setStage a b s).rep = s.rep ∧
    (setStage a b s).fault = s.fault := by
  simpa [eraseBlocks] using setStage_erase (l := [.path]) (List.Subset.refl _) (a := a) (b := b) (s := s)

@[simp] theorem dropReqs_erase {l a s} (h : [.path, .march] ⊆ l) :
    eraseBlocks l (dropReqs a s) = eraseBlocks l s := by
  simp at h
  simp [dropReqs, h]

@[simp] theorem dropReqs_frame {a s} :
    (dropReqs a s).pending = s.pending ∧ (dropReqs a s).straps = s.straps ∧ (dropReqs a s).inReset = s.inReset ∧
    (dropReqs a s).oscillator = s.oscillator ∧ (dropReqs a s).now = s.now ∧ (dropReqs a s).freeUses = s.freeUses ∧
    (dropReqs a s).dram = s.dram ∧ (dropReqs a s).flips = s.flips ∧ (dropReqs a s).link = s.link ∧
    (dropReqs a s).adm = s.adm ∧ (dropReqs a s).time = s.time ∧ (dropReqs a s).xfer = s.xfer ∧
    (dropReqs a s).windows = s.windows ∧ (dropReqs a s).integ = s.integ ∧ (dropReqs a s).loop = s.loop ∧
    (dropReqs a s).dec = s.dec ∧ (dropReqs a s).rep = s.rep ∧ (dropReqs a s).fault = s.fault := by
  simpa [eraseBlocks] using dropReqs_erase (l := [.path, .march]) (List.Subset.refl _) (a := a) (s := s)

@[simp] theorem dropReq_erase {l a s} (h : [.path, .march] ⊆ l) :
    eraseBlocks l (dropReq a s) = eraseBlocks l s := by
  simp at h
  simp [dropReq, h]

@[simp] theorem dropReq_frame {a s} :
    (dropReq a s).pending = s.pending ∧ (dropReq a s).straps = s.straps ∧ (dropReq a s).inReset = s.inReset ∧
    (dropReq a s).oscillator = s.oscillator ∧ (dropReq a s).now = s.now ∧ (dropReq a s).freeUses = s.freeUses ∧
    (dropReq a s).dram = s.dram ∧ (dropReq a s).flips = s.flips ∧ (dropReq a s).link = s.link ∧
    (dropReq a s).adm = s.adm ∧ (dropReq a s).time = s.time ∧ (dropReq a s).xfer = s.xfer ∧
    (dropReq a s).windows = s.windows ∧ (dropReq a s).integ = s.integ ∧ (dropReq a s).loop = s.loop ∧
    (dropReq a s).dec = s.dec ∧ (dropReq a s).rep = s.rep ∧ (dropReq a s).fault = s.fault := by
  simpa [eraseBlocks] using dropReq_erase (l := [.path, .march]) (List.Subset.refl _) (a := a) (s := s)

@[simp] theorem reportAt_erase {l a b c s} (h : [.rep, .path] ⊆ l) :
    eraseBlocks l (reportAt a b c s) = eraseBlocks l s := by
  simp at h
  simp only [reportAt]
  repeat' split
  all_goals simp [h]

@[simp] theorem reportAt_frame {a b c s} :
    (reportAt a b c s).pending = s.pending ∧ (reportAt a b c s).straps = s.straps ∧
    (reportAt a b c s).inReset = s.inReset ∧ (reportAt a b c s).oscillator = s.oscillator ∧
    (reportAt a b c s).now = s.now ∧ (reportAt a b c s).freeUses = s.freeUses ∧ (reportAt a b c s).dram = s.dram ∧
    (reportAt a b c s).flips = s.flips ∧ (reportAt a b c s).link = s.link ∧ (reportAt a b c s).adm = s.adm ∧
    (reportAt a b c s).time = s.time ∧ (reportAt a b c s).xfer = s.xfer ∧ (reportAt a b c s).windows = s.windows ∧
    (reportAt a b c s).integ = s.integ ∧ (reportAt a b c s).march = s.march ∧ (reportAt a b c s).loop = s.loop ∧
    (reportAt a b c s).dec = s.dec ∧ (reportAt a b c s).fault = s.fault := by
  simpa [eraseBlocks] using reportAt_erase (l := [.rep, .path]) (List.Subset.refl _) (a := a) (b := b) (c := c) (s := s)

@[simp] theorem report_erase {l a b s} (h : [.rep, .path] ⊆ l) :
    eraseBlocks l (report a b s) = eraseBlocks l s := by
  simp at h
  simp [report, h]

@[simp] theorem report_frame {a b s} :
    (report a b s).pending = s.pending ∧ (report a b s).straps = s.straps ∧ (report a b s).inReset = s.inReset ∧
    (report a b s).oscillator = s.oscillator ∧ (report a b s).now = s.now ∧ (report a b s).freeUses = s.freeUses ∧
    (report a b s).dram = s.dram ∧ (report a b s).flips = s.flips ∧ (report a b s).link = s.link ∧
    (report a b s).adm = s.adm ∧ (report a b s).time = s.time ∧ (report a b s).xfer = s.xfer ∧
    (report a b s).windows = s.windows ∧ (report a b s).integ = s.integ ∧ (report a b s).march = s.march ∧
    (report a b s).loop = s.loop ∧ (report a b s).dec = s.dec ∧ (report a b s).fault = s.fault := by
  simpa [eraseBlocks] using report_erase (l := [.rep, .path]) (List.Subset.refl _) (a := a) (b := b) (s := s)

@[simp] theorem evalFaultLine_erase {l  s} (h : [.fault] ⊆ l) :
    eraseBlocks l (evalFaultLine s) = eraseBlocks l s := by
  simp at h
  simp [evalFaultLine, h]

@[simp] theorem evalFaultLine_frame {s : State} :
    (evalFaultLine s).pending = s.pending ∧ (evalFaultLine s).straps = s.straps ∧
    (evalFaultLine s).inReset = s.inReset ∧ (evalFaultLine s).oscillator = s.oscillator ∧
    (evalFaultLine s).now = s.now ∧ (evalFaultLine s).freeUses = s.freeUses ∧ (evalFaultLine s).dram = s.dram ∧
    (evalFaultLine s).flips = s.flips ∧ (evalFaultLine s).link = s.link ∧ (evalFaultLine s).adm = s.adm ∧
    (evalFaultLine s).time = s.time ∧ (evalFaultLine s).xfer = s.xfer ∧ (evalFaultLine s).windows = s.windows ∧
    (evalFaultLine s).path = s.path ∧ (evalFaultLine s).integ = s.integ ∧ (evalFaultLine s).march = s.march ∧
    (evalFaultLine s).loop = s.loop ∧ (evalFaultLine s).dec = s.dec ∧ (evalFaultLine s).rep = s.rep := by
  simpa [eraseBlocks] using evalFaultLine_erase (l := [.fault]) (List.Subset.refl _) (s := s)

@[simp] theorem reportFault_erase {l a b c s} (h : [.rep, .path] ⊆ l) :
    eraseBlocks l (reportFault a b c s) = eraseBlocks l s := by
  simp at h
  simp only [reportFault]
  repeat' split
  all_goals simp [h]

@[simp] theorem reportFault_frame {a b c s} :
    (reportFault a b c s).pending = s.pending ∧ (reportFault a b c s).straps = s.straps ∧
    (reportFault a b c s).inReset = s.inReset ∧ (reportFault a b c s).oscillator = s.oscillator ∧
    (reportFault a b c s).now = s.now ∧ (reportFault a b c s).freeUses = s.freeUses ∧
    (reportFault a b c s).dram = s.dram ∧ (reportFault a b c s).flips = s.flips ∧ (reportFault a b c s).link = s.link ∧
    (reportFault a b c s).adm = s.adm ∧ (reportFault a b c s).time = s.time ∧ (reportFault a b c s).xfer = s.xfer ∧
    (reportFault a b c s).windows = s.windows ∧ (reportFault a b c s).integ = s.integ ∧
    (reportFault a b c s).march = s.march ∧ (reportFault a b c s).loop = s.loop ∧ (reportFault a b c s).dec = s.dec ∧
    (reportFault a b c s).fault = s.fault := by
  simpa [eraseBlocks] using reportFault_erase (l := [.rep, .path]) (List.Subset.refl _) (a := a) (b := b) (c := c) (s := s)

@[simp] theorem changeCondition_erase {l a b c s} (h : [.fault, .rep, .path] ⊆ l) :
    eraseBlocks l (changeCondition a b c s) = eraseBlocks l s := by
  simp at h
  simp [changeCondition, h]

@[simp] theorem changeCondition_frame {a b c s} :
    (changeCondition a b c s).pending = s.pending ∧ (changeCondition a b c s).straps = s.straps ∧
    (changeCondition a b c s).inReset = s.inReset ∧ (changeCondition a b c s).oscillator = s.oscillator ∧
    (changeCondition a b c s).now = s.now ∧ (changeCondition a b c s).freeUses = s.freeUses ∧
    (changeCondition a b c s).dram = s.dram ∧ (changeCondition a b c s).flips = s.flips ∧
    (changeCondition a b c s).link = s.link ∧ (changeCondition a b c s).adm = s.adm ∧
    (changeCondition a b c s).time = s.time ∧ (changeCondition a b c s).xfer = s.xfer ∧
    (changeCondition a b c s).windows = s.windows ∧ (changeCondition a b c s).integ = s.integ ∧
    (changeCondition a b c s).march = s.march ∧ (changeCondition a b c s).loop = s.loop ∧
    (changeCondition a b c s).dec = s.dec := by
  simpa [eraseBlocks] using changeCondition_erase (l := [.fault, .rep, .path]) (List.Subset.refl _) (a := a) (b := b) (c := c) (s := s)

@[simp] theorem setLevel_erase {l a b s} (h : [.fault, .rep, .path] ⊆ l) :
    eraseBlocks l (setLevel a b s) = eraseBlocks l s := by
  simp at h
  simp only [setLevel]
  repeat' split
  all_goals simp [h]

@[simp] theorem setLevel_frame {a b s} :
    (setLevel a b s).pending = s.pending ∧ (setLevel a b s).straps = s.straps ∧ (setLevel a b s).inReset = s.inReset ∧
    (setLevel a b s).oscillator = s.oscillator ∧ (setLevel a b s).now = s.now ∧ (setLevel a b s).freeUses = s.freeUses ∧
    (setLevel a b s).dram = s.dram ∧ (setLevel a b s).flips = s.flips ∧ (setLevel a b s).link = s.link ∧
    (setLevel a b s).adm = s.adm ∧ (setLevel a b s).time = s.time ∧ (setLevel a b s).xfer = s.xfer ∧
    (setLevel a b s).windows = s.windows ∧ (setLevel a b s).integ = s.integ ∧ (setLevel a b s).march = s.march ∧
    (setLevel a b s).loop = s.loop ∧ (setLevel a b s).dec = s.dec := by
  simpa [eraseBlocks] using setLevel_erase (l := [.fault, .rep, .path]) (List.Subset.refl _) (a := a) (b := b) (s := s)

@[simp] theorem raiseCondition_erase {l a s} (h : [.fault, .rep, .path] ⊆ l) :
    eraseBlocks l (raiseCondition a s) = eraseBlocks l s := by
  simp at h
  simp [raiseCondition, h]

@[simp] theorem raiseCondition_frame {a s} :
    (raiseCondition a s).pending = s.pending ∧ (raiseCondition a s).straps = s.straps ∧
    (raiseCondition a s).inReset = s.inReset ∧ (raiseCondition a s).oscillator = s.oscillator ∧
    (raiseCondition a s).now = s.now ∧ (raiseCondition a s).freeUses = s.freeUses ∧ (raiseCondition a s).dram = s.dram ∧
    (raiseCondition a s).flips = s.flips ∧ (raiseCondition a s).link = s.link ∧ (raiseCondition a s).adm = s.adm ∧
    (raiseCondition a s).time = s.time ∧ (raiseCondition a s).xfer = s.xfer ∧ (raiseCondition a s).windows = s.windows ∧
    (raiseCondition a s).integ = s.integ ∧ (raiseCondition a s).march = s.march ∧ (raiseCondition a s).loop = s.loop ∧
    (raiseCondition a s).dec = s.dec := by
  simpa [eraseBlocks] using raiseCondition_erase (l := [.fault, .rep, .path]) (List.Subset.refl _) (a := a) (s := s)

@[simp] theorem stepEpoch_erase {l  s} (h : [.time] ⊆ l) :
    eraseBlocks l (stepEpoch s) = eraseBlocks l s := by
  simp at h
  simp [stepEpoch, h]

@[simp] theorem stepEpoch_frame {s : State} :
    (stepEpoch s).pending = s.pending ∧ (stepEpoch s).straps = s.straps ∧ (stepEpoch s).inReset = s.inReset ∧
    (stepEpoch s).oscillator = s.oscillator ∧ (stepEpoch s).now = s.now ∧ (stepEpoch s).freeUses = s.freeUses ∧
    (stepEpoch s).dram = s.dram ∧ (stepEpoch s).flips = s.flips ∧ (stepEpoch s).link = s.link ∧
    (stepEpoch s).adm = s.adm ∧ (stepEpoch s).xfer = s.xfer ∧ (stepEpoch s).windows = s.windows ∧
    (stepEpoch s).path = s.path ∧ (stepEpoch s).integ = s.integ ∧ (stepEpoch s).march = s.march ∧
    (stepEpoch s).loop = s.loop ∧ (stepEpoch s).dec = s.dec ∧ (stepEpoch s).rep = s.rep ∧
    (stepEpoch s).fault = s.fault := by
  simpa [eraseBlocks] using stepEpoch_erase (l := [.time]) (List.Subset.refl _) (s := s)

@[simp] theorem postSlot_erase {l a b s} (h : [.xfer] ⊆ l) :
    eraseBlocks l (postSlot a b s) = eraseBlocks l s := by
  simp at h
  simp [postSlot, h]

@[simp] theorem postSlot_frame {a b s} :
    (postSlot a b s).pending = s.pending ∧ (postSlot a b s).straps = s.straps ∧ (postSlot a b s).inReset = s.inReset ∧
    (postSlot a b s).oscillator = s.oscillator ∧ (postSlot a b s).now = s.now ∧ (postSlot a b s).freeUses = s.freeUses ∧
    (postSlot a b s).dram = s.dram ∧ (postSlot a b s).flips = s.flips ∧ (postSlot a b s).link = s.link ∧
    (postSlot a b s).adm = s.adm ∧ (postSlot a b s).time = s.time ∧ (postSlot a b s).windows = s.windows ∧
    (postSlot a b s).path = s.path ∧ (postSlot a b s).integ = s.integ ∧ (postSlot a b s).march = s.march ∧
    (postSlot a b s).loop = s.loop ∧ (postSlot a b s).dec = s.dec ∧ (postSlot a b s).rep = s.rep ∧
    (postSlot a b s).fault = s.fault := by
  simpa [eraseBlocks] using postSlot_erase (l := [.xfer]) (List.Subset.refl _) (a := a) (b := b) (s := s)

@[simp] theorem freeSlot_erase {l a s} (h : [.xfer] ⊆ l) :
    eraseBlocks l (freeSlot a s) = eraseBlocks l s := by
  simp at h
  simp [freeSlot, h]

@[simp] theorem freeSlot_frame {a s} :
    (freeSlot a s).pending = s.pending ∧ (freeSlot a s).straps = s.straps ∧ (freeSlot a s).inReset = s.inReset ∧
    (freeSlot a s).oscillator = s.oscillator ∧ (freeSlot a s).now = s.now ∧ (freeSlot a s).freeUses = s.freeUses ∧
    (freeSlot a s).dram = s.dram ∧ (freeSlot a s).flips = s.flips ∧ (freeSlot a s).link = s.link ∧
    (freeSlot a s).adm = s.adm ∧ (freeSlot a s).time = s.time ∧ (freeSlot a s).windows = s.windows ∧
    (freeSlot a s).path = s.path ∧ (freeSlot a s).integ = s.integ ∧ (freeSlot a s).march = s.march ∧
    (freeSlot a s).loop = s.loop ∧ (freeSlot a s).dec = s.dec ∧ (freeSlot a s).rep = s.rep ∧
    (freeSlot a s).fault = s.fault := by
  simpa [eraseBlocks] using freeSlot_erase (l := [.xfer]) (List.Subset.refl _) (a := a) (s := s)

/-! ### Machine/TimeUnit.lean -/

@[simp] theorem afterTimeChange_erase {l a b c d s} (h : [.time, .xfer, .rep, .path] ⊆ l) :
    eraseBlocks l (afterTimeChange a b c d s) = eraseBlocks l s := by
  simp at h
  simp [afterTimeChange, h]

@[simp] theorem afterTimeChange_frame {a b c d s} :
    (afterTimeChange a b c d s).pending = s.pending ∧ (afterTimeChange a b c d s).straps = s.straps ∧
    (afterTimeChange a b c d s).inReset = s.inReset ∧ (afterTimeChange a b c d s).oscillator = s.oscillator ∧
    (afterTimeChange a b c d s).now = s.now ∧ (afterTimeChange a b c d s).freeUses = s.freeUses ∧
    (afterTimeChange a b c d s).dram = s.dram ∧ (afterTimeChange a b c d s).flips = s.flips ∧
    (afterTimeChange a b c d s).link = s.link ∧ (afterTimeChange a b c d s).adm = s.adm ∧
    (afterTimeChange a b c d s).windows = s.windows ∧ (afterTimeChange a b c d s).integ = s.integ ∧
    (afterTimeChange a b c d s).march = s.march ∧ (afterTimeChange a b c d s).loop = s.loop ∧
    (afterTimeChange a b c d s).dec = s.dec ∧ (afterTimeChange a b c d s).fault = s.fault := by
  simpa [eraseBlocks] using afterTimeChange_erase (l := [.time, .xfer, .rep, .path]) (List.Subset.refl _) (a := a) (b := b) (c := c) (d := d) (s := s)

@[simp] theorem phaseStep_erase {l a s} (h : [.time, .xfer, .rep, .path] ⊆ l) :
    eraseBlocks l (phaseStep a s) = eraseBlocks l s := by
  simp at h
  simp only [phaseStep]
  repeat' split
  all_goals simp [h]

@[simp] theorem phaseStep_frame {a s} :
    (phaseStep a s).pending = s.pending ∧ (phaseStep a s).straps = s.straps ∧ (phaseStep a s).inReset = s.inReset ∧
    (phaseStep a s).oscillator = s.oscillator ∧ (phaseStep a s).now = s.now ∧ (phaseStep a s).freeUses = s.freeUses ∧
    (phaseStep a s).dram = s.dram ∧ (phaseStep a s).flips = s.flips ∧ (phaseStep a s).link = s.link ∧
    (phaseStep a s).adm = s.adm ∧ (phaseStep a s).windows = s.windows ∧ (phaseStep a s).integ = s.integ ∧
    (phaseStep a s).march = s.march ∧ (phaseStep a s).loop = s.loop ∧ (phaseStep a s).dec = s.dec ∧
    (phaseStep a s).fault = s.fault := by
  simpa [eraseBlocks] using phaseStep_erase (l := [.time, .xfer, .rep, .path]) (List.Subset.refl _) (a := a) (s := s)

@[simp] theorem setCounter_erase {l a b s} (h : [.time, .xfer, .rep, .path] ⊆ l) :
    eraseBlocks l (setCounter a b s) = eraseBlocks l s := by
  simp at h
  simp [setCounter, h]

@[simp] theorem setCounter_frame {a b s} :
    (setCounter a b s).pending = s.pending ∧ (setCounter a b s).straps = s.straps ∧
    (setCounter a b s).inReset = s.inReset ∧ (setCounter a b s).oscillator = s.oscillator ∧
    (setCounter a b s).now = s.now ∧ (setCounter a b s).freeUses = s.freeUses ∧ (setCounter a b s).dram = s.dram ∧
    (setCounter a b s).flips = s.flips ∧ (setCounter a b s).link = s.link ∧ (setCounter a b s).adm = s.adm ∧
    (setCounter a b s).windows = s.windows ∧ (setCounter a b s).integ = s.integ ∧ (setCounter a b s).march = s.march ∧
    (setCounter a b s).loop = s.loop ∧ (setCounter a b s).dec = s.dec ∧ (setCounter a b s).fault = s.fault := by
  simpa [eraseBlocks] using setCounter_erase (l := [.time, .xfer, .rep, .path]) (List.Subset.refl _) (a := a) (b := b) (s := s)

@[simp] theorem countStamp_erase {l a s} (h : [.time] ⊆ l) :
    eraseBlocks l (countStamp a s) = eraseBlocks l s := by
  simp at h
  simp only [countStamp]
  repeat' split
  all_goals simp [h]

@[simp] theorem countStamp_frame {a s} :
    (countStamp a s).pending = s.pending ∧ (countStamp a s).straps = s.straps ∧ (countStamp a s).inReset = s.inReset ∧
    (countStamp a s).oscillator = s.oscillator ∧ (countStamp a s).now = s.now ∧ (countStamp a s).freeUses = s.freeUses ∧
    (countStamp a s).dram = s.dram ∧ (countStamp a s).flips = s.flips ∧ (countStamp a s).link = s.link ∧
    (countStamp a s).adm = s.adm ∧ (countStamp a s).xfer = s.xfer ∧ (countStamp a s).windows = s.windows ∧
    (countStamp a s).path = s.path ∧ (countStamp a s).integ = s.integ ∧ (countStamp a s).march = s.march ∧
    (countStamp a s).loop = s.loop ∧ (countStamp a s).dec = s.dec ∧ (countStamp a s).rep = s.rep ∧
    (countStamp a s).fault = s.fault := by
  simpa [eraseBlocks] using countStamp_erase (l := [.time]) (List.Subset.refl _) (a := a) (s := s)

@[simp] theorem sendTod_erase {l a s} (h : [.time] ⊆ l) :
    eraseBlocks l (sendTod a s) = eraseBlocks l s := by
  simp at h
  simp [sendTod, h]

@[simp] theorem sendTod_frame {a s} :
    (sendTod a s).pending = s.pending ∧ (sendTod a s).straps = s.straps ∧ (sendTod a s).inReset = s.inReset ∧
    (sendTod a s).oscillator = s.oscillator ∧ (sendTod a s).now = s.now ∧ (sendTod a s).freeUses = s.freeUses ∧
    (sendTod a s).dram = s.dram ∧ (sendTod a s).flips = s.flips ∧ (sendTod a s).link = s.link ∧
    (sendTod a s).adm = s.adm ∧ (sendTod a s).xfer = s.xfer ∧ (sendTod a s).windows = s.windows ∧
    (sendTod a s).path = s.path ∧ (sendTod a s).integ = s.integ ∧ (sendTod a s).march = s.march ∧
    (sendTod a s).loop = s.loop ∧ (sendTod a s).dec = s.dec ∧ (sendTod a s).rep = s.rep ∧
    (sendTod a s).fault = s.fault := by
  simpa [eraseBlocks] using sendTod_erase (l := [.time]) (List.Subset.refl _) (a := a) (s := s)

@[simp] theorem endTod_erase {l  s} (h : [.time] ⊆ l) :
    eraseBlocks l (endTod s) = eraseBlocks l s := by
  simp at h
  simp [endTod, h]

@[simp] theorem endTod_frame {s : State} :
    (endTod s).pending = s.pending ∧ (endTod s).straps = s.straps ∧ (endTod s).inReset = s.inReset ∧
    (endTod s).oscillator = s.oscillator ∧ (endTod s).now = s.now ∧ (endTod s).freeUses = s.freeUses ∧
    (endTod s).dram = s.dram ∧ (endTod s).flips = s.flips ∧ (endTod s).link = s.link ∧ (endTod s).adm = s.adm ∧
    (endTod s).xfer = s.xfer ∧ (endTod s).windows = s.windows ∧ (endTod s).path = s.path ∧ (endTod s).integ = s.integ ∧
    (endTod s).march = s.march ∧ (endTod s).loop = s.loop ∧ (endTod s).dec = s.dec ∧ (endTod s).rep = s.rep ∧
    (endTod s).fault = s.fault := by
  simpa [eraseBlocks] using endTod_erase (l := [.time]) (List.Subset.refl _) (s := s)

@[simp] theorem startPulse_erase {l  s} (h : [.time] ⊆ l) :
    eraseBlocks l (startPulse s) = eraseBlocks l s := by
  simp at h
  simp [startPulse, h]

@[simp] theorem startPulse_frame {s : State} :
    (startPulse s).pending = s.pending ∧ (startPulse s).straps = s.straps ∧ (startPulse s).inReset = s.inReset ∧
    (startPulse s).oscillator = s.oscillator ∧ (startPulse s).now = s.now ∧ (startPulse s).freeUses = s.freeUses ∧
    (startPulse s).dram = s.dram ∧ (startPulse s).flips = s.flips ∧ (startPulse s).link = s.link ∧
    (startPulse s).adm = s.adm ∧ (startPulse s).xfer = s.xfer ∧ (startPulse s).windows = s.windows ∧
    (startPulse s).path = s.path ∧ (startPulse s).integ = s.integ ∧ (startPulse s).march = s.march ∧
    (startPulse s).loop = s.loop ∧ (startPulse s).dec = s.dec ∧ (startPulse s).rep = s.rep ∧
    (startPulse s).fault = s.fault := by
  simpa [eraseBlocks] using startPulse_erase (l := [.time]) (List.Subset.refl _) (s := s)

/-! ### Machine/Loopback.lean -/

@[simp] theorem reportLoopDone_erase {l  s} (h : [.rep, .path] ⊆ l) :
    eraseBlocks l (reportLoopDone s) = eraseBlocks l s := by
  simp at h
  simp [reportLoopDone, h]

@[simp] theorem reportLoopDone_frame {s : State} :
    (reportLoopDone s).pending = s.pending ∧ (reportLoopDone s).straps = s.straps ∧
    (reportLoopDone s).inReset = s.inReset ∧ (reportLoopDone s).oscillator = s.oscillator ∧
    (reportLoopDone s).now = s.now ∧ (reportLoopDone s).freeUses = s.freeUses ∧ (reportLoopDone s).dram = s.dram ∧
    (reportLoopDone s).flips = s.flips ∧ (reportLoopDone s).link = s.link ∧ (reportLoopDone s).adm = s.adm ∧
    (reportLoopDone s).time = s.time ∧ (reportLoopDone s).xfer = s.xfer ∧ (reportLoopDone s).windows = s.windows ∧
    (reportLoopDone s).integ = s.integ ∧ (reportLoopDone s).march = s.march ∧ (reportLoopDone s).loop = s.loop ∧
    (reportLoopDone s).dec = s.dec ∧ (reportLoopDone s).fault = s.fault := by
  simpa [eraseBlocks] using reportLoopDone_erase (l := [.rep, .path]) (List.Subset.refl _) (s := s)

@[simp] theorem endLoop_erase {l  s} (h : [.loop, .rep, .path, .fault] ⊆ l) :
    eraseBlocks l (endLoop s) = eraseBlocks l s := by
  simp at h
  simp only [endLoop]
  repeat' split
  all_goals simp [h]

@[simp] theorem endLoop_frame {s : State} :
    (endLoop s).pending = s.pending ∧ (endLoop s).straps = s.straps ∧ (endLoop s).inReset = s.inReset ∧
    (endLoop s).oscillator = s.oscillator ∧ (endLoop s).now = s.now ∧ (endLoop s).freeUses = s.freeUses ∧
    (endLoop s).dram = s.dram ∧ (endLoop s).flips = s.flips ∧ (endLoop s).link = s.link ∧ (endLoop s).adm = s.adm ∧
    (endLoop s).time = s.time ∧ (endLoop s).xfer = s.xfer ∧ (endLoop s).windows = s.windows ∧
    (endLoop s).integ = s.integ ∧ (endLoop s).march = s.march ∧ (endLoop s).dec = s.dec := by
  simpa [eraseBlocks] using endLoop_erase (l := [.loop, .rep, .path, .fault]) (List.Subset.refl _) (s := s)

@[simp] theorem loopCheckEnd_erase {l  s} (h : [.loop, .rep, .path, .fault] ⊆ l) :
    eraseBlocks l (loopCheckEnd s) = eraseBlocks l s := by
  simp at h
  simp only [loopCheckEnd]
  repeat' split
  all_goals simp [h]

@[simp] theorem loopCheckEnd_frame {s : State} :
    (loopCheckEnd s).pending = s.pending ∧ (loopCheckEnd s).straps = s.straps ∧ (loopCheckEnd s).inReset = s.inReset ∧
    (loopCheckEnd s).oscillator = s.oscillator ∧ (loopCheckEnd s).now = s.now ∧ (loopCheckEnd s).freeUses = s.freeUses ∧
    (loopCheckEnd s).dram = s.dram ∧ (loopCheckEnd s).flips = s.flips ∧ (loopCheckEnd s).link = s.link ∧
    (loopCheckEnd s).adm = s.adm ∧ (loopCheckEnd s).time = s.time ∧ (loopCheckEnd s).xfer = s.xfer ∧
    (loopCheckEnd s).windows = s.windows ∧ (loopCheckEnd s).integ = s.integ ∧ (loopCheckEnd s).march = s.march ∧
    (loopCheckEnd s).dec = s.dec := by
  simpa [eraseBlocks] using loopCheckEnd_erase (l := [.loop, .rep, .path, .fault]) (List.Subset.refl _) (s := s)

@[simp] theorem abortLoop_erase {l a s} (h : [.loop, .rep, .path] ⊆ l) :
    eraseBlocks l (abortLoop a s) = eraseBlocks l s := by
  simp at h
  simp only [abortLoop]
  repeat' split
  all_goals simp [h]

@[simp] theorem abortLoop_frame {a s} :
    (abortLoop a s).pending = s.pending ∧ (abortLoop a s).straps = s.straps ∧ (abortLoop a s).inReset = s.inReset ∧
    (abortLoop a s).oscillator = s.oscillator ∧ (abortLoop a s).now = s.now ∧ (abortLoop a s).freeUses = s.freeUses ∧
    (abortLoop a s).dram = s.dram ∧ (abortLoop a s).flips = s.flips ∧ (abortLoop a s).link = s.link ∧
    (abortLoop a s).adm = s.adm ∧ (abortLoop a s).time = s.time ∧ (abortLoop a s).xfer = s.xfer ∧
    (abortLoop a s).windows = s.windows ∧ (abortLoop a s).integ = s.integ ∧ (abortLoop a s).march = s.march ∧
    (abortLoop a s).dec = s.dec ∧ (abortLoop a s).fault = s.fault := by
  simpa [eraseBlocks] using abortLoop_erase (l := [.loop, .rep, .path]) (List.Subset.refl _) (a := a) (s := s)

@[simp] theorem loopDescriptorEvent_erase {l a b c s} (h : [.loop, .rep, .path, .fault] ⊆ l) :
    eraseBlocks l (loopDescriptorEvent a b c s) = eraseBlocks l s := by
  simp at h
  simp only [loopDescriptorEvent]
  repeat' split
  all_goals simp [h]

@[simp] theorem loopDescriptorEvent_frame {a b c s} :
    (loopDescriptorEvent a b c s).pending = s.pending ∧ (loopDescriptorEvent a b c s).straps = s.straps ∧
    (loopDescriptorEvent a b c s).inReset = s.inReset ∧ (loopDescriptorEvent a b c s).oscillator = s.oscillator ∧
    (loopDescriptorEvent a b c s).now = s.now ∧ (loopDescriptorEvent a b c s).freeUses = s.freeUses ∧
    (loopDescriptorEvent a b c s).dram = s.dram ∧ (loopDescriptorEvent a b c s).flips = s.flips ∧
    (loopDescriptorEvent a b c s).link = s.link ∧ (loopDescriptorEvent a b c s).adm = s.adm ∧
    (loopDescriptorEvent a b c s).time = s.time ∧ (loopDescriptorEvent a b c s).xfer = s.xfer ∧
    (loopDescriptorEvent a b c s).windows = s.windows ∧ (loopDescriptorEvent a b c s).integ = s.integ ∧
    (loopDescriptorEvent a b c s).march = s.march ∧ (loopDescriptorEvent a b c s).dec = s.dec := by
  simpa [eraseBlocks] using loopDescriptorEvent_erase (l := [.loop, .rep, .path, .fault]) (List.Subset.refl _) (a := a) (b := b) (c := c) (s := s)

@[simp] theorem loopReturn_erase {l a b s} (h : [.loop, .rep, .path, .fault] ⊆ l) :
    eraseBlocks l (loopReturn a b s) = eraseBlocks l s := by
  simp at h
  simp only [loopReturn]
  repeat' split
  all_goals simp [h]

@[simp] theorem loopReturn_frame {a b s} :
    (loopReturn a b s).pending = s.pending ∧ (loopReturn a b s).straps = s.straps ∧
    (loopReturn a b s).inReset = s.inReset ∧ (loopReturn a b s).oscillator = s.oscillator ∧
    (loopReturn a b s).now = s.now ∧ (loopReturn a b s).freeUses = s.freeUses ∧ (loopReturn a b s).dram = s.dram ∧
    (loopReturn a b s).flips = s.flips ∧ (loopReturn a b s).link = s.link ∧ (loopReturn a b s).adm = s.adm ∧
    (loopReturn a b s).time = s.time ∧ (loopReturn a b s).xfer = s.xfer ∧ (loopReturn a b s).windows = s.windows ∧
    (loopReturn a b s).integ = s.integ ∧ (loopReturn a b s).march = s.march ∧ (loopReturn a b s).dec = s.dec := by
  simpa [eraseBlocks] using loopReturn_erase (l := [.loop, .rep, .path, .fault]) (List.Subset.refl _) (a := a) (b := b) (s := s)

@[simp] theorem makeTestLines_erase {l a b c d e n s} (h : [.path] ⊆ l) :
    eraseBlocks l (makeTestLines a b c d e n s) = eraseBlocks l s := by
  induction n with
  | zero => rfl
  | succ n ih => simp [makeTestLines, h, ih]

@[simp] theorem makeTestLines_frame {a b c d e n s} :
    (makeTestLines a b c d e n s).pending = s.pending ∧ (makeTestLines a b c d e n s).straps = s.straps ∧
    (makeTestLines a b c d e n s).inReset = s.inReset ∧ (makeTestLines a b c d e n s).oscillator = s.oscillator ∧
    (makeTestLines a b c d e n s).now = s.now ∧ (makeTestLines a b c d e n s).freeUses = s.freeUses ∧
    (makeTestLines a b c d e n s).dram = s.dram ∧ (makeTestLines a b c d e n s).flips = s.flips ∧
    (makeTestLines a b c d e n s).link = s.link ∧ (makeTestLines a b c d e n s).adm = s.adm ∧
    (makeTestLines a b c d e n s).time = s.time ∧ (makeTestLines a b c d e n s).xfer = s.xfer ∧
    (makeTestLines a b c d e n s).windows = s.windows ∧ (makeTestLines a b c d e n s).integ = s.integ ∧
    (makeTestLines a b c d e n s).march = s.march ∧ (makeTestLines a b c d e n s).loop = s.loop ∧
    (makeTestLines a b c d e n s).dec = s.dec ∧ (makeTestLines a b c d e n s).rep = s.rep ∧
    (makeTestLines a b c d e n s).fault = s.fault := by
  simpa [eraseBlocks] using makeTestLines_erase (l := [.path]) (List.Subset.refl _) (a := a) (b := b) (c := c) (d := d) (e := e) (n := n) (s := s)

@[simp] theorem generateFrame_erase {l a b s} (h : [.xfer, .path, .loop] ⊆ l) :
    eraseBlocks l (generateFrame a b s) = eraseBlocks l s := by
  simp at h
  simp [generateFrame, h]

@[simp] theorem generateFrame_frame {a b s} :
    (generateFrame a b s).pending = s.pending ∧ (generateFrame a b s).straps = s.straps ∧
    (generateFrame a b s).inReset = s.inReset ∧ (generateFrame a b s).oscillator = s.oscillator ∧
    (generateFrame a b s).now = s.now ∧ (generateFrame a b s).freeUses = s.freeUses ∧
    (generateFrame a b s).dram = s.dram ∧ (generateFrame a b s).flips = s.flips ∧ (generateFrame a b s).link = s.link ∧
    (generateFrame a b s).adm = s.adm ∧ (generateFrame a b s).time = s.time ∧
    (generateFrame a b s).windows = s.windows ∧ (generateFrame a b s).integ = s.integ ∧
    (generateFrame a b s).march = s.march ∧ (generateFrame a b s).dec = s.dec ∧ (generateFrame a b s).rep = s.rep ∧
    (generateFrame a b s).fault = s.fault := by
  simpa [eraseBlocks] using generateFrame_erase (l := [.xfer, .path, .loop]) (List.Subset.refl _) (a := a) (b := b) (s := s)

@[simp] theorem trySend_erase {l  s} (h : [.xfer, .path, .loop] ⊆ l) :
    eraseBlocks l (trySend s) = eraseBlocks l s := by
  simp at h
  simp only [trySend]
  repeat' split
  all_goals simp [h]

@[simp] theorem trySend_frame {s : State} :
    (trySend s).pending = s.pending ∧ (trySend s).straps = s.straps ∧ (trySend s).inReset = s.inReset ∧
    (trySend s).oscillator = s.oscillator ∧ (trySend s).now = s.now ∧ (trySend s).freeUses = s.freeUses ∧
    (trySend s).dram = s.dram ∧ (trySend s).flips = s.flips ∧ (trySend s).link = s.link ∧ (trySend s).adm = s.adm ∧
    (trySend s).time = s.time ∧ (trySend s).windows = s.windows ∧ (trySend s).integ = s.integ ∧
    (trySend s).march = s.march ∧ (trySend s).dec = s.dec ∧ (trySend s).rep = s.rep ∧ (trySend s).fault = s.fault := by
  simpa [eraseBlocks] using trySend_erase (l := [.xfer, .path, .loop]) (List.Subset.refl _) (s := s)

@[simp] theorem sendExpiry_erase {l  s} (h : [.xfer, .path, .loop] ⊆ l) :
    eraseBlocks l (sendExpiry s) = eraseBlocks l s := by
  simp at h
  simp [sendExpiry, h]

@[simp] theorem sendExpiry_frame {s : State} :
    (sendExpiry s).pending = s.pending ∧ (sendExpiry s).straps = s.straps ∧ (sendExpiry s).inReset = s.inReset ∧
    (sendExpiry s).oscillator = s.oscillator ∧ (sendExpiry s).now = s.now ∧ (sendExpiry s).freeUses = s.freeUses ∧
    (sendExpiry s).dram = s.dram ∧ (sendExpiry s).flips = s.flips ∧ (sendExpiry s).link = s.link ∧
    (sendExpiry s).adm = s.adm ∧ (sendExpiry s).time = s.time ∧ (sendExpiry s).windows = s.windows ∧
    (sendExpiry s).integ = s.integ ∧ (sendExpiry s).march = s.march ∧ (sendExpiry s).dec = s.dec ∧
    (sendExpiry s).rep = s.rep ∧ (sendExpiry s).fault = s.fault := by
  simpa [eraseBlocks] using sendExpiry_erase (l := [.xfer, .path, .loop]) (List.Subset.refl _) (s := s)

/-! ### Machine/TimeTransfer.lean -/

@[simp] theorem xferCount_erase {l a s} (h : [.xfer] ⊆ l) :
    eraseBlocks l (xferCount a s) = eraseBlocks l s := by
  simp at h
  simp [xferCount, h]

@[simp] theorem xferCount_frame {a s} :
    (xferCount a s).pending = s.pending ∧ (xferCount a s).straps = s.straps ∧ (xferCount a s).inReset = s.inReset ∧
    (xferCount a s).oscillator = s.oscillator ∧ (xferCount a s).now = s.now ∧ (xferCount a s).freeUses = s.freeUses ∧
    (xferCount a s).dram = s.dram ∧ (xferCount a s).flips = s.flips ∧ (xferCount a s).link = s.link ∧
    (xferCount a s).adm = s.adm ∧ (xferCount a s).time = s.time ∧ (xferCount a s).windows = s.windows ∧
    (xferCount a s).path = s.path ∧ (xferCount a s).integ = s.integ ∧ (xferCount a s).march = s.march ∧
    (xferCount a s).loop = s.loop ∧ (xferCount a s).dec = s.dec ∧ (xferCount a s).rep = s.rep ∧
    (xferCount a s).fault = s.fault := by
  simpa [eraseBlocks] using xferCount_erase (l := [.xfer]) (List.Subset.refl _) (a := a) (s := s)

@[simp] theorem moveTiming_erase {l a b c s} (h : [.xfer, .rep, .path, .fault, .freeUses] ⊆ l) :
    eraseBlocks l (moveTiming a b c s) = eraseBlocks l s := by
  simp at h
  simp only [moveTiming]
  split
  · simp [h]
  · rw [unordered_erase (by simp [h])] <;> simp [h]

@[simp] theorem moveTiming_frame {a b c s} :
    (moveTiming a b c s).pending = s.pending ∧ (moveTiming a b c s).straps = s.straps ∧
    (moveTiming a b c s).inReset = s.inReset ∧ (moveTiming a b c s).oscillator = s.oscillator ∧
    (moveTiming a b c s).now = s.now ∧ (moveTiming a b c s).dram = s.dram ∧ (moveTiming a b c s).flips = s.flips ∧
    (moveTiming a b c s).link = s.link ∧ (moveTiming a b c s).adm = s.adm ∧ (moveTiming a b c s).time = s.time ∧
    (moveTiming a b c s).windows = s.windows ∧ (moveTiming a b c s).integ = s.integ ∧
    (moveTiming a b c s).march = s.march ∧ (moveTiming a b c s).loop = s.loop ∧ (moveTiming a b c s).dec = s.dec := by
  simpa [eraseBlocks] using moveTiming_erase (l := [.xfer, .rep, .path, .fault, .freeUses]) (List.Subset.refl _) (a := a) (b := b) (c := c) (s := s)

@[simp] theorem enterHoldover_erase {l a s} (h : [.time, .xfer, .rep, .path, .fault, .freeUses] ⊆ l) :
    eraseBlocks l (enterHoldover a s) = eraseBlocks l s := by
  simp at h
  simp [enterHoldover, h]

@[simp] theorem enterHoldover_frame {a s} :
    (enterHoldover a s).pending = s.pending ∧ (enterHoldover a s).straps = s.straps ∧
    (enterHoldover a s).inReset = s.inReset ∧ (enterHoldover a s).oscillator = s.oscillator ∧
    (enterHoldover a s).now = s.now ∧ (enterHoldover a s).dram = s.dram ∧ (enterHoldover a s).flips = s.flips ∧
    (enterHoldover a s).link = s.link ∧ (enterHoldover a s).adm = s.adm ∧ (enterHoldover a s).windows = s.windows ∧
    (enterHoldover a s).integ = s.integ ∧ (enterHoldover a s).march = s.march ∧ (enterHoldover a s).loop = s.loop ∧
    (enterHoldover a s).dec = s.dec := by
  simpa [eraseBlocks] using enterHoldover_erase (l := [.time, .xfer, .rep, .path, .fault, .freeUses]) (List.Subset.refl _) (a := a) (s := s)

@[simp] theorem enterFreerun_erase {l a s} (h : [.xfer, .rep, .path, .fault, .freeUses] ⊆ l) :
    eraseBlocks l (enterFreerun a s) = eraseBlocks l s := by
  simp at h
  simp [enterFreerun, h]

@[simp] theorem enterFreerun_frame {a s} :
    (enterFreerun a s).pending = s.pending ∧ (enterFreerun a s).straps = s.straps ∧
    (enterFreerun a s).inReset = s.inReset ∧ (enterFreerun a s).oscillator = s.oscillator ∧
    (enterFreerun a s).now = s.now ∧ (enterFreerun a s).dram = s.dram ∧ (enterFreerun a s).flips = s.flips ∧
    (enterFreerun a s).link = s.link ∧ (enterFreerun a s).adm = s.adm ∧ (enterFreerun a s).time = s.time ∧
    (enterFreerun a s).windows = s.windows ∧ (enterFreerun a s).integ = s.integ ∧ (enterFreerun a s).march = s.march ∧
    (enterFreerun a s).loop = s.loop ∧ (enterFreerun a s).dec = s.dec := by
  simpa [eraseBlocks] using enterFreerun_erase (l := [.xfer, .rep, .path, .fault, .freeUses]) (List.Subset.refl _) (a := a) (s := s)

@[simp] theorem loseTiming_erase {l a s} (h : [.time, .xfer, .rep, .path, .fault, .freeUses] ⊆ l) :
    eraseBlocks l (loseTiming a s) = eraseBlocks l s := by
  simp at h
  simp only [loseTiming]
  repeat' split
  all_goals simp [h]

@[simp] theorem loseTiming_frame {a s} :
    (loseTiming a s).pending = s.pending ∧ (loseTiming a s).straps = s.straps ∧ (loseTiming a s).inReset = s.inReset ∧
    (loseTiming a s).oscillator = s.oscillator ∧ (loseTiming a s).now = s.now ∧ (loseTiming a s).dram = s.dram ∧
    (loseTiming a s).flips = s.flips ∧ (loseTiming a s).link = s.link ∧ (loseTiming a s).adm = s.adm ∧
    (loseTiming a s).windows = s.windows ∧ (loseTiming a s).integ = s.integ ∧ (loseTiming a s).march = s.march ∧
    (loseTiming a s).loop = s.loop ∧ (loseTiming a s).dec = s.dec := by
  simpa [eraseBlocks] using loseTiming_erase (l := [.time, .xfer, .rep, .path, .fault, .freeUses]) (List.Subset.refl _) (a := a) (s := s)

@[simp] theorem timingLinkDown_erase {l  s} (h : [.time, .xfer, .rep, .path, .fault, .freeUses] ⊆ l) :
    eraseBlocks l (timingLinkDown s) = eraseBlocks l s := by
  simp at h
  simp [timingLinkDown, h]

@[simp] theorem timingLinkDown_frame {s : State} :
    (timingLinkDown s).pending = s.pending ∧ (timingLinkDown s).straps = s.straps ∧
    (timingLinkDown s).inReset = s.inReset ∧ (timingLinkDown s).oscillator = s.oscillator ∧
    (timingLinkDown s).now = s.now ∧ (timingLinkDown s).dram = s.dram ∧ (timingLinkDown s).flips = s.flips ∧
    (timingLinkDown s).link = s.link ∧ (timingLinkDown s).adm = s.adm ∧ (timingLinkDown s).windows = s.windows ∧
    (timingLinkDown s).integ = s.integ ∧ (timingLinkDown s).march = s.march ∧ (timingLinkDown s).loop = s.loop ∧
    (timingLinkDown s).dec = s.dec := by
  simpa [eraseBlocks] using timingLinkDown_erase (l := [.time, .xfer, .rep, .path, .fault, .freeUses]) (List.Subset.refl _) (s := s)

@[simp] theorem blockExpiry_erase {l  s} (h : [.time, .xfer, .rep, .path, .fault, .freeUses] ⊆ l) :
    eraseBlocks l (blockExpiry s) = eraseBlocks l s := by
  simp at h
  simp [blockExpiry, h]

@[simp] theorem blockExpiry_frame {s : State} :
    (blockExpiry s).pending = s.pending ∧ (blockExpiry s).straps = s.straps ∧ (blockExpiry s).inReset = s.inReset ∧
    (blockExpiry s).oscillator = s.oscillator ∧ (blockExpiry s).now = s.now ∧ (blockExpiry s).dram = s.dram ∧
    (blockExpiry s).flips = s.flips ∧ (blockExpiry s).link = s.link ∧ (blockExpiry s).adm = s.adm ∧
    (blockExpiry s).windows = s.windows ∧ (blockExpiry s).integ = s.integ ∧ (blockExpiry s).march = s.march ∧
    (blockExpiry s).loop = s.loop ∧ (blockExpiry s).dec = s.dec := by
  simpa [eraseBlocks] using blockExpiry_erase (l := [.time, .xfer, .rep, .path, .fault, .freeUses]) (List.Subset.refl _) (s := s)

@[simp] theorem timingPulse_erase {l  s} (h : [.xfer, .rep, .path, .fault, .freeUses] ⊆ l) :
    eraseBlocks l (timingPulse s) = eraseBlocks l s := by
  simp at h
  simp only [timingPulse]
  repeat' split
  all_goals simp [h]

@[simp] theorem timingPulse_frame {s : State} :
    (timingPulse s).pending = s.pending ∧ (timingPulse s).straps = s.straps ∧ (timingPulse s).inReset = s.inReset ∧
    (timingPulse s).oscillator = s.oscillator ∧ (timingPulse s).now = s.now ∧ (timingPulse s).dram = s.dram ∧
    (timingPulse s).flips = s.flips ∧ (timingPulse s).link = s.link ∧ (timingPulse s).adm = s.adm ∧
    (timingPulse s).time = s.time ∧ (timingPulse s).windows = s.windows ∧ (timingPulse s).integ = s.integ ∧
    (timingPulse s).march = s.march ∧ (timingPulse s).loop = s.loop ∧ (timingPulse s).dec = s.dec := by
  simpa [eraseBlocks] using timingPulse_erase (l := [.xfer, .rep, .path, .fault, .freeUses]) (List.Subset.refl _) (s := s)

@[simp] theorem steer_erase {l a s} (h : [.xfer, .time] ⊆ l) :
    eraseBlocks l (steer a s) = eraseBlocks l s := by
  simp at h
  simp only [steer]
  repeat' split
  all_goals simp [h]

@[simp] theorem steer_frame {a s} :
    (steer a s).pending = s.pending ∧ (steer a s).straps = s.straps ∧ (steer a s).inReset = s.inReset ∧
    (steer a s).oscillator = s.oscillator ∧ (steer a s).now = s.now ∧ (steer a s).freeUses = s.freeUses ∧
    (steer a s).dram = s.dram ∧ (steer a s).flips = s.flips ∧ (steer a s).link = s.link ∧ (steer a s).adm = s.adm ∧
    (steer a s).windows = s.windows ∧ (steer a s).path = s.path ∧ (steer a s).integ = s.integ ∧
    (steer a s).march = s.march ∧ (steer a s).loop = s.loop ∧ (steer a s).dec = s.dec ∧ (steer a s).rep = s.rep ∧
    (steer a s).fault = s.fault := by
  simpa [eraseBlocks] using steer_erase (l := [.xfer, .time]) (List.Subset.refl _) (a := a) (s := s)

@[simp] theorem stepSelection_erase {l a s} (h : [.time, .xfer, .rep, .path] ⊆ l) :
    eraseBlocks l (stepSelection a s) = eraseBlocks l s := by
  simp at h
  simp [stepSelection, h]

@[simp] theorem stepSelection_frame {a s} :
    (stepSelection a s).pending = s.pending ∧ (stepSelection a s).straps = s.straps ∧
    (stepSelection a s).inReset = s.inReset ∧ (stepSelection a s).oscillator = s.oscillator ∧
    (stepSelection a s).now = s.now ∧ (stepSelection a s).freeUses = s.freeUses ∧ (stepSelection a s).dram = s.dram ∧
    (stepSelection a s).flips = s.flips ∧ (stepSelection a s).link = s.link ∧ (stepSelection a s).adm = s.adm ∧
    (stepSelection a s).windows = s.windows ∧ (stepSelection a s).integ = s.integ ∧
    (stepSelection a s).march = s.march ∧ (stepSelection a s).loop = s.loop ∧ (stepSelection a s).dec = s.dec ∧
    (stepSelection a s).fault = s.fault := by
  simpa [eraseBlocks] using stepSelection_erase (l := [.time, .xfer, .rep, .path]) (List.Subset.refl _) (a := a) (s := s)

@[simp] theorem pushFreq_erase {l  s} (h : [.xfer] ⊆ l) :
    eraseBlocks l (pushFreq s) = eraseBlocks l s := by
  simp at h
  simp [pushFreq, h]

@[simp] theorem pushFreq_frame {s : State} :
    (pushFreq s).pending = s.pending ∧ (pushFreq s).straps = s.straps ∧ (pushFreq s).inReset = s.inReset ∧
    (pushFreq s).oscillator = s.oscillator ∧ (pushFreq s).now = s.now ∧ (pushFreq s).freeUses = s.freeUses ∧
    (pushFreq s).dram = s.dram ∧ (pushFreq s).flips = s.flips ∧ (pushFreq s).link = s.link ∧ (pushFreq s).adm = s.adm ∧
    (pushFreq s).time = s.time ∧ (pushFreq s).windows = s.windows ∧ (pushFreq s).path = s.path ∧
    (pushFreq s).integ = s.integ ∧ (pushFreq s).march = s.march ∧ (pushFreq s).loop = s.loop ∧
    (pushFreq s).dec = s.dec ∧ (pushFreq s).rep = s.rep ∧ (pushFreq s).fault = s.fault := by
  simpa [eraseBlocks] using pushFreq_erase (l := [.xfer]) (List.Subset.refl _) (s := s)

@[simp] theorem setRun_erase {l a s} (h : [.xfer] ⊆ l) :
    eraseBlocks l (setRun a s) = eraseBlocks l s := by
  simp at h
  simp [setRun, h]

@[simp] theorem setRun_frame {a s} :
    (setRun a s).pending = s.pending ∧ (setRun a s).straps = s.straps ∧ (setRun a s).inReset = s.inReset ∧
    (setRun a s).oscillator = s.oscillator ∧ (setRun a s).now = s.now ∧ (setRun a s).freeUses = s.freeUses ∧
    (setRun a s).dram = s.dram ∧ (setRun a s).flips = s.flips ∧ (setRun a s).link = s.link ∧ (setRun a s).adm = s.adm ∧
    (setRun a s).time = s.time ∧ (setRun a s).windows = s.windows ∧ (setRun a s).path = s.path ∧
    (setRun a s).integ = s.integ ∧ (setRun a s).march = s.march ∧ (setRun a s).loop = s.loop ∧
    (setRun a s).dec = s.dec ∧ (setRun a s).rep = s.rep ∧ (setRun a s).fault = s.fault := by
  simpa [eraseBlocks] using setRun_erase (l := [.xfer]) (List.Subset.refl _) (a := a) (s := s)

@[simp] theorem acquireSelection_erase {l a s} (h : [.time, .xfer, .rep, .path, .fault, .freeUses] ⊆ l) :
    eraseBlocks l (acquireSelection a s) = eraseBlocks l s := by
  simp at h
  simp only [acquireSelection]
  repeat' split
  all_goals simp [h]

@[simp] theorem acquireSelection_frame {a s} :
    (acquireSelection a s).pending = s.pending ∧ (acquireSelection a s).straps = s.straps ∧
    (acquireSelection a s).inReset = s.inReset ∧ (acquireSelection a s).oscillator = s.oscillator ∧
    (acquireSelection a s).now = s.now ∧ (acquireSelection a s).dram = s.dram ∧ (acquireSelection a s).flips = s.flips ∧
    (acquireSelection a s).link = s.link ∧ (acquireSelection a s).adm = s.adm ∧
    (acquireSelection a s).windows = s.windows ∧ (acquireSelection a s).integ = s.integ ∧
    (acquireSelection a s).march = s.march ∧ (acquireSelection a s).loop = s.loop ∧
    (acquireSelection a s).dec = s.dec := by
  simpa [eraseBlocks] using acquireSelection_erase (l := [.time, .xfer, .rep, .path, .fault, .freeUses]) (List.Subset.refl _) (a := a) (s := s)

@[simp] theorem trackSelection_erase {l a s} (h : [.time, .xfer, .rep, .path, .fault, .freeUses] ⊆ l) :
    eraseBlocks l (trackSelection a s) = eraseBlocks l s := by
  simp at h
  simp only [trackSelection]
  repeat' split
  all_goals simp [h]

@[simp] theorem trackSelection_frame {a s} :
    (trackSelection a s).pending = s.pending ∧ (trackSelection a s).straps = s.straps ∧
    (trackSelection a s).inReset = s.inReset ∧ (trackSelection a s).oscillator = s.oscillator ∧
    (trackSelection a s).now = s.now ∧ (trackSelection a s).dram = s.dram ∧ (trackSelection a s).flips = s.flips ∧
    (trackSelection a s).link = s.link ∧ (trackSelection a s).adm = s.adm ∧ (trackSelection a s).windows = s.windows ∧
    (trackSelection a s).integ = s.integ ∧ (trackSelection a s).march = s.march ∧ (trackSelection a s).loop = s.loop ∧
    (trackSelection a s).dec = s.dec := by
  simpa [eraseBlocks] using trackSelection_erase (l := [.time, .xfer, .rep, .path, .fault, .freeUses]) (List.Subset.refl _) (a := a) (s := s)

@[simp] theorem applySelection_erase {l a s} (h : [.time, .xfer, .rep, .path, .fault, .freeUses] ⊆ l) :
    eraseBlocks l (applySelection a s) = eraseBlocks l s := by
  simp at h
  simp only [applySelection]
  repeat' split
  all_goals simp [h]

@[simp] theorem applySelection_frame {a s} :
    (applySelection a s).pending = s.pending ∧ (applySelection a s).straps = s.straps ∧
    (applySelection a s).inReset = s.inReset ∧ (applySelection a s).oscillator = s.oscillator ∧
    (applySelection a s).now = s.now ∧ (applySelection a s).dram = s.dram ∧ (applySelection a s).flips = s.flips ∧
    (applySelection a s).link = s.link ∧ (applySelection a s).adm = s.adm ∧ (applySelection a s).windows = s.windows ∧
    (applySelection a s).integ = s.integ ∧ (applySelection a s).march = s.march ∧ (applySelection a s).loop = s.loop ∧
    (applySelection a s).dec = s.dec := by
  simpa [eraseBlocks] using applySelection_erase (l := [.time, .xfer, .rep, .path, .fault, .freeUses]) (List.Subset.refl _) (a := a) (s := s)

@[simp] theorem joinBlock_erase {l a s} (h : [.time, .xfer, .rep, .path, .fault, .freeUses] ⊆ l) :
    eraseBlocks l (joinBlock a s) = eraseBlocks l s := by
  simp at h
  simp only [joinBlock]
  repeat' split
  all_goals simp [h]

@[simp] theorem joinBlock_frame {a s} :
    (joinBlock a s).pending = s.pending ∧ (joinBlock a s).straps = s.straps ∧ (joinBlock a s).inReset = s.inReset ∧
    (joinBlock a s).oscillator = s.oscillator ∧ (joinBlock a s).now = s.now ∧ (joinBlock a s).dram = s.dram ∧
    (joinBlock a s).flips = s.flips ∧ (joinBlock a s).link = s.link ∧ (joinBlock a s).adm = s.adm ∧
    (joinBlock a s).windows = s.windows ∧ (joinBlock a s).integ = s.integ ∧ (joinBlock a s).march = s.march ∧
    (joinBlock a s).loop = s.loop ∧ (joinBlock a s).dec = s.dec := by
  simpa [eraseBlocks] using joinBlock_erase (l := [.time, .xfer, .rep, .path, .fault, .freeUses]) (List.Subset.refl _) (a := a) (s := s)

@[simp] theorem acceptSample_erase {l a s} (h : [.time, .xfer, .rep, .path, .fault, .freeUses] ⊆ l) :
    eraseBlocks l (acceptSample a s) = eraseBlocks l s := by
  simp at h
  simp only [acceptSample]
  repeat' split
  all_goals simp [h]

@[simp] theorem acceptSample_frame {a s} :
    (acceptSample a s).pending = s.pending ∧ (acceptSample a s).straps = s.straps ∧
    (acceptSample a s).inReset = s.inReset ∧ (acceptSample a s).oscillator = s.oscillator ∧
    (acceptSample a s).now = s.now ∧ (acceptSample a s).dram = s.dram ∧ (acceptSample a s).flips = s.flips ∧
    (acceptSample a s).link = s.link ∧ (acceptSample a s).adm = s.adm ∧ (acceptSample a s).windows = s.windows ∧
    (acceptSample a s).integ = s.integ ∧ (acceptSample a s).march = s.march ∧ (acceptSample a s).loop = s.loop ∧
    (acceptSample a s).dec = s.dec := by
  simpa [eraseBlocks] using acceptSample_erase (l := [.time, .xfer, .rep, .path, .fault, .freeUses]) (List.Subset.refl _) (a := a) (s := s)

@[simp] theorem computeSample_erase {l a b c d s} (h : [.time, .xfer, .rep, .path, .fault, .freeUses] ⊆ l) :
    eraseBlocks l (computeSample a b c d s) = eraseBlocks l s := by
  simp at h
  simp only [computeSample]
  repeat' split
  all_goals simp [h]

@[simp] theorem computeSample_frame {a b c d s} :
    (computeSample a b c d s).pending = s.pending ∧ (computeSample a b c d s).straps = s.straps ∧
    (computeSample a b c d s).inReset = s.inReset ∧ (computeSample a b c d s).oscillator = s.oscillator ∧
    (computeSample a b c d s).now = s.now ∧ (computeSample a b c d s).dram = s.dram ∧
    (computeSample a b c d s).flips = s.flips ∧ (computeSample a b c d s).link = s.link ∧
    (computeSample a b c d s).adm = s.adm ∧ (computeSample a b c d s).windows = s.windows ∧
    (computeSample a b c d s).integ = s.integ ∧ (computeSample a b c d s).march = s.march ∧
    (computeSample a b c d s).loop = s.loop ∧ (computeSample a b c d s).dec = s.dec := by
  simpa [eraseBlocks] using computeSample_erase (l := [.time, .xfer, .rep, .path, .fault, .freeUses]) (List.Subset.refl _) (a := a) (b := b) (c := c) (d := d) (s := s)

@[simp] theorem removeExchange_erase {l a s} (h : [.xfer] ⊆ l) :
    eraseBlocks l (removeExchange a s) = eraseBlocks l s := by
  simp at h
  simp [removeExchange, h]

@[simp] theorem removeExchange_frame {a s} :
    (removeExchange a s).pending = s.pending ∧ (removeExchange a s).straps = s.straps ∧
    (removeExchange a s).inReset = s.inReset ∧ (removeExchange a s).oscillator = s.oscillator ∧
    (removeExchange a s).now = s.now ∧ (removeExchange a s).freeUses = s.freeUses ∧ (removeExchange a s).dram = s.dram ∧
    (removeExchange a s).flips = s.flips ∧ (removeExchange a s).link = s.link ∧ (removeExchange a s).adm = s.adm ∧
    (removeExchange a s).time = s.time ∧ (removeExchange a s).windows = s.windows ∧ (removeExchange a s).path = s.path ∧
    (removeExchange a s).integ = s.integ ∧ (removeExchange a s).march = s.march ∧ (removeExchange a s).loop = s.loop ∧
    (removeExchange a s).dec = s.dec ∧ (removeExchange a s).rep = s.rep ∧ (removeExchange a s).fault = s.fault := by
  simpa [eraseBlocks] using removeExchange_erase (l := [.xfer]) (List.Subset.refl _) (a := a) (s := s)

@[simp] theorem setExchange_erase {l a s} (h : [.xfer] ⊆ l) :
    eraseBlocks l (setExchange a s) = eraseBlocks l s := by
  simp at h
  simp [setExchange, h]

@[simp] theorem setExchange_frame {a s} :
    (setExchange a s).pending = s.pending ∧ (setExchange a s).straps = s.straps ∧
    (setExchange a s).inReset = s.inReset ∧ (setExchange a s).oscillator = s.oscillator ∧
    (setExchange a s).now = s.now ∧ (setExchange a s).freeUses = s.freeUses ∧ (setExchange a s).dram = s.dram ∧
    (setExchange a s).flips = s.flips ∧ (setExchange a s).link = s.link ∧ (setExchange a s).adm = s.adm ∧
    (setExchange a s).time = s.time ∧ (setExchange a s).windows = s.windows ∧ (setExchange a s).path = s.path ∧
    (setExchange a s).integ = s.integ ∧ (setExchange a s).march = s.march ∧ (setExchange a s).loop = s.loop ∧
    (setExchange a s).dec = s.dec ∧ (setExchange a s).rep = s.rep ∧ (setExchange a s).fault = s.fault := by
  simpa [eraseBlocks] using setExchange_erase (l := [.xfer]) (List.Subset.refl _) (a := a) (s := s)

@[simp] theorem enterOffer_erase {l a b c s} (h : [.xfer] ⊆ l) :
    eraseBlocks l (enterOffer a b c s) = eraseBlocks l s := by
  simp at h
  simp only [enterOffer]
  repeat' split
  all_goals simp [h]

@[simp] theorem enterOffer_frame {a b c s} :
    (enterOffer a b c s).pending = s.pending ∧ (enterOffer a b c s).straps = s.straps ∧
    (enterOffer a b c s).inReset = s.inReset ∧ (enterOffer a b c s).oscillator = s.oscillator ∧
    (enterOffer a b c s).now = s.now ∧ (enterOffer a b c s).freeUses = s.freeUses ∧ (enterOffer a b c s).dram = s.dram ∧
    (enterOffer a b c s).flips = s.flips ∧ (enterOffer a b c s).link = s.link ∧ (enterOffer a b c s).adm = s.adm ∧
    (enterOffer a b c s).time = s.time ∧ (enterOffer a b c s).windows = s.windows ∧ (enterOffer a b c s).path = s.path ∧
    (enterOffer a b c s).integ = s.integ ∧ (enterOffer a b c s).march = s.march ∧ (enterOffer a b c s).loop = s.loop ∧
    (enterOffer a b c s).dec = s.dec ∧ (enterOffer a b c s).rep = s.rep ∧ (enterOffer a b c s).fault = s.fault := by
  simpa [eraseBlocks] using enterOffer_erase (l := [.xfer]) (List.Subset.refl _) (a := a) (b := b) (c := c) (s := s)

@[simp] theorem matchAnswer_erase {l a b c s} (h : [.time, .xfer, .rep, .path, .fault, .freeUses] ⊆ l) :
    eraseBlocks l (matchAnswer a b c s) = eraseBlocks l s := by
  simp at h
  simp only [matchAnswer]
  repeat' split
  all_goals simp [h]

@[simp] theorem matchAnswer_frame {a b c s} :
    (matchAnswer a b c s).pending = s.pending ∧ (matchAnswer a b c s).straps = s.straps ∧
    (matchAnswer a b c s).inReset = s.inReset ∧ (matchAnswer a b c s).oscillator = s.oscillator ∧
    (matchAnswer a b c s).now = s.now ∧ (matchAnswer a b c s).dram = s.dram ∧ (matchAnswer a b c s).flips = s.flips ∧
    (matchAnswer a b c s).link = s.link ∧ (matchAnswer a b c s).adm = s.adm ∧
    (matchAnswer a b c s).windows = s.windows ∧ (matchAnswer a b c s).integ = s.integ ∧
    (matchAnswer a b c s).march = s.march ∧ (matchAnswer a b c s).loop = s.loop ∧
    (matchAnswer a b c s).dec = s.dec := by
  simpa [eraseBlocks] using matchAnswer_erase (l := [.time, .xfer, .rep, .path, .fault, .freeUses]) (List.Subset.refl _) (a := a) (b := b) (c := c) (s := s)

@[simp] theorem routeTiming_erase {l a b s} (h : [.time, .xfer, .rep, .path, .fault, .freeUses] ⊆ l) :
    eraseBlocks l (routeTiming a b s) = eraseBlocks l s := by
  simp at h
  simp only [routeTiming]
  repeat' split
  all_goals simp [h]

@[simp] theorem routeTiming_frame {a b s} :
    (routeTiming a b s).pending = s.pending ∧ (routeTiming a b s).straps = s.straps ∧
    (routeTiming a b s).inReset = s.inReset ∧ (routeTiming a b s).oscillator = s.oscillator ∧
    (routeTiming a b s).now = s.now ∧ (routeTiming a b s).dram = s.dram ∧ (routeTiming a b s).flips = s.flips ∧
    (routeTiming a b s).link = s.link ∧ (routeTiming a b s).adm = s.adm ∧ (routeTiming a b s).windows = s.windows ∧
    (routeTiming a b s).integ = s.integ ∧ (routeTiming a b s).march = s.march ∧ (routeTiming a b s).loop = s.loop ∧
    (routeTiming a b s).dec = s.dec := by
  simpa [eraseBlocks] using routeTiming_erase (l := [.time, .xfer, .rep, .path, .fault, .freeUses]) (List.Subset.refl _) (a := a) (b := b) (s := s)

@[simp] theorem exchangeExpiry_erase {l a s} (h : [.xfer] ⊆ l) :
    eraseBlocks l (exchangeExpiry a s) = eraseBlocks l s := by
  simp at h
  simp [exchangeExpiry, h]

@[simp] theorem exchangeExpiry_frame {a s} :
    (exchangeExpiry a s).pending = s.pending ∧ (exchangeExpiry a s).straps = s.straps ∧
    (exchangeExpiry a s).inReset = s.inReset ∧ (exchangeExpiry a s).oscillator = s.oscillator ∧
    (exchangeExpiry a s).now = s.now ∧ (exchangeExpiry a s).freeUses = s.freeUses ∧ (exchangeExpiry a s).dram = s.dram ∧
    (exchangeExpiry a s).flips = s.flips ∧ (exchangeExpiry a s).link = s.link ∧ (exchangeExpiry a s).adm = s.adm ∧
    (exchangeExpiry a s).time = s.time ∧ (exchangeExpiry a s).windows = s.windows ∧ (exchangeExpiry a s).path = s.path ∧
    (exchangeExpiry a s).integ = s.integ ∧ (exchangeExpiry a s).march = s.march ∧ (exchangeExpiry a s).loop = s.loop ∧
    (exchangeExpiry a s).dec = s.dec ∧ (exchangeExpiry a s).rep = s.rep ∧ (exchangeExpiry a s).fault = s.fault := by
  simpa [eraseBlocks] using exchangeExpiry_erase (l := [.xfer]) (List.Subset.refl _) (a := a) (s := s)

@[simp] theorem forgetPending_erase {l a s} (h : [.xfer] ⊆ l) :
    eraseBlocks l (forgetPending a s) = eraseBlocks l s := by
  simp at h
  simp [forgetPending, h]

@[simp] theorem forgetPending_frame {a s} :
    (forgetPending a s).pending = s.pending ∧ (forgetPending a s).straps = s.straps ∧
    (forgetPending a s).inReset = s.inReset ∧ (forgetPending a s).oscillator = s.oscillator ∧
    (forgetPending a s).now = s.now ∧ (forgetPending a s).freeUses = s.freeUses ∧ (forgetPending a s).dram = s.dram ∧
    (forgetPending a s).flips = s.flips ∧ (forgetPending a s).link = s.link ∧ (forgetPending a s).adm = s.adm ∧
    (forgetPending a s).time = s.time ∧ (forgetPending a s).windows = s.windows ∧ (forgetPending a s).path = s.path ∧
    (forgetPending a s).integ = s.integ ∧ (forgetPending a s).march = s.march ∧ (forgetPending a s).loop = s.loop ∧
    (forgetPending a s).dec = s.dec ∧ (forgetPending a s).rep = s.rep ∧ (forgetPending a s).fault = s.fault := by
  simpa [eraseBlocks] using forgetPending_erase (l := [.xfer]) (List.Subset.refl _) (a := a) (s := s)

@[simp] theorem enterPending_erase {l a s} (h : [.xfer] ⊆ l) :
    eraseBlocks l (enterPending a s) = eraseBlocks l s := by
  simp at h
  simp only [enterPending]
  repeat' split
  all_goals simp [h]

@[simp] theorem enterPending_frame {a s} :
    (enterPending a s).pending = s.pending ∧ (enterPending a s).straps = s.straps ∧
    (enterPending a s).inReset = s.inReset ∧ (enterPending a s).oscillator = s.oscillator ∧
    (enterPending a s).now = s.now ∧ (enterPending a s).freeUses = s.freeUses ∧ (enterPending a s).dram = s.dram ∧
    (enterPending a s).flips = s.flips ∧ (enterPending a s).link = s.link ∧ (enterPending a s).adm = s.adm ∧
    (enterPending a s).time = s.time ∧ (enterPending a s).windows = s.windows ∧ (enterPending a s).path = s.path ∧
    (enterPending a s).integ = s.integ ∧ (enterPending a s).march = s.march ∧ (enterPending a s).loop = s.loop ∧
    (enterPending a s).dec = s.dec ∧ (enterPending a s).rep = s.rep ∧ (enterPending a s).fault = s.fault := by
  simpa [eraseBlocks] using enterPending_erase (l := [.xfer]) (List.Subset.refl _) (a := a) (s := s)

@[simp] theorem frameWrite_erase {l a b c s} (h : [.xfer] ⊆ l) :
    eraseBlocks l (frameWrite a b c s) = eraseBlocks l s := by
  simp at h
  simp only [frameWrite]
  repeat' split
  all_goals simp [h]

@[simp] theorem frameWrite_frame {a b c s} :
    (frameWrite a b c s).pending = s.pending ∧ (frameWrite a b c s).straps = s.straps ∧
    (frameWrite a b c s).inReset = s.inReset ∧ (frameWrite a b c s).oscillator = s.oscillator ∧
    (frameWrite a b c s).now = s.now ∧ (frameWrite a b c s).freeUses = s.freeUses ∧ (frameWrite a b c s).dram = s.dram ∧
    (frameWrite a b c s).flips = s.flips ∧ (frameWrite a b c s).link = s.link ∧ (frameWrite a b c s).adm = s.adm ∧
    (frameWrite a b c s).time = s.time ∧ (frameWrite a b c s).windows = s.windows ∧ (frameWrite a b c s).path = s.path ∧
    (frameWrite a b c s).integ = s.integ ∧ (frameWrite a b c s).march = s.march ∧ (frameWrite a b c s).loop = s.loop ∧
    (frameWrite a b c s).dec = s.dec ∧ (frameWrite a b c s).rep = s.rep ∧ (frameWrite a b c s).fault = s.fault := by
  simpa [eraseBlocks] using frameWrite_erase (l := [.xfer]) (List.Subset.refl _) (a := a) (b := b) (c := c) (s := s)

@[simp] theorem sendQuery_erase {l a b c s} (h : [.xfer, .path] ⊆ l) :
    eraseBlocks l (sendQuery a b c s) = eraseBlocks l s := by
  simp at h
  simp [sendQuery, h]

@[simp] theorem sendQuery_frame {a b c s} :
    (sendQuery a b c s).pending = s.pending ∧ (sendQuery a b c s).straps = s.straps ∧
    (sendQuery a b c s).inReset = s.inReset ∧ (sendQuery a b c s).oscillator = s.oscillator ∧
    (sendQuery a b c s).now = s.now ∧ (sendQuery a b c s).freeUses = s.freeUses ∧ (sendQuery a b c s).dram = s.dram ∧
    (sendQuery a b c s).flips = s.flips ∧ (sendQuery a b c s).link = s.link ∧ (sendQuery a b c s).adm = s.adm ∧
    (sendQuery a b c s).time = s.time ∧ (sendQuery a b c s).windows = s.windows ∧ (sendQuery a b c s).integ = s.integ ∧
    (sendQuery a b c s).march = s.march ∧ (sendQuery a b c s).loop = s.loop ∧ (sendQuery a b c s).dec = s.dec ∧
    (sendQuery a b c s).rep = s.rep ∧ (sendQuery a b c s).fault = s.fault := by
  simpa [eraseBlocks] using sendQuery_erase (l := [.xfer, .path]) (List.Subset.refl _) (a := a) (b := b) (c := c) (s := s)

@[simp] theorem tryQuery_erase {l  s} (h : [.xfer, .path] ⊆ l) :
    eraseBlocks l (tryQuery s) = eraseBlocks l s := by
  simp at h
  simp only [tryQuery]
  repeat' split
  all_goals simp [h]

@[simp] theorem tryQuery_frame {s : State} :
    (tryQuery s).pending = s.pending ∧ (tryQuery s).straps = s.straps ∧ (tryQuery s).inReset = s.inReset ∧
    (tryQuery s).oscillator = s.oscillator ∧ (tryQuery s).now = s.now ∧ (tryQuery s).freeUses = s.freeUses ∧
    (tryQuery s).dram = s.dram ∧ (tryQuery s).flips = s.flips ∧ (tryQuery s).link = s.link ∧ (tryQuery s).adm = s.adm ∧
    (tryQuery s).time = s.time ∧ (tryQuery s).windows = s.windows ∧ (tryQuery s).integ = s.integ ∧
    (tryQuery s).march = s.march ∧ (tryQuery s).loop = s.loop ∧ (tryQuery s).dec = s.dec ∧ (tryQuery s).rep = s.rep ∧
    (tryQuery s).fault = s.fault := by
  simpa [eraseBlocks] using tryQuery_erase (l := [.xfer, .path]) (List.Subset.refl _) (s := s)

@[simp] theorem queryExpiry_erase {l  s} (h : [.xfer, .path] ⊆ l) :
    eraseBlocks l (queryExpiry s) = eraseBlocks l s := by
  simp at h
  simp [queryExpiry, h]

@[simp] theorem queryExpiry_frame {s : State} :
    (queryExpiry s).pending = s.pending ∧ (queryExpiry s).straps = s.straps ∧ (queryExpiry s).inReset = s.inReset ∧
    (queryExpiry s).oscillator = s.oscillator ∧ (queryExpiry s).now = s.now ∧ (queryExpiry s).freeUses = s.freeUses ∧
    (queryExpiry s).dram = s.dram ∧ (queryExpiry s).flips = s.flips ∧ (queryExpiry s).link = s.link ∧
    (queryExpiry s).adm = s.adm ∧ (queryExpiry s).time = s.time ∧ (queryExpiry s).windows = s.windows ∧
    (queryExpiry s).integ = s.integ ∧ (queryExpiry s).march = s.march ∧ (queryExpiry s).loop = s.loop ∧
    (queryExpiry s).dec = s.dec ∧ (queryExpiry s).rep = s.rep ∧ (queryExpiry s).fault = s.fault := by
  simpa [eraseBlocks] using queryExpiry_erase (l := [.xfer, .path]) (List.Subset.refl _) (s := s)

@[simp] theorem queryCompletion_erase {l a b c d s} (h : [.time, .xfer, .rep, .path, .fault, .freeUses] ⊆ l) :
    eraseBlocks l (queryCompletion a b c d s) = eraseBlocks l s := by
  simp at h
  simp only [queryCompletion]
  repeat' split
  all_goals simp [h]

@[simp] theorem queryCompletion_frame {a b c d s} :
    (queryCompletion a b c d s).pending = s.pending ∧ (queryCompletion a b c d s).straps = s.straps ∧
    (queryCompletion a b c d s).inReset = s.inReset ∧ (queryCompletion a b c d s).oscillator = s.oscillator ∧
    (queryCompletion a b c d s).now = s.now ∧ (queryCompletion a b c d s).dram = s.dram ∧
    (queryCompletion a b c d s).flips = s.flips ∧ (queryCompletion a b c d s).link = s.link ∧
    (queryCompletion a b c d s).adm = s.adm ∧ (queryCompletion a b c d s).windows = s.windows ∧
    (queryCompletion a b c d s).integ = s.integ ∧ (queryCompletion a b c d s).march = s.march ∧
    (queryCompletion a b c d s).loop = s.loop ∧ (queryCompletion a b c d s).dec = s.dec := by
  simpa [eraseBlocks] using queryCompletion_erase (l := [.time, .xfer, .rep, .path, .fault, .freeUses]) (List.Subset.refl _) (a := a) (b := b) (c := c) (d := d) (s := s)

@[simp] theorem queryLost_erase {l a b s} (h : [.xfer] ⊆ l) :
    eraseBlocks l (queryLost a b s) = eraseBlocks l s := by
  simp at h
  simp only [queryLost]
  repeat' split
  all_goals simp [h]

@[simp] theorem queryLost_frame {a b s} :
    (queryLost a b s).pending = s.pending ∧ (queryLost a b s).straps = s.straps ∧
    (queryLost a b s).inReset = s.inReset ∧ (queryLost a b s).oscillator = s.oscillator ∧
    (queryLost a b s).now = s.now ∧ (queryLost a b s).freeUses = s.freeUses ∧ (queryLost a b s).dram = s.dram ∧
    (queryLost a b s).flips = s.flips ∧ (queryLost a b s).link = s.link ∧ (queryLost a b s).adm = s.adm ∧
    (queryLost a b s).time = s.time ∧ (queryLost a b s).windows = s.windows ∧ (queryLost a b s).path = s.path ∧
    (queryLost a b s).integ = s.integ ∧ (queryLost a b s).march = s.march ∧ (queryLost a b s).loop = s.loop ∧
    (queryLost a b s).dec = s.dec ∧ (queryLost a b s).rep = s.rep ∧ (queryLost a b s).fault = s.fault := by
  simpa [eraseBlocks] using queryLost_erase (l := [.xfer]) (List.Subset.refl _) (a := a) (b := b) (s := s)

@[simp] theorem queryRejected_erase {l a b s} (h : [.xfer] ⊆ l) :
    eraseBlocks l (queryRejected a b s) = eraseBlocks l s := by
  simp at h
  simp only [queryRejected]
  repeat' split
  all_goals simp [h]

@[simp] theorem queryRejected_frame {a b s} :
    (queryRejected a b s).pending = s.pending ∧ (queryRejected a b s).straps = s.straps ∧
    (queryRejected a b s).inReset = s.inReset ∧ (queryRejected a b s).oscillator = s.oscillator ∧
    (queryRejected a b s).now = s.now ∧ (queryRejected a b s).freeUses = s.freeUses ∧
    (queryRejected a b s).dram = s.dram ∧ (queryRejected a b s).flips = s.flips ∧ (queryRejected a b s).link = s.link ∧
    (queryRejected a b s).adm = s.adm ∧ (queryRejected a b s).time = s.time ∧
    (queryRejected a b s).windows = s.windows ∧ (queryRejected a b s).path = s.path ∧
    (queryRejected a b s).integ = s.integ ∧ (queryRejected a b s).march = s.march ∧
    (queryRejected a b s).loop = s.loop ∧ (queryRejected a b s).dec = s.dec ∧ (queryRejected a b s).rep = s.rep ∧
    (queryRejected a b s).fault = s.fault := by
  simpa [eraseBlocks] using queryRejected_erase (l := [.xfer]) (List.Subset.refl _) (a := a) (b := b) (s := s)

@[simp] theorem slotCompleted_erase {l a b c d s} (h : [.time, .xfer, .rep, .path, .fault, .freeUses, .loop] ⊆ l) :
    eraseBlocks l (slotCompleted a b c d s) = eraseBlocks l s := by
  simp at h
  simp only [slotCompleted]
  repeat' split
  all_goals simp [h]

@[simp] theorem slotCompleted_frame {a b c d s} :
    (slotCompleted a b c d s).pending = s.pending ∧ (slotCompleted a b c d s).straps = s.straps ∧
    (slotCompleted a b c d s).inReset = s.inReset ∧ (slotCompleted a b c d s).oscillator = s.oscillator ∧
    (slotCompleted a b c d s).now = s.now ∧ (slotCompleted a b c d s).dram = s.dram ∧
    (slotCompleted a b c d s).flips = s.flips ∧ (slotCompleted a b c d s).link = s.link ∧
    (slotCompleted a b c d s).adm = s.adm ∧ (slotCompleted a b c d s).windows = s.windows ∧
    (slotCompleted a b c d s).integ = s.integ ∧ (slotCompleted a b c d s).march = s.march ∧
    (slotCompleted a b c d s).dec = s.dec := by
  simpa [eraseBlocks] using slotCompleted_erase (l := [.time, .xfer, .rep, .path, .fault, .freeUses, .loop]) (List.Subset.refl _) (a := a) (b := b) (c := c) (d := d) (s := s)

@[simp] theorem slotRemoved_erase {l a s} (h : [.xfer] ⊆ l) : eraseBlocks l (slotRemoved a s) = eraseBlocks l s := by
  simp at h
  simp only [slotRemoved]
  split <;> simp [h]

@[simp] theorem slotRemoved_frame {a s} :
    (slotRemoved a s).pending = s.pending ∧ (slotRemoved a s).straps = s.straps ∧
    (slotRemoved a s).inReset = s.inReset ∧ (slotRemoved a s).oscillator = s.oscillator ∧
    (slotRemoved a s).now = s.now ∧ (slotRemoved a s).freeUses = s.freeUses ∧ (slotRemoved a s).dram = s.dram ∧
    (slotRemoved a s).flips = s.flips ∧ (slotRemoved a s).link = s.link ∧ (slotRemoved a s).adm = s.adm ∧
    (slotRemoved a s).time = s.time ∧ (slotRemoved a s).windows = s.windows ∧ (slotRemoved a s).path = s.path ∧
    (slotRemoved a s).integ = s.integ ∧ (slotRemoved a s).march = s.march ∧ (slotRemoved a s).loop = s.loop ∧
    (slotRemoved a s).dec = s.dec ∧ (slotRemoved a s).rep = s.rep ∧ (slotRemoved a s).fault = s.fault := by
  simpa [eraseBlocks] using slotRemoved_erase (l := [.xfer]) (List.Subset.refl _) (a := a) (s := s)

/-- All that the removal of a DATA entry does to the slots: the slot of the line, where it has one, is free (R30, R68). -/
theorem slotRemoved_xfer {line : Nat} {s : State} : (slotRemoved line s).xfer = match slotOfLine s line with
    | some j => { s.xfer with slots := s.xfer.slots.setIfInBounds j .free }
    | none => s.xfer := by
  cases h : slotOfLine s line <;> simp [slotRemoved, h, freeSlot, State.updXfer]

@[simp] theorem slotLost_erase {l a s} (h : [.xfer, .loop, .rep, .path, .fault] ⊆ l) :
    eraseBlocks l (slotLost a s) = eraseBlocks l s := by
  simp at h
  simp only [slotLost]
  repeat' split
  all_goals simp [h]

@[simp] theorem slotLost_frame {a s} :
    (slotLost a s).pending = s.pending ∧ (slotLost a s).straps = s.straps ∧ (slotLost a s).inReset = s.inReset ∧
    (slotLost a s).oscillator = s.oscillator ∧ (slotLost a s).now = s.now ∧ (slotLost a s).freeUses = s.freeUses ∧
    (slotLost a s).dram = s.dram ∧ (slotLost a s).flips = s.flips ∧ (slotLost a s).link = s.link ∧
    (slotLost a s).adm = s.adm ∧ (slotLost a s).time = s.time ∧ (slotLost a s).windows = s.windows ∧
    (slotLost a s).integ = s.integ ∧ (slotLost a s).march = s.march ∧ (slotLost a s).dec = s.dec := by
  simpa [eraseBlocks] using slotLost_erase (l := [.xfer, .loop, .rep, .path, .fault]) (List.Subset.refl _) (a := a) (s := s)

@[simp] theorem slotRejected_erase {l a b s} (h : [.xfer, .loop, .rep, .path, .fault] ⊆ l) :
    eraseBlocks l (slotRejected a b s) = eraseBlocks l s := by
  simp at h
  simp only [slotRejected]
  repeat' split
  all_goals simp [h]

@[simp] theorem slotRejected_frame {a b s} :
    (slotRejected a b s).pending = s.pending ∧ (slotRejected a b s).straps = s.straps ∧
    (slotRejected a b s).inReset = s.inReset ∧ (slotRejected a b s).oscillator = s.oscillator ∧
    (slotRejected a b s).now = s.now ∧ (slotRejected a b s).freeUses = s.freeUses ∧ (slotRejected a b s).dram = s.dram ∧
    (slotRejected a b s).flips = s.flips ∧ (slotRejected a b s).link = s.link ∧ (slotRejected a b s).adm = s.adm ∧
    (slotRejected a b s).time = s.time ∧ (slotRejected a b s).windows = s.windows ∧
    (slotRejected a b s).integ = s.integ ∧ (slotRejected a b s).march = s.march ∧ (slotRejected a b s).dec = s.dec := by
  simpa [eraseBlocks] using slotRejected_erase (l := [.xfer, .loop, .rep, .path, .fault]) (List.Subset.refl _) (a := a) (b := b) (s := s)

@[simp] theorem resetSlots_erase {l  s} (h : [.path, .march, .xfer] ⊆ l) :
    eraseBlocks l (resetSlots s) = eraseBlocks l s := by
  simp at h
  simp [resetSlots, h]

@[simp] theorem resetSlots_frame {s : State} :
    (resetSlots s).pending = s.pending ∧ (resetSlots s).straps = s.straps ∧ (resetSlots s).inReset = s.inReset ∧
    (resetSlots s).oscillator = s.oscillator ∧ (resetSlots s).now = s.now ∧ (resetSlots s).freeUses = s.freeUses ∧
    (resetSlots s).dram = s.dram ∧ (resetSlots s).flips = s.flips ∧ (resetSlots s).link = s.link ∧
    (resetSlots s).adm = s.adm ∧ (resetSlots s).time = s.time ∧ (resetSlots s).windows = s.windows ∧
    (resetSlots s).integ = s.integ ∧ (resetSlots s).loop = s.loop ∧ (resetSlots s).dec = s.dec ∧
    (resetSlots s).rep = s.rep ∧ (resetSlots s).fault = s.fault := by
  simpa [eraseBlocks] using resetSlots_erase (l := [.path, .march, .xfer]) (List.Subset.refl _) (s := s)

/-! ### Machine/LinkMonitor.lean -/

@[simp] theorem reportTrail_erase {l a b s} (h : [.rep, .path] ⊆ l) :
    eraseBlocks l (reportTrail a b s) = eraseBlocks l s := by
  simp at h
  induction b generalizing a s with
  | nil => rfl
  | cons x xs ih => cases x <;> simp [reportTrail, h, ih]

@[simp] theorem reportTrail_frame {a b s} :
    (reportTrail a b s).pending = s.pending ∧ (reportTrail a b s).straps = s.straps ∧
    (reportTrail a b s).inReset = s.inReset ∧ (reportTrail a b s).oscillator = s.oscillator ∧
    (reportTrail a b s).now = s.now ∧ (reportTrail a b s).freeUses = s.freeUses ∧ (reportTrail a b s).dram = s.dram ∧
    (reportTrail a b s).flips = s.flips ∧ (reportTrail a b s).link = s.link ∧ (reportTrail a b s).adm = s.adm ∧
    (reportTrail a b s).time = s.time ∧ (reportTrail a b s).xfer = s.xfer ∧ (reportTrail a b s).windows = s.windows ∧
    (reportTrail a b s).integ = s.integ ∧ (reportTrail a b s).march = s.march ∧ (reportTrail a b s).loop = s.loop ∧
    (reportTrail a b s).dec = s.dec ∧ (reportTrail a b s).fault = s.fault := by
  simpa [eraseBlocks] using reportTrail_erase (l := [.rep, .path]) (List.Subset.refl _) (a := a) (b := b) (s := s)

@[simp] theorem linkTaken_erase {l a b s} (h : [.link, .time, .xfer, .rep, .path, .fault, .freeUses, .loop] ⊆ l) :
    eraseBlocks l (linkTaken a b s) = eraseBlocks l s := by
  simp at h
  simp only [linkTaken]
  have hn : ∀ w, ∀ f ∈ linkNews w, ∀ t, eraseBlocks l (f t) = eraseBlocks l t := by
    intro w f hf t
    simp only [linkNews, List.mem_append, List.mem_cons, List.not_mem_nil, or_false] at hf
    rcases hf with hf | rfl | rfl
    · split at hf
      · simp at hf; rcases hf with rfl | rfl <;> simp [h]
      · simp at hf
    · simp [h]
    · simp [h]
  repeat' split
  all_goals first
    | rw [unordered_erase (by simp [h]) (hn _)]; simp [h]
    | simp [h]

@[simp] theorem linkTaken_frame {a b s} :
    (linkTaken a b s).pending = s.pending ∧ (linkTaken a b s).straps = s.straps ∧
    (linkTaken a b s).inReset = s.inReset ∧ (linkTaken a b s).oscillator = s.oscillator ∧
    (linkTaken a b s).now = s.now ∧ (linkTaken a b s).dram = s.dram ∧ (linkTaken a b s).flips = s.flips ∧
    (linkTaken a b s).adm = s.adm ∧ (linkTaken a b s).windows = s.windows ∧ (linkTaken a b s).integ = s.integ ∧
    (linkTaken a b s).march = s.march ∧ (linkTaken a b s).dec = s.dec := by
  simpa [eraseBlocks] using linkTaken_erase (l := [.link, .time, .xfer, .rep, .path, .fault, .freeUses, .loop]) (List.Subset.refl _) (a := a) (b := b) (s := s)

@[simp] theorem statusIgnored_erase {l  s} (h : [.link] ⊆ l) :
    eraseBlocks l (statusIgnored s) = eraseBlocks l s := by
  simp at h
  simp [statusIgnored, h]

@[simp] theorem statusIgnored_frame {s : State} :
    (statusIgnored s).pending = s.pending ∧ (statusIgnored s).straps = s.straps ∧
    (statusIgnored s).inReset = s.inReset ∧ (statusIgnored s).oscillator = s.oscillator ∧
    (statusIgnored s).now = s.now ∧ (statusIgnored s).freeUses = s.freeUses ∧ (statusIgnored s).dram = s.dram ∧
    (statusIgnored s).flips = s.flips ∧ (statusIgnored s).adm = s.adm ∧ (statusIgnored s).time = s.time ∧
    (statusIgnored s).xfer = s.xfer ∧ (statusIgnored s).windows = s.windows ∧ (statusIgnored s).path = s.path ∧
    (statusIgnored s).integ = s.integ ∧ (statusIgnored s).march = s.march ∧ (statusIgnored s).loop = s.loop ∧
    (statusIgnored s).dec = s.dec ∧ (statusIgnored s).rep = s.rep ∧ (statusIgnored s).fault = s.fault := by
  simpa [eraseBlocks] using statusIgnored_erase (l := [.link]) (List.Subset.refl _) (s := s)

@[simp] theorem applyProfile_erase {l a s} (h : [.link, .time, .xfer, .rep, .path, .fault, .freeUses, .loop] ⊆ l) :
    eraseBlocks l (applyProfile a s) = eraseBlocks l s := by
  simp at h
  simp [applyProfile, h]

@[simp] theorem applyProfile_frame {a s} :
    (applyProfile a s).pending = s.pending ∧ (applyProfile a s).straps = s.straps ∧
    (applyProfile a s).inReset = s.inReset ∧ (applyProfile a s).oscillator = s.oscillator ∧
    (applyProfile a s).now = s.now ∧ (applyProfile a s).dram = s.dram ∧ (applyProfile a s).flips = s.flips ∧
    (applyProfile a s).adm = s.adm ∧ (applyProfile a s).windows = s.windows ∧ (applyProfile a s).integ = s.integ ∧
    (applyProfile a s).march = s.march ∧ (applyProfile a s).dec = s.dec := by
  simpa [eraseBlocks] using applyProfile_erase (l := [.link, .time, .xfer, .rep, .path, .fault, .freeUses, .loop]) (List.Subset.refl _) (a := a) (s := s)

@[simp] theorem applyLink_erase {l a s} (h : [.link, .time, .xfer, .rep, .path, .fault, .freeUses, .loop] ⊆ l) :
    eraseBlocks l (applyLink a s) = eraseBlocks l s := by
  simp at h
  simp [applyLink, h]

@[simp] theorem applyLink_frame {a s} :
    (applyLink a s).pending = s.pending ∧ (applyLink a s).straps = s.straps ∧ (applyLink a s).inReset = s.inReset ∧
    (applyLink a s).oscillator = s.oscillator ∧ (applyLink a s).now = s.now ∧ (applyLink a s).dram = s.dram ∧
    (applyLink a s).flips = s.flips ∧ (applyLink a s).adm = s.adm ∧ (applyLink a s).windows = s.windows ∧
    (applyLink a s).integ = s.integ ∧ (applyLink a s).march = s.march ∧ (applyLink a s).dec = s.dec := by
  simpa [eraseBlocks] using applyLink_erase (l := [.link, .time, .xfer, .rep, .path, .fault, .freeUses, .loop]) (List.Subset.refl _) (a := a) (s := s)

/-! ### Machine/Admission.lean -/

@[simp] theorem updCls_erase {l a b s} (h : [.adm] ⊆ l) :
    eraseBlocks l (updCls a b s) = eraseBlocks l s := by
  simp at h
  simp [updCls, h]

@[simp] theorem updCls_frame {a b s} :
    (updCls a b s).pending = s.pending ∧ (updCls a b s).straps = s.straps ∧ (updCls a b s).inReset = s.inReset ∧
    (updCls a b s).oscillator = s.oscillator ∧ (updCls a b s).now = s.now ∧ (updCls a b s).freeUses = s.freeUses ∧
    (updCls a b s).dram = s.dram ∧ (updCls a b s).flips = s.flips ∧ (updCls a b s).link = s.link ∧
    (updCls a b s).time = s.time ∧ (updCls a b s).xfer = s.xfer ∧ (updCls a b s).windows = s.windows ∧
    (updCls a b s).path = s.path ∧ (updCls a b s).integ = s.integ ∧ (updCls a b s).march = s.march ∧
    (updCls a b s).loop = s.loop ∧ (updCls a b s).dec = s.dec ∧ (updCls a b s).rep = s.rep ∧
    (updCls a b s).fault = s.fault := by
  simpa [eraseBlocks] using updCls_erase (l := [.adm]) (List.Subset.refl _) (a := a) (b := b) (s := s)

@[simp] theorem countCls_erase {l a b s} (h : [.adm] ⊆ l) :
    eraseBlocks l (countCls a b s) = eraseBlocks l s := by
  simp at h
  simp [countCls, h]

@[simp] theorem countCls_frame {a b s} :
    (countCls a b s).pending = s.pending ∧ (countCls a b s).straps = s.straps ∧ (countCls a b s).inReset = s.inReset ∧
    (countCls a b s).oscillator = s.oscillator ∧ (countCls a b s).now = s.now ∧ (countCls a b s).freeUses = s.freeUses ∧
    (countCls a b s).dram = s.dram ∧ (countCls a b s).flips = s.flips ∧ (countCls a b s).link = s.link ∧
    (countCls a b s).time = s.time ∧ (countCls a b s).xfer = s.xfer ∧ (countCls a b s).windows = s.windows ∧
    (countCls a b s).path = s.path ∧ (countCls a b s).integ = s.integ ∧ (countCls a b s).march = s.march ∧
    (countCls a b s).loop = s.loop ∧ (countCls a b s).dec = s.dec ∧ (countCls a b s).rep = s.rep ∧
    (countCls a b s).fault = s.fault := by
  simpa [eraseBlocks] using countCls_erase (l := [.adm]) (List.Subset.refl _) (a := a) (b := b) (s := s)

@[simp] theorem writeNotice_erase {l a s} (h : [.adm, .path, .march] ⊆ l) :
    eraseBlocks l (writeNotice a s) = eraseBlocks l s := by
  simp at h
  simp only [writeNotice]
  repeat' split
  all_goals simp [h]

@[simp] theorem writeNotice_frame {a s} :
    (writeNotice a s).pending = s.pending ∧ (writeNotice a s).straps = s.straps ∧
    (writeNotice a s).inReset = s.inReset ∧ (writeNotice a s).oscillator = s.oscillator ∧
    (writeNotice a s).now = s.now ∧ (writeNotice a s).freeUses = s.freeUses ∧ (writeNotice a s).dram = s.dram ∧
    (writeNotice a s).flips = s.flips ∧ (writeNotice a s).link = s.link ∧ (writeNotice a s).time = s.time ∧
    (writeNotice a s).xfer = s.xfer ∧ (writeNotice a s).windows = s.windows ∧ (writeNotice a s).integ = s.integ ∧
    (writeNotice a s).loop = s.loop ∧ (writeNotice a s).dec = s.dec ∧ (writeNotice a s).rep = s.rep ∧
    (writeNotice a s).fault = s.fault := by
  simpa [eraseBlocks] using writeNotice_erase (l := [.adm, .path, .march]) (List.Subset.refl _) (a := a) (s := s)

@[simp] theorem evalCongestion_erase {l a s} (h : [.adm, .path, .march, .fault, .rep] ⊆ l) :
    eraseBlocks l (evalCongestion a s) = eraseBlocks l s := by
  simp at h
  simp only [evalCongestion]
  repeat' split
  all_goals simp [h]

@[simp] theorem evalCongestion_frame {a s} :
    (evalCongestion a s).pending = s.pending ∧ (evalCongestion a s).straps = s.straps ∧
    (evalCongestion a s).inReset = s.inReset ∧ (evalCongestion a s).oscillator = s.oscillator ∧
    (evalCongestion a s).now = s.now ∧ (evalCongestion a s).freeUses = s.freeUses ∧ (evalCongestion a s).dram = s.dram ∧
    (evalCongestion a s).flips = s.flips ∧ (evalCongestion a s).link = s.link ∧ (evalCongestion a s).time = s.time ∧
    (evalCongestion a s).xfer = s.xfer ∧ (evalCongestion a s).windows = s.windows ∧
    (evalCongestion a s).integ = s.integ ∧ (evalCongestion a s).loop = s.loop ∧ (evalCongestion a s).dec = s.dec := by
  simpa [eraseBlocks] using evalCongestion_erase (l := [.adm, .path, .march, .fault, .rep]) (List.Subset.refl _) (a := a) (s := s)

@[simp] theorem setHeld_erase {l a b s} (h : [.adm, .path, .march, .fault, .rep] ⊆ l) :
    eraseBlocks l (setHeld a b s) = eraseBlocks l s := by
  simp at h
  simp [setHeld, h]

@[simp] theorem setHeld_frame {a b s} :
    (setHeld a b s).pending = s.pending ∧ (setHeld a b s).straps = s.straps ∧ (setHeld a b s).inReset = s.inReset ∧
    (setHeld a b s).oscillator = s.oscillator ∧ (setHeld a b s).now = s.now ∧ (setHeld a b s).freeUses = s.freeUses ∧
    (setHeld a b s).dram = s.dram ∧ (setHeld a b s).flips = s.flips ∧ (setHeld a b s).link = s.link ∧
    (setHeld a b s).time = s.time ∧ (setHeld a b s).xfer = s.xfer ∧ (setHeld a b s).windows = s.windows ∧
    (setHeld a b s).integ = s.integ ∧ (setHeld a b s).loop = s.loop ∧ (setHeld a b s).dec = s.dec := by
  simpa [eraseBlocks] using setHeld_erase (l := [.adm, .path, .march, .fault, .rep]) (List.Subset.refl _) (a := a) (b := b) (s := s)

@[simp] theorem unlistFrom_erase {l a b s} (h : [.adm, .path, .march, .fault, .rep] ⊆ l) :
    eraseBlocks l (unlistFrom a b s) = eraseBlocks l s := by
  simp at h
  simp only [unlistFrom]
  repeat' split
  all_goals simp [h]

@[simp] theorem unlistFrom_frame {a b s} :
    (unlistFrom a b s).pending = s.pending ∧ (unlistFrom a b s).straps = s.straps ∧
    (unlistFrom a b s).inReset = s.inReset ∧ (unlistFrom a b s).oscillator = s.oscillator ∧
    (unlistFrom a b s).now = s.now ∧ (unlistFrom a b s).freeUses = s.freeUses ∧ (unlistFrom a b s).dram = s.dram ∧
    (unlistFrom a b s).flips = s.flips ∧ (unlistFrom a b s).link = s.link ∧ (unlistFrom a b s).time = s.time ∧
    (unlistFrom a b s).xfer = s.xfer ∧ (unlistFrom a b s).windows = s.windows ∧ (unlistFrom a b s).integ = s.integ ∧
    (unlistFrom a b s).loop = s.loop ∧ (unlistFrom a b s).dec = s.dec := by
  simpa [eraseBlocks] using unlistFrom_erase (l := [.adm, .path, .march, .fault, .rep]) (List.Subset.refl _) (a := a) (b := b) (s := s)

@[simp] theorem unlist_erase {l a s} (h : [.adm, .path, .march, .fault, .rep] ⊆ l) :
    eraseBlocks l (unlist a s) = eraseBlocks l s := by
  rw [unlist, foldl_erase]
  intro t c _
  simp at h
  simp [h]

@[simp] theorem unlist_frame {a s} :
    (unlist a s).pending = s.pending ∧ (unlist a s).straps = s.straps ∧ (unlist a s).inReset = s.inReset ∧
    (unlist a s).oscillator = s.oscillator ∧ (unlist a s).now = s.now ∧ (unlist a s).freeUses = s.freeUses ∧
    (unlist a s).dram = s.dram ∧ (unlist a s).flips = s.flips ∧ (unlist a s).link = s.link ∧
    (unlist a s).time = s.time ∧ (unlist a s).xfer = s.xfer ∧ (unlist a s).windows = s.windows ∧
    (unlist a s).integ = s.integ ∧ (unlist a s).loop = s.loop ∧ (unlist a s).dec = s.dec := by
  simpa [eraseBlocks] using unlist_erase (l := [.adm, .path, .march, .fault, .rep]) (List.Subset.refl _) (a := a) (s := s)

@[simp] theorem ageExpiry_erase {l a s} (h : [.adm, .path, .march, .fault, .rep] ⊆ l) :
    eraseBlocks l (ageExpiry a s) = eraseBlocks l s := by
  simp at h
  simp [ageExpiry, h]

@[simp] theorem ageExpiry_frame {a s} :
    (ageExpiry a s).pending = s.pending ∧ (ageExpiry a s).straps = s.straps ∧ (ageExpiry a s).inReset = s.inReset ∧
    (ageExpiry a s).oscillator = s.oscillator ∧ (ageExpiry a s).now = s.now ∧ (ageExpiry a s).freeUses = s.freeUses ∧
    (ageExpiry a s).dram = s.dram ∧ (ageExpiry a s).flips = s.flips ∧ (ageExpiry a s).link = s.link ∧
    (ageExpiry a s).time = s.time ∧ (ageExpiry a s).xfer = s.xfer ∧ (ageExpiry a s).windows = s.windows ∧
    (ageExpiry a s).integ = s.integ ∧ (ageExpiry a s).loop = s.loop ∧ (ageExpiry a s).dec = s.dec := by
  simpa [eraseBlocks] using ageExpiry_erase (l := [.adm, .path, .march, .fault, .rep]) (List.Subset.refl _) (a := a) (s := s)

@[simp] theorem refill_erase {l  s} (h : [.adm] ⊆ l) :
    eraseBlocks l (refill s) = eraseBlocks l s := by
  rw [refill, foldl_erase]
  intro t c _
  simp at h
  simp [h]

@[simp] theorem refill_frame {s : State} :
    (refill s).pending = s.pending ∧ (refill s).straps = s.straps ∧ (refill s).inReset = s.inReset ∧
    (refill s).oscillator = s.oscillator ∧ (refill s).now = s.now ∧ (refill s).freeUses = s.freeUses ∧
    (refill s).dram = s.dram ∧ (refill s).flips = s.flips ∧ (refill s).link = s.link ∧ (refill s).time = s.time ∧
    (refill s).xfer = s.xfer ∧ (refill s).windows = s.windows ∧ (refill s).path = s.path ∧ (refill s).integ = s.integ ∧
    (refill s).march = s.march ∧ (refill s).loop = s.loop ∧ (refill s).dec = s.dec ∧ (refill s).rep = s.rep ∧
    (refill s).fault = s.fault := by
  simpa [eraseBlocks] using refill_erase (l := [.adm]) (List.Subset.refl _) (s := s)

@[simp] theorem refillExpiry_erase {l  s} (h : [.adm, .path, .march, .fault, .rep] ⊆ l) :
    eraseBlocks l (refillExpiry s) = eraseBlocks l s := by
  simp at h
  rw [refillExpiry, foldl_erase]
  · simp [h]
  · intro t c _
    simp [h]

@[simp] theorem refillExpiry_frame {s : State} :
    (refillExpiry s).pending = s.pending ∧ (refillExpiry s).straps = s.straps ∧ (refillExpiry s).inReset = s.inReset ∧
    (refillExpiry s).oscillator = s.oscillator ∧ (refillExpiry s).now = s.now ∧ (refillExpiry s).freeUses = s.freeUses ∧
    (refillExpiry s).dram = s.dram ∧ (refillExpiry s).flips = s.flips ∧ (refillExpiry s).link = s.link ∧
    (refillExpiry s).time = s.time ∧ (refillExpiry s).xfer = s.xfer ∧ (refillExpiry s).windows = s.windows ∧
    (refillExpiry s).integ = s.integ ∧ (refillExpiry s).loop = s.loop ∧ (refillExpiry s).dec = s.dec := by
  simpa [eraseBlocks] using refillExpiry_erase (l := [.adm, .path, .march, .fault, .rep]) (List.Subset.refl _) (s := s)

@[simp] theorem queueWriteBack_erase {l a s} (h : [.path, .adm] ⊆ l) :
    eraseBlocks l (queueWriteBack a s) = eraseBlocks l s := by
  simp at h
  simp only [queueWriteBack]
  repeat' split
  all_goals simp [h]

@[simp] theorem queueWriteBack_frame {a s} :
    (queueWriteBack a s).pending = s.pending ∧ (queueWriteBack a s).straps = s.straps ∧
    (queueWriteBack a s).inReset = s.inReset ∧ (queueWriteBack a s).oscillator = s.oscillator ∧
    (queueWriteBack a s).now = s.now ∧ (queueWriteBack a s).freeUses = s.freeUses ∧ (queueWriteBack a s).dram = s.dram ∧
    (queueWriteBack a s).flips = s.flips ∧ (queueWriteBack a s).link = s.link ∧ (queueWriteBack a s).time = s.time ∧
    (queueWriteBack a s).xfer = s.xfer ∧ (queueWriteBack a s).windows = s.windows ∧
    (queueWriteBack a s).integ = s.integ ∧ (queueWriteBack a s).march = s.march ∧ (queueWriteBack a s).loop = s.loop ∧
    (queueWriteBack a s).dec = s.dec ∧ (queueWriteBack a s).rep = s.rep ∧ (queueWriteBack a s).fault = s.fault := by
  simpa [eraseBlocks] using queueWriteBack_erase (l := [.path, .adm]) (List.Subset.refl _) (a := a) (s := s)

@[simp] theorem reject_erase {l a b c d e s} (h : [.adm, .path, .march, .fault, .rep, .xfer, .loop] ⊆ l) :
    eraseBlocks l (reject a b c d e s) = eraseBlocks l s := by
  simp at h
  simp only [reject]
  repeat' split
  all_goals simp [h]

@[simp] theorem reject_frame {a b c d e s} :
    (reject a b c d e s).pending = s.pending ∧ (reject a b c d e s).straps = s.straps ∧
    (reject a b c d e s).inReset = s.inReset ∧ (reject a b c d e s).oscillator = s.oscillator ∧
    (reject a b c d e s).now = s.now ∧ (reject a b c d e s).freeUses = s.freeUses ∧ (reject a b c d e s).dram = s.dram ∧
    (reject a b c d e s).flips = s.flips ∧ (reject a b c d e s).link = s.link ∧ (reject a b c d e s).time = s.time ∧
    (reject a b c d e s).windows = s.windows ∧ (reject a b c d e s).integ = s.integ ∧
    (reject a b c d e s).dec = s.dec := by
  simpa [eraseBlocks] using reject_erase (l := [.adm, .path, .march, .fault, .rep, .xfer, .loop]) (List.Subset.refl _) (a := a) (b := b) (c := c) (d := d) (e := e) (s := s)

@[simp] theorem hold_erase {l a b c s} (h : [.adm, .path, .march, .fault, .rep] ⊆ l) :
    eraseBlocks l (hold a b c s) = eraseBlocks l s := by
  simp at h
  simp only [hold]
  repeat' split
  all_goals simp [h]

@[simp] theorem hold_frame {a b c s} :
    (hold a b c s).pending = s.pending ∧ (hold a b c s).straps = s.straps ∧ (hold a b c s).inReset = s.inReset ∧
    (hold a b c s).oscillator = s.oscillator ∧ (hold a b c s).now = s.now ∧ (hold a b c s).freeUses = s.freeUses ∧
    (hold a b c s).dram = s.dram ∧ (hold a b c s).flips = s.flips ∧ (hold a b c s).link = s.link ∧
    (hold a b c s).time = s.time ∧ (hold a b c s).xfer = s.xfer ∧ (hold a b c s).windows = s.windows ∧
    (hold a b c s).integ = s.integ ∧ (hold a b c s).loop = s.loop ∧ (hold a b c s).dec = s.dec := by
  simpa [eraseBlocks] using hold_erase (l := [.adm, .path, .march, .fault, .rep]) (List.Subset.refl _) (a := a) (b := b) (c := c) (s := s)

@[simp] theorem admit_erase {l a b c s} (h : [.adm, .path, .march, .fault, .rep] ⊆ l) :
    eraseBlocks l (admitDescriptor a b c s) = eraseBlocks l s := by
  simp at h
  simp [admitDescriptor, h]

@[simp] theorem admit_frame {a b c s} :
    (admitDescriptor a b c s).pending = s.pending ∧ (admitDescriptor a b c s).straps = s.straps ∧
    (admitDescriptor a b c s).inReset = s.inReset ∧ (admitDescriptor a b c s).oscillator = s.oscillator ∧
    (admitDescriptor a b c s).now = s.now ∧ (admitDescriptor a b c s).freeUses = s.freeUses ∧
    (admitDescriptor a b c s).dram = s.dram ∧ (admitDescriptor a b c s).flips = s.flips ∧
    (admitDescriptor a b c s).link = s.link ∧ (admitDescriptor a b c s).time = s.time ∧
    (admitDescriptor a b c s).xfer = s.xfer ∧ (admitDescriptor a b c s).windows = s.windows ∧
    (admitDescriptor a b c s).integ = s.integ ∧ (admitDescriptor a b c s).loop = s.loop ∧
    (admitDescriptor a b c s).dec = s.dec := by
  simpa [eraseBlocks] using admit_erase (l := [.adm, .path, .march, .fault, .rep]) (List.Subset.refl _) (a := a) (b := b) (c := c) (s := s)

@[simp] theorem removeFlight_erase {l a s} (h : [.adm] ⊆ l) :
    eraseBlocks l (removeFlight a s) = eraseBlocks l s := by
  simp at h
  simp [removeFlight, h]

@[simp] theorem removeFlight_frame {a s} :
    (removeFlight a s).pending = s.pending ∧ (removeFlight a s).straps = s.straps ∧
    (removeFlight a s).inReset = s.inReset ∧ (removeFlight a s).oscillator = s.oscillator ∧
    (removeFlight a s).now = s.now ∧ (removeFlight a s).freeUses = s.freeUses ∧ (removeFlight a s).dram = s.dram ∧
    (removeFlight a s).flips = s.flips ∧ (removeFlight a s).link = s.link ∧ (removeFlight a s).time = s.time ∧
    (removeFlight a s).xfer = s.xfer ∧ (removeFlight a s).windows = s.windows ∧ (removeFlight a s).path = s.path ∧
    (removeFlight a s).integ = s.integ ∧ (removeFlight a s).march = s.march ∧ (removeFlight a s).loop = s.loop ∧
    (removeFlight a s).dec = s.dec ∧ (removeFlight a s).rep = s.rep ∧ (removeFlight a s).fault = s.fault := by
  simpa [eraseBlocks] using removeFlight_erase (l := [.adm]) (List.Subset.refl _) (a := a) (s := s)

@[simp] theorem judge_erase {l a b c d s} (h : [.adm, .path, .march, .fault, .rep, .xfer, .loop] ⊆ l) :
    eraseBlocks l (judge a b c d s).2 = eraseBlocks l s := by
  simp at h
  simp only [judge]
  repeat' split
  all_goals simp [h]

@[simp] theorem judge_frame {a b c d s} :
    (judge a b c d s).2.pending = s.pending ∧ (judge a b c d s).2.straps = s.straps ∧
    (judge a b c d s).2.inReset = s.inReset ∧ (judge a b c d s).2.oscillator = s.oscillator ∧
    (judge a b c d s).2.now = s.now ∧ (judge a b c d s).2.freeUses = s.freeUses ∧ (judge a b c d s).2.dram = s.dram ∧
    (judge a b c d s).2.flips = s.flips ∧ (judge a b c d s).2.link = s.link ∧ (judge a b c d s).2.time = s.time ∧
    (judge a b c d s).2.windows = s.windows ∧ (judge a b c d s).2.integ = s.integ ∧
    (judge a b c d s).2.dec = s.dec := by
  simpa [eraseBlocks] using judge_erase (l := [.adm, .path, .march, .fault, .rep, .xfer, .loop]) (List.Subset.refl _) (a := a) (b := b) (c := c) (d := d) (s := s)

@[simp] theorem txCompletion_erase {l a b c s} (h : [.adm, .path, .march, .fault, .rep, .xfer, .loop, .time, .freeUses] ⊆ l) :
    eraseBlocks l (txCompletion a b c s).2 = eraseBlocks l s := by
  simp at h
  simp only [txCompletion]
  repeat' split
  all_goals simp [h]

@[simp] theorem txCompletion_frame {a b c s} :
    (txCompletion a b c s).2.pending = s.pending ∧ (txCompletion a b c s).2.straps = s.straps ∧
    (txCompletion a b c s).2.inReset = s.inReset ∧ (txCompletion a b c s).2.oscillator = s.oscillator ∧
    (txCompletion a b c s).2.now = s.now ∧ (txCompletion a b c s).2.dram = s.dram ∧
    (txCompletion a b c s).2.flips = s.flips ∧ (txCompletion a b c s).2.link = s.link ∧
    (txCompletion a b c s).2.windows = s.windows ∧ (txCompletion a b c s).2.integ = s.integ ∧
    (txCompletion a b c s).2.dec = s.dec := by
  simpa [eraseBlocks] using txCompletion_erase (l := [.adm, .path, .march, .fault, .rep, .xfer, .loop, .time, .freeUses]) (List.Subset.refl _) (a := a) (b := b) (c := c) (s := s)

@[simp] theorem flightExpiry_erase {l a s} (h : [.adm, .path, .march, .fault, .rep, .xfer, .loop] ⊆ l) :
    eraseBlocks l (flightExpiry a s) = eraseBlocks l s := by
  simp at h
  simp [flightExpiry, h]

@[simp] theorem flightExpiry_frame {a s} :
    (flightExpiry a s).pending = s.pending ∧ (flightExpiry a s).straps = s.straps ∧
    (flightExpiry a s).inReset = s.inReset ∧ (flightExpiry a s).oscillator = s.oscillator ∧
    (flightExpiry a s).now = s.now ∧ (flightExpiry a s).freeUses = s.freeUses ∧ (flightExpiry a s).dram = s.dram ∧
    (flightExpiry a s).flips = s.flips ∧ (flightExpiry a s).link = s.link ∧ (flightExpiry a s).time = s.time ∧
    (flightExpiry a s).windows = s.windows ∧ (flightExpiry a s).integ = s.integ ∧ (flightExpiry a s).dec = s.dec := by
  simpa [eraseBlocks] using flightExpiry_erase (l := [.adm, .path, .march, .fault, .rep, .xfer, .loop]) (List.Subset.refl _) (a := a) (s := s)

@[simp] theorem overwrite_erase {l a b c s} (h : [.adm, .path, .march, .fault, .rep, .xfer, .loop] ⊆ l) :
    eraseBlocks l (overwrite a b c s) = eraseBlocks l s := by
  simp at h
  simp only [overwrite]
  repeat' split
  all_goals simp [h]

@[simp] theorem overwrite_frame {a b c s} :
    (overwrite a b c s).pending = s.pending ∧ (overwrite a b c s).straps = s.straps ∧
    (overwrite a b c s).inReset = s.inReset ∧ (overwrite a b c s).oscillator = s.oscillator ∧
    (overwrite a b c s).now = s.now ∧ (overwrite a b c s).freeUses = s.freeUses ∧ (overwrite a b c s).dram = s.dram ∧
    (overwrite a b c s).flips = s.flips ∧ (overwrite a b c s).link = s.link ∧ (overwrite a b c s).time = s.time ∧
    (overwrite a b c s).windows = s.windows ∧ (overwrite a b c s).integ = s.integ ∧
    (overwrite a b c s).dec = s.dec := by
  simpa [eraseBlocks] using overwrite_erase (l := [.adm, .path, .march, .fault, .rep, .xfer, .loop]) (List.Subset.refl _) (a := a) (b := b) (c := c) (s := s)

@[simp] theorem countRx_erase {l a s} (h : [.adm] ⊆ l) :
    eraseBlocks l (countRx a s) = eraseBlocks l s := by
  simp at h
  simp only [countRx]
  repeat' split
  all_goals simp [h]

@[simp] theorem countRx_frame {a s} :
    (countRx a s).pending = s.pending ∧ (countRx a s).straps = s.straps ∧ (countRx a s).inReset = s.inReset ∧
    (countRx a s).oscillator = s.oscillator ∧ (countRx a s).now = s.now ∧ (countRx a s).freeUses = s.freeUses ∧
    (countRx a s).dram = s.dram ∧ (countRx a s).flips = s.flips ∧ (countRx a s).link = s.link ∧
    (countRx a s).time = s.time ∧ (countRx a s).xfer = s.xfer ∧ (countRx a s).windows = s.windows ∧
    (countRx a s).path = s.path ∧ (countRx a s).integ = s.integ ∧ (countRx a s).march = s.march ∧
    (countRx a s).loop = s.loop ∧ (countRx a s).dec = s.dec ∧ (countRx a s).rep = s.rep ∧
    (countRx a s).fault = s.fault := by
  simpa [eraseBlocks] using countRx_erase (l := [.adm]) (List.Subset.refl _) (a := a) (s := s)

@[simp] theorem rxCompletion_erase {l a s} (h : [.adm, .time, .xfer, .rep, .path, .fault, .freeUses, .loop] ⊆ l) :
    eraseBlocks l (rxCompletion a s).2 = eraseBlocks l s := by
  simp at h
  simp only [rxCompletion]
  repeat' split
  all_goals simp [h]

@[simp] theorem rxCompletion_frame {a s} :
    (rxCompletion a s).2.pending = s.pending ∧ (rxCompletion a s).2.straps = s.straps ∧
    (rxCompletion a s).2.inReset = s.inReset ∧ (rxCompletion a s).2.oscillator = s.oscillator ∧
    (rxCompletion a s).2.now = s.now ∧ (rxCompletion a s).2.dram = s.dram ∧ (rxCompletion a s).2.flips = s.flips ∧
    (rxCompletion a s).2.link = s.link ∧ (rxCompletion a s).2.windows = s.windows ∧
    (rxCompletion a s).2.integ = s.integ ∧ (rxCompletion a s).2.march = s.march ∧ (rxCompletion a s).2.dec = s.dec := by
  simpa [eraseBlocks] using rxCompletion_erase (l := [.adm, .time, .xfer, .rep, .path, .fault, .freeUses, .loop]) (List.Subset.refl _) (a := a) (s := s)

@[simp] theorem applyClass_erase {l a s} (h : [.adm, .path, .march, .fault, .rep] ⊆ l) :
    eraseBlocks l (applyClass a s) = eraseBlocks l s := by
  simp at h
  simp [applyClass, h]

@[simp] theorem applyClass_frame {a s} :
    (applyClass a s).pending = s.pending ∧ (applyClass a s).straps = s.straps ∧ (applyClass a s).inReset = s.inReset ∧
    (applyClass a s).oscillator = s.oscillator ∧ (applyClass a s).now = s.now ∧ (applyClass a s).freeUses = s.freeUses ∧
    (applyClass a s).dram = s.dram ∧ (applyClass a s).flips = s.flips ∧ (applyClass a s).link = s.link ∧
    (applyClass a s).time = s.time ∧ (applyClass a s).xfer = s.xfer ∧ (applyClass a s).windows = s.windows ∧
    (applyClass a s).integ = s.integ ∧ (applyClass a s).loop = s.loop ∧ (applyClass a s).dec = s.dec := by
  simpa [eraseBlocks] using applyClass_erase (l := [.adm, .path, .march, .fault, .rep]) (List.Subset.refl _) (a := a) (s := s)

@[simp] theorem disableClass_erase {l a s} (h : [.adm, .path, .march, .fault, .rep, .loop] ⊆ l) :
    eraseBlocks l (disableClass a s) = eraseBlocks l s := by
  simp at h
  simp only [disableClass]
  repeat' split
  all_goals simp [h]

@[simp] theorem disableClass_frame {a s} :
    (disableClass a s).pending = s.pending ∧ (disableClass a s).straps = s.straps ∧
    (disableClass a s).inReset = s.inReset ∧ (disableClass a s).oscillator = s.oscillator ∧
    (disableClass a s).now = s.now ∧ (disableClass a s).freeUses = s.freeUses ∧ (disableClass a s).dram = s.dram ∧
    (disableClass a s).flips = s.flips ∧ (disableClass a s).link = s.link ∧ (disableClass a s).time = s.time ∧
    (disableClass a s).xfer = s.xfer ∧ (disableClass a s).windows = s.windows ∧ (disableClass a s).integ = s.integ ∧
    (disableClass a s).dec = s.dec := by
  simpa [eraseBlocks] using disableClass_erase (l := [.adm, .path, .march, .fault, .rep, .loop]) (List.Subset.refl _) (a := a) (s := s)

@[simp] theorem admitClass_erase {l a b s} (h : [.adm, .path, .march, .fault, .rep, .loop] ⊆ l) :
    eraseBlocks l (admitClass a b s) = eraseBlocks l s := by
  simp at h
  simp only [admitClass]
  repeat' split
  all_goals simp [h]

@[simp] theorem admitClass_frame {a b s} :
    (admitClass a b s).pending = s.pending ∧ (admitClass a b s).straps = s.straps ∧
    (admitClass a b s).inReset = s.inReset ∧ (admitClass a b s).oscillator = s.oscillator ∧
    (admitClass a b s).now = s.now ∧ (admitClass a b s).freeUses = s.freeUses ∧ (admitClass a b s).dram = s.dram ∧
    (admitClass a b s).flips = s.flips ∧ (admitClass a b s).link = s.link ∧ (admitClass a b s).time = s.time ∧
    (admitClass a b s).xfer = s.xfer ∧ (admitClass a b s).windows = s.windows ∧ (admitClass a b s).integ = s.integ ∧
    (admitClass a b s).dec = s.dec := by
  simpa [eraseBlocks] using admitClass_erase (l := [.adm, .path, .march, .fault, .rep, .loop]) (List.Subset.refl _) (a := a) (b := b) (s := s)

@[simp] theorem applyAdmit_erase {l a s} (h : [.adm, .path, .march, .fault, .rep, .loop] ⊆ l) :
    eraseBlocks l (applyAdmit a s) = eraseBlocks l s := by
  simp at h
  simp only [applyAdmit]
  have hf : eraseBlocks l (allClasses.foldl (fun t c => admitClass a c t) s) = eraseBlocks l s := by
    rw [foldl_erase]
    intro t c _
    simp [h]
  split <;> simp [h, hf]

@[simp] theorem applyAdmit_frame {a s} :
    (applyAdmit a s).pending = s.pending ∧ (applyAdmit a s).straps = s.straps ∧ (applyAdmit a s).inReset = s.inReset ∧
    (applyAdmit a s).oscillator = s.oscillator ∧ (applyAdmit a s).now = s.now ∧ (applyAdmit a s).freeUses = s.freeUses ∧
    (applyAdmit a s).dram = s.dram ∧ (applyAdmit a s).flips = s.flips ∧ (applyAdmit a s).link = s.link ∧
    (applyAdmit a s).time = s.time ∧ (applyAdmit a s).xfer = s.xfer ∧ (applyAdmit a s).windows = s.windows ∧
    (applyAdmit a s).integ = s.integ ∧ (applyAdmit a s).dec = s.dec := by
  simpa [eraseBlocks] using applyAdmit_erase (l := [.adm, .path, .march, .fault, .rep, .loop]) (List.Subset.refl _) (a := a) (s := s)

@[simp] theorem clearAdmission_erase {l  s} (h : [.adm] ⊆ l) :
    eraseBlocks l (clearAdmission s) = eraseBlocks l s := by
  simp at h
  rw [clearAdmission, updAdm_erase h, foldl_erase]
  intro t c _
  simp [h]

@[simp] theorem clearAdmission_frame {s : State} :
    (clearAdmission s).pending = s.pending ∧ (clearAdmission s).straps = s.straps ∧
    (clearAdmission s).inReset = s.inReset ∧ (clearAdmission s).oscillator = s.oscillator ∧
    (clearAdmission s).now = s.now ∧ (clearAdmission s).freeUses = s.freeUses ∧ (clearAdmission s).dram = s.dram ∧
    (clearAdmission s).flips = s.flips ∧ (clearAdmission s).link = s.link ∧ (clearAdmission s).time = s.time ∧
    (clearAdmission s).xfer = s.xfer ∧ (clearAdmission s).windows = s.windows ∧ (clearAdmission s).path = s.path ∧
    (clearAdmission s).integ = s.integ ∧ (clearAdmission s).march = s.march ∧ (clearAdmission s).loop = s.loop ∧
    (clearAdmission s).dec = s.dec ∧ (clearAdmission s).rep = s.rep ∧ (clearAdmission s).fault = s.fault := by
  simpa [eraseBlocks] using clearAdmission_erase (l := [.adm]) (List.Subset.refl _) (s := s)

/-! ### Machine/Station.lean -/

@[simp] theorem beginWait_erase {l a b s} (h : [.path] ⊆ l) :
    eraseBlocks l (beginWait a b s) = eraseBlocks l s := by
  simp at h
  simp only [beginWait]
  repeat' split
  all_goals simp [h]

@[simp] theorem beginWait_frame {a b s} :
    (beginWait a b s).pending = s.pending ∧ (beginWait a b s).straps = s.straps ∧
    (beginWait a b s).inReset = s.inReset ∧ (beginWait a b s).oscillator = s.oscillator ∧
    (beginWait a b s).now = s.now ∧ (beginWait a b s).freeUses = s.freeUses ∧ (beginWait a b s).dram = s.dram ∧
    (beginWait a b s).flips = s.flips ∧ (beginWait a b s).link = s.link ∧ (beginWait a b s).adm = s.adm ∧
    (beginWait a b s).time = s.time ∧ (beginWait a b s).xfer = s.xfer ∧ (beginWait a b s).windows = s.windows ∧
    (beginWait a b s).integ = s.integ ∧ (beginWait a b s).march = s.march ∧ (beginWait a b s).loop = s.loop ∧
    (beginWait a b s).dec = s.dec ∧ (beginWait a b s).rep = s.rep ∧ (beginWait a b s).fault = s.fault := by
  simpa [eraseBlocks] using beginWait_erase (l := [.path]) (List.Subset.refl _) (a := a) (b := b) (s := s)

@[simp] theorem endWait_erase {l a b s} (h : [.path] ⊆ l) :
    eraseBlocks l (endWait a b s) = eraseBlocks l s := by
  simp at h
  simp [endWait, h]

@[simp] theorem endWait_frame {a b s} :
    (endWait a b s).pending = s.pending ∧ (endWait a b s).straps = s.straps ∧ (endWait a b s).inReset = s.inReset ∧
    (endWait a b s).oscillator = s.oscillator ∧ (endWait a b s).now = s.now ∧ (endWait a b s).freeUses = s.freeUses ∧
    (endWait a b s).dram = s.dram ∧ (endWait a b s).flips = s.flips ∧ (endWait a b s).link = s.link ∧
    (endWait a b s).adm = s.adm ∧ (endWait a b s).time = s.time ∧ (endWait a b s).xfer = s.xfer ∧
    (endWait a b s).windows = s.windows ∧ (endWait a b s).integ = s.integ ∧ (endWait a b s).march = s.march ∧
    (endWait a b s).loop = s.loop ∧ (endWait a b s).dec = s.dec ∧ (endWait a b s).rep = s.rep ∧
    (endWait a b s).fault = s.fault := by
  simpa [eraseBlocks] using endWait_erase (l := [.path]) (List.Subset.refl _) (a := a) (b := b) (s := s)

@[simp] theorem takeStation_erase {l a s} (h : [.path] ⊆ l) :
    eraseBlocks l (takeStation a s) = eraseBlocks l s := by
  simp at h
  simp only [takeStation]
  repeat' split
  all_goals simp [h]

@[simp] theorem takeStation_frame {a s} :
    (takeStation a s).pending = s.pending ∧ (takeStation a s).straps = s.straps ∧
    (takeStation a s).inReset = s.inReset ∧ (takeStation a s).oscillator = s.oscillator ∧
    (takeStation a s).now = s.now ∧ (takeStation a s).freeUses = s.freeUses ∧ (takeStation a s).dram = s.dram ∧
    (takeStation a s).flips = s.flips ∧ (takeStation a s).link = s.link ∧ (takeStation a s).adm = s.adm ∧
    (takeStation a s).time = s.time ∧ (takeStation a s).xfer = s.xfer ∧ (takeStation a s).windows = s.windows ∧
    (takeStation a s).integ = s.integ ∧ (takeStation a s).march = s.march ∧ (takeStation a s).loop = s.loop ∧
    (takeStation a s).dec = s.dec ∧ (takeStation a s).rep = s.rep ∧ (takeStation a s).fault = s.fault := by
  simpa [eraseBlocks] using takeStation_erase (l := [.path]) (List.Subset.refl _) (a := a) (s := s)

@[simp] theorem retake_erase {l a b c s} (h : [.path] ⊆ l) :
    eraseBlocks l (retake a b c s) = eraseBlocks l s := by
  simp at h
  simp only [retake]
  repeat' split
  all_goals simp [h]

@[simp] theorem retake_frame {a b c s} :
    (retake a b c s).pending = s.pending ∧ (retake a b c s).straps = s.straps ∧ (retake a b c s).inReset = s.inReset ∧
    (retake a b c s).oscillator = s.oscillator ∧ (retake a b c s).now = s.now ∧ (retake a b c s).freeUses = s.freeUses ∧
    (retake a b c s).dram = s.dram ∧ (retake a b c s).flips = s.flips ∧ (retake a b c s).link = s.link ∧
    (retake a b c s).adm = s.adm ∧ (retake a b c s).time = s.time ∧ (retake a b c s).xfer = s.xfer ∧
    (retake a b c s).windows = s.windows ∧ (retake a b c s).integ = s.integ ∧ (retake a b c s).march = s.march ∧
    (retake a b c s).loop = s.loop ∧ (retake a b c s).dec = s.dec ∧ (retake a b c s).rep = s.rep ∧
    (retake a b c s).fault = s.fault := by
  simpa [eraseBlocks] using retake_erase (l := [.path]) (List.Subset.refl _) (a := a) (b := b) (c := c) (s := s)

@[simp] theorem releaseLock_erase {l a s} (h : [.path] ⊆ l) :
    eraseBlocks l (releaseLock a s) = eraseBlocks l s := by
  simp at h
  simp only [releaseLock]
  rw [foldl_erase, foldl_erase, updPath_erase h] <;> (intro t i _; simp [h])

@[simp] theorem releaseLock_frame {a s} :
    (releaseLock a s).pending = s.pending ∧ (releaseLock a s).straps = s.straps ∧
    (releaseLock a s).inReset = s.inReset ∧ (releaseLock a s).oscillator = s.oscillator ∧
    (releaseLock a s).now = s.now ∧ (releaseLock a s).freeUses = s.freeUses ∧ (releaseLock a s).dram = s.dram ∧
    (releaseLock a s).flips = s.flips ∧ (releaseLock a s).link = s.link ∧ (releaseLock a s).adm = s.adm ∧
    (releaseLock a s).time = s.time ∧ (releaseLock a s).xfer = s.xfer ∧ (releaseLock a s).windows = s.windows ∧
    (releaseLock a s).integ = s.integ ∧ (releaseLock a s).march = s.march ∧ (releaseLock a s).loop = s.loop ∧
    (releaseLock a s).dec = s.dec ∧ (releaseLock a s).rep = s.rep ∧ (releaseLock a s).fault = s.fault := by
  simpa [eraseBlocks] using releaseLock_erase (l := [.path]) (List.Subset.refl _) (a := a) (s := s)

/-! ### Machine/Integrity.lean -/

@[simp] theorem integCount_erase {l a s} (h : [.integ] ⊆ l) :
    eraseBlocks l (integCount a s) = eraseBlocks l s := by
  simp at h
  simp [integCount, h]

@[simp] theorem integCount_frame {a s} :
    (integCount a s).pending = s.pending ∧ (integCount a s).straps = s.straps ∧ (integCount a s).inReset = s.inReset ∧
    (integCount a s).oscillator = s.oscillator ∧ (integCount a s).now = s.now ∧ (integCount a s).freeUses = s.freeUses ∧
    (integCount a s).dram = s.dram ∧ (integCount a s).flips = s.flips ∧ (integCount a s).link = s.link ∧
    (integCount a s).adm = s.adm ∧ (integCount a s).time = s.time ∧ (integCount a s).xfer = s.xfer ∧
    (integCount a s).windows = s.windows ∧ (integCount a s).path = s.path ∧ (integCount a s).march = s.march ∧
    (integCount a s).loop = s.loop ∧ (integCount a s).dec = s.dec ∧ (integCount a s).rep = s.rep ∧
    (integCount a s).fault = s.fault := by
  simpa [eraseBlocks] using integCount_erase (l := [.integ]) (List.Subset.refl _) (a := a) (s := s)

@[simp] theorem remapExhausted_erase {l a b s} (h : [.integ, .fault, .rep, .path, .freeUses] ⊆ l) :
    eraseBlocks l (remapExhausted a b s) = eraseBlocks l s := by
  simp at h
  rw [remapExhausted, unordered_erase (by simp [h])] <;> simp [h]

@[simp] theorem remapExhausted_frame {a b s} :
    (remapExhausted a b s).pending = s.pending ∧ (remapExhausted a b s).straps = s.straps ∧
    (remapExhausted a b s).inReset = s.inReset ∧ (remapExhausted a b s).oscillator = s.oscillator ∧
    (remapExhausted a b s).now = s.now ∧ (remapExhausted a b s).dram = s.dram ∧ (remapExhausted a b s).flips = s.flips ∧
    (remapExhausted a b s).link = s.link ∧ (remapExhausted a b s).adm = s.adm ∧ (remapExhausted a b s).time = s.time ∧
    (remapExhausted a b s).xfer = s.xfer ∧ (remapExhausted a b s).windows = s.windows ∧
    (remapExhausted a b s).march = s.march ∧ (remapExhausted a b s).loop = s.loop ∧
    (remapExhausted a b s).dec = s.dec := by
  simpa [eraseBlocks] using remapExhausted_erase (l := [.integ, .fault, .rep, .path, .freeUses]) (List.Subset.refl _) (a := a) (b := b) (s := s)

@[simp] theorem setRemap_erase {l a s} (h : [.integ] ⊆ l) :
    eraseBlocks l (setRemap a s) = eraseBlocks l s := by
  simp at h
  simp [setRemap, h]

@[simp] theorem setRemap_frame {a s} :
    (setRemap a s).pending = s.pending ∧ (setRemap a s).straps = s.straps ∧ (setRemap a s).inReset = s.inReset ∧
    (setRemap a s).oscillator = s.oscillator ∧ (setRemap a s).now = s.now ∧ (setRemap a s).freeUses = s.freeUses ∧
    (setRemap a s).dram = s.dram ∧ (setRemap a s).flips = s.flips ∧ (setRemap a s).link = s.link ∧
    (setRemap a s).adm = s.adm ∧ (setRemap a s).time = s.time ∧ (setRemap a s).xfer = s.xfer ∧
    (setRemap a s).windows = s.windows ∧ (setRemap a s).path = s.path ∧ (setRemap a s).march = s.march ∧
    (setRemap a s).loop = s.loop ∧ (setRemap a s).dec = s.dec ∧ (setRemap a s).rep = s.rep ∧
    (setRemap a s).fault = s.fault := by
  simpa [eraseBlocks] using setRemap_erase (l := [.integ]) (List.Subset.refl _) (a := a) (s := s)

@[simp] theorem copyPump_erase {l  s} (h : [.integ, .path] ⊆ l) :
    eraseBlocks l (copyPump s) = eraseBlocks l s := by
  simp at h
  simp only [copyPump]
  repeat' split
  all_goals simp [h]

@[simp] theorem copyPump_frame {s : State} :
    (copyPump s).pending = s.pending ∧ (copyPump s).straps = s.straps ∧ (copyPump s).inReset = s.inReset ∧
    (copyPump s).oscillator = s.oscillator ∧ (copyPump s).now = s.now ∧ (copyPump s).freeUses = s.freeUses ∧
    (copyPump s).dram = s.dram ∧ (copyPump s).flips = s.flips ∧ (copyPump s).link = s.link ∧ (copyPump s).adm = s.adm ∧
    (copyPump s).time = s.time ∧ (copyPump s).xfer = s.xfer ∧ (copyPump s).windows = s.windows ∧
    (copyPump s).march = s.march ∧ (copyPump s).loop = s.loop ∧ (copyPump s).dec = s.dec ∧ (copyPump s).rep = s.rep ∧
    (copyPump s).fault = s.fault := by
  simpa [eraseBlocks] using copyPump_erase (l := [.integ, .path]) (List.Subset.refl _) (s := s)

@[simp] theorem remapRequest_erase {l a b s} (h : [.integ, .fault, .rep, .path, .freeUses] ⊆ l) :
    eraseBlocks l (remapRequest a b s) = eraseBlocks l s := by
  simp at h
  simp only [remapRequest]
  repeat' split
  all_goals simp [h]

@[simp] theorem remapRequest_frame {a b s} :
    (remapRequest a b s).pending = s.pending ∧ (remapRequest a b s).straps = s.straps ∧
    (remapRequest a b s).inReset = s.inReset ∧ (remapRequest a b s).oscillator = s.oscillator ∧
    (remapRequest a b s).now = s.now ∧ (remapRequest a b s).dram = s.dram ∧ (remapRequest a b s).flips = s.flips ∧
    (remapRequest a b s).link = s.link ∧ (remapRequest a b s).adm = s.adm ∧ (remapRequest a b s).time = s.time ∧
    (remapRequest a b s).xfer = s.xfer ∧ (remapRequest a b s).windows = s.windows ∧
    (remapRequest a b s).march = s.march ∧ (remapRequest a b s).loop = s.loop ∧ (remapRequest a b s).dec = s.dec := by
  simpa [eraseBlocks] using remapRequest_erase (l := [.integ, .fault, .rep, .path, .freeUses]) (List.Subset.refl _) (a := a) (b := b) (s := s)

@[simp] theorem suspectReached_erase {l a s} (h : [.integ, .fault, .rep, .path, .freeUses] ⊆ l) :
    eraseBlocks l (suspectReached a s) = eraseBlocks l s := by
  simp at h
  simp only [suspectReached]
  repeat' split
  all_goals simp [h]

@[simp] theorem suspectReached_frame {a s} :
    (suspectReached a s).pending = s.pending ∧ (suspectReached a s).straps = s.straps ∧
    (suspectReached a s).inReset = s.inReset ∧ (suspectReached a s).oscillator = s.oscillator ∧
    (suspectReached a s).now = s.now ∧ (suspectReached a s).dram = s.dram ∧ (suspectReached a s).flips = s.flips ∧
    (suspectReached a s).link = s.link ∧ (suspectReached a s).adm = s.adm ∧ (suspectReached a s).time = s.time ∧
    (suspectReached a s).xfer = s.xfer ∧ (suspectReached a s).windows = s.windows ∧
    (suspectReached a s).march = s.march ∧ (suspectReached a s).loop = s.loop ∧ (suspectReached a s).dec = s.dec := by
  simpa [eraseBlocks] using suspectReached_erase (l := [.integ, .fault, .rep, .path, .freeUses]) (List.Subset.refl _) (a := a) (s := s)

@[simp] theorem suspectCount_erase {l a s} (h : [.integ, .fault, .rep, .path, .freeUses] ⊆ l) :
    eraseBlocks l (suspectCount a s) = eraseBlocks l s := by
  simp at h
  simp only [suspectCount]
  repeat' split
  all_goals simp [h]

@[simp] theorem suspectCount_frame {a s} :
    (suspectCount a s).pending = s.pending ∧ (suspectCount a s).straps = s.straps ∧
    (suspectCount a s).inReset = s.inReset ∧ (suspectCount a s).oscillator = s.oscillator ∧
    (suspectCount a s).now = s.now ∧ (suspectCount a s).dram = s.dram ∧ (suspectCount a s).flips = s.flips ∧
    (suspectCount a s).link = s.link ∧ (suspectCount a s).adm = s.adm ∧ (suspectCount a s).time = s.time ∧
    (suspectCount a s).xfer = s.xfer ∧ (suspectCount a s).windows = s.windows ∧ (suspectCount a s).march = s.march ∧
    (suspectCount a s).loop = s.loop ∧ (suspectCount a s).dec = s.dec := by
  simpa [eraseBlocks] using suspectCount_erase (l := [.integ, .fault, .rep, .path, .freeUses]) (List.Subset.refl _) (a := a) (s := s)

@[simp] theorem unmark_erase {l a s} (h : [.integ] ⊆ l) :
    eraseBlocks l (unmark a s) = eraseBlocks l s := by
  simp at h
  simp [unmark, h]

@[simp] theorem unmark_frame {a s} :
    (unmark a s).pending = s.pending ∧ (unmark a s).straps = s.straps ∧ (unmark a s).inReset = s.inReset ∧
    (unmark a s).oscillator = s.oscillator ∧ (unmark a s).now = s.now ∧ (unmark a s).freeUses = s.freeUses ∧
    (unmark a s).dram = s.dram ∧ (unmark a s).flips = s.flips ∧ (unmark a s).link = s.link ∧ (unmark a s).adm = s.adm ∧
    (unmark a s).time = s.time ∧ (unmark a s).xfer = s.xfer ∧ (unmark a s).windows = s.windows ∧
    (unmark a s).path = s.path ∧ (unmark a s).march = s.march ∧ (unmark a s).loop = s.loop ∧ (unmark a s).dec = s.dec ∧
    (unmark a s).rep = s.rep ∧ (unmark a s).fault = s.fault := by
  simpa [eraseBlocks] using unmark_erase (l := [.integ]) (List.Subset.refl _) (a := a) (s := s)

@[simp] theorem countMarkedRead_erase {l  s} (h : [.integ] ⊆ l) :
    eraseBlocks l (countMarkedRead s) = eraseBlocks l s := by
  simp at h
  simp [countMarkedRead, h]

@[simp] theorem countMarkedRead_frame {s : State} :
    (countMarkedRead s).pending = s.pending ∧ (countMarkedRead s).straps = s.straps ∧
    (countMarkedRead s).inReset = s.inReset ∧ (countMarkedRead s).oscillator = s.oscillator ∧
    (countMarkedRead s).now = s.now ∧ (countMarkedRead s).freeUses = s.freeUses ∧ (countMarkedRead s).dram = s.dram ∧
    (countMarkedRead s).flips = s.flips ∧ (countMarkedRead s).link = s.link ∧ (countMarkedRead s).adm = s.adm ∧
    (countMarkedRead s).time = s.time ∧ (countMarkedRead s).xfer = s.xfer ∧ (countMarkedRead s).windows = s.windows ∧
    (countMarkedRead s).path = s.path ∧ (countMarkedRead s).march = s.march ∧ (countMarkedRead s).loop = s.loop ∧
    (countMarkedRead s).dec = s.dec ∧ (countMarkedRead s).rep = s.rep ∧ (countMarkedRead s).fault = s.fault := by
  simpa [eraseBlocks] using countMarkedRead_erase (l := [.integ]) (List.Subset.refl _) (s := s)

@[simp] theorem corrected_erase {l a b c s} (h : [.integ, .fault, .rep, .path, .freeUses] ⊆ l) :
    eraseBlocks l (corrected a b c s) = eraseBlocks l s := by
  simp at h
  simp [corrected, h]

@[simp] theorem corrected_frame {a b c s} :
    (corrected a b c s).pending = s.pending ∧ (corrected a b c s).straps = s.straps ∧
    (corrected a b c s).inReset = s.inReset ∧ (corrected a b c s).oscillator = s.oscillator ∧
    (corrected a b c s).now = s.now ∧ (corrected a b c s).dram = s.dram ∧ (corrected a b c s).flips = s.flips ∧
    (corrected a b c s).link = s.link ∧ (corrected a b c s).adm = s.adm ∧ (corrected a b c s).time = s.time ∧
    (corrected a b c s).xfer = s.xfer ∧ (corrected a b c s).windows = s.windows ∧ (corrected a b c s).march = s.march ∧
    (corrected a b c s).loop = s.loop ∧ (corrected a b c s).dec = s.dec := by
  simpa [eraseBlocks] using corrected_erase (l := [.integ, .fault, .rep, .path, .freeUses]) (List.Subset.refl _) (a := a) (b := b) (c := c) (s := s)

@[simp] theorem uncorrectableNews_erase {l a b c d s} (h : [.fault, .rep, .path, .freeUses] ⊆ l) :
    eraseBlocks l (uncorrectableNews a b c d s) = eraseBlocks l s := by
  simp at h
  rw [uncorrectableNews, unordered_erase (by simp [h])]
  simp [h]

@[simp] theorem uncorrectableNews_frame {a b c d s} :
    (uncorrectableNews a b c d s).pending = s.pending ∧ (uncorrectableNews a b c d s).straps = s.straps ∧
    (uncorrectableNews a b c d s).inReset = s.inReset ∧ (uncorrectableNews a b c d s).oscillator = s.oscillator ∧
    (uncorrectableNews a b c d s).now = s.now ∧ (uncorrectableNews a b c d s).dram = s.dram ∧
    (uncorrectableNews a b c d s).flips = s.flips ∧ (uncorrectableNews a b c d s).link = s.link ∧
    (uncorrectableNews a b c d s).adm = s.adm ∧ (uncorrectableNews a b c d s).time = s.time ∧
    (uncorrectableNews a b c d s).xfer = s.xfer ∧ (uncorrectableNews a b c d s).windows = s.windows ∧
    (uncorrectableNews a b c d s).integ = s.integ ∧ (uncorrectableNews a b c d s).march = s.march ∧
    (uncorrectableNews a b c d s).loop = s.loop ∧ (uncorrectableNews a b c d s).dec = s.dec := by
  simpa [eraseBlocks] using uncorrectableNews_erase (l := [.fault, .rep, .path, .freeUses]) (List.Subset.refl _) (a := a) (b := b) (c := c) (d := d) (s := s)

@[simp] theorem uncorrectable_erase {l a b c s} (h : [.integ, .fault, .rep, .path, .freeUses] ⊆ l) :
    eraseBlocks l (uncorrectable a b c s) = eraseBlocks l s := by
  simp at h
  simp only [uncorrectable]
  repeat' split
  all_goals simp [h]

@[simp] theorem uncorrectable_frame {a b c s} :
    (uncorrectable a b c s).pending = s.pending ∧ (uncorrectable a b c s).straps = s.straps ∧
    (uncorrectable a b c s).inReset = s.inReset ∧ (uncorrectable a b c s).oscillator = s.oscillator ∧
    (uncorrectable a b c s).now = s.now ∧ (uncorrectable a b c s).dram = s.dram ∧
    (uncorrectable a b c s).flips = s.flips ∧ (uncorrectable a b c s).link = s.link ∧
    (uncorrectable a b c s).adm = s.adm ∧ (uncorrectable a b c s).time = s.time ∧
    (uncorrectable a b c s).xfer = s.xfer ∧ (uncorrectable a b c s).windows = s.windows ∧
    (uncorrectable a b c s).march = s.march ∧ (uncorrectable a b c s).loop = s.loop ∧
    (uncorrectable a b c s).dec = s.dec := by
  simpa [eraseBlocks] using uncorrectable_erase (l := [.integ, .fault, .rep, .path, .freeUses]) (List.Subset.refl _) (a := a) (b := b) (c := c) (s := s)

@[simp] theorem takeOutcome_erase {l a b c d s} (h : [.integ, .fault, .rep, .path, .freeUses] ⊆ l) :
    eraseBlocks l (takeOutcome a b c d s) = eraseBlocks l s := by
  simp at h
  simp only [takeOutcome]
  repeat' split
  all_goals simp [h]

@[simp] theorem takeOutcome_frame {a b c d s} :
    (takeOutcome a b c d s).pending = s.pending ∧ (takeOutcome a b c d s).straps = s.straps ∧
    (takeOutcome a b c d s).inReset = s.inReset ∧ (takeOutcome a b c d s).oscillator = s.oscillator ∧
    (takeOutcome a b c d s).now = s.now ∧ (takeOutcome a b c d s).dram = s.dram ∧
    (takeOutcome a b c d s).flips = s.flips ∧ (takeOutcome a b c d s).link = s.link ∧
    (takeOutcome a b c d s).adm = s.adm ∧ (takeOutcome a b c d s).time = s.time ∧
    (takeOutcome a b c d s).xfer = s.xfer ∧ (takeOutcome a b c d s).windows = s.windows ∧
    (takeOutcome a b c d s).march = s.march ∧ (takeOutcome a b c d s).loop = s.loop ∧
    (takeOutcome a b c d s).dec = s.dec := by
  simpa [eraseBlocks] using takeOutcome_erase (l := [.integ, .fault, .rep, .path, .freeUses]) (List.Subset.refl _) (a := a) (b := b) (c := c) (d := d) (s := s)

@[simp] theorem updScrub_erase {l a s} (h : [.integ] ⊆ l) :
    eraseBlocks l (updScrub a s) = eraseBlocks l s := by
  simp at h
  simp [updScrub, h]

@[simp] theorem updScrub_frame {a s} :
    (updScrub a s).pending = s.pending ∧ (updScrub a s).straps = s.straps ∧ (updScrub a s).inReset = s.inReset ∧
    (updScrub a s).oscillator = s.oscillator ∧ (updScrub a s).now = s.now ∧ (updScrub a s).freeUses = s.freeUses ∧
    (updScrub a s).dram = s.dram ∧ (updScrub a s).flips = s.flips ∧ (updScrub a s).link = s.link ∧
    (updScrub a s).adm = s.adm ∧ (updScrub a s).time = s.time ∧ (updScrub a s).xfer = s.xfer ∧
    (updScrub a s).windows = s.windows ∧ (updScrub a s).path = s.path ∧ (updScrub a s).march = s.march ∧
    (updScrub a s).loop = s.loop ∧ (updScrub a s).dec = s.dec ∧ (updScrub a s).rep = s.rep ∧
    (updScrub a s).fault = s.fault := by
  simpa [eraseBlocks] using updScrub_erase (l := [.integ]) (List.Subset.refl _) (a := a) (s := s)

@[simp] theorem scrubLoop_erase {l n s} (h : [.integ, .path] ⊆ l) :
    eraseBlocks l (scrubLoop n s) = eraseBlocks l s := by
  simp at h
  induction n generalizing s with
  | zero => rfl
  | succ n ih =>
    simp only [scrubLoop]
    split <;> simp [h, ih]

@[simp] theorem scrubLoop_frame {n s} :
    (scrubLoop n s).pending = s.pending ∧ (scrubLoop n s).straps = s.straps ∧ (scrubLoop n s).inReset = s.inReset ∧
    (scrubLoop n s).oscillator = s.oscillator ∧ (scrubLoop n s).now = s.now ∧ (scrubLoop n s).freeUses = s.freeUses ∧
    (scrubLoop n s).dram = s.dram ∧ (scrubLoop n s).flips = s.flips ∧ (scrubLoop n s).link = s.link ∧
    (scrubLoop n s).adm = s.adm ∧ (scrubLoop n s).time = s.time ∧ (scrubLoop n s).xfer = s.xfer ∧
    (scrubLoop n s).windows = s.windows ∧ (scrubLoop n s).march = s.march ∧ (scrubLoop n s).loop = s.loop ∧
    (scrubLoop n s).dec = s.dec ∧ (scrubLoop n s).rep = s.rep ∧ (scrubLoop n s).fault = s.fault := by
  simpa [eraseBlocks] using scrubLoop_erase (l := [.integ, .path]) (List.Subset.refl _) (n := n) (s := s)

@[simp] theorem scrubPump_erase {l  s} (h : [.integ, .path] ⊆ l) :
    eraseBlocks l (scrubPump s) = eraseBlocks l s := by
  simp at h
  simp only [scrubPump]
  repeat' split
  all_goals simp [h]

@[simp] theorem scrubPump_frame {s : State} :
    (scrubPump s).pending = s.pending ∧ (scrubPump s).straps = s.straps ∧ (scrubPump s).inReset = s.inReset ∧
    (scrubPump s).oscillator = s.oscillator ∧ (scrubPump s).now = s.now ∧ (scrubPump s).freeUses = s.freeUses ∧
    (scrubPump s).dram = s.dram ∧ (scrubPump s).flips = s.flips ∧ (scrubPump s).link = s.link ∧
    (scrubPump s).adm = s.adm ∧ (scrubPump s).time = s.time ∧ (scrubPump s).xfer = s.xfer ∧
    (scrubPump s).windows = s.windows ∧ (scrubPump s).march = s.march ∧ (scrubPump s).loop = s.loop ∧
    (scrubPump s).dec = s.dec ∧ (scrubPump s).rep = s.rep ∧ (scrubPump s).fault = s.fault := by
  simpa [eraseBlocks] using scrubPump_erase (l := [.integ, .path]) (List.Subset.refl _) (s := s)

@[simp] theorem scrubExpiry_erase {l  s} (h : [.integ, .path] ⊆ l) :
    eraseBlocks l (scrubExpiry s) = eraseBlocks l s := by
  simp at h
  simp [scrubExpiry, h]

@[simp] theorem scrubExpiry_frame {s : State} :
    (scrubExpiry s).pending = s.pending ∧ (scrubExpiry s).straps = s.straps ∧ (scrubExpiry s).inReset = s.inReset ∧
    (scrubExpiry s).oscillator = s.oscillator ∧ (scrubExpiry s).now = s.now ∧ (scrubExpiry s).freeUses = s.freeUses ∧
    (scrubExpiry s).dram = s.dram ∧ (scrubExpiry s).flips = s.flips ∧ (scrubExpiry s).link = s.link ∧
    (scrubExpiry s).adm = s.adm ∧ (scrubExpiry s).time = s.time ∧ (scrubExpiry s).xfer = s.xfer ∧
    (scrubExpiry s).windows = s.windows ∧ (scrubExpiry s).march = s.march ∧ (scrubExpiry s).loop = s.loop ∧
    (scrubExpiry s).dec = s.dec ∧ (scrubExpiry s).rep = s.rep ∧ (scrubExpiry s).fault = s.fault := by
  simpa [eraseBlocks] using scrubExpiry_erase (l := [.integ, .path]) (List.Subset.refl _) (s := s)

@[simp] theorem scrubEnd_erase {l a b s} (h : [.integ, .path, .march] ⊆ l) :
    eraseBlocks l (scrubEnd a b s) = eraseBlocks l s := by
  simp at h
  simp [scrubEnd, h]

@[simp] theorem scrubEnd_frame {a b s} :
    (scrubEnd a b s).pending = s.pending ∧ (scrubEnd a b s).straps = s.straps ∧ (scrubEnd a b s).inReset = s.inReset ∧
    (scrubEnd a b s).oscillator = s.oscillator ∧ (scrubEnd a b s).now = s.now ∧ (scrubEnd a b s).freeUses = s.freeUses ∧
    (scrubEnd a b s).dram = s.dram ∧ (scrubEnd a b s).flips = s.flips ∧ (scrubEnd a b s).link = s.link ∧
    (scrubEnd a b s).adm = s.adm ∧ (scrubEnd a b s).time = s.time ∧ (scrubEnd a b s).xfer = s.xfer ∧
    (scrubEnd a b s).windows = s.windows ∧ (scrubEnd a b s).loop = s.loop ∧ (scrubEnd a b s).dec = s.dec ∧
    (scrubEnd a b s).rep = s.rep ∧ (scrubEnd a b s).fault = s.fault := by
  simpa [eraseBlocks] using scrubEnd_erase (l := [.integ, .path, .march]) (List.Subset.refl _) (a := a) (b := b) (s := s)

@[simp] theorem copyData_erase {l a b c s} (h : [.path, .march] ⊆ l) :
    eraseBlocks l (copyData a b c s) = eraseBlocks l s := by
  simp at h
  simp [copyData, h]

@[simp] theorem copyData_frame {a b c s} :
    (copyData a b c s).pending = s.pending ∧ (copyData a b c s).straps = s.straps ∧
    (copyData a b c s).inReset = s.inReset ∧ (copyData a b c s).oscillator = s.oscillator ∧
    (copyData a b c s).now = s.now ∧ (copyData a b c s).freeUses = s.freeUses ∧ (copyData a b c s).dram = s.dram ∧
    (copyData a b c s).flips = s.flips ∧ (copyData a b c s).link = s.link ∧ (copyData a b c s).adm = s.adm ∧
    (copyData a b c s).time = s.time ∧ (copyData a b c s).xfer = s.xfer ∧ (copyData a b c s).windows = s.windows ∧
    (copyData a b c s).integ = s.integ ∧ (copyData a b c s).loop = s.loop ∧ (copyData a b c s).dec = s.dec ∧
    (copyData a b c s).rep = s.rep ∧ (copyData a b c s).fault = s.fault := by
  simpa [eraseBlocks] using copyData_erase (l := [.path, .march]) (List.Subset.refl _) (a := a) (b := b) (c := c) (s := s)

@[simp] theorem abandonCopy_erase {l a b s} (h : [.integ, .path, .march, .rep] ⊆ l) :
    eraseBlocks l (abandonCopy a b s) = eraseBlocks l s := by
  simp at h
  simp [abandonCopy, h]

@[simp] theorem abandonCopy_frame {a b s} :
    (abandonCopy a b s).pending = s.pending ∧ (abandonCopy a b s).straps = s.straps ∧
    (abandonCopy a b s).inReset = s.inReset ∧ (abandonCopy a b s).oscillator = s.oscillator ∧
    (abandonCopy a b s).now = s.now ∧ (abandonCopy a b s).freeUses = s.freeUses ∧ (abandonCopy a b s).dram = s.dram ∧
    (abandonCopy a b s).flips = s.flips ∧ (abandonCopy a b s).link = s.link ∧ (abandonCopy a b s).adm = s.adm ∧
    (abandonCopy a b s).time = s.time ∧ (abandonCopy a b s).xfer = s.xfer ∧ (abandonCopy a b s).windows = s.windows ∧
    (abandonCopy a b s).loop = s.loop ∧ (abandonCopy a b s).dec = s.dec ∧ (abandonCopy a b s).fault = s.fault := by
  simpa [eraseBlocks] using abandonCopy_erase (l := [.integ, .path, .march, .rep]) (List.Subset.refl _) (a := a) (b := b) (s := s)

@[simp] theorem copyAdvance_erase {l a b s} (h : [.integ, .path, .march, .rep] ⊆ l) :
    eraseBlocks l (copyAdvance a b s) = eraseBlocks l s := by
  simp at h
  simp only [copyAdvance]
  repeat' split
  all_goals simp [h]

@[simp] theorem copyAdvance_frame {a b s} :
    (copyAdvance a b s).pending = s.pending ∧ (copyAdvance a b s).straps = s.straps ∧
    (copyAdvance a b s).inReset = s.inReset ∧ (copyAdvance a b s).oscillator = s.oscillator ∧
    (copyAdvance a b s).now = s.now ∧ (copyAdvance a b s).freeUses = s.freeUses ∧ (copyAdvance a b s).dram = s.dram ∧
    (copyAdvance a b s).flips = s.flips ∧ (copyAdvance a b s).link = s.link ∧ (copyAdvance a b s).adm = s.adm ∧
    (copyAdvance a b s).time = s.time ∧ (copyAdvance a b s).xfer = s.xfer ∧ (copyAdvance a b s).windows = s.windows ∧
    (copyAdvance a b s).loop = s.loop ∧ (copyAdvance a b s).dec = s.dec ∧ (copyAdvance a b s).fault = s.fault := by
  simpa [eraseBlocks] using copyAdvance_erase (l := [.integ, .path, .march, .rep]) (List.Subset.refl _) (a := a) (b := b) (s := s)

@[simp] theorem applyScrub_erase {l a s} (h : [.integ] ⊆ l) :
    eraseBlocks l (applyScrub a s) = eraseBlocks l s := by
  simp at h
  simp [applyScrub, h]

@[simp] theorem applyScrub_frame {a s} :
    (applyScrub a s).pending = s.pending ∧ (applyScrub a s).straps = s.straps ∧ (applyScrub a s).inReset = s.inReset ∧
    (applyScrub a s).oscillator = s.oscillator ∧ (applyScrub a s).now = s.now ∧ (applyScrub a s).freeUses = s.freeUses ∧
    (applyScrub a s).dram = s.dram ∧ (applyScrub a s).flips = s.flips ∧ (applyScrub a s).link = s.link ∧
    (applyScrub a s).adm = s.adm ∧ (applyScrub a s).time = s.time ∧ (applyScrub a s).xfer = s.xfer ∧
    (applyScrub a s).windows = s.windows ∧ (applyScrub a s).path = s.path ∧ (applyScrub a s).march = s.march ∧
    (applyScrub a s).loop = s.loop ∧ (applyScrub a s).dec = s.dec ∧ (applyScrub a s).rep = s.rep ∧
    (applyScrub a s).fault = s.fault := by
  simpa [eraseBlocks] using applyScrub_erase (l := [.integ]) (List.Subset.refl _) (a := a) (s := s)

@[simp] theorem applyRemap_erase {l a s} (h : [.integ, .fault, .rep, .path, .freeUses] ⊆ l) :
    eraseBlocks l (applyRemap a s) = eraseBlocks l s := by
  simp at h
  simp [applyRemap, h]

@[simp] theorem applyRemap_frame {a s} :
    (applyRemap a s).pending = s.pending ∧ (applyRemap a s).straps = s.straps ∧ (applyRemap a s).inReset = s.inReset ∧
    (applyRemap a s).oscillator = s.oscillator ∧ (applyRemap a s).now = s.now ∧ (applyRemap a s).dram = s.dram ∧
    (applyRemap a s).flips = s.flips ∧ (applyRemap a s).link = s.link ∧ (applyRemap a s).adm = s.adm ∧
    (applyRemap a s).time = s.time ∧ (applyRemap a s).xfer = s.xfer ∧ (applyRemap a s).windows = s.windows ∧
    (applyRemap a s).march = s.march ∧ (applyRemap a s).loop = s.loop ∧ (applyRemap a s).dec = s.dec := by
  simpa [eraseBlocks] using applyRemap_erase (l := [.integ, .fault, .rep, .path, .freeUses]) (List.Subset.refl _) (a := a) (s := s)

@[simp] theorem clearEcc_erase {l  s} (h : [.integ] ⊆ l) :
    eraseBlocks l (clearEcc s) = eraseBlocks l s := by
  simp at h
  simp [clearEcc, h]

@[simp] theorem clearEcc_frame {s : State} :
    (clearEcc s).pending = s.pending ∧ (clearEcc s).straps = s.straps ∧ (clearEcc s).inReset = s.inReset ∧
    (clearEcc s).oscillator = s.oscillator ∧ (clearEcc s).now = s.now ∧ (clearEcc s).freeUses = s.freeUses ∧
    (clearEcc s).dram = s.dram ∧ (clearEcc s).flips = s.flips ∧ (clearEcc s).link = s.link ∧ (clearEcc s).adm = s.adm ∧
    (clearEcc s).time = s.time ∧ (clearEcc s).xfer = s.xfer ∧ (clearEcc s).windows = s.windows ∧
    (clearEcc s).path = s.path ∧ (clearEcc s).march = s.march ∧ (clearEcc s).loop = s.loop ∧ (clearEcc s).dec = s.dec ∧
    (clearEcc s).rep = s.rep ∧ (clearEcc s).fault = s.fault := by
  simpa [eraseBlocks] using clearEcc_erase (l := [.integ]) (List.Subset.refl _) (s := s)

/-! ### Machine/MemTest.lean -/

@[simp] theorem leaveDrain_erase {l a s} (h : [.march] ⊆ l) : eraseBlocks l (leaveDrain a s) = eraseBlocks l s := by
  simp at h
  simp [leaveDrain, h]

@[simp] theorem leaveDrain_frame {a s} :
    (leaveDrain a s).pending = s.pending ∧ (leaveDrain a s).straps = s.straps ∧
    (leaveDrain a s).inReset = s.inReset ∧ (leaveDrain a s).oscillator = s.oscillator ∧
    (leaveDrain a s).now = s.now ∧ (leaveDrain a s).freeUses = s.freeUses ∧ (leaveDrain a s).dram = s.dram ∧
    (leaveDrain a s).link = s.link ∧ (leaveDrain a s).adm = s.adm ∧ (leaveDrain a s).time = s.time ∧
    (leaveDrain a s).xfer = s.xfer ∧ (leaveDrain a s).windows = s.windows ∧ (leaveDrain a s).path = s.path ∧
    (leaveDrain a s).integ = s.integ ∧ (leaveDrain a s).loop = s.loop ∧ (leaveDrain a s).dec = s.dec ∧
    (leaveDrain a s).rep = s.rep ∧ (leaveDrain a s).fault = s.fault := by
  simp [leaveDrain]

@[simp] theorem marchPump_erase {l  s} (h : [.path] ⊆ l) :
    eraseBlocks l (marchPump s) = eraseBlocks l s := by
  simp at h
  simp only [marchPump]
  repeat' split
  all_goals simp [h]

@[simp] theorem marchPump_frame {s : State} :
    (marchPump s).pending = s.pending ∧ (marchPump s).straps = s.straps ∧ (marchPump s).inReset = s.inReset ∧
    (marchPump s).oscillator = s.oscillator ∧ (marchPump s).now = s.now ∧ (marchPump s).freeUses = s.freeUses ∧
    (marchPump s).dram = s.dram ∧ (marchPump s).flips = s.flips ∧ (marchPump s).link = s.link ∧
    (marchPump s).adm = s.adm ∧ (marchPump s).time = s.time ∧ (marchPump s).xfer = s.xfer ∧
    (marchPump s).windows = s.windows ∧ (marchPump s).integ = s.integ ∧ (marchPump s).march = s.march ∧
    (marchPump s).loop = s.loop ∧ (marchPump s).dec = s.dec ∧ (marchPump s).rep = s.rep ∧
    (marchPump s).fault = s.fault := by
  simpa [eraseBlocks] using marchPump_erase (l := [.path]) (List.Subset.refl _) (s := s)

@[simp] theorem setManual_erase {l a s} (h : [.march, .path] ⊆ l) :
    eraseBlocks l (setManual a s) = eraseBlocks l s := by
  simp at h
  simp [setManual, h]

@[simp] theorem setManual_frame {a s} :
    (setManual a s).pending = s.pending ∧ (setManual a s).straps = s.straps ∧ (setManual a s).inReset = s.inReset ∧
    (setManual a s).oscillator = s.oscillator ∧ (setManual a s).now = s.now ∧ (setManual a s).freeUses = s.freeUses ∧
    (setManual a s).dram = s.dram ∧ (setManual a s).flips = s.flips ∧ (setManual a s).link = s.link ∧
    (setManual a s).adm = s.adm ∧ (setManual a s).time = s.time ∧ (setManual a s).xfer = s.xfer ∧
    (setManual a s).windows = s.windows ∧ (setManual a s).integ = s.integ ∧ (setManual a s).loop = s.loop ∧
    (setManual a s).dec = s.dec ∧ (setManual a s).rep = s.rep ∧ (setManual a s).fault = s.fault := by
  simpa [eraseBlocks] using setManual_erase (l := [.march, .path]) (List.Subset.refl _) (a := a) (s := s)

@[simp] theorem loadChanged_erase {l a s} (h : [.march, .path, .integ] ⊆ l) :
    eraseBlocks l (loadChanged a s) = eraseBlocks l s := by
  simp at h
  simp [loadChanged, h]

@[simp] theorem loadChanged_frame {a s} :
    (loadChanged a s).pending = s.pending ∧ (loadChanged a s).straps = s.straps ∧
    (loadChanged a s).inReset = s.inReset ∧ (loadChanged a s).oscillator = s.oscillator ∧
    (loadChanged a s).now = s.now ∧ (loadChanged a s).freeUses = s.freeUses ∧ (loadChanged a s).dram = s.dram ∧
    (loadChanged a s).flips = s.flips ∧ (loadChanged a s).link = s.link ∧ (loadChanged a s).adm = s.adm ∧
    (loadChanged a s).time = s.time ∧ (loadChanged a s).xfer = s.xfer ∧ (loadChanged a s).windows = s.windows ∧
    (loadChanged a s).loop = s.loop ∧ (loadChanged a s).dec = s.dec ∧ (loadChanged a s).rep = s.rep ∧
    (loadChanged a s).fault = s.fault := by
  simpa [eraseBlocks] using loadChanged_erase (l := [.march, .path, .integ]) (List.Subset.refl _) (a := a) (s := s)

@[simp] theorem endMarch_erase {l  s} (h : [.march, .integ, .fault, .rep, .path, .freeUses] ⊆ l) :
    eraseBlocks l (endMarch s) = eraseBlocks l s := by
  simp at h
  have hf : ∀ t : State, eraseBlocks l (s.march.failing.foldl (fun t page => remapRequest page .fill t) t)
      = eraseBlocks l t := by
    intro t
    rw [foldl_erase]
    intro t p _
    simp [h]
  simp only [endMarch]
  repeat' split
  all_goals simp [h, hf]

@[simp] theorem endMarch_frame {s : State} :
    (endMarch s).pending = s.pending ∧ (endMarch s).straps = s.straps ∧ (endMarch s).inReset = s.inReset ∧
    (endMarch s).oscillator = s.oscillator ∧ (endMarch s).now = s.now ∧ (endMarch s).dram = s.dram ∧
    (endMarch s).flips = s.flips ∧ (endMarch s).link = s.link ∧ (endMarch s).adm = s.adm ∧ (endMarch s).time = s.time ∧
    (endMarch s).xfer = s.xfer ∧ (endMarch s).windows = s.windows ∧ (endMarch s).loop = s.loop ∧
    (endMarch s).dec = s.dec := by
  simpa [eraseBlocks] using endMarch_erase (l := [.march, .integ, .fault, .rep, .path, .freeUses]) (List.Subset.refl _) (s := s)

@[simp] theorem withdrawMarch_erase {l  s} (h : [.path, .march] ⊆ l) :
    eraseBlocks l (withdrawMarch s) = eraseBlocks l s := by
  simp at h
  simp [withdrawMarch, h]

@[simp] theorem withdrawMarch_frame {s : State} :
    (withdrawMarch s).pending = s.pending ∧ (withdrawMarch s).straps = s.straps ∧
    (withdrawMarch s).inReset = s.inReset ∧ (withdrawMarch s).oscillator = s.oscillator ∧
    (withdrawMarch s).now = s.now ∧ (withdrawMarch s).freeUses = s.freeUses ∧ (withdrawMarch s).dram = s.dram ∧
    (withdrawMarch s).flips = s.flips ∧ (withdrawMarch s).link = s.link ∧ (withdrawMarch s).adm = s.adm ∧
    (withdrawMarch s).time = s.time ∧ (withdrawMarch s).xfer = s.xfer ∧ (withdrawMarch s).windows = s.windows ∧
    (withdrawMarch s).integ = s.integ ∧ (withdrawMarch s).loop = s.loop ∧ (withdrawMarch s).dec = s.dec ∧
    (withdrawMarch s).rep = s.rep ∧ (withdrawMarch s).fault = s.fault := by
  simpa [eraseBlocks] using withdrawMarch_erase (l := [.path, .march]) (List.Subset.refl _) (s := s)

@[simp] theorem applyMemtestStop_erase {l  s} (h : [.path, .march, .rep] ⊆ l) :
    eraseBlocks l (applyMemtestStop s) = eraseBlocks l s := by
  simp at h
  simp [applyMemtestStop, h]

@[simp] theorem applyMemtestStop_frame {s : State} :
    (applyMemtestStop s).pending = s.pending ∧ (applyMemtestStop s).straps = s.straps ∧
    (applyMemtestStop s).inReset = s.inReset ∧ (applyMemtestStop s).oscillator = s.oscillator ∧
    (applyMemtestStop s).now = s.now ∧ (applyMemtestStop s).freeUses = s.freeUses ∧ (applyMemtestStop s).dram = s.dram ∧
    (applyMemtestStop s).flips = s.flips ∧ (applyMemtestStop s).link = s.link ∧ (applyMemtestStop s).adm = s.adm ∧
    (applyMemtestStop s).time = s.time ∧ (applyMemtestStop s).xfer = s.xfer ∧ (applyMemtestStop s).windows = s.windows ∧
    (applyMemtestStop s).integ = s.integ ∧ (applyMemtestStop s).loop = s.loop ∧ (applyMemtestStop s).dec = s.dec ∧
    (applyMemtestStop s).fault = s.fault := by
  simpa [eraseBlocks] using applyMemtestStop_erase (l := [.path, .march, .rep]) (List.Subset.refl _) (s := s)

@[simp] theorem applyMemtestStart_erase {l a s} (h : [.march, .path] ⊆ l) :
    eraseBlocks l (applyMemtestStart a s) = eraseBlocks l s := by
  simp at h
  simp [applyMemtestStart, h]

@[simp] theorem applyMemtestStart_frame {a s} :
    (applyMemtestStart a s).pending = s.pending ∧ (applyMemtestStart a s).straps = s.straps ∧
    (applyMemtestStart a s).inReset = s.inReset ∧ (applyMemtestStart a s).oscillator = s.oscillator ∧
    (applyMemtestStart a s).now = s.now ∧ (applyMemtestStart a s).freeUses = s.freeUses ∧
    (applyMemtestStart a s).dram = s.dram ∧ (applyMemtestStart a s).flips = s.flips ∧
    (applyMemtestStart a s).link = s.link ∧ (applyMemtestStart a s).adm = s.adm ∧
    (applyMemtestStart a s).time = s.time ∧ (applyMemtestStart a s).xfer = s.xfer ∧
    (applyMemtestStart a s).windows = s.windows ∧ (applyMemtestStart a s).integ = s.integ ∧
    (applyMemtestStart a s).loop = s.loop ∧ (applyMemtestStart a s).dec = s.dec ∧ (applyMemtestStart a s).rep = s.rep ∧
    (applyMemtestStart a s).fault = s.fault := by
  simpa [eraseBlocks] using applyMemtestStart_erase (l := [.march, .path]) (List.Subset.refl _) (a := a) (s := s)

@[simp] theorem clearMarch_erase {l  s} (h : [.march] ⊆ l) :
    eraseBlocks l (clearMarch s) = eraseBlocks l s := by
  simp at h
  simp [clearMarch, h]

@[simp] theorem clearMarch_frame {s : State} :
    (clearMarch s).pending = s.pending ∧ (clearMarch s).straps = s.straps ∧ (clearMarch s).inReset = s.inReset ∧
    (clearMarch s).oscillator = s.oscillator ∧ (clearMarch s).now = s.now ∧ (clearMarch s).freeUses = s.freeUses ∧
    (clearMarch s).dram = s.dram ∧ (clearMarch s).flips = s.flips ∧ (clearMarch s).link = s.link ∧
    (clearMarch s).adm = s.adm ∧ (clearMarch s).time = s.time ∧ (clearMarch s).xfer = s.xfer ∧
    (clearMarch s).windows = s.windows ∧ (clearMarch s).path = s.path ∧ (clearMarch s).integ = s.integ ∧
    (clearMarch s).loop = s.loop ∧ (clearMarch s).dec = s.dec ∧ (clearMarch s).rep = s.rep ∧
    (clearMarch s).fault = s.fault := by
  simpa [eraseBlocks] using clearMarch_erase (l := [.march]) (List.Subset.refl _) (s := s)

/-! ### Machine/Snapshot.lean -/

@[simp] theorem makeSnapshotLines_erase {l a b c d e s} (h : [.path] ⊆ l) :
    eraseBlocks l (makeSnapshotLines a b c d e s) = eraseBlocks l s := by
  simp at h
  induction e generalizing s with
  | nil => rfl
  | cons x xs ih => simp [makeSnapshotLines, h, ih]

@[simp] theorem makeSnapshotLines_frame {a b c d e s} :
    (makeSnapshotLines a b c d e s).pending = s.pending ∧ (makeSnapshotLines a b c d e s).straps = s.straps ∧
    (makeSnapshotLines a b c d e s).inReset = s.inReset ∧ (makeSnapshotLines a b c d e s).oscillator = s.oscillator ∧
    (makeSnapshotLines a b c d e s).now = s.now ∧ (makeSnapshotLines a b c d e s).freeUses = s.freeUses ∧
    (makeSnapshotLines a b c d e s).dram = s.dram ∧ (makeSnapshotLines a b c d e s).flips = s.flips ∧
    (makeSnapshotLines a b c d e s).link = s.link ∧ (makeSnapshotLines a b c d e s).adm = s.adm ∧
    (makeSnapshotLines a b c d e s).time = s.time ∧ (makeSnapshotLines a b c d e s).xfer = s.xfer ∧
    (makeSnapshotLines a b c d e s).windows = s.windows ∧ (makeSnapshotLines a b c d e s).integ = s.integ ∧
    (makeSnapshotLines a b c d e s).march = s.march ∧ (makeSnapshotLines a b c d e s).loop = s.loop ∧
    (makeSnapshotLines a b c d e s).dec = s.dec ∧ (makeSnapshotLines a b c d e s).rep = s.rep ∧
    (makeSnapshotLines a b c d e s).fault = s.fault := by
  simpa [eraseBlocks] using makeSnapshotLines_erase (l := [.path]) (List.Subset.refl _) (a := a) (b := b) (c := c) (d := d) (e := e) (s := s)

@[simp] theorem startSnapshot_erase {l a s} (h : [.rep, .path] ⊆ l) :
    eraseBlocks l (startSnapshot a s) = eraseBlocks l s := by
  simp at h
  simp only [startSnapshot]
  repeat' split
  all_goals simp [h]

@[simp] theorem startSnapshot_frame {a s} :
    (startSnapshot a s).pending = s.pending ∧ (startSnapshot a s).straps = s.straps ∧
    (startSnapshot a s).inReset = s.inReset ∧ (startSnapshot a s).oscillator = s.oscillator ∧
    (startSnapshot a s).now = s.now ∧ (startSnapshot a s).freeUses = s.freeUses ∧ (startSnapshot a s).dram = s.dram ∧
    (startSnapshot a s).flips = s.flips ∧ (startSnapshot a s).link = s.link ∧ (startSnapshot a s).adm = s.adm ∧
    (startSnapshot a s).time = s.time ∧ (startSnapshot a s).xfer = s.xfer ∧ (startSnapshot a s).windows = s.windows ∧
    (startSnapshot a s).integ = s.integ ∧ (startSnapshot a s).march = s.march ∧ (startSnapshot a s).loop = s.loop ∧
    (startSnapshot a s).dec = s.dec ∧ (startSnapshot a s).fault = s.fault := by
  simpa [eraseBlocks] using startSnapshot_erase (l := [.rep, .path]) (List.Subset.refl _) (a := a) (s := s)

@[simp] theorem dropSnapshot_erase {l  s} (h : [.rep] ⊆ l) :
    eraseBlocks l (dropSnapshot s) = eraseBlocks l s := by
  simp at h
  simp [dropSnapshot, h]

@[simp] theorem dropSnapshot_frame {s : State} :
    (dropSnapshot s).pending = s.pending ∧ (dropSnapshot s).straps = s.straps ∧ (dropSnapshot s).inReset = s.inReset ∧
    (dropSnapshot s).oscillator = s.oscillator ∧ (dropSnapshot s).now = s.now ∧ (dropSnapshot s).freeUses = s.freeUses ∧
    (dropSnapshot s).dram = s.dram ∧ (dropSnapshot s).flips = s.flips ∧ (dropSnapshot s).link = s.link ∧
    (dropSnapshot s).adm = s.adm ∧ (dropSnapshot s).time = s.time ∧ (dropSnapshot s).xfer = s.xfer ∧
    (dropSnapshot s).windows = s.windows ∧ (dropSnapshot s).path = s.path ∧ (dropSnapshot s).integ = s.integ ∧
    (dropSnapshot s).march = s.march ∧ (dropSnapshot s).loop = s.loop ∧ (dropSnapshot s).dec = s.dec ∧
    (dropSnapshot s).fault = s.fault := by
  simpa [eraseBlocks] using dropSnapshot_erase (l := [.rep]) (List.Subset.refl _) (s := s)

@[simp] theorem snapshotRequest_erase {l  s} (h : [.rep, .path] ⊆ l) :
    eraseBlocks l (snapshotRequest s) = eraseBlocks l s := by
  simp at h
  simp only [snapshotRequest]
  repeat' split
  all_goals simp [h]

@[simp] theorem snapshotRequest_frame {s : State} :
    (snapshotRequest s).pending = s.pending ∧ (snapshotRequest s).straps = s.straps ∧
    (snapshotRequest s).inReset = s.inReset ∧ (snapshotRequest s).oscillator = s.oscillator ∧
    (snapshotRequest s).now = s.now ∧ (snapshotRequest s).freeUses = s.freeUses ∧ (snapshotRequest s).dram = s.dram ∧
    (snapshotRequest s).flips = s.flips ∧ (snapshotRequest s).link = s.link ∧ (snapshotRequest s).adm = s.adm ∧
    (snapshotRequest s).time = s.time ∧ (snapshotRequest s).xfer = s.xfer ∧ (snapshotRequest s).windows = s.windows ∧
    (snapshotRequest s).integ = s.integ ∧ (snapshotRequest s).march = s.march ∧ (snapshotRequest s).loop = s.loop ∧
    (snapshotRequest s).dec = s.dec ∧ (snapshotRequest s).fault = s.fault := by
  simpa [eraseBlocks] using snapshotRequest_erase (l := [.rep, .path]) (List.Subset.refl _) (s := s)

@[simp] theorem settleRelease_erase {l  s} (h : [.rep] ⊆ l) :
    eraseBlocks l (settleRelease s) = eraseBlocks l s := by
  simp at h
  simp only [settleRelease]
  repeat' split
  all_goals simp [h]

@[simp] theorem settleRelease_frame {s : State} :
    (settleRelease s).pending = s.pending ∧ (settleRelease s).straps = s.straps ∧
    (settleRelease s).inReset = s.inReset ∧ (settleRelease s).oscillator = s.oscillator ∧
    (settleRelease s).now = s.now ∧ (settleRelease s).freeUses = s.freeUses ∧ (settleRelease s).dram = s.dram ∧
    (settleRelease s).flips = s.flips ∧ (settleRelease s).link = s.link ∧ (settleRelease s).adm = s.adm ∧
    (settleRelease s).time = s.time ∧ (settleRelease s).xfer = s.xfer ∧ (settleRelease s).windows = s.windows ∧
    (settleRelease s).path = s.path ∧ (settleRelease s).integ = s.integ ∧ (settleRelease s).march = s.march ∧
    (settleRelease s).loop = s.loop ∧ (settleRelease s).dec = s.dec ∧ (settleRelease s).fault = s.fault := by
  simpa [eraseBlocks] using settleRelease_erase (l := [.rep]) (List.Subset.refl _) (s := s)

@[simp] theorem entryWritten_erase {l  s} (h : [.rep] ⊆ l) :
    eraseBlocks l (entryWritten s) = eraseBlocks l s := by
  simp at h
  simp [entryWritten, h]

@[simp] theorem entryWritten_frame {s : State} :
    (entryWritten s).pending = s.pending ∧ (entryWritten s).straps = s.straps ∧ (entryWritten s).inReset = s.inReset ∧
    (entryWritten s).oscillator = s.oscillator ∧ (entryWritten s).now = s.now ∧ (entryWritten s).freeUses = s.freeUses ∧
    (entryWritten s).dram = s.dram ∧ (entryWritten s).flips = s.flips ∧ (entryWritten s).link = s.link ∧
    (entryWritten s).adm = s.adm ∧ (entryWritten s).time = s.time ∧ (entryWritten s).xfer = s.xfer ∧
    (entryWritten s).windows = s.windows ∧ (entryWritten s).path = s.path ∧ (entryWritten s).integ = s.integ ∧
    (entryWritten s).march = s.march ∧ (entryWritten s).loop = s.loop ∧ (entryWritten s).dec = s.dec ∧
    (entryWritten s).fault = s.fault := by
  simpa [eraseBlocks] using entryWritten_erase (l := [.rep]) (List.Subset.refl _) (s := s)

@[simp] theorem snapshotIdle_erase {l  s} (h : [.rep] ⊆ l) :
    eraseBlocks l (snapshotIdle s) = eraseBlocks l s := by
  simp at h
  simp [snapshotIdle, h]

@[simp] theorem snapshotIdle_frame {s : State} :
    (snapshotIdle s).pending = s.pending ∧ (snapshotIdle s).straps = s.straps ∧ (snapshotIdle s).inReset = s.inReset ∧
    (snapshotIdle s).oscillator = s.oscillator ∧ (snapshotIdle s).now = s.now ∧ (snapshotIdle s).freeUses = s.freeUses ∧
    (snapshotIdle s).dram = s.dram ∧ (snapshotIdle s).flips = s.flips ∧ (snapshotIdle s).link = s.link ∧
    (snapshotIdle s).adm = s.adm ∧ (snapshotIdle s).time = s.time ∧ (snapshotIdle s).xfer = s.xfer ∧
    (snapshotIdle s).windows = s.windows ∧ (snapshotIdle s).path = s.path ∧ (snapshotIdle s).integ = s.integ ∧
    (snapshotIdle s).march = s.march ∧ (snapshotIdle s).loop = s.loop ∧ (snapshotIdle s).dec = s.dec ∧
    (snapshotIdle s).fault = s.fault := by
  simpa [eraseBlocks] using snapshotIdle_erase (l := [.rep]) (List.Subset.refl _) (s := s)

@[simp] theorem snapshotDone_erase {l  s} (h : [.rep, .path] ⊆ l) :
    eraseBlocks l (snapshotDone s) = eraseBlocks l s := by
  simp at h
  simp only [snapshotDone]
  repeat' split
  all_goals simp [h]

@[simp] theorem snapshotDone_frame {s : State} :
    (snapshotDone s).pending = s.pending ∧ (snapshotDone s).straps = s.straps ∧ (snapshotDone s).inReset = s.inReset ∧
    (snapshotDone s).oscillator = s.oscillator ∧ (snapshotDone s).now = s.now ∧ (snapshotDone s).freeUses = s.freeUses ∧
    (snapshotDone s).dram = s.dram ∧ (snapshotDone s).flips = s.flips ∧ (snapshotDone s).link = s.link ∧
    (snapshotDone s).adm = s.adm ∧ (snapshotDone s).time = s.time ∧ (snapshotDone s).xfer = s.xfer ∧
    (snapshotDone s).windows = s.windows ∧ (snapshotDone s).integ = s.integ ∧ (snapshotDone s).march = s.march ∧
    (snapshotDone s).loop = s.loop ∧ (snapshotDone s).dec = s.dec ∧ (snapshotDone s).fault = s.fault := by
  simpa [eraseBlocks] using snapshotDone_erase (l := [.rep, .path]) (List.Subset.refl _) (s := s)

/-! ### Machine/Arbiter.lean -/

@[simp] theorem evalLoad_erase {l  s} (h : [.path, .march, .integ] ⊆ l) :
    eraseBlocks l (evalLoad s) = eraseBlocks l s := by
  simp at h
  simp only [evalLoad]
  repeat' split
  all_goals simp [h]

@[simp] theorem evalLoad_frame {s : State} :
    (evalLoad s).pending = s.pending ∧ (evalLoad s).straps = s.straps ∧ (evalLoad s).inReset = s.inReset ∧
    (evalLoad s).oscillator = s.oscillator ∧ (evalLoad s).now = s.now ∧ (evalLoad s).freeUses = s.freeUses ∧
    (evalLoad s).dram = s.dram ∧ (evalLoad s).flips = s.flips ∧ (evalLoad s).link = s.link ∧ (evalLoad s).adm = s.adm ∧
    (evalLoad s).time = s.time ∧ (evalLoad s).xfer = s.xfer ∧ (evalLoad s).windows = s.windows ∧
    (evalLoad s).loop = s.loop ∧ (evalLoad s).dec = s.dec ∧ (evalLoad s).rep = s.rep ∧
    (evalLoad s).fault = s.fault := by
  simpa [eraseBlocks] using evalLoad_erase (l := [.path, .march, .integ]) (List.Subset.refl _) (s := s)

@[simp] theorem issue_erase {l a s} (h : [.path] ⊆ l) :
    eraseBlocks l (issue a s) = eraseBlocks l s := by
  simp at h
  simp only [issue]
  repeat' split
  all_goals simp [h]

@[simp] theorem issue_frame {a s} :
    (issue a s).pending = s.pending ∧ (issue a s).straps = s.straps ∧ (issue a s).inReset = s.inReset ∧
    (issue a s).oscillator = s.oscillator ∧ (issue a s).now = s.now ∧ (issue a s).freeUses = s.freeUses ∧
    (issue a s).dram = s.dram ∧ (issue a s).flips = s.flips ∧ (issue a s).link = s.link ∧ (issue a s).adm = s.adm ∧
    (issue a s).time = s.time ∧ (issue a s).xfer = s.xfer ∧ (issue a s).windows = s.windows ∧
    (issue a s).integ = s.integ ∧ (issue a s).march = s.march ∧ (issue a s).loop = s.loop ∧ (issue a s).dec = s.dec ∧
    (issue a s).rep = s.rep ∧ (issue a s).fault = s.fault := by
  simpa [eraseBlocks] using issue_erase (l := [.path]) (List.Subset.refl _) (a := a) (s := s)

@[simp] theorem grantTo_erase {l a b c s} (h : [.path] ⊆ l) :
    eraseBlocks l (grantTo a b c s) = eraseBlocks l s := by
  simp at h
  simp [grantTo, h]

@[simp] theorem grantTo_frame {a b c s} :
    (grantTo a b c s).pending = s.pending ∧ (grantTo a b c s).straps = s.straps ∧
    (grantTo a b c s).inReset = s.inReset ∧ (grantTo a b c s).oscillator = s.oscillator ∧
    (grantTo a b c s).now = s.now ∧ (grantTo a b c s).freeUses = s.freeUses ∧ (grantTo a b c s).dram = s.dram ∧
    (grantTo a b c s).flips = s.flips ∧ (grantTo a b c s).link = s.link ∧ (grantTo a b c s).adm = s.adm ∧
    (grantTo a b c s).time = s.time ∧ (grantTo a b c s).xfer = s.xfer ∧ (grantTo a b c s).windows = s.windows ∧
    (grantTo a b c s).integ = s.integ ∧ (grantTo a b c s).march = s.march ∧ (grantTo a b c s).loop = s.loop ∧
    (grantTo a b c s).dec = s.dec ∧ (grantTo a b c s).rep = s.rep ∧ (grantTo a b c s).fault = s.fault := by
  simpa [eraseBlocks] using grantTo_erase (l := [.path]) (List.Subset.refl _) (a := a) (b := b) (c := c) (s := s)

@[simp] theorem grantNext_erase {l  s} (h : [.path] ⊆ l) :
    eraseBlocks l (grantNext s) = eraseBlocks l s := by
  simp at h
  simp only [grantNext]
  repeat' split
  all_goals simp [h]

@[simp] theorem grantNext_frame {s : State} :
    (grantNext s).pending = s.pending ∧ (grantNext s).straps = s.straps ∧ (grantNext s).inReset = s.inReset ∧
    (grantNext s).oscillator = s.oscillator ∧ (grantNext s).now = s.now ∧ (grantNext s).freeUses = s.freeUses ∧
    (grantNext s).dram = s.dram ∧ (grantNext s).flips = s.flips ∧ (grantNext s).link = s.link ∧
    (grantNext s).adm = s.adm ∧ (grantNext s).time = s.time ∧ (grantNext s).xfer = s.xfer ∧
    (grantNext s).windows = s.windows ∧ (grantNext s).integ = s.integ ∧ (grantNext s).march = s.march ∧
    (grantNext s).loop = s.loop ∧ (grantNext s).dec = s.dec ∧ (grantNext s).rep = s.rep ∧
    (grantNext s).fault = s.fault := by
  simpa [eraseBlocks] using grantNext_erase (l := [.path]) (List.Subset.refl _) (s := s)

@[simp] theorem grant_erase {l  s} (h : [.path] ⊆ l) :
    eraseBlocks l (grant s) = eraseBlocks l s := by
  simp at h
  simp only [grant]
  repeat' split
  all_goals simp [h]

@[simp] theorem grant_frame {s : State} :
    (grant s).pending = s.pending ∧ (grant s).straps = s.straps ∧ (grant s).inReset = s.inReset ∧
    (grant s).oscillator = s.oscillator ∧ (grant s).now = s.now ∧ (grant s).freeUses = s.freeUses ∧
    (grant s).dram = s.dram ∧ (grant s).flips = s.flips ∧ (grant s).link = s.link ∧ (grant s).adm = s.adm ∧
    (grant s).time = s.time ∧ (grant s).xfer = s.xfer ∧ (grant s).windows = s.windows ∧ (grant s).integ = s.integ ∧
    (grant s).march = s.march ∧ (grant s).loop = s.loop ∧ (grant s).dec = s.dec ∧ (grant s).rep = s.rep ∧
    (grant s).fault = s.fault := by
  simpa [eraseBlocks] using grant_erase (l := [.path]) (List.Subset.refl _) (s := s)

@[simp] theorem applyPorts_erase {l a s} (h : [.path, .march, .integ] ⊆ l) :
    eraseBlocks l (applyPorts a s) = eraseBlocks l s := by
  simp at h
  simp [applyPorts, h]

@[simp] theorem applyPorts_frame {a s} :
    (applyPorts a s).pending = s.pending ∧ (applyPorts a s).straps = s.straps ∧ (applyPorts a s).inReset = s.inReset ∧
    (applyPorts a s).oscillator = s.oscillator ∧ (applyPorts a s).now = s.now ∧ (applyPorts a s).freeUses = s.freeUses ∧
    (applyPorts a s).dram = s.dram ∧ (applyPorts a s).flips = s.flips ∧ (applyPorts a s).link = s.link ∧
    (applyPorts a s).adm = s.adm ∧ (applyPorts a s).time = s.time ∧ (applyPorts a s).xfer = s.xfer ∧
    (applyPorts a s).windows = s.windows ∧ (applyPorts a s).loop = s.loop ∧ (applyPorts a s).dec = s.dec ∧
    (applyPorts a s).rep = s.rep ∧ (applyPorts a s).fault = s.fault := by
  simpa [eraseBlocks] using applyPorts_erase (l := [.path, .march, .integ]) (List.Subset.refl _) (a := a) (s := s)

@[simp] theorem clearPorts_erase {l  s} (h : [.path] ⊆ l) :
    eraseBlocks l (clearPorts s) = eraseBlocks l s := by
  simp at h
  simp [clearPorts, h]

@[simp] theorem clearPorts_frame {s : State} :
    (clearPorts s).pending = s.pending ∧ (clearPorts s).straps = s.straps ∧ (clearPorts s).inReset = s.inReset ∧
    (clearPorts s).oscillator = s.oscillator ∧ (clearPorts s).now = s.now ∧ (clearPorts s).freeUses = s.freeUses ∧
    (clearPorts s).dram = s.dram ∧ (clearPorts s).flips = s.flips ∧ (clearPorts s).link = s.link ∧
    (clearPorts s).adm = s.adm ∧ (clearPorts s).time = s.time ∧ (clearPorts s).xfer = s.xfer ∧
    (clearPorts s).windows = s.windows ∧ (clearPorts s).integ = s.integ ∧ (clearPorts s).march = s.march ∧
    (clearPorts s).loop = s.loop ∧ (clearPorts s).dec = s.dec ∧ (clearPorts s).rep = s.rep ∧
    (clearPorts s).fault = s.fault := by
  simpa [eraseBlocks] using clearPorts_erase (l := [.path]) (List.Subset.refl _) (s := s)

/-! ### Machine/Records.lean -/

@[simp] theorem applyWindow_erase {l a s} (h : [.windows, .path, .march, .xfer, .loop, .rep] ⊆ l) :
    eraseBlocks l (applyWindow a s) = eraseBlocks l s := by
  simp at h
  simp only [applyWindow]
  repeat' split
  all_goals simp [h]

@[simp] theorem applyWindow_frame {a s} :
    (applyWindow a s).pending = s.pending ∧ (applyWindow a s).straps = s.straps ∧
    (applyWindow a s).inReset = s.inReset ∧ (applyWindow a s).oscillator = s.oscillator ∧
    (applyWindow a s).now = s.now ∧ (applyWindow a s).freeUses = s.freeUses ∧ (applyWindow a s).dram = s.dram ∧
    (applyWindow a s).flips = s.flips ∧ (applyWindow a s).link = s.link ∧ (applyWindow a s).adm = s.adm ∧
    (applyWindow a s).time = s.time ∧ (applyWindow a s).integ = s.integ ∧ (applyWindow a s).dec = s.dec ∧
    (applyWindow a s).fault = s.fault := by
  simpa [eraseBlocks] using applyWindow_erase (l := [.windows, .path, .march, .xfer, .loop, .rep]) (List.Subset.refl _) (a := a) (s := s)

@[simp] theorem applyTiming_erase {l a s} (h : [.xfer] ⊆ l) :
    eraseBlocks l (applyTiming a s) = eraseBlocks l s := by
  simp at h
  simp [applyTiming, h]

@[simp] theorem applyTiming_frame {a s} :
    (applyTiming a s).pending = s.pending ∧ (applyTiming a s).straps = s.straps ∧
    (applyTiming a s).inReset = s.inReset ∧ (applyTiming a s).oscillator = s.oscillator ∧
    (applyTiming a s).now = s.now ∧ (applyTiming a s).freeUses = s.freeUses ∧ (applyTiming a s).dram = s.dram ∧
    (applyTiming a s).flips = s.flips ∧ (applyTiming a s).link = s.link ∧ (applyTiming a s).adm = s.adm ∧
    (applyTiming a s).time = s.time ∧ (applyTiming a s).windows = s.windows ∧ (applyTiming a s).path = s.path ∧
    (applyTiming a s).integ = s.integ ∧ (applyTiming a s).march = s.march ∧ (applyTiming a s).loop = s.loop ∧
    (applyTiming a s).dec = s.dec ∧ (applyTiming a s).rep = s.rep ∧ (applyTiming a s).fault = s.fault := by
  simpa [eraseBlocks] using applyTiming_erase (l := [.xfer]) (List.Subset.refl _) (a := a) (s := s)

@[simp] theorem applyTimeset_erase {l a s} (h : [.time, .xfer, .rep, .path] ⊆ l) :
    eraseBlocks l (applyTimeset a s) = eraseBlocks l s := by
  simp at h
  simp [applyTimeset, h]

@[simp] theorem applyTimeset_frame {a s} :
    (applyTimeset a s).pending = s.pending ∧ (applyTimeset a s).straps = s.straps ∧
    (applyTimeset a s).inReset = s.inReset ∧ (applyTimeset a s).oscillator = s.oscillator ∧
    (applyTimeset a s).now = s.now ∧ (applyTimeset a s).freeUses = s.freeUses ∧ (applyTimeset a s).dram = s.dram ∧
    (applyTimeset a s).flips = s.flips ∧ (applyTimeset a s).link = s.link ∧ (applyTimeset a s).adm = s.adm ∧
    (applyTimeset a s).windows = s.windows ∧ (applyTimeset a s).integ = s.integ ∧ (applyTimeset a s).march = s.march ∧
    (applyTimeset a s).loop = s.loop ∧ (applyTimeset a s).dec = s.dec ∧ (applyTimeset a s).fault = s.fault := by
  simpa [eraseBlocks] using applyTimeset_erase (l := [.time, .xfer, .rep, .path]) (List.Subset.refl _) (a := a) (s := s)

@[simp] theorem applySynth_erase {l a s} (h : [.time] ⊆ l) :
    eraseBlocks l (applySynth a s) = eraseBlocks l s := by
  simp at h
  simp [applySynth, h]

@[simp] theorem applySynth_frame {a s} :
    (applySynth a s).pending = s.pending ∧ (applySynth a s).straps = s.straps ∧ (applySynth a s).inReset = s.inReset ∧
    (applySynth a s).oscillator = s.oscillator ∧ (applySynth a s).now = s.now ∧ (applySynth a s).freeUses = s.freeUses ∧
    (applySynth a s).dram = s.dram ∧ (applySynth a s).flips = s.flips ∧ (applySynth a s).link = s.link ∧
    (applySynth a s).adm = s.adm ∧ (applySynth a s).xfer = s.xfer ∧ (applySynth a s).windows = s.windows ∧
    (applySynth a s).path = s.path ∧ (applySynth a s).integ = s.integ ∧ (applySynth a s).march = s.march ∧
    (applySynth a s).loop = s.loop ∧ (applySynth a s).dec = s.dec ∧ (applySynth a s).rep = s.rep ∧
    (applySynth a s).fault = s.fault := by
  simpa [eraseBlocks] using applySynth_erase (l := [.time]) (List.Subset.refl _) (a := a) (s := s)

@[simp] theorem applyLooptestStart_erase {l a s} (h : [.loop] ⊆ l) :
    eraseBlocks l (applyLooptestStart a s) = eraseBlocks l s := by
  simp at h
  simp [applyLooptestStart, h]

@[simp] theorem applyLooptestStart_frame {a s} :
    (applyLooptestStart a s).pending = s.pending ∧ (applyLooptestStart a s).straps = s.straps ∧
    (applyLooptestStart a s).inReset = s.inReset ∧ (applyLooptestStart a s).oscillator = s.oscillator ∧
    (applyLooptestStart a s).now = s.now ∧ (applyLooptestStart a s).freeUses = s.freeUses ∧
    (applyLooptestStart a s).dram = s.dram ∧ (applyLooptestStart a s).flips = s.flips ∧
    (applyLooptestStart a s).link = s.link ∧ (applyLooptestStart a s).adm = s.adm ∧
    (applyLooptestStart a s).time = s.time ∧ (applyLooptestStart a s).xfer = s.xfer ∧
    (applyLooptestStart a s).windows = s.windows ∧ (applyLooptestStart a s).path = s.path ∧
    (applyLooptestStart a s).integ = s.integ ∧ (applyLooptestStart a s).march = s.march ∧
    (applyLooptestStart a s).dec = s.dec ∧ (applyLooptestStart a s).rep = s.rep ∧
    (applyLooptestStart a s).fault = s.fault := by
  simpa [eraseBlocks] using applyLooptestStart_erase (l := [.loop]) (List.Subset.refl _) (a := a) (s := s)

@[simp] theorem clearLoop_erase {l  s} (h : [.loop] ⊆ l) :
    eraseBlocks l (clearLoop s) = eraseBlocks l s := by
  simp at h
  simp [clearLoop, h]

@[simp] theorem clearLoop_frame {s : State} :
    (clearLoop s).pending = s.pending ∧ (clearLoop s).straps = s.straps ∧ (clearLoop s).inReset = s.inReset ∧
    (clearLoop s).oscillator = s.oscillator ∧ (clearLoop s).now = s.now ∧ (clearLoop s).freeUses = s.freeUses ∧
    (clearLoop s).dram = s.dram ∧ (clearLoop s).flips = s.flips ∧ (clearLoop s).link = s.link ∧
    (clearLoop s).adm = s.adm ∧ (clearLoop s).time = s.time ∧ (clearLoop s).xfer = s.xfer ∧
    (clearLoop s).windows = s.windows ∧ (clearLoop s).path = s.path ∧ (clearLoop s).integ = s.integ ∧
    (clearLoop s).march = s.march ∧ (clearLoop s).dec = s.dec ∧ (clearLoop s).rep = s.rep ∧
    (clearLoop s).fault = s.fault := by
  simpa [eraseBlocks] using clearLoop_erase (l := [.loop]) (List.Subset.refl _) (s := s)

@[simp] theorem changeConditions_erase {l a b s} (h : [.fault, .rep, .path] ⊆ l) :
    eraseBlocks l (changeConditions a b s) = eraseBlocks l s := by
  simp at h
  simp only [changeConditions]
  rw [foldl_erase]
  · simp [h]
  · intro t c _
    simp [h]

@[simp] theorem changeConditions_frame {a b s} :
    (changeConditions a b s).pending = s.pending ∧ (changeConditions a b s).straps = s.straps ∧
    (changeConditions a b s).inReset = s.inReset ∧ (changeConditions a b s).oscillator = s.oscillator ∧
    (changeConditions a b s).now = s.now ∧ (changeConditions a b s).freeUses = s.freeUses ∧
    (changeConditions a b s).dram = s.dram ∧ (changeConditions a b s).flips = s.flips ∧
    (changeConditions a b s).link = s.link ∧ (changeConditions a b s).adm = s.adm ∧
    (changeConditions a b s).time = s.time ∧ (changeConditions a b s).xfer = s.xfer ∧
    (changeConditions a b s).windows = s.windows ∧ (changeConditions a b s).integ = s.integ ∧
    (changeConditions a b s).march = s.march ∧ (changeConditions a b s).loop = s.loop ∧
    (changeConditions a b s).dec = s.dec := by
  simpa [eraseBlocks] using changeConditions_erase (l := [.fault, .rep, .path]) (List.Subset.refl _) (a := a) (b := b) (s := s)

@[simp] theorem applyFault_erase {l a s} (h : [.fault, .rep, .path] ⊆ l) :
    eraseBlocks l (applyFault a s) = eraseBlocks l s := by
  simp at h
  simp [applyFault, h]

@[simp] theorem applyFault_frame {a s} :
    (applyFault a s).pending = s.pending ∧ (applyFault a s).straps = s.straps ∧ (applyFault a s).inReset = s.inReset ∧
    (applyFault a s).oscillator = s.oscillator ∧ (applyFault a s).now = s.now ∧ (applyFault a s).freeUses = s.freeUses ∧
    (applyFault a s).dram = s.dram ∧ (applyFault a s).flips = s.flips ∧ (applyFault a s).link = s.link ∧
    (applyFault a s).adm = s.adm ∧ (applyFault a s).time = s.time ∧ (applyFault a s).xfer = s.xfer ∧
    (applyFault a s).windows = s.windows ∧ (applyFault a s).integ = s.integ ∧ (applyFault a s).march = s.march ∧
    (applyFault a s).loop = s.loop ∧ (applyFault a s).dec = s.dec := by
  simpa [eraseBlocks] using applyFault_erase (l := [.fault, .rep, .path]) (List.Subset.refl _) (a := a) (s := s)

@[simp] theorem whenBit_erase {l a b f s} (h : ∀ t, eraseBlocks l (f t) = eraseBlocks l t) :
    eraseBlocks l (whenBit a b f s) = eraseBlocks l s := by
  simp only [whenBit]
  split <;> simp [h]

@[simp] theorem applyClear_erase {l a s} (h : [.adm, .path, .integ, .xfer, .march, .loop, .fault, .rep] ⊆ l) :
    eraseBlocks l (applyClear a s) = eraseBlocks l s := by
  simp at h
  simp [applyClear, h]

@[simp] theorem applyClear_frame {a s} :
    (applyClear a s).pending = s.pending ∧ (applyClear a s).straps = s.straps ∧ (applyClear a s).inReset = s.inReset ∧
    (applyClear a s).oscillator = s.oscillator ∧ (applyClear a s).now = s.now ∧ (applyClear a s).freeUses = s.freeUses ∧
    (applyClear a s).dram = s.dram ∧ (applyClear a s).flips = s.flips ∧ (applyClear a s).link = s.link ∧
    (applyClear a s).time = s.time ∧ (applyClear a s).windows = s.windows ∧ (applyClear a s).dec = s.dec := by
  simpa [eraseBlocks] using applyClear_erase (l := [.adm, .path, .integ, .xfer, .march, .loop, .fault, .rep]) (List.Subset.refl _) (a := a) (s := s)

@[simp] theorem applyConfigure_erase {l a s} (h : [.rep] ⊆ l) :
    eraseBlocks l (applyConfigure a s) = eraseBlocks l s := by
  simp at h
  simp [applyConfigure, h]

@[simp] theorem applyConfigure_frame {a s} :
    (applyConfigure a s).pending = s.pending ∧ (applyConfigure a s).straps = s.straps ∧
    (applyConfigure a s).inReset = s.inReset ∧ (applyConfigure a s).oscillator = s.oscillator ∧
    (applyConfigure a s).now = s.now ∧ (applyConfigure a s).freeUses = s.freeUses ∧ (applyConfigure a s).dram = s.dram ∧
    (applyConfigure a s).flips = s.flips ∧ (applyConfigure a s).link = s.link ∧ (applyConfigure a s).adm = s.adm ∧
    (applyConfigure a s).time = s.time ∧ (applyConfigure a s).xfer = s.xfer ∧ (applyConfigure a s).windows = s.windows ∧
    (applyConfigure a s).path = s.path ∧ (applyConfigure a s).integ = s.integ ∧ (applyConfigure a s).march = s.march ∧
    (applyConfigure a s).loop = s.loop ∧ (applyConfigure a s).dec = s.dec ∧ (applyConfigure a s).fault = s.fault := by
  simpa [eraseBlocks] using applyConfigure_erase (l := [.rep]) (List.Subset.refl _) (a := a) (s := s)

@[simp] theorem applyConsume_erase {l a s} (h : [.rep] ⊆ l) :
    eraseBlocks l (applyConsume a s) = eraseBlocks l s := by
  simp at h
  simp [applyConsume, h]

@[simp] theorem applyConsume_frame {a s} :
    (applyConsume a s).pending = s.pending ∧ (applyConsume a s).straps = s.straps ∧
    (applyConsume a s).inReset = s.inReset ∧ (applyConsume a s).oscillator = s.oscillator ∧
    (applyConsume a s).now = s.now ∧ (applyConsume a s).freeUses = s.freeUses ∧ (applyConsume a s).dram = s.dram ∧
    (applyConsume a s).flips = s.flips ∧ (applyConsume a s).link = s.link ∧ (applyConsume a s).adm = s.adm ∧
    (applyConsume a s).time = s.time ∧ (applyConsume a s).xfer = s.xfer ∧ (applyConsume a s).windows = s.windows ∧
    (applyConsume a s).path = s.path ∧ (applyConsume a s).integ = s.integ ∧ (applyConsume a s).march = s.march ∧
    (applyConsume a s).loop = s.loop ∧ (applyConsume a s).dec = s.dec ∧ (applyConsume a s).fault = s.fault := by
  simpa [eraseBlocks] using applyConsume_erase (l := [.rep]) (List.Subset.refl _) (a := a) (s := s)

@[simp] theorem checked_erase {l a f s} (h : ∀ t, eraseBlocks l (f t) = eraseBlocks l t) :
    eraseBlocks l (checked a f s).2 = eraseBlocks l s := by
  simp only [checked]
  split <;> simp [h]

@[simp] theorem examineRemap_erase {l a s} (h : [.integ, .fault, .rep, .path, .freeUses] ⊆ l) :
    eraseBlocks l (examineRemap a s).2 = eraseBlocks l s := by
  simp at h
  simp only [examineRemap]
  repeat' split
  all_goals simp [h]

@[simp] theorem examineRemap_frame {a s} :
    (examineRemap a s).2.pending = s.pending ∧ (examineRemap a s).2.straps = s.straps ∧
    (examineRemap a s).2.inReset = s.inReset ∧ (examineRemap a s).2.oscillator = s.oscillator ∧
    (examineRemap a s).2.now = s.now ∧ (examineRemap a s).2.dram = s.dram ∧ (examineRemap a s).2.flips = s.flips ∧
    (examineRemap a s).2.link = s.link ∧ (examineRemap a s).2.adm = s.adm ∧ (examineRemap a s).2.time = s.time ∧
    (examineRemap a s).2.xfer = s.xfer ∧ (examineRemap a s).2.windows = s.windows ∧
    (examineRemap a s).2.march = s.march ∧ (examineRemap a s).2.loop = s.loop ∧ (examineRemap a s).2.dec = s.dec := by
  simpa [eraseBlocks] using examineRemap_erase (l := [.integ, .fault, .rep, .path, .freeUses]) (List.Subset.refl _) (a := a) (s := s)

@[simp] theorem examineMemtest_erase {l a s} (h : [.march, .path, .rep] ⊆ l) :
    eraseBlocks l (examineMemtest a s).2 = eraseBlocks l s := by
  simp at h
  simp only [examineMemtest]
  repeat' split
  all_goals simp [h]

@[simp] theorem examineMemtest_frame {a s} :
    (examineMemtest a s).2.pending = s.pending ∧ (examineMemtest a s).2.straps = s.straps ∧
    (examineMemtest a s).2.inReset = s.inReset ∧ (examineMemtest a s).2.oscillator = s.oscillator ∧
    (examineMemtest a s).2.now = s.now ∧ (examineMemtest a s).2.freeUses = s.freeUses ∧
    (examineMemtest a s).2.dram = s.dram ∧ (examineMemtest a s).2.flips = s.flips ∧
    (examineMemtest a s).2.link = s.link ∧ (examineMemtest a s).2.adm = s.adm ∧ (examineMemtest a s).2.time = s.time ∧
    (examineMemtest a s).2.xfer = s.xfer ∧ (examineMemtest a s).2.windows = s.windows ∧
    (examineMemtest a s).2.integ = s.integ ∧ (examineMemtest a s).2.loop = s.loop ∧ (examineMemtest a s).2.dec = s.dec ∧
    (examineMemtest a s).2.fault = s.fault := by
  simpa [eraseBlocks] using examineMemtest_erase (l := [.march, .path, .rep]) (List.Subset.refl _) (a := a) (s := s)

@[simp] theorem examineLooptest_erase {l a s} (h : [.loop, .rep, .path] ⊆ l) :
    eraseBlocks l (examineLooptest a s).2 = eraseBlocks l s := by
  simp at h
  simp only [examineLooptest]
  repeat' split
  all_goals simp [h]

@[simp] theorem examineLooptest_frame {a s} :
    (examineLooptest a s).2.pending = s.pending ∧ (examineLooptest a s).2.straps = s.straps ∧
    (examineLooptest a s).2.inReset = s.inReset ∧ (examineLooptest a s).2.oscillator = s.oscillator ∧
    (examineLooptest a s).2.now = s.now ∧ (examineLooptest a s).2.freeUses = s.freeUses ∧
    (examineLooptest a s).2.dram = s.dram ∧ (examineLooptest a s).2.flips = s.flips ∧
    (examineLooptest a s).2.link = s.link ∧ (examineLooptest a s).2.adm = s.adm ∧
    (examineLooptest a s).2.time = s.time ∧ (examineLooptest a s).2.xfer = s.xfer ∧
    (examineLooptest a s).2.windows = s.windows ∧ (examineLooptest a s).2.integ = s.integ ∧
    (examineLooptest a s).2.march = s.march ∧ (examineLooptest a s).2.dec = s.dec ∧
    (examineLooptest a s).2.fault = s.fault := by
  simpa [eraseBlocks] using examineLooptest_erase (l := [.loop, .rep, .path]) (List.Subset.refl _) (a := a) (s := s)

@[simp] theorem examineReport_erase {l a s} (h : [.rep] ⊆ l) :
    eraseBlocks l (examineReport a s).2 = eraseBlocks l s := by
  simp at h
  simp only [examineReport]
  repeat' split
  all_goals simp [h]

@[simp] theorem examineReport_frame {a s} :
    (examineReport a s).2.pending = s.pending ∧ (examineReport a s).2.straps = s.straps ∧
    (examineReport a s).2.inReset = s.inReset ∧ (examineReport a s).2.oscillator = s.oscillator ∧
    (examineReport a s).2.now = s.now ∧ (examineReport a s).2.freeUses = s.freeUses ∧
    (examineReport a s).2.dram = s.dram ∧ (examineReport a s).2.flips = s.flips ∧ (examineReport a s).2.link = s.link ∧
    (examineReport a s).2.adm = s.adm ∧ (examineReport a s).2.time = s.time ∧ (examineReport a s).2.xfer = s.xfer ∧
    (examineReport a s).2.windows = s.windows ∧ (examineReport a s).2.path = s.path ∧
    (examineReport a s).2.integ = s.integ ∧ (examineReport a s).2.march = s.march ∧
    (examineReport a s).2.loop = s.loop ∧ (examineReport a s).2.dec = s.dec ∧
    (examineReport a s).2.fault = s.fault := by
  simpa [eraseBlocks] using examineReport_erase (l := [.rep]) (List.Subset.refl _) (a := a) (s := s)

@[simp] theorem examineKind_erase {l a b s} (h : [.freeUses, .link, .adm, .time, .xfer, .windows, .path, .integ, .march, .loop, .rep, .fault] ⊆ l) :
    eraseBlocks l (examineKind a b s).2 = eraseBlocks l s := by
  simp at h
  simp only [examineKind]
  repeat' split
  all_goals simp [h]

@[simp] theorem examineKind_frame {a b s} :
    (examineKind a b s).2.pending = s.pending ∧ (examineKind a b s).2.straps = s.straps ∧
    (examineKind a b s).2.inReset = s.inReset ∧ (examineKind a b s).2.oscillator = s.oscillator ∧
    (examineKind a b s).2.now = s.now ∧ (examineKind a b s).2.dram = s.dram ∧ (examineKind a b s).2.flips = s.flips ∧
    (examineKind a b s).2.dec = s.dec := by
  simpa [eraseBlocks] using examineKind_erase (l := [.freeUses, .link, .adm, .time, .xfer, .windows, .path, .integ, .march, .loop, .rep, .fault]) (List.Subset.refl _) (a := a) (b := b) (s := s)

@[simp] theorem countOutcome_erase {l a s} (h : [.dec] ⊆ l) :
    eraseBlocks l (countOutcome a s) = eraseBlocks l s := by
  simp at h
  simp only [countOutcome]
  repeat' split
  all_goals simp [h]

@[simp] theorem countOutcome_frame {a s} :
    (countOutcome a s).pending = s.pending ∧ (countOutcome a s).straps = s.straps ∧
    (countOutcome a s).inReset = s.inReset ∧ (countOutcome a s).oscillator = s.oscillator ∧
    (countOutcome a s).now = s.now ∧ (countOutcome a s).freeUses = s.freeUses ∧ (countOutcome a s).dram = s.dram ∧
    (countOutcome a s).flips = s.flips ∧ (countOutcome a s).link = s.link ∧ (countOutcome a s).adm = s.adm ∧
    (countOutcome a s).time = s.time ∧ (countOutcome a s).xfer = s.xfer ∧ (countOutcome a s).windows = s.windows ∧
    (countOutcome a s).path = s.path ∧ (countOutcome a s).integ = s.integ ∧ (countOutcome a s).march = s.march ∧
    (countOutcome a s).loop = s.loop ∧ (countOutcome a s).rep = s.rep ∧ (countOutcome a s).fault = s.fault := by
  simpa [eraseBlocks] using countOutcome_erase (l := [.dec]) (List.Subset.refl _) (a := a) (s := s)

@[simp] theorem recordResult_erase {l a b c d s} (h : [.rep, .path] ⊆ l) :
    eraseBlocks l (recordResult a b c d s) = eraseBlocks l s := by
  simp at h
  simp [recordResult, h]

@[simp] theorem recordResult_frame {a b c d s} :
    (recordResult a b c d s).pending = s.pending ∧ (recordResult a b c d s).straps = s.straps ∧
    (recordResult a b c d s).inReset = s.inReset ∧ (recordResult a b c d s).oscillator = s.oscillator ∧
    (recordResult a b c d s).now = s.now ∧ (recordResult a b c d s).freeUses = s.freeUses ∧
    (recordResult a b c d s).dram = s.dram ∧ (recordResult a b c d s).flips = s.flips ∧
    (recordResult a b c d s).link = s.link ∧ (recordResult a b c d s).adm = s.adm ∧
    (recordResult a b c d s).time = s.time ∧ (recordResult a b c d s).xfer = s.xfer ∧
    (recordResult a b c d s).windows = s.windows ∧ (recordResult a b c d s).integ = s.integ ∧
    (recordResult a b c d s).march = s.march ∧ (recordResult a b c d s).loop = s.loop ∧
    (recordResult a b c d s).dec = s.dec ∧ (recordResult a b c d s).fault = s.fault := by
  simpa [eraseBlocks] using recordResult_erase (l := [.rep, .path]) (List.Subset.refl _) (a := a) (b := b) (c := c) (d := d) (s := s)

@[simp] theorem passResult_erase {l  s} (h : [.rep] ⊆ l) :
    eraseBlocks l (passResult s) = eraseBlocks l s := by
  simp at h
  simp [passResult, h]

@[simp] theorem passResult_frame {s : State} :
    (passResult s).pending = s.pending ∧ (passResult s).straps = s.straps ∧ (passResult s).inReset = s.inReset ∧
    (passResult s).oscillator = s.oscillator ∧ (passResult s).now = s.now ∧ (passResult s).freeUses = s.freeUses ∧
    (passResult s).dram = s.dram ∧ (passResult s).flips = s.flips ∧ (passResult s).link = s.link ∧
    (passResult s).adm = s.adm ∧ (passResult s).time = s.time ∧ (passResult s).xfer = s.xfer ∧
    (passResult s).windows = s.windows ∧ (passResult s).path = s.path ∧ (passResult s).integ = s.integ ∧
    (passResult s).march = s.march ∧ (passResult s).loop = s.loop ∧ (passResult s).dec = s.dec ∧
    (passResult s).fault = s.fault := by
  simpa [eraseBlocks] using passResult_erase (l := [.rep]) (List.Subset.refl _) (s := s)

@[simp] theorem releaseRing_erase {l  s} (h : [.rep] ⊆ l) :
    eraseBlocks l (releaseRing s) = eraseBlocks l s := by
  simp at h
  simp [releaseRing, h]

@[simp] theorem releaseRing_frame {s : State} :
    (releaseRing s).pending = s.pending ∧ (releaseRing s).straps = s.straps ∧ (releaseRing s).inReset = s.inReset ∧
    (releaseRing s).oscillator = s.oscillator ∧ (releaseRing s).now = s.now ∧ (releaseRing s).freeUses = s.freeUses ∧
    (releaseRing s).dram = s.dram ∧ (releaseRing s).flips = s.flips ∧ (releaseRing s).link = s.link ∧
    (releaseRing s).adm = s.adm ∧ (releaseRing s).time = s.time ∧ (releaseRing s).xfer = s.xfer ∧
    (releaseRing s).windows = s.windows ∧ (releaseRing s).path = s.path ∧ (releaseRing s).integ = s.integ ∧
    (releaseRing s).march = s.march ∧ (releaseRing s).loop = s.loop ∧ (releaseRing s).dec = s.dec ∧
    (releaseRing s).fault = s.fault := by
  simpa [eraseBlocks] using releaseRing_erase (l := [.rep]) (List.Subset.refl _) (s := s)

@[simp] theorem examineFull_erase {l a b s} (h : [.freeUses, .link, .adm, .time, .xfer, .windows, .path, .integ, .march, .loop, .rep, .fault, .dec] ⊆ l) :
    eraseBlocks l (examineFull a b s) = eraseBlocks l s := by
  simp at h
  simp only [examineFull]
  repeat' split
  all_goals simp [h]

@[simp] theorem examineFull_frame {a b s} :
    (examineFull a b s).pending = s.pending ∧ (examineFull a b s).straps = s.straps ∧
    (examineFull a b s).inReset = s.inReset ∧ (examineFull a b s).oscillator = s.oscillator ∧
    (examineFull a b s).now = s.now ∧ (examineFull a b s).dram = s.dram ∧ (examineFull a b s).flips = s.flips := by
  simpa [eraseBlocks] using examineFull_erase (l := [.freeUses, .link, .adm, .time, .xfer, .windows, .path, .integ, .march, .loop, .rep, .fault, .dec]) (List.Subset.refl _) (a := a) (b := b) (s := s)

@[simp] theorem examineRecord_erase {l a b c s} (h : [.freeUses, .link, .adm, .time, .xfer, .windows, .path, .integ, .march, .loop, .rep, .fault, .dec] ⊆ l) :
    eraseBlocks l (examineRecord a b c s) = eraseBlocks l s := by
  simp at h
  simp only [examineRecord]
  repeat' split
  all_goals simp [h]

@[simp] theorem examineRecord_frame {a b c s} :
    (examineRecord a b c s).pending = s.pending ∧ (examineRecord a b c s).straps = s.straps ∧
    (examineRecord a b c s).inReset = s.inReset ∧ (examineRecord a b c s).oscillator = s.oscillator ∧
    (examineRecord a b c s).now = s.now ∧ (examineRecord a b c s).dram = s.dram ∧
    (examineRecord a b c s).flips = s.flips := by
  simpa [eraseBlocks] using examineRecord_erase (l := [.freeUses, .link, .adm, .time, .xfer, .windows, .path, .integ, .march, .loop, .rep, .fault, .dec]) (List.Subset.refl _) (a := a) (b := b) (c := c) (s := s)

/-! ### Machine/LinePath.lean -/

@[simp] theorem countPort_erase {l a b s} (h : [.path] ⊆ l) :
    eraseBlocks l (countPort a b s) = eraseBlocks l s := by
  simp at h
  simp [countPort, h]

@[simp] theorem countPort_frame {a b s} :
    (countPort a b s).pending = s.pending ∧ (countPort a b s).straps = s.straps ∧
    (countPort a b s).inReset = s.inReset ∧ (countPort a b s).oscillator = s.oscillator ∧
    (countPort a b s).now = s.now ∧ (countPort a b s).freeUses = s.freeUses ∧ (countPort a b s).dram = s.dram ∧
    (countPort a b s).flips = s.flips ∧ (countPort a b s).link = s.link ∧ (countPort a b s).adm = s.adm ∧
    (countPort a b s).time = s.time ∧ (countPort a b s).xfer = s.xfer ∧ (countPort a b s).windows = s.windows ∧
    (countPort a b s).integ = s.integ ∧ (countPort a b s).march = s.march ∧ (countPort a b s).loop = s.loop ∧
    (countPort a b s).dec = s.dec ∧ (countPort a b s).rep = s.rep ∧ (countPort a b s).fault = s.fault := by
  simpa [eraseBlocks] using countPort_erase (l := [.path]) (List.Subset.refl _) (a := a) (b := b) (s := s)

@[simp] theorem answer_erase {l a b s} (h : [.path, .march] ⊆ l) :
    eraseBlocks l (answer a b s) = eraseBlocks l s := by
  simp at h
  simp [answer, h]

@[simp] theorem answer_frame {a b s} :
    (answer a b s).pending = s.pending ∧ (answer a b s).straps = s.straps ∧ (answer a b s).inReset = s.inReset ∧
    (answer a b s).oscillator = s.oscillator ∧ (answer a b s).now = s.now ∧ (answer a b s).freeUses = s.freeUses ∧
    (answer a b s).dram = s.dram ∧ (answer a b s).flips = s.flips ∧ (answer a b s).link = s.link ∧
    (answer a b s).adm = s.adm ∧ (answer a b s).time = s.time ∧ (answer a b s).xfer = s.xfer ∧
    (answer a b s).windows = s.windows ∧ (answer a b s).integ = s.integ ∧ (answer a b s).loop = s.loop ∧
    (answer a b s).dec = s.dec ∧ (answer a b s).rep = s.rep ∧ (answer a b s).fault = s.fault := by
  simpa [eraseBlocks] using answer_erase (l := [.path, .march]) (List.Subset.refl _) (a := a) (b := b) (s := s)

@[simp] theorem takeRequest_erase {l a b s} (h : [.path, .march, .integ] ⊆ l) :
    eraseBlocks l (takeRequest a b s) = eraseBlocks l s := by
  simp at h
  simp only [takeRequest]
  repeat' split
  all_goals simp [h]

@[simp] theorem takeRequest_frame {a b s} :
    (takeRequest a b s).pending = s.pending ∧ (takeRequest a b s).straps = s.straps ∧
    (takeRequest a b s).inReset = s.inReset ∧ (takeRequest a b s).oscillator = s.oscillator ∧
    (takeRequest a b s).now = s.now ∧ (takeRequest a b s).freeUses = s.freeUses ∧ (takeRequest a b s).dram = s.dram ∧
    (takeRequest a b s).flips = s.flips ∧ (takeRequest a b s).link = s.link ∧ (takeRequest a b s).adm = s.adm ∧
    (takeRequest a b s).time = s.time ∧ (takeRequest a b s).xfer = s.xfer ∧ (takeRequest a b s).windows = s.windows ∧
    (takeRequest a b s).loop = s.loop ∧ (takeRequest a b s).dec = s.dec ∧ (takeRequest a b s).rep = s.rep ∧
    (takeRequest a b s).fault = s.fault := by
  simpa [eraseBlocks] using takeRequest_erase (l := [.path, .march, .integ]) (List.Subset.refl _) (a := a) (b := b) (s := s)

@[simp] theorem observe_erase {l a b c s} (h : [.freeUses, .link, .adm, .time, .xfer, .windows, .path, .integ, .march, .loop, .rep, .fault, .dec] ⊆ l) :
    eraseBlocks l (observe a b c s).2 = eraseBlocks l s := by
  simp at h
  simp only [observe]
  repeat' split
  all_goals simp [h]

@[simp] theorem observe_frame {a b c s} :
    (observe a b c s).2.pending = s.pending ∧ (observe a b c s).2.straps = s.straps ∧
    (observe a b c s).2.inReset = s.inReset ∧ (observe a b c s).2.oscillator = s.oscillator ∧
    (observe a b c s).2.now = s.now ∧ (observe a b c s).2.dram = s.dram ∧ (observe a b c s).2.flips = s.flips := by
  simpa [eraseBlocks] using observe_erase (l := [.freeUses, .link, .adm, .time, .xfer, .windows, .path, .integ, .march, .loop, .rep, .fault, .dec]) (List.Subset.refl _) (a := a) (b := b) (c := c) (s := s)

@[simp] theorem setReq_erase {l a b c s} (h : [.path] ⊆ l) :
    eraseBlocks l (setReq a b c s) = eraseBlocks l s := by
  simp at h
  simp [setReq, h]

@[simp] theorem setReq_frame {a b c s} :
    (setReq a b c s).pending = s.pending ∧ (setReq a b c s).straps = s.straps ∧ (setReq a b c s).inReset = s.inReset ∧
    (setReq a b c s).oscillator = s.oscillator ∧ (setReq a b c s).now = s.now ∧ (setReq a b c s).freeUses = s.freeUses ∧
    (setReq a b c s).dram = s.dram ∧ (setReq a b c s).flips = s.flips ∧ (setReq a b c s).link = s.link ∧
    (setReq a b c s).adm = s.adm ∧ (setReq a b c s).time = s.time ∧ (setReq a b c s).xfer = s.xfer ∧
    (setReq a b c s).windows = s.windows ∧ (setReq a b c s).integ = s.integ ∧ (setReq a b c s).march = s.march ∧
    (setReq a b c s).loop = s.loop ∧ (setReq a b c s).dec = s.dec ∧ (setReq a b c s).rep = s.rep ∧
    (setReq a b c s).fault = s.fault := by
  simpa [eraseBlocks] using setReq_erase (l := [.path]) (List.Subset.refl _) (a := a) (b := b) (c := c) (s := s)

@[simp] theorem accept_erase {l a b c d e s} (h : [.path, .march] ⊆ l) :
    eraseBlocks l (accept a b c d e s) = eraseBlocks l s := by
  simp at h
  simp only [accept]
  repeat' split
  all_goals simp [h]

@[simp] theorem accept_frame {a b c d e s} :
    (accept a b c d e s).pending = s.pending ∧ (accept a b c d e s).straps = s.straps ∧
    (accept a b c d e s).inReset = s.inReset ∧ (accept a b c d e s).oscillator = s.oscillator ∧
    (accept a b c d e s).now = s.now ∧ (accept a b c d e s).freeUses = s.freeUses ∧ (accept a b c d e s).dram = s.dram ∧
    (accept a b c d e s).flips = s.flips ∧ (accept a b c d e s).link = s.link ∧ (accept a b c d e s).adm = s.adm ∧
    (accept a b c d e s).time = s.time ∧ (accept a b c d e s).xfer = s.xfer ∧ (accept a b c d e s).windows = s.windows ∧
    (accept a b c d e s).integ = s.integ ∧ (accept a b c d e s).loop = s.loop ∧ (accept a b c d e s).dec = s.dec ∧
    (accept a b c d e s).rep = s.rep ∧ (accept a b c d e s).fault = s.fault := by
  simpa [eraseBlocks] using accept_erase (l := [.path, .march]) (List.Subset.refl _) (a := a) (b := b) (c := c) (d := d) (e := e) (s := s)

@[simp] theorem failParity_erase {l a b c s} (h : [.path, .march, .fault, .rep] ⊆ l) :
    eraseBlocks l (failParity a b c s) = eraseBlocks l s := by
  simp at h
  simp [failParity, h]

@[simp] theorem failParity_frame {a b c s} :
    (failParity a b c s).pending = s.pending ∧ (failParity a b c s).straps = s.straps ∧
    (failParity a b c s).inReset = s.inReset ∧ (failParity a b c s).oscillator = s.oscillator ∧
    (failParity a b c s).now = s.now ∧ (failParity a b c s).freeUses = s.freeUses ∧ (failParity a b c s).dram = s.dram ∧
    (failParity a b c s).flips = s.flips ∧ (failParity a b c s).link = s.link ∧ (failParity a b c s).adm = s.adm ∧
    (failParity a b c s).time = s.time ∧ (failParity a b c s).xfer = s.xfer ∧ (failParity a b c s).windows = s.windows ∧
    (failParity a b c s).integ = s.integ ∧ (failParity a b c s).loop = s.loop ∧ (failParity a b c s).dec = s.dec := by
  simpa [eraseBlocks] using failParity_erase (l := [.path, .march, .fault, .rep]) (List.Subset.refl _) (a := a) (b := b) (c := c) (s := s)

@[simp] theorem deny_erase {l a b c d s} (h : [.path, .march, .fault, .rep, .freeUses] ⊆ l) :
    eraseBlocks l (deny a b c d s) = eraseBlocks l s := by
  simp at h
  rw [deny, answer_erase (by simp [h]), unordered_erase (by simp [h])] <;> simp [h]

@[simp] theorem deny_frame {a b c d s} :
    (deny a b c d s).pending = s.pending ∧ (deny a b c d s).straps = s.straps ∧ (deny a b c d s).inReset = s.inReset ∧
    (deny a b c d s).oscillator = s.oscillator ∧ (deny a b c d s).now = s.now ∧ (deny a b c d s).dram = s.dram ∧
    (deny a b c d s).flips = s.flips ∧ (deny a b c d s).link = s.link ∧ (deny a b c d s).adm = s.adm ∧
    (deny a b c d s).time = s.time ∧ (deny a b c d s).xfer = s.xfer ∧ (deny a b c d s).windows = s.windows ∧
    (deny a b c d s).integ = s.integ ∧ (deny a b c d s).loop = s.loop ∧ (deny a b c d s).dec = s.dec := by
  simpa [eraseBlocks] using deny_erase (l := [.path, .march, .fault, .rep, .freeUses]) (List.Subset.refl _) (a := a) (b := b) (c := c) (d := d) (s := s)

@[simp] theorem refuseFenced_erase {l a b c s} (h : [.path, .march] ⊆ l) :
    eraseBlocks l (refuseFenced a b c s) = eraseBlocks l s := by
  simp at h
  simp [refuseFenced, h]

@[simp] theorem refuseFenced_frame {a b c s} :
    (refuseFenced a b c s).pending = s.pending ∧ (refuseFenced a b c s).straps = s.straps ∧
    (refuseFenced a b c s).inReset = s.inReset ∧ (refuseFenced a b c s).oscillator = s.oscillator ∧
    (refuseFenced a b c s).now = s.now ∧ (refuseFenced a b c s).freeUses = s.freeUses ∧
    (refuseFenced a b c s).dram = s.dram ∧ (refuseFenced a b c s).flips = s.flips ∧
    (refuseFenced a b c s).link = s.link ∧ (refuseFenced a b c s).adm = s.adm ∧ (refuseFenced a b c s).time = s.time ∧
    (refuseFenced a b c s).xfer = s.xfer ∧ (refuseFenced a b c s).windows = s.windows ∧
    (refuseFenced a b c s).integ = s.integ ∧ (refuseFenced a b c s).loop = s.loop ∧ (refuseFenced a b c s).dec = s.dec ∧
    (refuseFenced a b c s).rep = s.rep ∧ (refuseFenced a b c s).fault = s.fault := by
  simpa [eraseBlocks] using refuseFenced_erase (l := [.path, .march]) (List.Subset.refl _) (a := a) (b := b) (c := c) (s := s)

@[simp] theorem classifyRequest_erase {l a b c s} (h : [.freeUses, .link, .adm, .time, .xfer, .windows, .path, .integ, .march, .loop, .rep, .fault, .dec] ⊆ l) :
    eraseBlocks l (classifyRequest a b c s) = eraseBlocks l s := by
  simp at h
  simp only [classifyRequest]
  repeat' split
  all_goals simp [h]

@[simp] theorem classifyRequest_frame {a b c s} :
    (classifyRequest a b c s).pending = s.pending ∧ (classifyRequest a b c s).straps = s.straps ∧
    (classifyRequest a b c s).inReset = s.inReset ∧ (classifyRequest a b c s).oscillator = s.oscillator ∧
    (classifyRequest a b c s).now = s.now ∧ (classifyRequest a b c s).dram = s.dram ∧
    (classifyRequest a b c s).flips = s.flips := by
  simpa [eraseBlocks] using classifyRequest_erase (l := [.freeUses, .link, .adm, .time, .xfer, .windows, .path, .integ, .march, .loop, .rep, .fault, .dec]) (List.Subset.refl _) (a := a) (b := b) (c := c) (s := s)

@[simp] theorem classifyWhen_erase {l a b s} (h : [.freeUses, .link, .adm, .time, .xfer, .windows, .path, .integ, .march, .loop, .rep, .fault, .dec] ⊆ l) :
    eraseBlocks l (classifyWhen a b s) = eraseBlocks l s := by
  simp at h
  simp only [classifyWhen]
  repeat' split
  all_goals simp [h]

@[simp] theorem classifyWhen_frame {a b s} :
    (classifyWhen a b s).pending = s.pending ∧ (classifyWhen a b s).straps = s.straps ∧
    (classifyWhen a b s).inReset = s.inReset ∧ (classifyWhen a b s).oscillator = s.oscillator ∧
    (classifyWhen a b s).now = s.now ∧ (classifyWhen a b s).dram = s.dram ∧ (classifyWhen a b s).flips = s.flips := by
  simpa [eraseBlocks] using classifyWhen_erase (l := [.freeUses, .link, .adm, .time, .xfer, .windows, .path, .integ, .march, .loop, .rep, .fault, .dec]) (List.Subset.refl _) (a := a) (b := b) (s := s)

@[simp] theorem returnResponse_erase {l a s} (h : [.path, .march, .integ] ⊆ l) :
    eraseBlocks l (returnResponse a s) = eraseBlocks l s := by
  simp at h
  simp only [returnResponse]
  repeat' split
  all_goals simp [h]

@[simp] theorem returnResponse_frame {a s} :
    (returnResponse a s).pending = s.pending ∧ (returnResponse a s).straps = s.straps ∧
    (returnResponse a s).inReset = s.inReset ∧ (returnResponse a s).oscillator = s.oscillator ∧
    (returnResponse a s).now = s.now ∧ (returnResponse a s).freeUses = s.freeUses ∧ (returnResponse a s).dram = s.dram ∧
    (returnResponse a s).flips = s.flips ∧ (returnResponse a s).link = s.link ∧ (returnResponse a s).adm = s.adm ∧
    (returnResponse a s).time = s.time ∧ (returnResponse a s).xfer = s.xfer ∧ (returnResponse a s).windows = s.windows ∧
    (returnResponse a s).loop = s.loop ∧ (returnResponse a s).dec = s.dec ∧ (returnResponse a s).rep = s.rep ∧
    (returnResponse a s).fault = s.fault := by
  simpa [eraseBlocks] using returnResponse_erase (l := [.path, .march, .integ]) (List.Subset.refl _) (a := a) (s := s)

@[simp] theorem fillArrival_erase {l  s} (h : [.path, .march] ⊆ l) :
    eraseBlocks l (fillArrival s) = eraseBlocks l s := by
  simp at h
  simp only [fillArrival]
  repeat' split
  all_goals simp [h]

@[simp] theorem fillArrival_frame {s : State} :
    (fillArrival s).pending = s.pending ∧ (fillArrival s).straps = s.straps ∧ (fillArrival s).inReset = s.inReset ∧
    (fillArrival s).oscillator = s.oscillator ∧ (fillArrival s).now = s.now ∧ (fillArrival s).freeUses = s.freeUses ∧
    (fillArrival s).dram = s.dram ∧ (fillArrival s).flips = s.flips ∧ (fillArrival s).link = s.link ∧
    (fillArrival s).adm = s.adm ∧ (fillArrival s).time = s.time ∧ (fillArrival s).xfer = s.xfer ∧
    (fillArrival s).windows = s.windows ∧ (fillArrival s).integ = s.integ ∧ (fillArrival s).loop = s.loop ∧
    (fillArrival s).dec = s.dec ∧ (fillArrival s).rep = s.rep ∧ (fillArrival s).fault = s.fault := by
  simpa [eraseBlocks] using fillArrival_erase (l := [.path, .march]) (List.Subset.refl _) (s := s)

@[simp] theorem arrive_erase {l a s} (h : [.path, .march] ⊆ l) :
    eraseBlocks l (arrive a s) = eraseBlocks l s := by
  simp at h
  simp only [arrive]
  repeat' split
  all_goals simp [h]

@[simp] theorem arrive_frame {a s} :
    (arrive a s).pending = s.pending ∧ (arrive a s).straps = s.straps ∧ (arrive a s).inReset = s.inReset ∧
    (arrive a s).oscillator = s.oscillator ∧ (arrive a s).now = s.now ∧ (arrive a s).freeUses = s.freeUses ∧
    (arrive a s).dram = s.dram ∧ (arrive a s).flips = s.flips ∧ (arrive a s).link = s.link ∧ (arrive a s).adm = s.adm ∧
    (arrive a s).time = s.time ∧ (arrive a s).xfer = s.xfer ∧ (arrive a s).windows = s.windows ∧
    (arrive a s).integ = s.integ ∧ (arrive a s).loop = s.loop ∧ (arrive a s).dec = s.dec ∧ (arrive a s).rep = s.rep ∧
    (arrive a s).fault = s.fault := by
  simpa [eraseBlocks] using arrive_erase (l := [.path, .march]) (List.Subset.refl _) (a := a) (s := s)

/-! ### Machine/MemoryPort.lean -/

@[simp] theorem popHead_erase {l  s} (h : [.path, .march] ⊆ l) :
    eraseBlocks l (popHead s) = eraseBlocks l s := by
  simp at h
  simp only [popHead]
  repeat' split
  all_goals simp [h]

@[simp] theorem popHead_frame {s : State} :
    (popHead s).pending = s.pending ∧ (popHead s).straps = s.straps ∧ (popHead s).inReset = s.inReset ∧
    (popHead s).oscillator = s.oscillator ∧ (popHead s).now = s.now ∧ (popHead s).freeUses = s.freeUses ∧
    (popHead s).dram = s.dram ∧ (popHead s).flips = s.flips ∧ (popHead s).link = s.link ∧ (popHead s).adm = s.adm ∧
    (popHead s).time = s.time ∧ (popHead s).xfer = s.xfer ∧ (popHead s).windows = s.windows ∧
    (popHead s).integ = s.integ ∧ (popHead s).loop = s.loop ∧ (popHead s).dec = s.dec ∧ (popHead s).rep = s.rep ∧
    (popHead s).fault = s.fault := by
  simpa [eraseBlocks] using popHead_erase (l := [.path, .march]) (List.Subset.refl _) (s := s)

@[simp] theorem popRead_erase {l a b s} (h : [.path, .march, .flips] ⊆ l) :
    eraseBlocks l (popRead a b s) = eraseBlocks l s := by
  simp at h
  simp [popRead, h]

@[simp] theorem popRead_frame {a b s} :
    (popRead a b s).pending = s.pending ∧ (popRead a b s).straps = s.straps ∧
    (popRead a b s).inReset = s.inReset ∧ (popRead a b s).oscillator = s.oscillator ∧
    (popRead a b s).now = s.now ∧ (popRead a b s).freeUses = s.freeUses ∧ (popRead a b s).dram = s.dram ∧
    (popRead a b s).link = s.link ∧ (popRead a b s).adm = s.adm ∧ (popRead a b s).time = s.time ∧
    (popRead a b s).xfer = s.xfer ∧ (popRead a b s).windows = s.windows ∧ (popRead a b s).integ = s.integ ∧
    (popRead a b s).loop = s.loop ∧ (popRead a b s).dec = s.dec ∧ (popRead a b s).rep = s.rep ∧
    (popRead a b s).fault = s.fault := by
  simpa [eraseBlocks] using popRead_erase (l := [.path, .march, .flips]) (List.Subset.refl _) (a := a) (b := b) (s := s)

/-- An access whose request is still there leaves the memory port, and nothing else happens. -/
theorem popHead_live {s : State} {a : Access} (h : portHead s = some a) (hl : a.live = true) :
    popHead s = s.updPath fun p => { p with memPort := p.memPort.drop 1 } := by
  simp [popHead, h, hl]

@[simp] theorem commit_erase {l a b s} (h : [.dram, .flips] ⊆ l) :
    eraseBlocks l (commit a b s) = eraseBlocks l s := by
  simp at h
  simp [commit, h]

@[simp] theorem commit_frame {a b s} :
    (commit a b s).pending = s.pending ∧ (commit a b s).straps = s.straps ∧ (commit a b s).inReset = s.inReset ∧
    (commit a b s).oscillator = s.oscillator ∧ (commit a b s).now = s.now ∧ (commit a b s).freeUses = s.freeUses ∧
    (commit a b s).link = s.link ∧ (commit a b s).adm = s.adm ∧ (commit a b s).time = s.time ∧
    (commit a b s).xfer = s.xfer ∧ (commit a b s).windows = s.windows ∧ (commit a b s).path = s.path ∧
    (commit a b s).integ = s.integ ∧ (commit a b s).march = s.march ∧ (commit a b s).loop = s.loop ∧
    (commit a b s).dec = s.dec ∧ (commit a b s).rep = s.rep ∧ (commit a b s).fault = s.fault := by
  simpa [eraseBlocks] using commit_erase (l := [.dram, .flips]) (List.Subset.refl _) (a := a) (b := b) (s := s)

@[simp] theorem finishInternal_erase {l a s} (h : [.path, .march] ⊆ l) :
    eraseBlocks l (finishInternal a s) = eraseBlocks l s := by
  simp at h
  simp [finishInternal, h]

@[simp] theorem finishInternal_frame {a s} :
    (finishInternal a s).pending = s.pending ∧ (finishInternal a s).straps = s.straps ∧
    (finishInternal a s).inReset = s.inReset ∧ (finishInternal a s).oscillator = s.oscillator ∧
    (finishInternal a s).now = s.now ∧ (finishInternal a s).freeUses = s.freeUses ∧ (finishInternal a s).dram = s.dram ∧
    (finishInternal a s).flips = s.flips ∧ (finishInternal a s).link = s.link ∧ (finishInternal a s).adm = s.adm ∧
    (finishInternal a s).time = s.time ∧ (finishInternal a s).xfer = s.xfer ∧ (finishInternal a s).windows = s.windows ∧
    (finishInternal a s).integ = s.integ ∧ (finishInternal a s).loop = s.loop ∧ (finishInternal a s).dec = s.dec ∧
    (finishInternal a s).rep = s.rep ∧ (finishInternal a s).fault = s.fault := by
  simpa [eraseBlocks] using finishInternal_erase (l := [.path, .march]) (List.Subset.refl _) (a := a) (s := s)

@[simp] theorem orphanOutcome_erase {l a b c s} (h : [.integ, .fault, .rep, .path, .freeUses] ⊆ l) :
    eraseBlocks l (orphanOutcome a b c s) = eraseBlocks l s := by
  simp at h
  simp only [orphanOutcome]
  repeat' split
  all_goals simp [h]

@[simp] theorem orphanOutcome_frame {a b c s} :
    (orphanOutcome a b c s).pending = s.pending ∧ (orphanOutcome a b c s).straps = s.straps ∧
    (orphanOutcome a b c s).inReset = s.inReset ∧ (orphanOutcome a b c s).oscillator = s.oscillator ∧
    (orphanOutcome a b c s).now = s.now ∧ (orphanOutcome a b c s).dram = s.dram ∧
    (orphanOutcome a b c s).flips = s.flips ∧ (orphanOutcome a b c s).link = s.link ∧
    (orphanOutcome a b c s).adm = s.adm ∧ (orphanOutcome a b c s).time = s.time ∧
    (orphanOutcome a b c s).xfer = s.xfer ∧ (orphanOutcome a b c s).windows = s.windows ∧
    (orphanOutcome a b c s).march = s.march ∧ (orphanOutcome a b c s).loop = s.loop ∧
    (orphanOutcome a b c s).dec = s.dec := by
  simpa [eraseBlocks] using orphanOutcome_erase (l := [.integ, .fault, .rep, .path, .freeUses]) (List.Subset.refl _) (a := a) (b := b) (c := c) (s := s)

@[simp] theorem orphanRead_erase {l a b c s} (h : [.integ, .fault, .rep, .path, .freeUses] ⊆ l) :
    eraseBlocks l (orphanRead a b c s) = eraseBlocks l s := by
  simp at h
  simp only [orphanRead]
  repeat' split
  all_goals simp [h]

@[simp] theorem orphanRead_frame {a b c s} :
    (orphanRead a b c s).pending = s.pending ∧ (orphanRead a b c s).straps = s.straps ∧
    (orphanRead a b c s).inReset = s.inReset ∧ (orphanRead a b c s).oscillator = s.oscillator ∧
    (orphanRead a b c s).now = s.now ∧ (orphanRead a b c s).dram = s.dram ∧ (orphanRead a b c s).flips = s.flips ∧
    (orphanRead a b c s).link = s.link ∧ (orphanRead a b c s).adm = s.adm ∧ (orphanRead a b c s).time = s.time ∧
    (orphanRead a b c s).xfer = s.xfer ∧ (orphanRead a b c s).windows = s.windows ∧
    (orphanRead a b c s).march = s.march ∧ (orphanRead a b c s).loop = s.loop ∧ (orphanRead a b c s).dec = s.dec := by
  simpa [eraseBlocks] using orphanRead_erase (l := [.integ, .fault, .rep, .path, .freeUses]) (List.Subset.refl _) (a := a) (b := b) (c := c) (s := s)

end Sys2Proof.Machine
end

