-- ==== Sys2Proof/Laws/Rows.lean ====
section
/-! SUPPORT. What a row's event is where the port's next request is of the row's sort: the classification of that
request, with the observation by the block that owns its line. -/

namespace Sys2Proof.Machine

/-- A row acts on a next request of its sort (R95). -/
theorem classifyWhen_next {s : State} {p : Port} {id : Nat} {r : LineRequest} {sort : Sighting → Bool}
    (h : Next s p id r) (hs : sort (sight s p r) = true) : classifyWhen sort p s = classifyRequest id p r s := by
  have h' : nextRequest s p = some (id, r) := h
  simp [classifyWhen, h', hs]

/-- What is sighted in a window's line is a write where it is more than plain (R96). -/
theorem sight_accepted {s : State} {p : Port} {r : LineRequest} {x : Sighting} (h : sight s p r = x)
    (hx : x ≠ .parity ∧ (∀ n, x ≠ .denied n) ∧ x ≠ .fenced ∧ x ≠ .plain) :
    ∃ i w, windowAt s (reqLine r) = some (i, w) ∧ reqIsWrite r = true ∧
      sightWrite p w (reqLine r) (reqMask r) (seen r) = x := by
  obtain ⟨h1, h2, h3, h4⟩ := hx
  simp only [sight] at h
  split at h
  · exact absurd h.symm h1
  · split at h
    · exact absurd h.symm (h2 _)
    · split at h
      · exact absurd h.symm h3
      · split at h
        · exact absurd h.symm h4
        · rename_i i w hw
          split at h
          · exact ⟨i, w, hw, ‹_›, h⟩
          · exact absurd h.symm h4

/-- A record's write is a full-line write of a marked record to the control window (R152). -/
theorem record_sight {p : Port} {w : Window} {line : Nat} {m : BitVec 64} {d : Line} {k a : Nat}
    (h : sightWrite p w line m d = .record k a) :
    isMarkedRecord m d = true ∧ maskFull m = true ∧ field d 1 1 = k ∧ field d 4 1 = a := by
  simp only [sightWrite] at h
  by_cases hc : w.kind = .control
  · rw [if_pos hc] at h
    split at h
    · simp at h
    · split at h
      · simp at h
      · split at h
        · simp at h
        · rename_i h1 h2
          simp only [Sighting.record.injEq] at h
          simp only [not_or, Bool.not_eq_false] at h1 h2
          exact ⟨h1, h2.1, h.1, h.2⟩
  · rw [if_neg hc] at h
    repeat' split at h
    all_goals simp at h

/-- A full mask is not empty. -/
theorem maskFull_not_empty {m : BitVec 64} (h : maskFull m = true) : maskEmpty m = false := by
  simp only [maskFull, beq_iff_eq] at h
  subst h
  decide

/-- A write with its whole mask goes on unanswered (R95). -/
theorem accept_full {id : Nat} {p : Port} {r : LineRequest} {win : Option (Nat × Window)}
    {stamp : Option TakenStamp} {s : State} (h : maskEmpty (reqMask r) = false) :
    accept id p r win stamp s = setReq id (.port p r win stamp) .forwarded s := by
  simp [accept, h]

/-- A record's row is the examination of the record, and its write goes on (R96, R153). -/
theorem record_row {s : State} {id : Nat} {r : LineRequest} {k a : Nat} {sort : Sighting → Bool}
    (h : RecordNext s id r k a) (hs : sort (.record k a) = true) :
    field (seen r) 1 1 = k ∧ field (seen r) 4 1 = a ∧
    classifyWhen sort .site s =
      setReq id (.port .site r (windowAt s (reqLine r)) none) .forwarded (examineFull (reqLine r) (seen r) s) := by
  obtain ⟨hn, hx⟩ := h
  obtain ⟨i, w, hw, hwr, hsw⟩ := sight_accepted hx (by simp)
  obtain ⟨hm, hf, hk, ha⟩ := record_sight hsw
  refine ⟨hk, ha, ?_⟩
  rw [classifyWhen_next hn (by rw [hx]; exact hs), classifyRequest, hx]
  simp only [hw]
  rw [accept_full (by simpa [observe] using maskFull_not_empty hf)]
  have hm' : isMarkedRecord (reqMask r) (observedData (reqMask r) (reqData r)) = true := hm
  simp [observe, examineRecord, hm', hf, seen]

/-- The row of an applied record whose kind is not REPORT: its effect, its count and its result (R153, R154). -/
theorem record_applied {s : State} {id : Nat} {r : LineRequest} {k a : Nat} {sort : Sighting → Bool} (x : State)
    (h : RecordNext s id r k a) (hs : sort (.record k a) = true) (hk : k ≠ 0x10)
    (he : field (seen r) 4 1 = a → examineKind k (seen r) s = (.applied, x)) :
    classifyWhen sort .site s = setReq id (.port .site r (windowAt s (reqLine r)) none) .forwarded
      (recordResult (timeNow s) (reqLine r) (seen r) .applied (countOutcome .applied x)) := by
  obtain ⟨h1, h2, h3⟩ := record_row h hs
  rw [h3]
  simp [examineFull, h1, he h2, hk]

/-- The row of a refused record: its count and its result, and nothing else (R153, R154). -/
theorem record_refused {s : State} {id : Nat} {r : LineRequest} {k a : Nat} {sort : Sighting → Bool} (o : RecordOutcome)
    (h : RecordNext s id r k a) (hs : sort (.record k a) = true) (ho : o ≠ .applied)
    (he : field (seen r) 4 1 = a → examineKind k (seen r) s = (o, s)) :
    classifyWhen sort .site s = setReq id (.port .site r (windowAt s (reqLine r)) none) .forwarded
      (recordResult (timeNow s) (reqLine r) (seen r) o (countOutcome o s)) := by
  obtain ⟨h1, h2, h3⟩ := record_row h hs
  rw [h3]
  simp [examineFull, h1, he h2, ho]

/-- A write that its owner observes (R96): the row's whole effect. -/
theorem observed_row {s : State} {p : Port} {id : Nat} {r : LineRequest} {x : Sighting} {i : Nat} {w : Window}
    {sort : Sighting → Bool} (hn : Next s p id r) (hx : sight s p r = x) (hw : windowAt s (reqLine r) = some (i, w))
    (hs : sort x = true) (ha : x ≠ .parity ∧ (∀ n, x ≠ .denied n) ∧ x ≠ .fenced) :
    classifyWhen sort p s = accept id p r (some (i, w)) (observe x w r s).1 (observe x w r s).2 := by
  rw [classifyWhen_next hn (by rw [hx]; exact hs), classifyRequest, hx]
  obtain ⟨h1, h2, h3⟩ := ha
  cases x <;> simp_all

end Sys2Proof.Machine
end

