-- ==== Sys2Proof/Laws/Values.lean ====
section
/-! SUPPORT. Reading back what was set for one class, port, queue or condition, and what the shared operations leave in
the fault unit and in a class. -/

namespace Sys2Proof.Machine

/-! ### One value of several -/

@[simp] theorem classGet_set_same {α : Type} (v : PerClass α) (c : Cls) (x : α) : classGet (classSet v c x) c = x := by
  cases c <;> rfl

@[simp] theorem classGet_set_other {α : Type} (v : PerClass α) {c d : Cls} (x : α) (h : d ≠ c) :
    classGet (classSet v c x) d = classGet v d := by
  cases c <;> cases d <;> first | rfl | exact absurd rfl h

theorem classGet_set {α : Type} (v : PerClass α) (c d : Cls) (x : α) :
    classGet (classSet v c x) d = if d = c then x else classGet v d := by
  split
  · subst d; simp
  · simp [*]

@[simp] theorem portGet_set_same {α : Type} (v : PerPort α) (p : Port) (x : α) : portGet (portSet v p x) p = x := by
  cases p <;> rfl

@[simp] theorem portGet_set_other {α : Type} (v : PerPort α) {p q : Port} (x : α) (h : q ≠ p) :
    portGet (portSet v p x) q = portGet v q := by
  cases p <;> cases q <;> first | rfl | exact absurd rfl h

@[simp] theorem queueGet_set_same {α : Type} (v : PerQueue α) (q : Queue) (x : α) :
    queueGet (queueSet v q x) q = x := by cases q <;> rfl

@[simp] theorem queueGet_set_other {α : Type} (v : PerQueue α) {p q : Queue} (x : α) (h : q ≠ p) :
    queueGet (queueSet v p x) q = queueGet v q := by
  cases p <;> cases q <;> first | rfl | exact absurd rfl h

@[simp] theorem condGet_set_same (u : FaultUnit) (c : Cond) (d : Condition) : condGet (condSet u c d) c = d := by
  cases c <;> rfl

@[simp] theorem condGet_set_other (u : FaultUnit) {c e : Cond} (d : Condition) (h : e ≠ c) :
    condGet (condSet u c d) e = condGet u e := by
  cases c <;> cases e <;> first | rfl | exact absurd rfl h

/-! ### Requests the manual leaves unordered (R156, R175) -/

/-- Two consequences of one event are taken in one order or in the other. -/
theorem unordered_pair {f g : State → State} {s : State} :
    unordered [f, g] s = g (f (s.setFreeUses (s.freeUses + 1))) ∨
      unordered [f, g] s = f (g (s.setFreeUses (s.freeUses + 1))) := by
  rcases Nat.mod_two_eq_zero_or_one (Config.order s.freeUses) with h | h
  · left; simp [unordered, permute, h, Nat.mod_one]
  · right; simp [unordered, permute, h, Nat.mod_one]

/-! ### Conditions (R166 to R168) -/

/-- The evaluation of the fault line leaves the conditions. -/
@[simp] theorem evalFaultLine_cond {c : Cond} {s : State} : condGet (evalFaultLine s).fault c = condGet s.fault c := by
  cases c <;> rfl

/-- A change of one condition, as the fault unit then holds it. -/
@[simp] theorem changeCondition_same {c : Cond} {d : Condition} {n : Nat} {s : State} :
    condGet (changeCondition c d n s).fault c = d := by simp [changeCondition]

/-- A change of one condition leaves the others. -/
@[simp] theorem changeCondition_other {c e : Cond} {d : Condition} {n : Nat} {s : State} (h : e ≠ c) :
    condGet (changeCondition c d n s).fault e = condGet s.fault e := by simp [changeCondition, h]

/-- A level condition is raw exactly where its source is present, outside the reset line (R165). -/
theorem setLevel_raw {c : Cond} {b : Bool} {s : State} (h : s.inReset = false) :
    (condGet (setLevel c b s).fault c).raw = b := by
  simp only [setLevel, h, Bool.false_or]
  split
  · rename_i hr
    simpa using hr
  · split
    · simp_all [becomePresent]
    · simp_all [becomeAbsent]

theorem setLevel_other {c e : Cond} {b : Bool} {s : State} (h : e ≠ c) :
    condGet (setLevel c b s).fault e = condGet s.fault e := by
  simp only [setLevel]
  repeat' split
  all_goals simp [h]

/-- An event of an event condition (R166). -/
theorem raiseCondition_same {c : Cond} {s : State} :
    (condGet (raiseCondition c s).fault c).raw = true ∧
    (condGet (raiseCondition c s).fault c).timer = some (s.now + retryLength (condGet s.fault c)) ∧
    (condGet (raiseCondition c s).fault c).occurrences = satInc (condGet s.fault c).occurrences := by
  simp [raiseCondition]

theorem raiseCondition_other {c e : Cond} {s : State} (h : e ≠ c) :
    condGet (raiseCondition c s).fault e = condGet s.fault e := by simp [raiseCondition, h]

/-! ### Classes -/

@[simp] theorem updCls_same {c : Cls} {f : ClassState → ClassState} {s : State} :
    clsAt (updCls c f s) c = f (clsAt s c) := by simp [clsAt, updCls]

@[simp] theorem updCls_other {c d : Cls} {f : ClassState → ClassState} {s : State} (h : d ≠ c) :
    clsAt (updCls c f s) d = clsAt s d := by simp [clsAt, updCls, h]

@[simp] theorem countCls_same {c : Cls} {f : ClassCounters → ClassCounters} {s : State} :
    clsAt (countCls c f s) c = { clsAt s c with counters := f (clsAt s c).counters } := by simp [countCls]

@[simp] theorem countCls_other {c d : Cls} {f : ClassCounters → ClassCounters} {s : State} (h : d ≠ c) :
    clsAt (countCls c f s) d = clsAt s d := by simp [countCls, h]

end Sys2Proof.Machine
end

