-- ==== Sys2Proof/Laws/Ports.lean ====
section
/-! SUPPORT. The requests the ports hold, as their numbers with their ports: what takes none and answers none leaves them
(`<operation>_portView`). -/

namespace Sys2Proof.Machine

/-- The requests of the ports, in the order taken, each as its number and its port. -/
def portView (p : Path) : List (Nat × Port) :=
  p.reqs.filterMap fun r => match r.job with
    | .port q _ _ _ => some (r.id, q)
    | _ => none

/-- A port's occupancy counts its requests (R90). -/
theorem occupancy_eq (s : State) (p : Port) :
    occupancy s p = ((portView s.path).filter fun x => x.2 == p).length := by
  simp only [occupancy, portQueue, portView]
  induction s.path.reqs with
  | nil => rfl
  | cons r rs ih =>
    rw [List.filter_cons, List.filterMap_cons]
    cases hj : r.job with
    | port q x w t =>
      by_cases hq : (q == p) = true
      · simp_all [isPortReq]
      · simp_all [isPortReq]
    | _ => simpa [isPortReq, hj] using ih

theorem foldl_portView {α : Type} {f : State → α → State} (acts : List α) (s : State)
    (h : ∀ t, ∀ x ∈ acts, portView (f t x).path = portView t.path) :
    portView (acts.foldl f s).path = portView s.path := foldl_keeps (fun t => portView t.path) acts s h

theorem unordered_portView {acts : List (State → State)} {s : State}
    (h : ∀ f ∈ acts, ∀ t, portView (f t).path = portView t.path) :
    portView (unordered acts s).path = portView s.path := by
  rw [unordered, foldl_portView]
  · rfl
  · intro t f hf
    exact h f (mem_permute.mp hf) t

/-- Dropping work of the internal requester leaves the ports' requests. -/
theorem dropReqs_portView {gone : Req → Bool} {s : State} (h : ∀ r, isAnyPortReq r = true → gone r = false) :
    portView (dropReqs gone s).path = portView s.path := by
  simp only [dropReqs, State.updMarch_path, State.updPath_path, portView]
  induction s.path.reqs with
  | nil => rfl
  | cons r rs ih =>
    rw [List.filter_cons, List.filterMap_cons]
    have hr := h r
    cases hj : r.job with
    | port q x w t => simp_all [isAnyPortReq]
    | _ => split <;> simp_all

@[simp] theorem setStage_portView {a b s} : portView (setStage a b s).path = portView s.path := by
  simp only [setStage, State.updPath_path, portView, List.filterMap_map]
  congr 1
  funext r
  by_cases h : r.id = a <;> simp [h]

theorem makeReq_portView {a b s} (h : ∀ p r w t, b ≠ .port p r w t) : portView (makeReq a b s).path = portView s.path := by
  simp only [makeReq, addReq, State.updPath_path, portView, List.filterMap_append]
  cases b with
  | port p r w t => exact absurd rfl (h p r w t)
  | _ => simp

/-- A port's request of a number is still held. -/
theorem mem_portView {p : Path} {id : Nat} {q : Port} :
    (id, q) ∈ portView p ↔ ∃ r ∈ p.reqs, r.id = id ∧ ∃ x w t, r.job = .port q x w t := by
  simp only [portView, List.mem_filterMap]
  constructor
  · rintro ⟨r, hr, h⟩
    refine ⟨r, hr, ?_⟩
    cases hj : r.job <;> simp_all
  · rintro ⟨r, hr, h1, x, w, t, h2⟩
    exact ⟨r, hr, by simp [h1, h2]⟩

@[simp] theorem makeReq_writeBack_portView {l s} : portView (makeReq l .writeBack s).path = portView s.path :=
  makeReq_portView (by simp)

@[simp] theorem makeReq_notice_portView {l c d s} : portView (makeReq l (.notice c d) s).path = portView s.path :=
  makeReq_portView (by simp)

@[simp] theorem makeReq_reportEntry_portView {l d s} : portView (makeReq l (.reportEntry d) s).path = portView s.path :=
  makeReq_portView (by simp)

@[simp] theorem makeReq_snapshotLine_portView {l c d s} : portView (makeReq l (.snapshotLine c d) s).path = portView s.path :=
  makeReq_portView (by simp)

@[simp] theorem makeReq_queryFrame_portView {l c d e f s} : portView (makeReq l (.queryFrame c d e f) s).path = portView s.path :=
  makeReq_portView (by simp)

@[simp] theorem makeReq_testLine_portView {l c d e f s} : portView (makeReq l (.testLine c d e f) s).path = portView s.path :=
  makeReq_portView (by simp)

@[simp] theorem makeReq_slotDescriptor_portView {l c d s} : portView (makeReq l (.slotDescriptor c d) s).path = portView s.path :=
  makeReq_portView (by simp)

@[simp] theorem makeReq_march_portView {l c s} : portView (makeReq l (.march c) s).path = portView s.path :=
  makeReq_portView (by simp)

@[simp] theorem makeReq_scrub_portView {l s} : portView (makeReq l .scrub s).path = portView s.path :=
  makeReq_portView (by simp)

@[simp] theorem makeReq_copyLine_portView {l s} : portView (makeReq l .copyLine s).path = portView s.path :=
  makeReq_portView (by simp)

@[simp] theorem makeReq_copyWrite_portView {l d s} : portView (makeReq l (.copyWrite d) s).path = portView s.path :=
  makeReq_portView (by simp)

@[simp] theorem reportAt_portView {a b c s} :
    portView (reportAt a b c s).path = portView s.path := by
  simp only [reportAt]
  repeat' split
  all_goals simp

@[simp] theorem report_portView {a b s} :
    portView (report a b s).path = portView s.path := by
  simp [report]

@[simp] theorem reportFault_portView {a b c s} :
    portView (reportFault a b c s).path = portView s.path := by
  simp only [reportFault]
  repeat' split
  all_goals simp

@[simp] theorem changeCondition_portView {a b c s} :
    portView (changeCondition a b c s).path = portView s.path := by
  simp [changeCondition]

@[simp] theorem setLevel_portView {a b s} :
    portView (setLevel a b s).path = portView s.path := by
  simp only [setLevel]
  repeat' split
  all_goals simp

@[simp] theorem raiseCondition_portView {a s} :
    portView (raiseCondition a s).path = portView s.path := by
  simp [raiseCondition]

@[simp] theorem afterTimeChange_portView {a b c d s} :
    portView (afterTimeChange a b c d s).path = portView s.path := by
  simp [afterTimeChange]

@[simp] theorem phaseStep_portView {a s} :
    portView (phaseStep a s).path = portView s.path := by
  simp [phaseStep]

@[simp] theorem setCounter_portView {a b s} :
    portView (setCounter a b s).path = portView s.path := by
  simp [setCounter]

@[simp] theorem reportLoopDone_portView {s : State} :
    portView (reportLoopDone s).path = portView s.path := by
  simp [reportLoopDone]

@[simp] theorem endLoop_portView {s : State} :
    portView (endLoop s).path = portView s.path := by
  simp only [endLoop]
  repeat' split
  all_goals simp

@[simp] theorem loopCheckEnd_portView {s : State} :
    portView (loopCheckEnd s).path = portView s.path := by
  simp only [loopCheckEnd]
  repeat' split
  all_goals simp

@[simp] theorem abortLoop_portView {a s} :
    portView (abortLoop a s).path = portView s.path := by
  simp only [abortLoop]
  repeat' split
  all_goals simp

@[simp] theorem loopDescriptorEvent_portView {a b c s} :
    portView (loopDescriptorEvent a b c s).path = portView s.path := by
  simp only [loopDescriptorEvent]
  repeat' split
  all_goals simp

@[simp] theorem loopReturn_portView {a b s} :
    portView (loopReturn a b s).path = portView s.path := by
  simp only [loopReturn]
  repeat' split
  all_goals simp

@[simp] theorem makeTestLines_portView {a b c d e n s} :
    portView (makeTestLines a b c d e n s).path = portView s.path := by
  induction n with
  | zero => rfl
  | succ n ih => simp [makeTestLines, ih]

@[simp] theorem generateFrame_portView {a b s} :
    portView (generateFrame a b s).path = portView s.path := by
  simp [generateFrame]

@[simp] theorem trySend_portView {s : State} :
    portView (trySend s).path = portView s.path := by
  simp only [trySend]
  repeat' split
  all_goals simp

@[simp] theorem sendExpiry_portView {s : State} :
    portView (sendExpiry s).path = portView s.path := by
  simp [sendExpiry]

@[simp] theorem moveTiming_portView {a b c s} :
    portView (moveTiming a b c s).path = portView s.path := by
  simp only [moveTiming]
  split
  · simp
  · rw [unordered_portView] <;> simp

@[simp] theorem enterHoldover_portView {a s} :
    portView (enterHoldover a s).path = portView s.path := by
  simp [enterHoldover]

@[simp] theorem enterFreerun_portView {a s} :
    portView (enterFreerun a s).path = portView s.path := by
  simp [enterFreerun]

@[simp] theorem loseTiming_portView {a s} :
    portView (loseTiming a s).path = portView s.path := by
  simp only [loseTiming]
  repeat' split
  all_goals simp

@[simp] theorem timingLinkDown_portView {s : State} :
    portView (timingLinkDown s).path = portView s.path := by
  simp [timingLinkDown]

@[simp] theorem blockExpiry_portView {s : State} :
    portView (blockExpiry s).path = portView s.path := by
  simp [blockExpiry]

@[simp] theorem timingPulse_portView {s : State} :
    portView (timingPulse s).path = portView s.path := by
  simp only [timingPulse]
  repeat' split
  all_goals simp

@[simp] theorem stepSelection_portView {a s} :
    portView (stepSelection a s).path = portView s.path := by
  simp [stepSelection]

@[simp] theorem acquireSelection_portView {a s} :
    portView (acquireSelection a s).path = portView s.path := by
  simp only [acquireSelection]
  repeat' split
  all_goals simp

@[simp] theorem trackSelection_portView {a s} :
    portView (trackSelection a s).path = portView s.path := by
  simp only [trackSelection]
  repeat' split
  all_goals simp

@[simp] theorem applySelection_portView {a s} :
    portView (applySelection a s).path = portView s.path := by
  simp only [applySelection]
  repeat' split
  all_goals simp

@[simp] theorem joinBlock_portView {a s} :
    portView (joinBlock a s).path = portView s.path := by
  simp only [joinBlock]
  repeat' split
  all_goals simp

@[simp] theorem acceptSample_portView {a s} :
    portView (acceptSample a s).path = portView s.path := by
  simp only [acceptSample]
  repeat' split
  all_goals simp

@[simp] theorem computeSample_portView {a b c d s} :
    portView (computeSample a b c d s).path = portView s.path := by
  simp only [computeSample]
  repeat' split
  all_goals simp

@[simp] theorem matchAnswer_portView {a b c s} :
    portView (matchAnswer a b c s).path = portView s.path := by
  simp only [matchAnswer]
  repeat' split
  all_goals simp

@[simp] theorem routeTiming_portView {a b s} :
    portView (routeTiming a b s).path = portView s.path := by
  simp only [routeTiming]
  repeat' split
  all_goals simp

@[simp] theorem sendQuery_portView {a b c s} :
    portView (sendQuery a b c s).path = portView s.path := by
  simp [sendQuery]

@[simp] theorem tryQuery_portView {s : State} :
    portView (tryQuery s).path = portView s.path := by
  simp only [tryQuery]
  repeat' split
  all_goals simp

@[simp] theorem queryExpiry_portView {s : State} :
    portView (queryExpiry s).path = portView s.path := by
  simp [queryExpiry]

@[simp] theorem queryCompletion_portView {a b c d s} :
    portView (queryCompletion a b c d s).path = portView s.path := by
  simp only [queryCompletion]
  repeat' split
  all_goals simp

@[simp] theorem slotCompleted_portView {a b c d s} :
    portView (slotCompleted a b c d s).path = portView s.path := by
  simp only [slotCompleted]
  repeat' split
  all_goals simp

@[simp] theorem slotLost_portView {a s} :
    portView (slotLost a s).path = portView s.path := by
  simp only [slotLost]
  repeat' split
  all_goals simp

@[simp] theorem slotRejected_portView {a b s} :
    portView (slotRejected a b s).path = portView s.path := by
  simp only [slotRejected]
  repeat' split
  all_goals simp

@[simp] theorem resetSlots_portView {s : State} :
    portView (resetSlots s).path = portView s.path := by
  simp only [resetSlots, State.updXfer_path, State.updPath_path]
  change portView (dropReqs _ s).path = _
  rw [dropReqs_portView]
  intro r hr
  cases r with
  | mk i l st j => cases j <;> simp_all [isAnyPortReq]

@[simp] theorem reportTrail_portView {a b s} :
    portView (reportTrail a b s).path = portView s.path := by
  induction b generalizing a s with
  | nil => rfl
  | cons x xs ih => cases x <;> simp [reportTrail, ih]

@[simp] theorem linkTaken_portView {a b s} :
    portView (linkTaken a b s).path = portView s.path := by
  simp only [linkTaken]
  have hn : ∀ w, ∀ f ∈ linkNews w, ∀ t, portView (f t).path = portView t.path := by
    intro w f hf t
    simp only [linkNews, List.mem_append, List.mem_cons, List.not_mem_nil, or_false] at hf
    rcases hf with hf | rfl | rfl
    · split at hf
      · simp at hf; rcases hf with rfl | rfl <;> simp
      · simp at hf
    · simp
    · simp
  repeat' split
  all_goals first
    | rw [unordered_portView (hn _)]; simp
    | simp

@[simp] theorem applyProfile_portView {a s} :
    portView (applyProfile a s).path = portView s.path := by
  simp [applyProfile]

@[simp] theorem applyLink_portView {a s} :
    portView (applyLink a s).path = portView s.path := by
  simp [applyLink]

@[simp] theorem writeNotice_portView {a s} :
    portView (writeNotice a s).path = portView s.path := by
  have hg : ∀ r, isAnyPortReq r = true → isWaitingNotice a r = false := by
    intro r hr
    cases r with
    | mk i l st j => cases j <;> simp_all [isAnyPortReq, isWaitingNotice]
  simp only [writeNotice]
  repeat' split
  all_goals simp [dropReqs_portView hg]

@[simp] theorem evalCongestion_portView {a s} :
    portView (evalCongestion a s).path = portView s.path := by
  simp only [evalCongestion]
  repeat' split
  all_goals simp

@[simp] theorem setHeld_portView {a b s} :
    portView (setHeld a b s).path = portView s.path := by
  simp [setHeld]

@[simp] theorem unlistFrom_portView {a b s} :
    portView (unlistFrom a b s).path = portView s.path := by
  simp only [unlistFrom]
  repeat' split
  all_goals simp

@[simp] theorem unlist_portView {a s} :
    portView (unlist a s).path = portView s.path := by
  rw [unlist, foldl_portView]; intro t c _; simp

@[simp] theorem ageExpiry_portView {a s} :
    portView (ageExpiry a s).path = portView s.path := by
  simp [ageExpiry]

@[simp] theorem refillExpiry_portView {s : State} :
    portView (refillExpiry s).path = portView s.path := by
  rw [refillExpiry, foldl_portView]
  · simp
  · intro t c _; simp

@[simp] theorem queueWriteBack_portView {a s} :
    portView (queueWriteBack a s).path = portView s.path := by
  simp only [queueWriteBack]
  repeat' split
  all_goals simp

@[simp] theorem reject_portView {a b c d e s} :
    portView (reject a b c d e s).path = portView s.path := by
  simp only [reject]
  repeat' split
  all_goals simp

@[simp] theorem hold_portView {a b c s} :
    portView (hold a b c s).path = portView s.path := by
  simp only [hold]
  repeat' split
  all_goals simp

@[simp] theorem admit_portView {a b c s} :
    portView (admitDescriptor a b c s).path = portView s.path := by
  simp [admitDescriptor]

@[simp] theorem judge_portView {a b c d s} :
    portView (judge a b c d s).2.path = portView s.path := by
  simp only [judge]
  repeat' split
  all_goals simp

@[simp] theorem txCompletion_portView {a b c s} :
    portView (txCompletion a b c s).2.path = portView s.path := by
  simp only [txCompletion]
  repeat' split
  all_goals simp

@[simp] theorem flightExpiry_portView {a s} :
    portView (flightExpiry a s).path = portView s.path := by
  simp [flightExpiry]

@[simp] theorem overwrite_portView {a b c s} :
    portView (overwrite a b c s).path = portView s.path := by
  simp only [overwrite]
  repeat' split
  all_goals simp

@[simp] theorem rxCompletion_portView {a s} :
    portView (rxCompletion a s).2.path = portView s.path := by
  simp only [rxCompletion]
  repeat' split
  all_goals simp

@[simp] theorem applyClass_portView {a s} :
    portView (applyClass a s).path = portView s.path := by
  simp [applyClass]

@[simp] theorem disableClass_portView {a s} :
    portView (disableClass a s).path = portView s.path := by
  simp only [disableClass]
  repeat' split
  all_goals simp

@[simp] theorem admitClass_portView {a b s} :
    portView (admitClass a b s).path = portView s.path := by
  simp only [admitClass]
  repeat' split
  all_goals simp

@[simp] theorem applyAdmit_portView {a s} :
    portView (applyAdmit a s).path = portView s.path := by
  simp only [applyAdmit]
  have hf : portView (allClasses.foldl (fun t c => admitClass a c t) s).path = portView s.path := by
    rw [foldl_portView]; intro t c _; simp
  split <;> simp [hf]

@[simp] theorem beginWait_portView {a b s} :
    portView (beginWait a b s).path = portView s.path := by
  simp only [beginWait]
  split
  · rfl
  · exact setStage_portView

@[simp] theorem endWait_portView {a b s} :
    portView (endWait a b s).path = portView s.path := by
  exact setStage_portView

@[simp] theorem takeStation_portView {a s} :
    portView (takeStation a s).path = portView s.path := by
  simp only [takeStation]
  repeat' split
  all_goals first
    | exact beginWait_portView
    | exact endWait_portView

@[simp] theorem retake_portView {a b c s} :
    portView (retake a b c s).path = portView s.path := by
  simp only [retake]
  repeat' split
  all_goals simp

@[simp] theorem releaseLock_portView {a s} :
    portView (releaseLock a s).path = portView s.path := by
  simp only [releaseLock]
  rw [foldl_portView, foldl_portView]
  · rfl
  · intro t i _; simp
  · intro t i _; simp

@[simp] theorem remapExhausted_portView {a b s} :
    portView (remapExhausted a b s).path = portView s.path := by
  rw [remapExhausted, unordered_portView] <;> simp

@[simp] theorem copyPump_portView {s : State} :
    portView (copyPump s).path = portView s.path := by
  simp only [copyPump]
  repeat' split
  all_goals simp

@[simp] theorem remapRequest_portView {a b s} :
    portView (remapRequest a b s).path = portView s.path := by
  simp only [remapRequest]
  repeat' split
  all_goals simp

@[simp] theorem suspectReached_portView {a s} :
    portView (suspectReached a s).path = portView s.path := by
  simp only [suspectReached]
  repeat' split
  all_goals simp

@[simp] theorem suspectCount_portView {a s} :
    portView (suspectCount a s).path = portView s.path := by
  simp only [suspectCount]
  repeat' split
  all_goals simp

@[simp] theorem corrected_portView {a b c s} :
    portView (corrected a b c s).path = portView s.path := by
  simp [corrected]

@[simp] theorem uncorrectableNews_portView {a b c d s} :
    portView (uncorrectableNews a b c d s).path = portView s.path := by
  rw [uncorrectableNews, unordered_portView]
  simp

@[simp] theorem uncorrectable_portView {a b c s} :
    portView (uncorrectable a b c s).path = portView s.path := by
  simp only [uncorrectable]
  repeat' split
  all_goals simp

@[simp] theorem takeOutcome_portView {a b c d s} :
    portView (takeOutcome a b c d s).path = portView s.path := by
  simp only [takeOutcome]
  repeat' split
  all_goals simp

@[simp] theorem scrubLoop_portView {n s} :
    portView (scrubLoop n s).path = portView s.path := by
  induction n generalizing s with
  | zero => rfl
  | succ n ih =>
    simp only [scrubLoop]
    split <;> simp [ih]

@[simp] theorem scrubPump_portView {s : State} :
    portView (scrubPump s).path = portView s.path := by
  simp only [scrubPump]
  repeat' split
  all_goals simp

@[simp] theorem scrubExpiry_portView {s : State} :
    portView (scrubExpiry s).path = portView s.path := by
  simp [scrubExpiry]

@[simp] theorem applyRemap_portView {a s} :
    portView (applyRemap a s).path = portView s.path := by
  simp [applyRemap]

@[simp] theorem marchPump_portView {s : State} :
    portView (marchPump s).path = portView s.path := by
  simp only [marchPump]
  repeat' split
  all_goals simp

@[simp] theorem setManual_portView {a s} :
    portView (setManual a s).path = portView s.path := by
  simp [setManual]

@[simp] theorem loadChanged_portView {a s} :
    portView (loadChanged a s).path = portView s.path := by
  simp [loadChanged]

@[simp] theorem endMarch_portView {s : State} :
    portView (endMarch s).path = portView s.path := by
  have hf : ∀ t : State, portView (s.march.failing.foldl (fun t page => remapRequest page .fill t) t).path
      = portView t.path := by
    intro t
    rw [foldl_portView]; intro t p _; simp
  simp only [endMarch]
  repeat' split
  all_goals simp [hf]

@[simp] theorem withdrawMarch_portView {s : State} :
    portView (withdrawMarch s).path = portView s.path := by
  simp only [withdrawMarch, State.updPath_path]
  change portView (dropReqs _ s).path = _
  rw [dropReqs_portView]
  intro r hr
  cases r with
  | mk i l st j => cases j <;> simp_all [isAnyPortReq, stationOf]

@[simp] theorem applyMemtestStop_portView {s : State} :
    portView (applyMemtestStop s).path = portView s.path := by
  simp [applyMemtestStop]

@[simp] theorem applyMemtestStart_portView {a s} :
    portView (applyMemtestStart a s).path = portView s.path := by
  simp [applyMemtestStart]

@[simp] theorem makeSnapshotLines_portView {a b c d e s} :
    portView (makeSnapshotLines a b c d e s).path = portView s.path := by
  induction e generalizing s with
  | nil => rfl
  | cons x xs ih => simp [makeSnapshotLines, ih]

@[simp] theorem startSnapshot_portView {a s} :
    portView (startSnapshot a s).path = portView s.path := by
  simp only [startSnapshot]
  repeat' split
  all_goals simp

@[simp] theorem snapshotRequest_portView {s : State} :
    portView (snapshotRequest s).path = portView s.path := by
  simp only [snapshotRequest]
  repeat' split
  all_goals simp

@[simp] theorem snapshotDone_portView {s : State} :
    portView (snapshotDone s).path = portView s.path := by
  simp only [snapshotDone]
  repeat' split
  all_goals simp

@[simp] theorem evalLoad_portView {s : State} :
    portView (evalLoad s).path = portView s.path := by
  simp only [evalLoad]
  split
  · rfl
  · rw [loadChanged_portView]; rfl

@[simp] theorem issue_portView {a s} :
    portView (issue a s).path = portView s.path := by
  simp only [issue]
  repeat' split
  all_goals first
    | rfl
    | exact setStage_portView

@[simp] theorem grantTo_portView {a b c s} :
    portView (grantTo a b c s).path = portView s.path := by
  simp only [grantTo, issue_portView]; rfl

@[simp] theorem grantNext_portView {s : State} :
    portView (grantNext s).path = portView s.path := by
  simp only [grantNext]
  repeat' split
  all_goals simp

@[simp] theorem grant_portView {s : State} :
    portView (grant s).path = portView s.path := by
  simp only [grant]
  repeat' split
  all_goals simp

@[simp] theorem applyPorts_portView {a s} :
    portView (applyPorts a s).path = portView s.path := by
  simp only [applyPorts, evalLoad_portView]; rfl

@[simp] theorem clearPorts_portView {s : State} :
    portView (clearPorts s).path = portView s.path := by
  rfl

@[simp] theorem applyWindow_portView {a s} :
    portView (applyWindow a s).path = portView s.path := by
  simp only [applyWindow]
  repeat' split
  all_goals simp

@[simp] theorem applyTimeset_portView {a s} :
    portView (applyTimeset a s).path = portView s.path := by
  simp [applyTimeset]

@[simp] theorem changeConditions_portView {a b s} :
    portView (changeConditions a b s).path = portView s.path := by
  simp only [changeConditions]
  rw [foldl_portView]
  · simp
  · intro t c _; simp

@[simp] theorem applyFault_portView {a s} :
    portView (applyFault a s).path = portView s.path := by
  simp [applyFault]

@[simp] theorem whenBit_portView {a b f s} (h : ∀ t, portView (f t).path = portView t.path) :
    portView (whenBit a b f s).path = portView s.path := by
  simp only [whenBit]
  split <;> simp [h]

@[simp] theorem applyClear_portView {a s} :
    portView (applyClear a s).path = portView s.path := by
  simp [applyClear]

@[simp] theorem checked_portView {a f s} (h : ∀ t, portView (f t).path = portView t.path) :
    portView (checked a f s).2.path = portView s.path := by
  simp only [checked]
  split <;> simp [h]

@[simp] theorem examineRemap_portView {a s} :
    portView (examineRemap a s).2.path = portView s.path := by
  simp only [examineRemap]
  repeat' split
  all_goals simp

@[simp] theorem examineMemtest_portView {a s} :
    portView (examineMemtest a s).2.path = portView s.path := by
  simp only [examineMemtest]
  repeat' split
  all_goals simp

@[simp] theorem examineLooptest_portView {a s} :
    portView (examineLooptest a s).2.path = portView s.path := by
  simp only [examineLooptest]
  repeat' split
  all_goals simp

@[simp] theorem examineKind_portView {a b s} :
    portView (examineKind a b s).2.path = portView s.path := by
  simp only [examineKind]
  repeat' split
  all_goals simp

@[simp] theorem recordResult_portView {a b c d s} :
    portView (recordResult a b c d s).path = portView s.path := by
  simp [recordResult]

@[simp] theorem examineFull_portView {a b s} :
    portView (examineFull a b s).path = portView s.path := by
  simp only [examineFull]
  repeat' split
  all_goals simp

@[simp] theorem examineRecord_portView {a b c s} :
    portView (examineRecord a b c s).path = portView s.path := by
  simp only [examineRecord]
  repeat' split
  all_goals simp

@[simp] theorem countPort_portView {a b s} :
    portView (countPort a b s).path = portView s.path := by
  rfl

@[simp] theorem answer_portView {a b s} :
    portView (answer a b s).path = portView s.path := by
  simp only [answer, marchPump_portView, leaveDrain_frame, setStage_portView]

@[simp] theorem observe_portView {a b c s} :
    portView (observe a b c s).2.path = portView s.path := by
  simp only [observe]
  repeat' split
  all_goals simp

end Sys2Proof.Machine
end

