-- ==== Sys2Proof/Laws/Classes.lean ====
section
/-! SUPPORT. The classes under the admission unit's shared operations: an evaluation of congestion changes the state and
the notice sequence of its class alone (R35, R36), a change of held list changes that list and the age timer, and a line
that leaves the lists leaves every list that holds it. -/

namespace Sys2Proof.Machine

/-- A class with its congestion state and its notice sequence left out. -/
def settled (k : ClassState) : ClassState := { k with congested := false, noticeSeq := 0 }

theorem settled_fields {j k : ClassState} (h : settled j = settled k) :
    j.enabled = k.enabled ∧ j.credit = k.credit ∧ j.held = k.held ∧ j.ageTimer = k.ageTimer ∧ j.burst = k.burst ∧
      j.weight = k.weight ∧ j.share = k.share ∧ j.recoveryShare = k.recoveryShare ∧ j.counters = k.counters ∧
      j.needsTiming = k.needsTiming ∧ j.highMark = k.highMark ∧ j.lowMark = k.lowMark ∧
      j.maxHoldAge = k.maxHoldAge := by
  simp only [settled, ClassState.mk.injEq] at h
  simp_all

/-- An operation that leaves the admission unit leaves its classes. -/
theorem clsAt_of_adm {s t : State} {c : Cls} (h : t.adm = s.adm) : clsAt t c = clsAt s c := by simp [clsAt, h]

/-- A change of a level condition leaves the classes. -/
theorem clsAt_setLevel {k : Cond} {b : Bool} {s : State} {c : Cls} : clsAt (setLevel k b s) c = clsAt s c :=
  clsAt_of_adm (by simp)

/-- A class read out of an admission unit whose classes are those of a state. -/
theorem clsAt_of_classes {s t : State} {c : Cls} (h : t.adm.classes = s.adm.classes) : clsAt t c = clsAt s c := by
  simp [clsAt, h]

theorem writeNotice_classes {c : Cls} {s : State} :
    (writeNotice c s).adm.classes =
      (updCls c (fun k => { k with noticeSeq := k.noticeSeq + 1 }) s).adm.classes := by
  simp only [writeNotice]
  repeat' split
  all_goals simp

theorem writeNotice_flight {c : Cls} {s : State} :
    (writeNotice c s).adm.flight = s.adm.flight ∧ (writeNotice c s).adm.refillTimer = s.adm.refillTimer ∧
      (writeNotice c s).adm.flightTimeout = s.adm.flightTimeout := by
  simp only [writeNotice]
  repeat' split
  all_goals simp [updCls]

/-- An evaluation of congestion, as the classes see it (R35, R36). -/
theorem evalCongestion_settled {c x : Cls} {s : State} :
    settled (clsAt (evalCongestion c s) x) = settled (clsAt s x) := by
  simp only [evalCongestion]
  split
  · rfl
  · rw [clsAt_setLevel, clsAt_of_classes writeNotice_classes]
    by_cases h : x = c
    · subst h; simp [settled]
    · simp [h]

/-- The class that is evaluated has the state the evaluation gives (R35). -/
theorem evalCongestion_congested {c : Cls} {s : State} :
    (clsAt (evalCongestion c s) c).congested = congestedNext (clsAt s c) (plannedOverhead s.link) s.now := by
  simp only [evalCongestion]
  split
  · exact Eq.symm ‹_›
  · rw [clsAt_setLevel, clsAt_of_classes writeNotice_classes]
    simp

theorem evalCongestion_flight {c : Cls} {s : State} :
    (evalCongestion c s).adm.flight = s.adm.flight ∧ (evalCongestion c s).adm.refillTimer = s.adm.refillTimer ∧
      (evalCongestion c s).adm.flightTimeout = s.adm.flightTimeout := by
  simp only [evalCongestion]
  split
  · simp
  · simp only [setLevel_frame]
    obtain ⟨h1, h2, h3⟩ := writeNotice_flight (c := c)
      (s := updCls c (fun k => { k with congested := congestedNext (clsAt s c) (plannedOverhead s.link) s.now }) s)
    rw [h1, h2, h3]
    simp [updCls]

/-- A change of a held list (R34): the list is the new one, and no other class changes. -/
theorem setHeld_held {c x : Cls} {l : List HeldEntry} {s : State} :
    (clsAt (setHeld c l s) x).held = if x = c then l else (clsAt s x).held := by
  rw [setHeld, (settled_fields evalCongestion_settled).2.2.1]
  by_cases h : x = c
  · subst h; simp only [updCls_same, if_true]; split <;> rfl
  · simp [h]

/-- What a change of a held list leaves of a class. -/
theorem setHeld_rest {c x : Cls} {l : List HeldEntry} {s : State} :
    (clsAt (setHeld c l s) x).enabled = (clsAt s x).enabled ∧ (clsAt (setHeld c l s) x).credit = (clsAt s x).credit ∧
      (clsAt (setHeld c l s) x).burst = (clsAt s x).burst ∧
      (clsAt (setHeld c l s) x).counters = (clsAt s x).counters := by
  rw [setHeld]
  obtain ⟨h1, h2, -, -, h5, -, -, -, h9, -⟩ := settled_fields (evalCongestion_settled (c := c) (x := x) (s := updCls c
    (fun k => if k.held.head?.map (·.line) = l.head?.map (·.line) then { k with held := l }
      else { { k with held := l } with ageTimer := ageTimerOf { k with held := l } s.now }) s))
  rw [h1, h2, h5, h9]
  by_cases h : x = c
  · subst h; simp only [updCls_same]; split <;> simp
  · simp [h]

theorem setHeld_flight {c : Cls} {l : List HeldEntry} {s : State} :
    (setHeld c l s).adm.flight = s.adm.flight ∧ (setHeld c l s).adm.refillTimer = s.adm.refillTimer := by
  rw [setHeld]
  obtain ⟨h1, h2, -⟩ := evalCongestion_flight (c := c) (s := updCls c
    (fun k => if k.held.head?.map (·.line) = l.head?.map (·.line) then { k with held := l }
      else { { k with held := l } with ageTimer := ageTimerOf { k with held := l } s.now }) s)
  rw [h1, h2]
  simp [updCls]

/-- A line that leaves one class's list. -/
theorem unlistFrom_held {c x : Cls} {line : Nat} {s : State} :
    (clsAt (unlistFrom c line s) x).held =
      if x = c then (clsAt s x).held.filter (fun h => h.line != line) else (clsAt s x).held := by
  simp only [unlistFrom]
  split
  · rw [setHeld_held]; split <;> simp_all
  · rename_i h
    split
    · rename_i hx
      subst hx
      simp only [listed, List.any_eq_true, not_exists, not_and, beq_iff_eq] at h
      rw [List.filter_eq_self.mpr]
      intro e he
      simpa using h e he
    · rfl

theorem unlistFrom_rest {c x : Cls} {line : Nat} {s : State} :
    (clsAt (unlistFrom c line s) x).enabled = (clsAt s x).enabled ∧
      (clsAt (unlistFrom c line s) x).credit = (clsAt s x).credit ∧
      (clsAt (unlistFrom c line s) x).burst = (clsAt s x).burst ∧
      (clsAt (unlistFrom c line s) x).counters = (clsAt s x).counters ∧
      (unlistFrom c line s).adm.flight = s.adm.flight := by
  simp only [unlistFrom]
  split
  · obtain ⟨h1, h2, h3, h4⟩ := setHeld_rest (c := c) (x := x) (s := s)
      (l := (clsAt s c).held.filter fun h => h.line != line)
    exact ⟨h1, h2, h3, h4, setHeld_flight.1⟩
  · simp

/-- A line that leaves whatever list it is on leaves every list (R22, R31, R33). -/
theorem unlist_held {x : Cls} {line : Nat} {s : State} :
    (clsAt (unlist line s) x).held = (clsAt s x).held.filter fun h => h.line != line := by
  simp only [unlist, allClasses, List.foldl_cons, List.foldl_nil, unlistFrom_held]
  cases x <;> simp

theorem unlist_rest {x : Cls} {line : Nat} {s : State} :
    (clsAt (unlist line s) x).enabled = (clsAt s x).enabled ∧ (clsAt (unlist line s) x).credit = (clsAt s x).credit ∧
      (clsAt (unlist line s) x).burst = (clsAt s x).burst ∧
      (clsAt (unlist line s) x).counters = (clsAt s x).counters ∧ (unlist line s).adm.flight = s.adm.flight := by
  simp only [unlist, allClasses, List.foldl_cons, List.foldl_nil]
  refine ⟨?_, ?_, ?_, ?_, ?_⟩
  · iterate 5 rw [unlistFrom_rest.1]
  · iterate 5 rw [unlistFrom_rest.2.1]
  · iterate 5 rw [unlistFrom_rest.2.2.1]
  · iterate 5 rw [unlistFrom_rest.2.2.2.1]
  · iterate 5 rw [(unlistFrom_rest (x := .s)).2.2.2.2]

end Sys2Proof.Machine
end

