-- ==== Sys2Proof/Laws/Clock.lean ====
section
/-! SUPPORT. The ranges of the time counter, of F, of S, of the F history and of the sample block (`clockLaw`) under
each shared operation of the time unit and the time transfer engine. -/

namespace Sys2Proof.Machine

/-- A mean of values within a bound, rounded half away from zero, stays within it. -/
theorem roundHalfAway_le {x b : Int} {n : Nat} (hn : 0 < n) (h1 : -(b * n) ≤ x) (h2 : x ≤ b * n) :
    -b ≤ roundHalfAway x n ∧ roundHalfAway x n ≤ b := by
  have hn' : (0 : Int) < 2 * (n : Int) := by omega
  unfold roundHalfAway
  split
  · refine ⟨?_, ?_⟩
    · rw [Int.le_ediv_iff_mul_le hn']; nlinarith
    · apply Int.le_of_lt_add_one
      rw [Int.ediv_lt_iff_lt_mul hn']; nlinarith
  · refine ⟨?_, ?_⟩
    · apply Int.neg_le_neg
      apply Int.le_of_lt_add_one
      rw [Int.ediv_lt_iff_lt_mul hn']; nlinarith
    · have : 0 ≤ (2 * -x + ↑n) / (2 * ↑n) := Int.ediv_nonneg (by omega) (by omega)
      nlinarith

theorem foldl_add_eq (l : List Int) (a : Int) : l.foldl (fun a b => a + b) a = a + l.sum := by
  induction l generalizing a with
  | nil => simp
  | cons x xs ih => simp [ih]; ring

theorem sum_bounds {l : List Int} {b : Int} (h : ∀ f ∈ l, -b ≤ f ∧ f ≤ b) :
    -(b * l.length) ≤ l.sum ∧ l.sum ≤ b * l.length := by
  induction l with
  | nil => simp
  | cons x xs ih =>
    have hx := h x (List.mem_cons_self ..)
    have hs := ih fun f hf => h f (List.mem_cons_of_mem _ hf)
    simp only [List.sum_cons, List.length_cons, Nat.cast_add, Nat.cast_one, mul_add, mul_one]
    omega

/-- The F of an entry into HOLDOVER stays within the bounds of the history and of F (R46, R83). -/
theorem holdoverFreq_bounds {h : List Int} {f : Int} (hh : ∀ g ∈ h, -800000 ≤ g ∧ g ≤ 800000)
    (hf : -800000 ≤ f ∧ f ≤ 800000) : -800000 ≤ holdoverFreq h f ∧ holdoverFreq h f ≤ 800000 := by
  unfold holdoverFreq
  split
  · exact hf
  · rename_i hne
    have hs := sum_bounds hh
    rw [foldl_add_eq, zero_add]
    exact roundHalfAway_le (List.length_pos_of_ne_nil hne) hs.1 hs.2

/-- The increment for an F within ±800,000 lies below one second, and is positive (R45, R46). -/
theorem increment_bounds {f : Int} (h : -800000 ≤ f ∧ f ≤ 800000) :
    0 < increment f ∧ increment f < 4294967296 * 1000000000 := by
  have hb := roundHalfAway_le (x := f * 67108864) (b := 5368710) (n := 10000000) (by norm_num)
    (by push_cast; omega) (by push_cast; omega)
  unfold increment
  omega

/-- The fields the law reads. -/
theorem clockLaw_congr {s t : State} (hn : t.time.nanoseconds = s.time.nanoseconds)
    (hs : t.time.seconds = s.time.seconds) (hf : t.time.fraction = s.time.fraction)
    (hF : t.time.freq = s.time.freq) (hS : t.xfer.integral = s.xfer.integral)
    (hh : t.xfer.history = s.xfer.history) (hb : t.xfer.block = s.xfer.block) (h : clockLaw s) : clockLaw t := by
  simpa [clockLaw, hn, hs, hf, hF, hS, hh, hb] using h

/-- The law, part by part: the counter, F, the servo's S and history, the sample block. -/
theorem clockLaw_parts {s : State} : clockLaw s ↔
    (s.time.nanoseconds < 1000000000 ∧ s.time.seconds < 2 ^ 48 ∧ s.time.fraction < 2 ^ 32) ∧
    (-800000 ≤ s.time.freq ∧ s.time.freq ≤ 800000) ∧
    ((-16777215 ≤ s.xfer.integral ∧ s.xfer.integral ≤ 16777215) ∧
      s.xfer.history.length ≤ 4 ∧ ∀ f ∈ s.xfer.history, -800000 ≤ f ∧ f ≤ 800000) ∧
    s.xfer.block.length ≤ 8 := by
  simp only [clockLaw, and_assoc]

/-- The F of a state of the law. -/
theorem clockLaw_freq {s : State} (h : clockLaw s) : -800000 ≤ s.time.freq ∧ s.time.freq ≤ 800000 :=
  (clockLaw_parts.mp h).2.1

/-- The F history of a state of the law. -/
theorem clockLaw_history {s : State} (h : clockLaw s) :
    s.xfer.history.length ≤ 4 ∧ ∀ f ∈ s.xfer.history, -800000 ≤ f ∧ f ≤ 800000 :=
  (clockLaw_parts.mp h).2.2.1.2

/-- Another F within its range keeps the law. -/
theorem clockLaw_setFreq {s : State} {f : Int} (hf : -800000 ≤ f ∧ f ≤ 800000) (h : clockLaw s) :
    clockLaw (s.updTime fun t => { t with freq := f }) :=
  clockLaw_parts.mpr ⟨(clockLaw_parts.mp h).1, hf, (clockLaw_parts.mp h).2.2⟩

/-- Another S within its range keeps the law. -/
theorem clockLaw_setIntegral {s : State} {v : Int} (hv : -16777215 ≤ v ∧ v ≤ 16777215) (h : clockLaw s) :
    clockLaw (s.updXfer fun x => { x with integral := v }) :=
  have p := clockLaw_parts.mp h
  clockLaw_parts.mpr ⟨p.1, p.2.1, ⟨hv, p.2.2.1.2⟩, p.2.2.2⟩

/-- Another sample block of at most eight samples keeps the law. -/
theorem clockLaw_block {s t : State} (ht : t.time = s.time) (hS : t.xfer.integral = s.xfer.integral)
    (hh : t.xfer.history = s.xfer.history) (hb : t.xfer.block.length ≤ 8) (h : clockLaw s) : clockLaw t := by
  have p := clockLaw_parts.mp h
  rw [clockLaw_parts, ht, hS, hh]
  exact ⟨p.1, p.2.1, p.2.2.1, hb⟩

/-- A counter moved within its ranges, with the sample block emptied, keeps the law. -/
theorem clockLaw_counter {s t : State} (hF : t.time.freq = s.time.freq) (hx : t.xfer = { s.xfer with block := [] })
    (hc : t.time.nanoseconds < 1000000000 ∧ t.time.seconds < 2 ^ 48 ∧ t.time.fraction < 2 ^ 32) (h : clockLaw s) :
    clockLaw t := by
  have p := clockLaw_parts.mp h
  rw [clockLaw_parts, hF, hx]
  exact ⟨hc, p.2.1, p.2.2.1, Nat.zero_le _⟩

/-- A change of timing state changes the engine as told. -/
theorem moveTiming_xfer {a : TimingState} {b : Nat} {f : Transfer → Transfer} {s : State} :
    (moveTiming a b f s).xfer = f { s.xfer with state := a } := by
  have h : eraseBlocks [.rep, .path, .fault, .freeUses] (moveTiming a b f s) =
      eraseBlocks [.rep, .path, .fault, .freeUses] (s.updXfer fun x => f { x with state := a }) := by
    simp only [moveTiming]
    split
    · simp
    · rw [unordered_erase (by simp)]
      all_goals simp
  simpa [eraseBlocks] using congrArg State.xfer h

theorem ofTotalNs_bounds (n : Int) : (ofTotalNs n).ns < 1000000000 ∧ (ofTotalNs n).sec < 2 ^ 48 := by
  refine ⟨?_, Nat.mod_lt _ (by norm_num)⟩
  have := Int.emod_lt_of_pos n (b := 1000000000) (by norm_num)
  simp only [ofTotalNs]
  omega

/-- The period that carries into the seconds (R45). -/
theorem addPeriod_roll {t : TimeUnit} (h : willRollOver t = true) : addPeriod t =
    { t with
      seconds := (t.seconds + 1) % 281474976710656
      nanoseconds := nextSubSecond t / 4294967296 - 1000000000
      fraction := nextSubSecond t % 4294967296 } := if_pos h

/-- A period that does not (R45). -/
theorem addPeriod_plain {t : TimeUnit} (h : willRollOver t = false) : addPeriod t =
    { t with
      nanoseconds := nextSubSecond t / 4294967296
      fraction := nextSubSecond t % 4294967296 } := if_neg (by simp [h])

/-- What a change of the three counting fields leaves in the record. -/
theorem counter_set {t : TimeUnit} {sec ns fr : Nat} (v : TimeUnit)
    (h : v = { t with seconds := sec, nanoseconds := ns, fraction := fr }) :
    v.seconds = sec ∧ v.nanoseconds = ns ∧ v.fraction = fr ∧ v.freq = t.freq ∧ v.epoch = t.epoch ∧
      v.synth = t.synth ∧ v.pulse = t.pulse ∧ v.todSending = t.todSending ∧ v.todWaiting = t.todWaiting := by
  subst h; simp

/-- The fields after a period that carries (R45). -/
theorem addPeriod_roll_fields {t : TimeUnit} (h : willRollOver t = true) :
    (addPeriod t).seconds = (t.seconds + 1) % 281474976710656 ∧
      (addPeriod t).nanoseconds = nextSubSecond t / 4294967296 - 1000000000 ∧
      (addPeriod t).fraction = nextSubSecond t % 4294967296 ∧ (addPeriod t).freq = t.freq ∧
      (addPeriod t).epoch = t.epoch ∧ (addPeriod t).synth = t.synth ∧ (addPeriod t).pulse = t.pulse ∧
      (addPeriod t).todSending = t.todSending ∧ (addPeriod t).todWaiting = t.todWaiting :=
  counter_set _ (addPeriod_roll h)

theorem nextSubSecond_lt {t : TimeUnit} (h1 : t.nanoseconds < 1000000000) (h3 : t.fraction < 2 ^ 32)
    (h4 : -800000 ≤ t.freq ∧ t.freq ≤ 800000) : nextSubSecond t / 4294967296 < 2000000000 := by
  have hi := (increment_bounds h4).2
  have : (increment t.freq).toNat < 4294967296 * 1000000000 := by omega
  unfold nextSubSecond
  generalize (increment t.freq).toNat = i at *
  omega

/-- New values of the counter's fields within their ranges keep the law. -/
theorem clockLaw_set {s : State} {sec ns fr : Nat} (h : clockLaw s) (hn : ns < 1000000000) (hs : sec < 2 ^ 48)
    (hf : fr < 2 ^ 32) :
    clockLaw (s.updTime fun _ => { s.time with seconds := sec, nanoseconds := ns, fraction := fr }) := by
  obtain ⟨-, -, -, h4, h5⟩ := h
  exact ⟨hn, hs, hf, h4, h5⟩

theorem updTime_eq {f : TimeUnit → TimeUnit} {s : State} {v : TimeUnit} (h : f s.time = v) :
    s.updTime f = s.updTime fun _ => v := by simp only [State.updTime, h]

/-- One oscillator period keeps the counter's ranges (R44, R45). -/
theorem addPeriod_law {s : State} (h : clockLaw s) : clockLaw (s.updTime addPeriod) := by
  have hsub := nextSubSecond_lt h.1 h.2.2.1 h.2.2.2.1
  have hf : nextSubSecond s.time % 4294967296 < 2 ^ 32 := by omega
  cases hr : willRollOver s.time
  · rw [updTime_eq (addPeriod_plain hr)]
    refine clockLaw_set h ?_ h.2.1 hf
    simpa [willRollOver] using hr
  · rw [updTime_eq (addPeriod_roll hr)]
    exact clockLaw_set h (by omega) (by omega) hf

theorem setOscillator_clock {n : Nat} {s : State} (h : clockLaw s) : clockLaw (s.setOscillator n) := h
theorem setNow_clock {n : Nat} {s : State} (h : clockLaw s) : clockLaw (s.setNow n) := h
theorem stepEpoch_clock {s : State} (h : clockLaw s) : clockLaw (stepEpoch s) := h

theorem startPulse_clock {s : State} (h : clockLaw s) : clockLaw (startPulse s) := h

theorem countStamp_clock {t : TakenStamp} {s : State} (h : clockLaw s) : clockLaw (countStamp t s) := by
  refine clockLaw_congr ?_ ?_ ?_ ?_ ?_ ?_ ?_ h <;> (simp only [countStamp, State.updTime_time, State.updTime_xfer]; try split) <;> rfl

theorem sendTod_clock {m : TodMessage} {s : State} (h : clockLaw s) : clockLaw (sendTod m s) := by
  refine clockLaw_congr ?_ ?_ ?_ ?_ ?_ ?_ ?_ h <;> simp only [sendTod, State.updTime_time] <;> first | (split <;> rfl) | simp

theorem endTod_clock {s : State} (h : clockLaw s) : clockLaw (endTod s) := by
  refine clockLaw_congr ?_ ?_ ?_ ?_ ?_ ?_ ?_ h <;> simp only [endTod, State.updTime_time] <;> first | (split <;> rfl) | simp

/-- The shared part of a phase step and a TIMESET empties the sample block (R48, R49). -/
theorem afterTimeChange_xfer {a : Nat} {b : Bool} {c : Int} {d : Stamp} {s : State} :
    (afterTimeChange a b c d s).xfer = { s.xfer with block := [] } := by
  simp [afterTimeChange, stepEpoch]

/-- It touches the counter no further than the epoch (R51). -/
theorem afterTimeChange_time {a : Nat} {b : Bool} {c : Int} {d : Stamp} {s : State} :
    (afterTimeChange a b c d s).time = { s.time with epoch := s.time.epoch + 1 } := by
  simp [afterTimeChange, stepEpoch]

theorem phaseStep_clock {θ : Int} {s : State} (h : clockLaw s) : clockLaw (phaseStep θ s) := by
  have hb := ofTotalNs_bounds (totalNs (timeNow s) - θ)
  have hf := (clockLaw_parts.mp h).1.2.2
  refine clockLaw_counter ?_ ?_ ⟨?_, ?_, ?_⟩ h <;>
    simp only [phaseStep, afterTimeChange_time, afterTimeChange_xfer, State.updTime_time, State.updTime_xfer] <;>
    first | exact hf | (split <;> omega)

theorem setCounter_clock {a b : Nat} {s : State} (ha : a < 2 ^ 48) (hb : b < 1000000000) (h : clockLaw s) :
    clockLaw (setCounter a b s) := by
  refine clockLaw_counter ?_ ?_ ⟨?_, ?_, ?_⟩ h <;>
    simp only [setCounter, afterTimeChange_time, afterTimeChange_xfer, State.updTime_time, State.updTime_xfer] <;>
    omega

theorem xferCount_clock {f : TransferCounters → TransferCounters} {s : State} (h : clockLaw s) :
    clockLaw (xferCount f s) := h

theorem steer_clock {θ : Int} {s : State} (h : clockLaw s) : clockLaw (steer θ s) := by
  simp only [steer]
  split
  · rename_i hf
    refine clockLaw_setIntegral ?_ (clockLaw_setFreq hf h)
    simp only [servoIntegral, clampInt]
    omega
  · exact xferCount_clock (clockLaw_setFreq (by split <;> omega) h)

theorem stepSelection_clock {θ : Int} {s : State} (h : clockLaw s) : clockLaw (stepSelection θ s) :=
  phaseStep_clock (xferCount_clock (clockLaw_setIntegral (by norm_num) h))

theorem pushFreq_clock {s : State} (h : clockLaw s) : clockLaw (pushFreq s) := by
  have p := clockLaw_parts.mp h
  refine clockLaw_parts.mpr ⟨p.1, p.2.1, ⟨p.2.2.1.1, ?_, fun f hf => ?_⟩, p.2.2.2⟩
  · have := (clockLaw_history h).1
    simp only [pushFreq, State.updXfer_xfer, pushHistory, List.length_drop]
    omega
  · have := List.mem_of_mem_drop hf
    simp only [List.mem_append, List.mem_singleton] at this
    rcases this with h' | rfl
    · exact (clockLaw_history h).2 f h'
    · exact clockLaw_freq h

theorem setRun_clock {n : Nat} {s : State} (h : clockLaw s) : clockLaw (setRun n s) := h

/-- A change of timing state keeps the law where what else changes leaves S, the history and the block. -/
theorem moveTiming_clock {a : TimingState} {b : Nat} {f : Transfer → Transfer} {s : State}
    (hS : ∀ x, (f x).integral = x.integral) (hh : ∀ x, (f x).history = x.history)
    (hb : ∀ x, (f x).block = x.block ∨ (f x).block = []) (h : clockLaw s) : clockLaw (moveTiming a b f s) := by
  have ht : (moveTiming a b f s).time = s.time := by simp
  rcases hb { s.xfer with state := a } with hb | hb
  · exact clockLaw_congr (by rw [ht]) (by rw [ht]) (by rw [ht]) (by rw [ht]) (by rw [moveTiming_xfer, hS])
      (by rw [moveTiming_xfer, hh]) (by rw [moveTiming_xfer, hb]) h
  · exact clockLaw_block ht (by rw [moveTiming_xfer, hS]) (by rw [moveTiming_xfer, hh])
      (by rw [moveTiming_xfer, hb]; exact Nat.zero_le _) h

theorem lapse_move {a : TimingState} {b : Nat} {s : State} (h : clockLaw s) : clockLaw (moveTiming a b lapse s) :=
  moveTiming_clock (fun _ => rfl) (fun _ => rfl) (fun _ => .inr rfl) h

theorem enterHoldover_clock {a : Nat} {s : State} (h : clockLaw s) : clockLaw (enterHoldover a s) := by
  apply lapse_move
  exact clockLaw_setFreq (holdoverFreq_bounds (clockLaw_history h).2 (clockLaw_freq h)) h

theorem loseTiming_clock {a : Nat} {s : State} (h : clockLaw s) : clockLaw (loseTiming a s) := by
  simp only [loseTiming]
  split
  · exact enterHoldover_clock h
  · exact lapse_move h
  · exact clockLaw_block (s := s) rfl rfl rfl (Nat.zero_le _) h
  · exact clockLaw_block (s := s) rfl rfl rfl (Nat.zero_le _) h

theorem blockExpiry_clock {s : State} (h : clockLaw s) : clockLaw (blockExpiry s) := loseTiming_clock h

theorem timingPulse_clock {s : State} (h : clockLaw s) : clockLaw (timingPulse s) := by
  simp only [timingPulse]
  split
  · split
    · exact lapse_move h
    · exact h
  · exact h
  · exact h
  · exact h

theorem runMove_clock {a : TimingState} {b : Nat} {s : State} (h : clockLaw s) :
    clockLaw (moveTiming a b (fun x => { x with runCount := 0 }) s) :=
  moveTiming_clock (fun _ => rfl) (fun _ => rfl) (fun _ => .inl rfl) h

theorem acquireSelection_clock {θ : Int} {s : State} (h : clockLaw s) : clockLaw (acquireSelection θ s) := by
  simp only [acquireSelection]
  repeat' split
  · exact setRun_clock (stepSelection_clock h)
  · exact runMove_clock (pushFreq_clock (steer_clock h))
  · exact setRun_clock (steer_clock h)
  · exact setRun_clock (steer_clock h)

theorem trackSelection_clock {θ : Int} {s : State} (h : clockLaw s) : clockLaw (trackSelection θ s) := by
  simp only [trackSelection]
  repeat' split
  · exact runMove_clock (stepSelection_clock h)
  · exact setRun_clock (pushFreq_clock (steer_clock h))
  · exact runMove_clock (pushFreq_clock (steer_clock h))
  · exact setRun_clock (pushFreq_clock (steer_clock h))

theorem applySelection_clock {θ : Int} {s : State} (h : clockLaw s) : clockLaw (applySelection θ s) := by
  simp only [applySelection]
  split
  · exact acquireSelection_clock h
  · exact acquireSelection_clock h
  · exact trackSelection_clock h
  · exact acquireSelection_clock (moveTiming_clock (fun _ => rfl) (fun _ => rfl) (fun _ => .inl rfl) h)

theorem joinBlock_clock {x : Sample} {s : State} (h : clockLaw s) : clockLaw (joinBlock x s) := by
  simp only [joinBlock]
  split
  · rename_i hl
    refine clockLaw_block (s := s) rfl rfl rfl ?_ h
    simp at hl ⊢
    omega
  · split
    · exact applySelection_clock (clockLaw_block (s := s) rfl rfl rfl (Nat.zero_le _) h)
    · exact h

theorem acceptSample_clock {x : Sample} {s : State} (h : clockLaw s) : clockLaw (acceptSample x s) := by
  simp only [acceptSample]
  split
  · exact joinBlock_clock (runMove_clock h)
  · exact joinBlock_clock h

theorem computeSample_clock {a : Stamp} {b c : TakenStamp} {d : Stamp} {s : State} (h : clockLaw s) :
    clockLaw (computeSample a b c d s) := by
  simp only [computeSample]
  split
  · exact xferCount_clock h
  split
  · exact xferCount_clock h
  split
  · exact xferCount_clock h
  split
  · exact xferCount_clock h
  split
  · exact xferCount_clock h
  exact acceptSample_clock h

theorem matchAnswer_clock {a b : BitVec 16} {c : Stamp} {s : State} (h : clockLaw s) :
    clockLaw (matchAnswer a b c s) := by
  simp only [matchAnswer]
  repeat' split
  all_goals first | exact computeSample_clock h | exact h

theorem enterOffer_clock {a : BitVec 16} {b : Stamp} {c : TakenStamp} {s : State} (h : clockLaw s) :
    clockLaw (enterOffer a b c s) := by
  simp only [enterOffer]
  repeat' split
  all_goals exact h

theorem routeTiming_clock {a : Nat} {b : TakenStamp} {s : State} (h : clockLaw s) : clockLaw (routeTiming a b s) := by
  simp only [routeTiming]
  repeat' split
  · exact enterOffer_clock h
  · exact matchAnswer_clock h
  · exact h

theorem queryCompletion_clock {a b : BitVec 16} {c : Bool} {d : TakenStamp} {s : State} (h : clockLaw s) :
    clockLaw (queryCompletion a b c d s) := by
  simp only [queryCompletion]
  repeat' split
  all_goals first | exact computeSample_clock h | exact h

/-- An operation that leaves the time unit and the engine alone keeps the law. -/
theorem clockLaw_of_same {s t : State} (ht : t.time = s.time) (hx : t.xfer = s.xfer) (h : clockLaw s) : clockLaw t := by
  simpa [clockLaw, ht, hx] using h

theorem enterPending_clock {m : PendingMessage} {s : State} (h : clockLaw s) : clockLaw (enterPending m s) := by
  simp only [enterPending]
  split
  · exact h
  · split <;> exact h

theorem frameWrite_clock {a : Nat} {b : BitVec 64} {c : Line} {s : State} (h : clockLaw s) :
    clockLaw (frameWrite a b c s) := by
  unfold frameWrite
  split
  · exact h
  · split
    · exact h
    · split
      · exact h
      · exact enterPending_clock h

theorem sendQuery_clock {w : Window} {j : Nat} {e : Exchange} {s : State} (h : clockLaw s) :
    clockLaw (sendQuery w j e s) := by
  refine clockLaw_congr ?_ ?_ ?_ ?_ ?_ ?_ ?_ h <;> simp [sendQuery, setExchange, postSlot, xferCount]

theorem queryExpiry_clock {s : State} (h : clockLaw s) : clockLaw (queryExpiry s) := by
  unfold queryExpiry tryQuery
  split
  · exact h
  · split
    · exact h
    · split
      · exact sendQuery_clock h
      · exact h

theorem loopDescriptorEvent_clock {j : Nat} {q : BitVec 16} {f : DescriptorFate} {s : State} (h : clockLaw s) :
    clockLaw (loopDescriptorEvent j q f s) := clockLaw_of_same (by simp) (by simp) h

theorem freeSlot_clock {j : Nat} {s : State} (h : clockLaw s) : clockLaw (freeSlot j s) := h

theorem slotCompleted_clock {a : Nat} {b c : Bool} {d : TakenStamp} {s : State} (h : clockLaw s) :
    clockLaw (slotCompleted a b c d s) := by
  simp only [slotCompleted]
  repeat' split
  all_goals first
    | exact loopDescriptorEvent_clock (xferCount_clock (freeSlot_clock h))
    | exact loopDescriptorEvent_clock (freeSlot_clock h)
    | exact queryCompletion_clock (freeSlot_clock h)
    | exact freeSlot_clock h
    | exact xferCount_clock h
    | exact h

end Sys2Proof.Machine
end

