-- ==== Sys2Proof/Laws/Link.lean ====
section
/-! SUPPORT. What a link event leaves in the monitor, in the time counter and the stamp epoch (R5 to R12). -/

namespace Sys2Proof.Machine

/-- A fact that each of several consequences keeps, they keep together in any order. -/
theorem unordered_keeps {β : Type} (g : State → β) {acts : List (State → State)} {s : State}
    (h : ∀ f ∈ acts, ∀ t, g (f t) = g t) (h2 : ∀ n t, g (State.setFreeUses n t) = g t) :
    g (unordered acts s) = g s := by
  rw [unordered, foldl_keeps g _ _ fun t f hf => h f (mem_permute.mp hf) t, h2]

/-- The time counter without F. -/
def withoutFreq (t : TimeUnit) : TimeUnit := { t with freq := 0 }

theorem loseTiming_withoutFreq {a : Nat} {s : State} : withoutFreq (loseTiming a s).time = withoutFreq s.time := by
  simp only [loseTiming]
  split
  · simp [enterHoldover, withoutFreq]
  · simp [enterFreerun]
  · simp
  · simp

theorem linkNews_cases {w : LinkWork} {f : State → State} (h : f ∈ linkNews w) :
    f = timingLinkDown ∨ f = abortLoop .linkDown ∨ f = setLevel .linkDown (isDown w.l.state) ∨
      f = setLevel .linkDegraded (w.l.state == .degraded) := by
  simp only [linkNews, List.mem_append, List.mem_cons, List.not_mem_nil, or_false] at h
  rcases h with h | h | h
  · split at h
    · simp at h; tauto
    · simp at h
  · tauto
  · tauto

/-- A link event leaves the monitor as the event works it out. -/
theorem linkTaken_link {event : LinkMonitor → LinkWork} {again : Bool} {s : State} :
    (linkTaken event again s).link = (event s.link).l := by
  simp only [linkTaken]
  have hn : ∀ w, ∀ f ∈ linkNews w, ∀ t, (f t).link = t.link := by
    intro w f hf t
    rcases linkNews_cases hf with rfl | rfl | rfl | rfl <;> simp
  have hu : ∀ w t, (unordered (linkNews w) t).link = t.link := fun w t =>
    unordered_keeps (fun t : State => t.link) (hn w) (fun _ _ => rfl)
  repeat' split
  all_goals simp [hu]

/-- A link event steps the epoch where R11 or R14 says so, and leaves the rest of the time counter but F. -/
theorem linkTaken_time {event : LinkMonitor → LinkWork} {again : Bool} {s : State} :
    withoutFreq (linkTaken event again s).time = withoutFreq (if linkEpochEvent s.link (event s.link) || again
      then { s.time with epoch := s.time.epoch + 1 } else s.time) := by
  simp only [linkTaken]
  have hn : ∀ w, ∀ f ∈ linkNews w, ∀ t, withoutFreq (f t).time = withoutFreq t.time := by
    intro w f hf t
    rcases linkNews_cases hf with rfl | rfl | rfl | rfl
    · exact loseTiming_withoutFreq
    · simp
    · simp
    · simp
  have hu : ∀ w t, withoutFreq (unordered (linkNews w) t).time = withoutFreq t.time := fun w t =>
    unordered_keeps (fun t : State => withoutFreq t.time) (hn w) (fun _ _ => rfl)
  repeat' split
  all_goals simp_all [stepEpoch]

/-- A link event that does not end in DOWN leaves F as it was. -/
theorem linkTaken_freq {event : LinkMonitor → LinkWork} {again : Bool} {s : State}
    (h : isDown (event s.link).l.state = false) : (linkTaken event again s).time.freq = s.time.freq := by
  simp only [linkTaken]
  have hn : ∀ f ∈ linkNews (event s.link), ∀ t, (f t).time.freq = t.time.freq := by
    intro f hf t
    simp only [linkNews, h] at hf
    simp at hf
    rcases hf with rfl | rfl <;> simp
  have hu : ∀ t, (unordered (linkNews (event s.link)) t).time.freq = t.time.freq := fun t =>
    unordered_keeps (fun t : State => t.time.freq) hn (fun _ _ => rfl)
  repeat' split
  all_goals simp_all [stepEpoch]

end Sys2Proof.Machine
end

