-- ==== Sys2Proof/Laws/Integrity.lean ====
section
/-! SUPPORT. The entry that a report becomes (R156), what an outcome and a remap request leave in the integrity unit
(R109 to R111, R116, R121), and the line or access that the copy engine, the scrubber and the march take next (R117,
R123, R132, R133). -/

namespace Sys2Proof.Machine

/-! ### Reports (R156) -/

/-- A report of an ACTIVE ring with room is made as its next entry (R156). -/
theorem reportAt_made {time : Stamp} {code : Nat} {body : List FieldSpec} {s : State} {g : Ring}
    (hg : s.rep.ring = some g) (hr : g.releasing = false) (hu : unread g < g.size - 1) :
    ReportAt s (reportAt time code body s) g 0 time code body := by
  intro w hw
  have hw2 : ∀ f, windowOfKind (State.updRep f s) .report = some w := fun f => hw
  refine ⟨⟨s.path.nextId, windowLine w (g.made % g.size), .forwarded, .reportEntry (entryLine code
    (phaseBit g.made g.size) s.rep.sequence.toNat time body)⟩, ?_, by simp, rfl, by simp⟩
  simp only [reportAt, hg, ringTakes, hr, hu, Bool.not_false, Bool.true_and, decide_true, if_true]
  split
  · rename_i v hv
    obtain rfl : v = w := Option.some.inj (hv.symm.trans hw)
    simp [makeReq, addReq]
  · rename_i hv
    exact absurd (hv.symm.trans hw) (by simp)

/-! ### Saturating counters (00_scope.md, Counters) -/

/-- Saturating additions in sequence. -/
theorem satAdd_add {w : Nat} (c : BitVec w) (m n : Nat) : satAdd (satAdd c m) n = satAdd c (m + n) := by
  have hc := c.isLt
  apply BitVec.eq_of_toNat_eq
  simp only [satAdd]
  split <;> split <;> simp_all [BitVec.toNat_ofNat, Nat.mod_eq_of_lt] <;> (try split) <;>
    simp_all [BitVec.toNat_ofNat, Nat.mod_eq_of_lt] <;> omega

/-- One increment is an addition of 1. -/
theorem satInc_eq {w : Nat} (c : BitVec w) : satInc c = satAdd c 1 := by
  have hc := c.isLt
  apply BitVec.eq_of_toNat_eq
  simp only [satInc, satAdd, ← BitVec.toNat_inj, BitVec.toNat_allOnes]
  split <;> split <;> simp_all [BitVec.toNat_add, BitVec.toNat_ofNat] <;> omega

/-- Nothing added. -/
theorem satAdd_zero {w : Nat} (c : BitVec w) : satAdd c 0 = c := by simp [satAdd, c.isLt]

/-! ### What the background units take next (R117, R118, R123) -/

/-- A request made for a unit that has none is its one request. -/
theorem makeReq_setsOut {line : Nat} {job : Job} {s : State}
    (h : ∀ x ∈ s.path.reqs, stationOf x.job ≠ stationOf job) : SetsOut (makeReq line job s) line job := by
  refine ⟨⟨s.path.nextId, line, .forwarded, job⟩, by simp [makeReq, addReq], rfl, rfl, rfl, fun x hx hj => ?_⟩
  simp only [makeReq, addReq, State.updPath_path, List.mem_append, List.mem_singleton] at hx
  exact hx.resolve_left fun hx => h x hx hj

/-- What the copy engine takes next (R123). -/
theorem copyPump_goesOn {s : State} : CopyGoesOn (copyPump s) s.integ.remaps s.path.reqs := by
  intro hr hin
  rw [copyPump_frame.2.2.1] at hin
  have hbusy : copyBusy s = false := by
    simp only [copyBusy, List.any_eq_false]
    exact fun q hq => by simpa using hr q hq
  simp only [copyPump, copyingEntry, hin, hbusy, Bool.or_false, Bool.false_eq_true, if_false]
  refine ⟨fun e he => ?_, fun hn => ⟨fun e he => ?_, fun he => ?_⟩⟩
  · simp only [he]
    exact ⟨by simp, makeReq_setsOut hr⟩
  · simp only [hn, he]
    exact ⟨makeReq_setsOut (s := setRemap { e with state := .copying, pointer := 0 } s) hr, by simp [setRemap]⟩
  · simp only [hn, he]
    exact ⟨trivial, hr⟩

/-- One line more (R117). -/
theorem scrubTake_scrubbed {c : Scrubber} {p : Nat → Nat} {k : Nat}
    (hp : p (k + 1) = if c.endLine ≤ p k then c.startLine else p k + 1) :
    scrubTake (scrubbed c p k) = scrubbed c p (k + 1) := by
  by_cases h : c.endLine ≤ p k <;>
    simp [scrubTake, scrubbed, hp, h, List.range_succ, List.filter_append, satInc_eq, satAdd_add, Nat.sub_sub]

/-- The lines of the fence that the scrubber meets first, with allowance for more (R118). -/
theorem scrubLoop_skips {s : State} {c : Scrubber} {p : Nat → Nat} (m : Nat) (hc : c = s.integ.scrubber)
    (h0 : p 0 = c.position) (hp : ∀ n, p (n + 1) = if c.endLine ≤ p n then c.startLine else p n + 1) :
    ∀ k, (∀ n < k, fenced s (p n) = true) → ∃ u, scrubLoop (k + m) s = scrubLoop m u ∧
      u.integ.scrubber = scrubbed c p k ∧
      u.integ.counters.scrubSkipped = satAdd s.integ.counters.scrubSkipped k ∧ u.path = s.path ∧ u.march = s.march
  | 0, _ => ⟨s, by simp, by simp [scrubbed, h0, hc, satAdd_zero], by rw [satAdd_zero], rfl, rfl⟩
  | k + 1, hk => by
    obtain ⟨u, hu, hs, hn, hpath, hm⟩ := scrubLoop_skips (m + 1) hc h0 hp k fun n hn => hk n (by omega)
    have hf : fenced u (p k) = true := by simpa only [fenced, fenceUp, hm] using hk k (by omega)
    refine ⟨integCount (fun x => { x with scrubSkipped := satInc x.scrubSkipped }) (updScrub scrubTake u), ?_, ?_, ?_,
      hpath, hm⟩
    · rw [Nat.add_right_comm, Nat.add_assoc, hu, scrubLoop]
      simp only [hs]
      rw [if_pos]
      exact hf
    · simp only [integCount, updScrub, State.updInteg_integ, hs]
      exact scrubTake_scrubbed (hp k)
    · simp only [integCount, updScrub, State.updInteg_integ, hn, satAdd_add, satInc_eq]

/-- What the scrubber takes next (R117, R118). -/
theorem scrubPump_goesOn {s : State} : ScrubGoesOn s (scrubPump s) s.path.reqs := by
  intro hr c skipped hc hskip
  have hbusy : scrubBusy s = false := by
    simp only [scrubBusy, List.any_eq_false]
    exact fun q hq => by simpa using hr q hq
  refine ⟨fun h => ?_, fun p k hin hload h0 hp hk => ?_⟩
  · have : scrubPump s = s := if_pos (by rcases h with h | h <;> simp [h])
    rw [this]
    exact ⟨hc.symm, hskip.symm, hr⟩
  · have hpump : scrubPump s = scrubLoop c.allowance s := by simp [scrubPump, hin, hload, hbusy, hc]
    rw [hpump]
    refine ⟨fun hka => ?_, fun hka hf => ?_⟩
    · obtain ⟨u, hu, hs, hn, hpath, -⟩ := scrubLoop_skips 0 hc h0 hp k hk
      rw [← hka, show k = k + 0 from rfl, hu, scrubLoop, hs, hn, hpath, hskip]
      exact ⟨rfl, rfl, hr⟩
    · obtain ⟨u, hu, hs, hn, hpath, hm⟩ := scrubLoop_skips (c.allowance - k) hc h0 hp k hk
      obtain ⟨m, hm2⟩ : ∃ m, c.allowance - k = m + 1 := ⟨c.allowance - k - 1, by omega⟩
      have hfu : fenced (updScrub scrubTake u) (p k) = false := by
        simpa only [fenced, fenceUp, updScrub, State.updInteg_march, hm] using hf
      have he : scrubLoop c.allowance s = makeReq (p k) .scrub (updScrub scrubTake u) := by
        rw [show c.allowance = k + (c.allowance - k) by omega, hu, hm2, scrubLoop, hs]
        exact if_neg (by rw [show (scrubbed c p k).position = p k from rfl]; simpa using hf ▸ hfu)
      rw [he]
      refine ⟨?_, ?_, makeReq_setsOut (s := updScrub scrubTake u) (job := .scrub) ((congrArg Path.reqs hpath).symm ▸ hr)⟩
      · simp only [makeReq_frame, updScrub, State.updInteg_integ, hs]
        exact scrubTake_scrubbed (hp k)
      · simp only [makeReq_frame, updScrub, State.updInteg_integ, hn, hskip]

/-! ### Remap requests (R121) -/

/-- An exhausted pool is counted, and the rest of the integrity unit stands. -/
theorem remapExhausted_integ {page : Nat} {source : RemapSource} {s : State} :
    (remapExhausted page source s).integ = { s.integ with
      counters := { s.integ.counters with remapExhausted := satInc s.integ.counters.remapExhausted } } := by
  rw [remapExhausted, unordered_keeps (fun t : State => t.integ)]
  · rfl
  · intro f hf t
    simp at hf
    rcases hf with rfl | rfl <;> simp
  · intro n t; rfl

/-- The copy engine goes on: of the integrity unit only the pointers and states of remap entries change, and an entry
whose failed page no earlier one has stays with its spare page, source and time. -/
theorem copyPump_integ {s : State} :
    (copyPump s).integ = { s.integ with remaps := (copyPump s).integ.remaps } ∧
    (copyPump s).integ.remaps.map (·.failed) = s.integ.remaps.map (·.failed) ∧
    ∀ l e, s.integ.remaps = l ++ [e] → (∀ x ∈ l, x.failed ≠ e.failed) →
      ∃ y ∈ (copyPump s).integ.remaps, y.failed = e.failed ∧ y.spare = e.spare ∧ y.source = e.source ∧
        y.created = e.created := by
  have stay : ∀ l e, s.integ.remaps = l ++ [e] → ∃ y ∈ s.integ.remaps, y.failed = e.failed ∧ y.spare = e.spare ∧
      y.source = e.source ∧ y.created = e.created := fun l e h => ⟨e, by simp [h], rfl, rfl, rfl, rfl⟩
  simp only [copyPump]
  repeat' split
  · exact ⟨rfl, rfl, fun l e h _ => stay l e h⟩
  · exact ⟨rfl, rfl, fun l e h _ => stay l e h⟩
  · rename_i w hw
    refine ⟨rfl, ?_, ?_⟩
    · simp only [makeReq_frame, setRemap, State.updInteg_integ, List.map_map]
      apply List.map_congr_left
      intro x _
      simp only [Function.comp]
      split
      · rename_i hx; exact hx.symm
      · rfl
    · intro l e h hl
      simp only [makeReq_frame, setRemap, State.updInteg_integ, h, List.map_append, List.map_cons, List.map_nil]
      refine ⟨_, List.mem_append_right _ (List.mem_singleton.mpr rfl), ?_⟩
      split
      · rename_i he
        have hm := List.mem_of_find?_eq_some hw
        rw [h, List.mem_append, List.mem_singleton] at hm
        rcases hm with hm | rfl
        · exact absurd he.symm (hl w hm)
        · exact ⟨rfl, rfl, rfl, rfl⟩
      · exact ⟨rfl, rfl, rfl, rfl⟩
  · exact ⟨rfl, rfl, fun l e h _ => stay l e h⟩

/-- What a remap request leaves in the integrity unit (R121). -/
theorem remapRequest_integ {page : Nat} {source : RemapSource} {s t : State} (h : t = remapRequest page source s) :
    (remapHas s page = true → t.integ = { s.integ with
      counters := { s.integ.counters with remapDuplicate := satInc s.integ.counters.remapDuplicate } }) ∧
    (remapHas s page = false → poolPage s = none → t.integ = { s.integ with
      counters := { s.integ.counters with remapExhausted := satInc s.integ.counters.remapExhausted } }) ∧
    ∀ p, remapHas s page = false → poolPage s = some p → t.integ = { s.integ with remaps := t.integ.remaps } ∧
      t.integ.remaps.map (·.failed) = s.integ.remaps.map (·.failed) ++ [page] ∧
      ∃ e ∈ t.integ.remaps, e.failed = page ∧ e.spare = p ∧ e.source = source ∧ e.created = timeNow s := by
  subst h
  refine ⟨fun h => ?_, fun h hp => ?_, fun p h hp => ?_⟩
  · simp [remapRequest, h, integCount]
  · simp [remapRequest, h, hp, remapExhausted_integ]
  · simp only [remapRequest, h, hp]
    simp only [Bool.false_eq_true, if_false]
    obtain ⟨h1, h2, h3⟩ := copyPump_integ (s := report 0x0A (remapBody ⟨page, p, .waiting, source, 0, timeNow s⟩)
      (s.updInteg fun u => { u with remaps := u.remaps ++ [⟨page, p, .waiting, source, 0, timeNow s⟩] }))
    refine ⟨?_, ?_, ?_⟩
    · rw [h1]; simp
    · rw [h2]; simp
    · refine h3 s.integ.remaps _ (by simp; rfl) ?_
      intro x hx he
      simp [remapHas] at h
      exact h x hx he

/-! ### Suspect pages (R116) -/

/-- The entry that a full list gives up has the lowest count, and of those the earliest first time (R116). -/
theorem weakestSuspect_spec {l : List Suspect} (h : l ≠ []) : ∃ w ∈ l, weakestSuspect l = some w ∧
    ∀ x ∈ l, w.count < x.count ∨ (w.count = x.count ∧ w.first ≤ x.first) := by
  induction l with
  | nil => exact absurd rfl h
  | cons x xs ih =>
    by_cases hx : xs = []
    · subst hx
      exact ⟨x, List.mem_singleton.mpr rfl, rfl, by simp⟩
    · obtain ⟨w, hw, he, hl⟩ := ih hx
      simp only [weakestSuspect, he]
      split
      · refine ⟨w, List.mem_cons_of_mem _ hw, rfl, fun y hy => ?_⟩
        rcases List.mem_cons.mp hy with rfl | hy
        · omega
        · exact hl y hy
      · refine ⟨x, List.mem_cons_self .., rfl, fun y hy => ?_⟩
        rcases List.mem_cons.mp hy with rfl | hy
        · omega
        · have := hl y hy
          omega

/-- One more outcome on a page: the list, and the page's entry in it, by the entry the list had for the page (R116). -/
theorem bumpSuspects_spec {l : List Suspect} {page now : Nat} :
    (∀ e, l.find? (fun x => x.page = page) = some e →
      bumpSuspects l page now = (l.map fun x => if x.page = page then { x with count := x.count + 1 } else x) ∧
      (bumpSuspects l page now).find? (fun x => x.page = page) = some { e with count := e.count + 1 } ∧
      (bumpSuspects l page now).filter (fun x => x.page != page) = l.filter (fun x => x.page != page) ∧
      suspectReplaces l page = false) ∧
    (l.find? (fun x => x.page = page) = none →
      (bumpSuspects l page now).find? (fun x => x.page = page) = some ⟨page, 1, now⟩ ∧
      (l.length < 8 → bumpSuspects l page now = l ++ [⟨page, 1, now⟩] ∧
        (bumpSuspects l page now).filter (fun x => x.page != page) = l ∧ suspectReplaces l page = false) ∧
      (8 ≤ l.length → suspectReplaces l page = true ∧ ∃ w ∈ l,
        (∀ x ∈ l, w.count < x.count ∨ (w.count = x.count ∧ w.first ≤ x.first)) ∧
        bumpSuspects l page now = l.filter (fun x => x.page != w.page) ++ [⟨page, 1, now⟩])) := by
  constructor
  · intro e he
    have hany : (l.any fun x => x.page = page) = true := by
      rw [List.any_eq_true]
      exact ⟨e, List.mem_of_find?_eq_some he, by simpa using List.find?_some he⟩
    have hb : bumpSuspects l page now =
        l.map fun x => if x.page = page then { x with count := x.count + 1 } else x := by
      simp only [bumpSuspects, hany, if_true]
    refine ⟨hb, ?_, ?_, by simp [suspectReplaces, hany]⟩
    · rw [hb]
      clear hb hany
      induction l with
      | nil => simp at he
      | cons x xs ih =>
        by_cases hx : x.page = page
        · simp [hx] at he ⊢
          subst he; simp [hx]
        · simp [hx] at he ⊢
          simpa using ih he
    · rw [hb]
      clear hb hany he
      induction l with
      | nil => rfl
      | cons x xs ih =>
        by_cases hx : x.page = page <;> simp_all
  · intro hn
    have hall : ∀ x ∈ l, x.page ≠ page := by simpa using hn
    have hany : (l.any fun x => x.page = page) = false := by
      rw [List.any_eq_false]; simpa using hall
    refine ⟨?_, fun h8 => ?_, fun h8 => ?_⟩
    · simp only [bumpSuspects, hany]
      have hf : ∀ k : List Suspect, (∀ x ∈ k, x.page ≠ page) →
          (k ++ [(⟨page, 1, now⟩ : Suspect)]).find? (fun x => x.page = page) = some ⟨page, 1, now⟩ := by
        intro k hk
        have hnone : k.find? (fun x => x.page = page) = none := by simpa using hk
        simp [List.find?_append, hnone]
      simp only [Bool.false_eq_true, if_false]
      repeat' split
      · exact hf _ hall
      · exact hf _ fun x hx => hall x (List.mem_of_mem_filter hx)
      · exact hf _ hall
    · have hb : bumpSuspects l page now = l ++ [⟨page, 1, now⟩] := by simp [bumpSuspects, hany, h8]
      refine ⟨hb, ?_, by simp [suspectReplaces]; intro; omega⟩
      rw [hb, List.filter_append, List.filter_eq_self.mpr (by simpa using hall)]
      simp
    · obtain ⟨w, hw, he, hl⟩ := weakestSuspect_spec (l := l) (by rintro rfl; simp at h8)
      refine ⟨by simp [suspectReplaces, h8]; simpa using hall, w, hw, hl, ?_⟩
      simp [bumpSuspects, hany, he, Nat.not_lt.mpr h8]

/-- A page reaches the threshold: it has its report, which leaves the integrity unit alone, or its remap request
(R116). -/
theorem suspectReached_integ {e : Suspect} {s t : State} (h : t = suspectReached e s) :
    (s.integ.autoRemap = false ∨ inSpare s e.page = true → t.integ = s.integ) ∧
    (s.integ.autoRemap = true → inSpare s e.page = false → t = remapRequest e.page .copy s) := by
  subst h
  constructor
  · rintro (h | h) <;> simp [suspectReached, h]
  · intro h1 h2
    simp [suspectReached, h1, h2]

/-- The pool and the spare windows do not depend on the suspect pages. -/
theorem poolPage_suspects {f : Integrity → Integrity} {s : State} (h : (f s.integ).remaps = s.integ.remaps) :
    poolPage (s.updInteg f) = poolPage s ∧ (∀ page, remapHas (s.updInteg f) page = remapHas s page) ∧
    ∀ page, inSpare (s.updInteg f) page = inSpare s page := by
  simp [poolPage, remapHas, inSpare, windowOfKind, windowEntry, h]

/-- Below the threshold a CORRECTED outcome leaves the list counted up, and the rest of the integrity unit but
SUSPECT_REPLACED as it was (R116). -/
theorem suspectCount_below {line : Nat} {s t : State} {e : Suspect} (h : t = suspectCount line s)
    (he : (bumpSuspects s.integ.suspects (pageOf line) s.now).find? (fun x => x.page = pageOf line) = some e)
    (hn : e.count < s.integ.suspectThreshold) :
    t.integ = { s.integ with
      suspects := bumpSuspects s.integ.suspects (pageOf line) s.now
      counters := { s.integ.counters with
        suspectReplaced := if suspectReplaces s.integ.suspects (pageOf line) then satInc s.integ.counters.suspectReplaced
          else s.integ.counters.suspectReplaced } } := by
  subst h
  simp only [suspectCount, he, Nat.not_le.mpr hn, if_false]
  split <;> simp_all [integCount]

/-- At the threshold the page leaves the list (R116), and is dealt with as `suspectReached` says. -/
theorem suspectCount_reached {line : Nat} {s t : State} {e : Suspect} (h : t = suspectCount line s)
    (he : (bumpSuspects s.integ.suspects (pageOf line) s.now).find? (fun x => x.page = pageOf line) = some e)
    (hn : s.integ.suspectThreshold ≤ e.count) :
    ∃ u, t = suspectReached e u ∧ OnlyChanges [.integ] s u ∧ u.integ = { s.integ with
      suspects := (bumpSuspects s.integ.suspects (pageOf line) s.now).filter fun x => x.page != pageOf line
      counters := { s.integ.counters with
        suspectReplaced := if suspectReplaces s.integ.suspects (pageOf line) then satInc s.integ.counters.suspectReplaced
          else s.integ.counters.suspectReplaced } } := by
  subst h
  simp only [suspectCount, he, hn, if_true]
  refine ⟨_, rfl, ?_, ?_⟩
  · rw [onlyChanges_iff]
    split <;> simp
  · split <;> simp_all [integCount]

/-! ### Outcomes (R109 to R111) -/

/-- A CORRECTED outcome is counted and captured, and then taken against its page (R109). -/
theorem corrected_eq {source : IntegritySource} {line memLine : Nat} {s : State} :
    ∃ u, corrected source line memLine s = suspectCount line u ∧ OnlyChanges [.integ] s u ∧ u.integ = { s.integ with
      counters := { s.integ.counters with corrected := satInc s.integ.counters.corrected }
      lastCorrected := some ⟨line, memLine, source, timeNow s⟩ } := by
  refine ⟨_, rfl, ?_, ?_⟩
  · rw [onlyChanges_iff]; simp
  · simp [integCount, captureOf, timeNow]

/-- The event and the report of an UNCORRECTABLE outcome leave the integrity unit. -/
@[simp] theorem uncorrectableNews_integ {source : IntegritySource} {line memLine result : Nat} {s : State} :
    (uncorrectableNews source line memLine result s).integ = s.integ := by
  rw [uncorrectableNews, unordered_keeps (fun t : State => t.integ)]
  · intro f hf t
    simp at hf
    rcases hf with rfl | rfl <;> simp
  · intro n t; rfl

/-- What an UNCORRECTABLE outcome leaves in the integrity unit (R109 to R111). -/
theorem uncorrectable_integ {source : IntegritySource} {line memLine : Nat} {s t : State}
    (h : t = uncorrectable source line memLine s) :
    t.integ = { s.integ with
      counters := { s.integ.counters with
        uncorrectable := satInc s.integ.counters.uncorrectable
        markOverflow := if line ∉ s.integ.marked ∧ 64 ≤ s.integ.marked.length
          then satInc s.integ.counters.markOverflow else s.integ.counters.markOverflow }
      firstUncorrectable :=
        match s.integ.firstUncorrectable with
        | some c => some c
        | none => some ⟨line, memLine, source, timeNow s⟩
      marked := if line ∉ s.integ.marked ∧ s.integ.marked.length < 64 then s.integ.marked ++ [line]
        else s.integ.marked } := by
  subst h
  simp only [uncorrectable, isMarked, List.contains_iff_mem, captureOf]
  cases hf : s.integ.firstUncorrectable <;> by_cases hm : line ∈ s.integ.marked <;>
    by_cases hl : s.integ.marked.length < 64 <;> simp [hf, hm, hl, Nat.not_le.mpr, Nat.not_lt.mp, integCount, timeNow]

/-! ### The march's next access (R132, R133, R135) -/

/-- The model's background is that of the table of R132. -/
theorem isBackground_iff {checker inverse : Bool} {line : Nat} {d : Line} :
    IsBackground checker inverse line d ↔ d = backgroundLine checker inverse line := by
  have hb : ∀ i < 64, getByte (backgroundLine checker inverse line) i = backgroundByte checker inverse line i := by
    intro i hi
    simp [getByte, backgroundLine, hi]
  have ht : IsBackground checker inverse line d ↔ ∀ i < 64, getByte d i = backgroundByte checker inverse line i := by
    refine forall_congr' fun i => forall_congr' fun _ => ?_
    have hmod : (line + i / 8) % 2 = 0 ↔ line % 2 = i / 8 % 2 := by omega
    cases checker <;> cases inverse <;> by_cases hp : line % 2 = i / 8 % 2 <;>
      simp [backgroundByte, hmod, hp]
  rw [ht]
  constructor
  · intro h
    apply Vector.ext
    intro i hi
    have := (h i hi).trans (hb i hi).symm
    simpa [getByte, hi] using this
  · rintro rfl
    exact hb

/-- A march read that agrees with the table of R132, CLEAN, counts as a read and no more; any other is a failing read
(R134). -/
theorem checkRead_spec {line : Nat} {o : EccObs} {d : Line} {m x : March} {good : Prop} (hx : x = checkRead line o d m)
    (hg : good ↔ lineOutcome o = .clean ∧ IsBackground m.checker (m.element = 3 ∨ m.element = 5) line d) :
    x = { m with
      reads := satInc m.reads, failingReads := x.failingReads, failedReads := x.failedReads
      firstFailure := x.firstFailure, failing := x.failing, unlisted := x.unlisted } ∧
    (good → x = { m with reads := satInc m.reads }) ∧
    (¬good → x.failingReads = satInc m.failingReads ∧ x.failedReads = satInc m.failedReads ∧
      (pageOf line ∈ m.failing → x.failing = m.failing ∧ x.unlisted = m.unlisted) ∧
      (pageOf line ∉ m.failing → m.failing.length < 16 →
        x.failing = m.failing ++ [pageOf line] ∧ x.unlisted = m.unlisted) ∧
      (pageOf line ∉ m.failing → 16 ≤ m.failing.length → x.failing = m.failing ∧ x.unlisted = satInc m.unlisted) ∧
      (∀ y, m.firstFailure = some y → x.firstFailure = some y) ∧
      (m.firstFailure = none → x.firstFailure = some ⟨m.element, line,
        if lineOutcome o = .uncorrectable then .uncorrectable
        else if lineOutcome o = .corrected then .corrected else .mismatch⟩)) := by
  subst hx
  have hi : readsInverse m.element = decide (m.element = 3 ∨ m.element = 5) := by simp [readsInverse]; rfl
  rw [isBackground_iff, ← hi] at hg
  refine ⟨?_, fun h => ?_, fun h => ?_⟩
  · simp only [checkRead, marchFail]
    split <;> rfl
  · obtain ⟨h1, h2⟩ := hg.mp h
    simp [checkRead, marchFailure, h1, h2]
  · rw [hg] at h
    have hk : marchFailure o d (backgroundLine m.checker (readsInverse m.element) line) =
        some (if lineOutcome o = .uncorrectable then .uncorrectable
          else if lineOutcome o = .corrected then .corrected else .mismatch) := by
      simp only [marchFailure]
      split <;> simp_all
    simp only [checkRead, hk, marchFail]
    refine ⟨trivial, trivial, fun h1 => ?_, fun h1 h2 => ?_, fun h1 h2 => ?_, fun y hy => ?_, fun hn => ?_⟩
    · simp [h1]
    · simp [h1, Nat.not_le.mpr h2]
    · simp [h1, h2]
    · simp [hy]
    · simp [hn]

/-- The march goes on from a state with no access of its own outstanding (R130, R133, R135). -/
theorem marchPump_goesOn {s : State} : MarchGoesOn (marchPump s) s.path.reqs s.path.memPort := by
  intro hr ha hin
  have hbusy : marchBusy s = false := by
    simp only [marchBusy, Bool.or_eq_false_iff, List.any_eq_false]
    refine ⟨fun q hq => by simpa using hr q hq, fun x hx => ?_⟩
    obtain ⟨h1, h2⟩ := ha x hx
    cases hk : x.kind <;> simp_all [isMarchAccess]
  rw [marchPump_frame.2.2.1] at hin
  have hm : (marchPump s).march = s.march := by simp
  rw [hm]
  constructor
  · intro hrun hd
    have he : marchPump s = makeReq (marchLine s.march) (.march (marchAccess s.march)) s := by
      simp [marchPump, hin, hbusy, hrun, hd]
    refine ⟨⟨s.path.nextId, marchLine s.march, .forwarded, .march (marchAccess s.march)⟩, ?_, ?_, rfl, ?_, ?_, ?_⟩
    · rw [he]; simp [makeReq, addReq]
    · rw [hm]; rfl
    · intro x hx hj
      rw [he] at hx
      simp only [makeReq, addReq, State.updPath_path, List.mem_append, List.mem_singleton] at hx
      rcases hx with hx | rfl
      · exact absurd hj (hr x hx)
      · rfl
    · intro hw
      rw [hm] at hw
      simp [marchAccess, hw]
    · intro hw
      rw [hm] at hw
      refine ⟨backgroundLine s.march.checker (writesInverse s.march.element) (marchLine s.march),
        by simp only [marchAccess, hw, if_true], ?_⟩
      rw [isBackground_iff, hm]
      show _ = _
      congr 1
      simp [writesInverse, ← Bool.beq_eq_decide_eq]
  · intro h q hq
    have he : marchPump s = s := by
      rcases h with h | h <;> simp [marchPump, h]
    rw [he] at hq
    exact hr q hq

end Sys2Proof.Machine
end

