-- ==== Sys2Proof/Laws/Memory.lean ====
section
/-! SUPPORT. The DRAM and the flipped bits that stand in it: every operation keeps their canonical form, a read after a
write to the same line gives what was written, and a write leaves every other line alone. Then what the code makes of a
line: the words it delivers, and its outcome by its words'. -/

namespace Sys2Proof.Machine

variable {α : Type} [DecidableEq α]

theorem sparseWfFrom_mono {u : α} {m : List (Nat × α)} {j k : Nat} (h : j ≤ k) (hm : sparseWfFrom u k m = true) : sparseWfFrom u j m = true := by
  cases m with
  | nil => rfl
  | cons e rest =>
    simp only [sparseWfFrom, Bool.and_eq_true, decide_eq_true_eq] at hm ⊢
    exact ⟨⟨by omega, hm.1.2⟩, hm.2⟩

/-- A write keeps the canonical form. -/
theorem sparseWrite_wf {u : α} {m : List (Nat × α)} {j k : Nat} {v : α} (hj : j ≤ k) (hm : sparseWfFrom u j m = true) :
    sparseWfFrom u j (sparseWrite u m k v) = true := by
  induction m generalizing j with
  | nil =>
    simp only [sparseWrite]
    split
    · rfl
    · simp [sparseWfFrom, *]
  | cons e rest ih =>
    obtain ⟨a, w⟩ := e
    simp only [sparseWfFrom, Bool.and_eq_true, decide_eq_true_eq] at hm
    obtain ⟨⟨ha, hw⟩, hr⟩ := hm
    simp only [sparseWrite]
    split
    · split
      · simp [sparseWfFrom, *]
      · simp only [sparseWfFrom, Bool.and_eq_true, decide_eq_true_eq]
        exact ⟨⟨hj, by assumption⟩, ⟨by omega, hw⟩, hr⟩
    · split
      · split
        · exact sparseWfFrom_mono (by omega) hr
        · rename_i hka _
          subst hka
          simp only [sparseWfFrom, Bool.and_eq_true, decide_eq_true_eq]
          exact ⟨⟨hj, by assumption⟩, hr⟩
      · simp only [sparseWfFrom, Bool.and_eq_true, decide_eq_true_eq]
        exact ⟨⟨ha, hw⟩, ih (by omega) hr⟩

/-- Below its first line a well-formed list reads as unlisted. -/
theorem sparseRead_below {u : α} {m : List (Nat × α)} {j k : Nat} (hk : k < j) (hm : sparseWfFrom u j m = true) :
    sparseRead u m k = u := by
  induction m generalizing j with
  | nil => rfl
  | cons e rest ih =>
    obtain ⟨a, w⟩ := e
    simp only [sparseWfFrom, Bool.and_eq_true, decide_eq_true_eq] at hm
    rw [sparseRead, if_neg (by omega)]
    exact ih (j := a + 1) (by omega) hm.2

theorem sparseRead_write_same {u : α} {m : List (Nat × α)} {j k : Nat} {v : α} (hm : sparseWfFrom u j m = true) :
    sparseRead u (sparseWrite u m k v) k = v := by
  induction m generalizing j with
  | nil => simp only [sparseWrite]; split <;> simp [sparseRead, *]
  | cons e rest ih =>
    obtain ⟨a, w⟩ := e
    simp only [sparseWfFrom, Bool.and_eq_true, decide_eq_true_eq] at hm
    simp only [sparseWrite]
    split
    · split
      · rename_i hka hv
        rw [hv, sparseRead, if_neg (by omega)]
        exact sparseRead_below (by omega) hm.2
      · simp [sparseRead]
    · split
      · rename_i hka
        subst hka
        split
        · rename_i hv
          rw [hv]
          exact sparseRead_below (Nat.lt_succ_self _) hm.2
        · simp [sparseRead]
      · rename_i h1 h2
        rw [sparseRead, if_neg (fun h => h2 h.symm)]
        exact ih hm.2

/-- A write leaves every other line as it was. -/
theorem sparseRead_write_other {u : α} {m : List (Nat × α)} {i k : Nat} {v : α} (h : i ≠ k) :
    sparseRead u (sparseWrite u m k v) i = sparseRead u m i := by
  induction m with
  | nil =>
    simp only [sparseWrite]
    split
    · rfl
    · simp [sparseRead, Ne.symm h]
  | cons e rest ih =>
    obtain ⟨a, w⟩ := e
    simp only [sparseWrite]
    split
    · split
      · rfl
      · simp [sparseRead, Ne.symm h]
    · split
      · rename_i hka
        subst hka
        split <;> simp [sparseRead, Ne.symm h]
      · simp only [sparseRead, ih]

/-- A write keeps the canonical form of the DRAM contents. -/
theorem dramWrite_wf {m : Dram} {k : Nat} {v : Line} (hm : dramWf m = true) : dramWf (dramWrite m k v) = true :=
  sparseWrite_wf (Nat.zero_le k) hm

/-- A read after a write to the same line gives what was written. -/
theorem dramRead_write_same {m : Dram} {k : Nat} {v : Line} (hm : dramWf m = true) :
    dramRead (dramWrite m k v) k = v := sparseRead_write_same hm

/-- A write leaves every other line as it was. -/
theorem dramRead_write_other {m : Dram} {i k : Nat} {v : Line} (h : i ≠ k) :
    dramRead (dramWrite m k v) i = dramRead m i := sparseRead_write_other h

/-- Replacing a line's flipped bits keeps their canonical form. -/
theorem flipsWrite_wf {m : FlipMap} {k : Nat} {v : Flips} (hm : flipsWf m = true) :
    flipsWf (flipsWrite m k v) = true := sparseWrite_wf (Nat.zero_le k) hm

/-- A line's flipped bits are those last put there. -/
theorem flipsRead_write_same {m : FlipMap} {k : Nat} {v : Flips} (hm : flipsWf m = true) :
    flipsRead (flipsWrite m k v) k = v := sparseRead_write_same hm

/-- Every other line's flipped bits stay. -/
theorem flipsRead_write_other {m : FlipMap} {i k : Nat} {v : Flips} (h : i ≠ k) :
    flipsRead (flipsWrite m k v) i = flipsRead m i := sparseRead_write_other h

/-- The contents after either reset are in canonical form. -/
theorem dramLaw_reset : dramLaw State.reset := ⟨rfl, rfl⟩

/-- A completed write, as the state shows it: the line's data, and no flipped bit in it. -/
theorem storeLine_dram {k : Nat} {v : Line} {s : State} : (storeLine k v s).dram = dramWrite s.dram k v := rfl

theorem storeLine_flips {k : Nat} {v : Line} {s : State} :
    (storeLine k v s).flips = flipsWrite s.flips k Flips.none := rfl

theorem storeLine_law {k : Nat} {v : Line} {s : State} (h : dramLaw s) : dramLaw (storeLine k v s) :=
  ⟨dramWrite_wf h.1, flipsWrite_wf h.2⟩

/-- A completed read, as the state shows it: the flipped bits it met stay. -/
theorem popRead_flips {f : LineFlips} {a : Access} {s : State} :
    (popRead f a s).flips = flipsWrite s.flips a.memLine (flipsMet f a s) := by simp [popRead]

theorem popRead_law {f : LineFlips} {a : Access} {s : State} (h : dramLaw s) : dramLaw (popRead f a s) := by
  simpa [dramLaw, popRead_flips, popRead] using ⟨h.1, flipsWrite_wf h.2⟩

/-- Bytes that spell a number read as that number (R172, Byte order). -/
theorem field_of_bytes {l : Line} {n off v : Nat}
    (h : ∀ i < n, (getByte l (off + i)).toNat = v / 256 ^ i % 256) : field l off n = v % 256 ^ n := by
  induction n generalizing off v with
  | zero => simp [field, Nat.mod_one]
  | succ n ih =>
    have hrest : field l (off + 1) n = v / 256 % 256 ^ n := ih fun i hi => by
      rw [Nat.add_assoc, Nat.add_comm 1 i, h (i + 1) (by omega), Nat.div_div_eq_div_mul, pow_succ']
    have hfirst : (getByte l off).toNat = v % 256 := by simpa using h 0 n.succ_pos
    rw [field, hrest, hfirst, pow_succ', Nat.mod_mul]

/-- Lines that agree on a field's bytes agree on the field. -/
theorem field_congr {a b : Line} {n off : Nat} (h : ∀ i < n, getByte a (off + i) = getByte b (off + i)) :
    field a off n = field b off n := by
  induction n generalizing off with
  | zero => rfl
  | succ n ih =>
    have hrest : field a (off + 1) n = field b (off + 1) n := ih fun i hi => by
      rw [Nat.add_assoc, Nat.add_comm 1 i]; exact h (i + 1) (by omega)
    rw [field, field, hrest, show getByte a off = getByte b off from h 0 n.succ_pos]

/-- Eight bytes read as a little-endian number are the word they spell. -/
theorem wordOf_of_bytes {l : Line} {w : Nat} {d : BitVec 64}
    (h : ∀ i, i < 8 → getByte l (8 * w + i) = d.extractLsb' (8 * i) 8) : wordOf l w = d := by
  have hd : field l (8 * w) 8 = d.toNat % 256 ^ 8 := field_of_bytes fun i hi => by
    rw [h i hi, BitVec.extractLsb'_toNat, Nat.shiftRight_eq_div_pow, pow_mul]
    rfl
  have hlt : d.toNat % 256 ^ 8 = d.toNat := Nat.mod_eq_of_lt d.isLt
  rw [wordOf, hd, hlt, BitVec.ofNat_toNat, BitVec.setWidth_eq]

/-- A word that the code passes with other data reads as those data (R108). -/
theorem wordOf_delivered {o : EccObs} {written : Line} {w : Nat} {d : BitVec 64} (hw : w < 8)
    (h : o[w]? = some (.manyClean d) ∨ o[w]? = some (.manyCorrected d)) : wordOf (deliveredLine o written) w = d := by
  refine wordOf_of_bytes fun i hi => ?_
  simp only [getByte, deliveredLine]
  rw [Vector.getElem?_eq_getElem (by omega)]
  simp only [Vector.getElem_ofFn, deliveredByte, Option.getD_some, show (8 * w + i) / 8 = w by omega,
    show (8 * w + i) % 8 = i by omega]
  rcases h with h | h <;> simp [h]

/-- Every other word reads as it was written (R108). -/
theorem wordOf_delivered_plain {o : EccObs} {written : Line} {w : Nat} (hw : w < 8)
    (h : ∀ d, o[w]? ≠ some (.manyClean d) ∧ o[w]? ≠ some (.manyCorrected d)) :
    wordOf (deliveredLine o written) w = wordOf written w := by
  refine congrArg (BitVec.ofNat 64) (field_congr fun i hi => ?_)
  conv_lhs => rw [getByte, deliveredLine, Vector.getElem?_eq_getElem (by omega)]
  rw [Option.getD_some, Vector.getElem_ofFn, deliveredByte, show (8 * w + i) / 8 = w by omega]
  rcases h' : o[w]? with _ | x
  · rfl
  · cases x <;> simp_all

/-- A line is UNCORRECTABLE when one of its words is (R108). -/
theorem lineOutcome_uncorrectable_iff {o : EccObs} :
    lineOutcome o = .uncorrectable ↔ ∃ x ∈ o, wordOutcome x = .uncorrectable := by
  have worst : ∀ (l : EccObs) a, l.foldl (fun a w => worse a (wordOutcome w)) a = .uncorrectable ↔
      a = .uncorrectable ∨ ∃ x ∈ l, wordOutcome x = .uncorrectable := by
    intro l
    induction l with
    | nil => simp
    | cons x l ih =>
      intro a
      simp only [List.foldl_cons, ih, List.mem_cons, exists_eq_or_imp]
      cases a <;> cases h : wordOutcome x <;> simp [worse]
  simpa [lineOutcome] using worst o .clean

/-- A line is CLEAN when all of its words are (R108). -/
theorem lineOutcome_clean_iff {o : EccObs} : lineOutcome o = .clean ↔ ∀ x ∈ o, wordOutcome x = .clean := by
  have worst : ∀ (l : EccObs) a, l.foldl (fun a w => worse a (wordOutcome w)) a = .clean ↔
      a = .clean ∧ ∀ x ∈ l, wordOutcome x = .clean := by
    intro l
    induction l with
    | nil => simp
    | cons x l ih =>
      intro a
      simp only [List.foldl_cons, ih, List.mem_cons, forall_eq_or_imp]
      cases a <;> cases h : wordOutcome x <;> simp [worse]
  simpa [lineOutcome] using worst o .clean

end Sys2Proof.Machine
end

