-- ==== Sys2Proof/Laws/Reports.lean ====
section
/-! SUPPORT. Reports taken one after another (R156), up to the RECORD_RESULT that ends a record's event (R154). -/

namespace Sys2Proof.Machine

/-- One more saturating increment. -/
theorem satAdd_succ {w : Nat} (c : BitVec w) (n : Nat) : satInc (satAdd c n) = satAdd c (n + 1) := by
  rw [satInc_eq, satAdd_add]

/-- An event without a report. -/
theorem reportsTaken_none {s t : State} (h : t.rep = s.rep) : ReportsTaken s t 0 := by
  refine ⟨by rw [h]; simp, fun g hg hr => ⟨fun _ => by simp [h, hg], fun room _ _ hn => ?_⟩, fun _ => by simp [h, satAdd_zero]⟩
  obtain rfl : room = 0 := by omega
  simp [h, hg, satAdd_zero]

/-- A report that an ACTIVE ring with room takes. -/
theorem reportAt_takes {time : Stamp} {code : Nat} {body : List FieldSpec} {s : State} {g : Ring}
    (hg : s.rep.ring = some g) (hr : g.releasing = false) (hu : unread g < g.size - 1) :
    (reportAt time code body s).rep = { s.rep with
      ring := some { g with made := g.made + 1 }, sequence := s.rep.sequence + 1 } := by
  simp only [reportAt, hg, ringTakes, hr, hu, Bool.not_false, Bool.true_and, decide_true, if_true]
  split <;> rfl

/-- A report that no ring takes. -/
theorem reportAt_drops {time : Stamp} {code : Nat} {body : List FieldSpec} {s : State}
    (h : ∀ g, s.rep.ring = some g → g.releasing = true ∨ g.size - 1 ≤ unread g) :
    (reportAt time code body s).rep = { s.rep with
      sequence := s.rep.sequence + 1, dropped := satInc s.rep.dropped } := by
  simp only [reportAt]
  split
  · rename_i g hg
    have : ringTakes g = false := by
      rcases h g hg with h | h <;> simp [ringTakes, h]
    simp [this]
  · rfl

/-- One report more. -/
theorem reportsTaken_succ {time : Stamp} {code : Nat} {body : List FieldSpec} {s t : State} {n : Nat}
    (h : ReportsTaken s t n) : ReportsTaken s (reportAt time code body t) (n + 1) := by
  obtain ⟨hs, ha, hd⟩ := h
  have hseq : ∀ c : BitVec 32, c + BitVec.ofNat 32 n + 1 = c + BitVec.ofNat 32 (n + 1) := fun c => by
    rw [BitVec.ofNat_add, BitVec.add_assoc]; rfl
  refine ⟨?_, fun g hg hr => ?_, fun hall => ?_⟩
  · by_cases hx : ∃ g, t.rep.ring = some g ∧ g.releasing = false ∧ unread g < g.size - 1
    · obtain ⟨g, hg, hr, hu⟩ := hx
      rw [reportAt_takes hg hr hu, hs]; exact hseq _
    · rw [reportAt_drops fun g hg => ?_, hs]
      · exact hseq _
      · by_contra hc
        simp only [not_or, Bool.not_eq_true, not_le] at hc
        exact hx ⟨g, hg, hc⟩
  · have hfull : ∀ room, g.consumed ≤ g.made → room = g.size - 1 - unread g → room ≤ n →
        (reportAt time code body t).rep.ring = some { g with made := g.made + room } ∧
          (reportAt time code body t).rep.dropped = satAdd s.rep.dropped (n + 1 - room) := by
      intro room hc hroom hn
      obtain ⟨hring, hdrop⟩ := (ha g hg hr).2 room hc hroom hn
      rw [reportAt_drops fun x hx => ?_]
      · exact ⟨hring, by rw [Nat.succ_sub hn, ← satAdd_succ, ← hdrop]⟩
      · obtain rfl := Option.some.inj (hring.symm.trans hx)
        right; simp only [unread] at *; omega
    have hroomy : unread g + (n + 1) ≤ g.size - 1 →
        (reportAt time code body t).rep.ring = some { g with made := g.made + (n + 1) } ∧
          (reportAt time code body t).rep.dropped = s.rep.dropped := by
      intro hu
      obtain ⟨hring, hdrop⟩ := (ha g hg hr).1 (by omega)
      rw [reportAt_takes hring hr (by simp only [unread] at *; omega)]
      exact ⟨rfl, hdrop⟩
    refine ⟨hroomy, fun room hc hroom hn => ?_⟩
    rcases Nat.lt_or_ge n room with h | h
    · obtain rfl : room = n + 1 := by omega
      obtain ⟨h1, h2⟩ := hroomy (by omega)
      exact ⟨h1, by simp [h2, satAdd_zero]⟩
    · exact hfull room hc hroom h
  · obtain ⟨hring, hdrop⟩ := hd hall
    rw [reportAt_drops fun g hg => .inl (hall g (hring ▸ hg))]
    exact ⟨hring, by rw [← satAdd_succ, ← hdrop]⟩

/-- The report that follows `k` others is made as the `k`-th entry after those of `s`, where the ring has room. -/
theorem reportAt_behind {time : Stamp} {code : Nat} {body : List FieldSpec} {s t : State} {g : Ring} {k : Nat}
    (h : ReportsTaken s t k) (hw : windowOfKind t .report = windowOfKind s .report) (hg : s.rep.ring = some g)
    (hr : g.releasing = false) (hu : unread g + k < g.size - 1) :
    ReportAt s (reportAt time code body t) g k time code body := by
  obtain ⟨hring, -⟩ := (h.2.1 g hg hr).1 (by omega)
  intro w hwin
  have := reportAt_made (time := time) (code := code) (body := body) hring hr
    (by simp only [unread] at *; omega) w (hw.trans hwin)
  simpa [h.1] using this

end Sys2Proof.Machine
end

