-- ==== Sys2Proof/Tests/Slice0.lean ====
section
/-! SUPPORT. The model's own tests: ill-formed commands that `Instr.wellFormed` refuses, small tests of the rows with
results from the manual, and for each statement with hypotheses a witness that meets them. -/

namespace Sys2Proof.Tests

set_option Elab.async false

open Sys2Proof Sys2Proof.Machine

/-! ### Well-formedness -/

/-- What a read finds new in a line: these stored bits of word 0, and no other. -/
def flipsIn (v : BitVec 72) (many : ManyFlips) : LineFlips := ⟨v, many⟩ :: List.replicate 7 ⟨0, .uncorrectable⟩

/-- No bit flipped. -/
def cleanLine : LineFlips := flipsIn 0 .uncorrectable

/-- One bit flipped. -/
def correctedLine : LineFlips := flipsIn 1 .uncorrectable

/-- Two bits of a word flipped, a check bit among them. -/
def lostLine : LineFlips := flipsIn (1 + 2 ^ 71) .uncorrectable

theorem test_wf_modem_overwrite_refused : (Instr.descriptorOverwrite .modem).wellFormed = false := by decide
theorem test_wf_site_overwrite : (Instr.descriptorOverwrite .site).wellFormed = true := by decide
theorem test_wf_short_observation_refused :
    [Instr.portReadComplete [], .descriptorReadJudged [⟨0, .uncorrectable⟩], .rmwReadComplete (⟨0, .uncorrectable⟩ :: cleanLine),
      .internalPartialReadComplete [], .scrubReadComplete [], .copyReadComplete [], .marchReadComplete []].all
      (fun c => c.wellFormed == false) = true := by decide
theorem test_wf_observation :
    [Instr.portReadComplete cleanLine, .descriptorReadJudged correctedLine, .marchReadComplete lostLine].all
      Instr.wellFormed = true := by decide

/-! ### Builders -/

/-- A write with correct parity. -/
def writeOf (line : Nat) (mask : BitVec 64) (d : Line) : LineRequest :=
  .write (BitVec.ofNat 30 line) 0 mask d (oddOnes (BitVec.ofNat 30 line))
    (BitVec.ofNat 8 ((List.range 8).foldl (fun a w => if wordOdd d w then a + 2 ^ w else a) 0))

/-- A read with correct parity. -/
def readOf (line : Nat) : LineRequest := .read (BitVec.ofNat 30 line) 0 (oddOnes (BitVec.ofNat 30 line))

/-- A full-line write of fields. -/
def fullWrite (line : Nat) (fs : List FieldSpec) : LineRequest := writeOf line (BitVec.allOnes 64) (buildLine fs)

/-- A control record: line 0 lies in the control window with the straps at 00. -/
def recordOf (kind : Nat) (fs : List FieldSpec) : LineRequest := fullWrite 0 ([⟨0, 1, 0xC6⟩, ⟨1, 1, kind⟩] ++ fs)

/-- A port holds a request, not yet classified. -/
def waiting (p : Port) (r : LineRequest) (s : State) : State :=
  { s with path := { s.path with
    reqs := s.path.reqs ++ [⟨s.path.nextId, reqLine r, .unclassified, .port p r none none⟩], nextId := s.path.nextId + 1 } }

/-- A request with its access at the memory port, naming its own line. -/
def issued (line : Nat) (job : Job) (k : AccessKind) (s : State) : State :=
  { s with path := { s.path with
    reqs := s.path.reqs ++ [⟨s.path.nextId, line, .issued line, job⟩], nextId := s.path.nextId + 1
    memPort := s.path.memPort ++ [⟨s.path.nextId, line, line, k, true, false⟩] } }

/-- The access that `issued` puts at an empty memory port, as request 0. -/
def accessAt (line : Nat) (k : AccessKind) : Access := ⟨0, line, line, k, true, false⟩

/-- All six permissions. -/
def allowed : Permissions := ⟨true, true, true, true, true, true⟩

/-- Every kind of window, with room left in the table. -/
def testWindows : Vector (Option Window) 16 :=
  #v[some (Initial.controlWindow 0), some ⟨.report, 1, 3, none, allowed⟩, some ⟨.txRing, 16, 1, some .t0, allowed⟩,
    some ⟨.buffer, 17, 3, some .t0, allowed⟩, some ⟨.partTx, 32, 17, none, allowed⟩, some ⟨.status, 64, 1, none, allowed⟩,
    some ⟨.notice, 65, 1, none, allowed⟩, some ⟨.spare, 80, 4, none, ⟨false, false, false, false, false, false⟩⟩,
    some ⟨.rxRing, 96, 1, none, allowed⟩, some ⟨.timingRx, 97, 1, none, allowed⟩, some ⟨.testRx, 98, 1, none, allowed⟩,
    none, none, none, none, none]

/-- A link that is UP on profile 3 of the valid profiles 3 and 5. -/
def linkUp : LinkMonitor :=
  { Initial.link with
    profiles := (Initial.link.profiles.setIfInBounds 3 ⟨true, 100000, 20, 50, 60⟩).setIfInBounds 5 ⟨true, 200000, 20, 50, 60⟩
    kept := some ⟨1, 3, 3⟩, etx := some 3, erx := some 3, state := .up, planned := some 3
    statusTimer := some 2000000 }

/-- Classes S and T0 enabled, T0 with credit. -/
def testClasses : PerClass ClassState :=
  { s := { Initial.cls with enabled := true, share := 100, recoveryShare := 200, weight := 1 }
    t0 := { Initial.cls with enabled := true, share := 500, weight := 2, credit := 50000 }
    t1 := Initial.cls, t2 := Initial.cls, t3 := Initial.cls }

/-- A ring of 16 entries, ACTIVE and empty. -/
def emptyRing : Ring := ⟨false, 16, 1, 10, 0, 0, 0, false, none⟩

/-- The part at work: windows defined, the link UP, two classes enabled, the ring ACTIVE. -/
def atWork : State :=
  { State.reset with
    windows := testWindows, link := linkUp
    adm := { State.reset.adm with classes := testClasses }
    rep := { Initial.rep with ring := some emptyRing }
    fault := { Initial.fault with timingUnqualified := Initial.presentCondition } }

/-- A command's next state passes a test. -/
def gives (c : Instr) (s : State) (ok : State → Bool) : Bool :=
  match exec c s with
  | .next t => ok t
  | .fault _ => false
  | .refused _ => false

/-- A response that request `id` holds. -/
def answerOf (t : State) (id : Nat) : Option Response :=
  match findReq t id with
  | some q =>
    match q.stage with
    | .answered x => some x
    | _ => none
  | none => none

/-- A descriptor: ready, kind, class, status, length, sequence and buffer address. -/
def descriptor (ready kind cls status length buffer : Nat) : List FieldSpec :=
  [⟨0, 1, ready⟩, ⟨1, 1, kind⟩, ⟨2, 1, status⟩, ⟨3, 1, cls⟩, ⟨4, 2, length⟩, ⟨8, 8, buffer⟩]

/-! ### Resets, oscillator and time (chapters 3 and 12) -/

/-- R92: the straps at 01 put the control window at page 0x100. -/
theorem test_powerOn_strap : gives (.powerOn 1) atWork (fun t => windowEntry t 0 == some (Initial.controlWindow 1) &&
    (Initial.controlWindow 1).base == 0x100 && t.rep.ring == none) = true := by decide +kernel
/-- R171: the epoch increments, the counter stays, and the link is in DOWN(NO_STATUS). -/
theorem test_resetLineAssert : gives .resetLineAssert { atWork with time := { Initial.time with seconds := 7 } }
    (fun t => t.inReset && t.time.epoch == 1 && t.time.seconds == 7 && t.link.state == .down .noStatus &&
      windowEntry t 7 == windowEntry atWork 7 && windowEntry t 1 == none) = true := by decide +kernel
theorem test_resetLineDeassert : gives .resetLineDeassert { State.reset with inReset := true, fault := Initial.fault }
    (fun t => !t.inReset && t.adm.refillTimer == some 40000 && t.fault.linkDown.raw && t.fault.linkDown.occurrences == 1)
    = true := by decide +kernel
/-- R45: at F = 0 a period adds 25 ns. -/
theorem test_oscillatorPeriod : gives .oscillatorPeriod atWork (fun t => t.time.nanoseconds == 25 && t.now == 1) = true := by
  decide +kernel
/-- Just before a rollover at F = 0. -/
def lastPeriod : State := { atWork with time := { Initial.time with nanoseconds := 999999975, seconds := 9 } }
/-- R45, R55, R56: the seconds increment, the pulse starts, and the message carries the new second. -/
theorem test_rollover : gives .rollover lastPeriod (fun t => t.time.seconds == 10 && t.time.nanoseconds == 0 &&
    t.time.pulse == some 4000001 && t.time.todSending == some ⟨⟨10, 0, false, 0⟩, 1⟩) = true := by decide +kernel
/-- The byte 13 of a message is the sum of the others modulo 256 (11_line_formats.md, Time-of-day message). -/
theorem test_todBytes : (todBytes ⟨10, 0, false, 0⟩).getLastD 0 = 0xAF#8 := by decide +kernel
/-- A second ago: a pulse, a message and a waiting one, and a locking synthesizer have reached their ends. -/
def ending : State :=
  { atWork with
    oscillator := 4000000
    time := { Initial.time with
      pulse := some 4000000, todSending := some ⟨⟨1, 0, false, 0⟩, 0⟩, todWaiting := some ⟨2, 0, false, 0⟩
      synth := ⟨5, 96, 25, true, .locking, some 80000⟩ } }
theorem test_pulseEnd : gives .pulseEnd ending (fun t => t.time.pulse == none) = true := by decide +kernel
/-- R56: 140 bit times at 115,200 bit/s are over after 48,612 periods. -/
theorem test_todMessageEnd : gives .todMessageEnd { ending with oscillator := 48612 }
    (fun t => t.time.todSending == some ⟨⟨2, 0, false, 0⟩, 48612⟩) = true ∧
    gives .todMessageEnd { ending with oscillator := 48611 } (fun t => t.time == ending.time) = true := by decide +kernel
theorem test_synthLockExpiry : gives .synthLockExpiry ending (fun t => t.time.synth.state == .running) = true := by
  decide +kernel

/-! ### Ports, lock station, arbiter (chapters 5 and 6) -/

theorem test_lineRequestTaken : gives (.lineRequestTaken .radio (readOf 100000)) atWork
    (fun t => occupancy t .radio == 1 && t.path.ports.radio.reads == 1) = true := by decide +kernel
/-- R91: an address parity bit that does not fit answers ERROR, with 64 zero bytes for a read. -/
theorem test_requestClassified_parity : gives (.requestClassified .site) (waiting .site (.read 1 5 false) atWork)
    (fun t => answerOf t 0 == some ⟨5, false, some Line.zero⟩ && t.path.ports.site.parity == 1) = true := by
  decide +kernel
/-- R98: a write with an empty byte mask is answered OKAY. -/
theorem test_requestClassified_empty_mask : gives (.requestClassified .radio)
    (waiting .radio (writeOf 100000 0 Line.zero) atWork) (fun t => answerOf t 0 == some ⟨0, true, none⟩) = true := by
  decide +kernel
/-- A read of open memory on its way. -/
def forwardedRead : State :=
  { atWork with path := { atWork.path with
    reqs := [⟨0, 100000, .forwarded, .port .radio (readOf 100000) none none⟩], nextId := 1 } }
/-- R122: an ACTIVE entry redirects page 1,562, in which line 100,000 lies, to its spare page. -/
theorem test_lockStationArrival_redirects : gives (.lockStationArrival (.port .radio))
    { forwardedRead with integ := { atWork.integ with remaps := [⟨1562, 80, .active, .copy, 64, ⟨0, 0⟩⟩] } }
    (fun t => (findReq t 0).map (·.stage) == some (.ready (80 * 64 + 32))) = true := by decide +kernel
/-- R113: a partial write takes the lock of its line. -/
theorem test_lockStationArrival_locks : gives (.lockStationArrival (.port .radio))
    { atWork with path := { atWork.path with
      reqs := [⟨0, 100000, .forwarded, .port .radio (writeOf 100000 1 Line.zero) none none⟩], nextId := 1 } }
    (fun t => t.path.locks == [⟨100000, .portPartial .radio⟩]) = true := by decide +kernel
/-- A read ready for its grant. -/
def readyRead : State :=
  { atWork with path := { atWork.path with
    reqs := [⟨0, 100000, .ready 100000, .port .radio (readOf 100000) none none⟩], nextId := 1 } }
/-- R102: the turn passes from the internal queue to the radio queue, with five of its six grants left. -/
theorem test_arbiterGrant : gives .arbiterGrant readyRead (fun t => t.path.current == .radio && t.path.remaining == 5 &&
    t.path.memPort == [accessAt 100000 (.portRead .radio)] && t.path.grants.radio == 1) = true := by decide +kernel
/-- An answered request. -/
def answered : State :=
  { atWork with path := { atWork.path with
    reqs := [⟨0, 100000, .answered ⟨3, true, none⟩, .port .radio (readOf 100000) none none⟩], nextId := 1 } }
theorem test_responseReturned : gives (.responseReturned .radio) answered
    (fun t => occupancy t .radio == 0 && t.path.lastResponse.radio == some ⟨3, true, none⟩) = true := by decide +kernel

/-! ### Writes that a block observes -/

theorem test_statusWrite : gives .statusWrite
    (waiting .modem (fullWrite 4096 [⟨0, 1, 1⟩, ⟨1, 1, 3⟩, ⟨2, 1, 4⟩]) { atWork with now := 1000 })
    (fun t => t.link.kept == some ⟨1, 3, 4⟩ && t.link.erx == some 3 && t.link.statusTimer == some 2001000 &&
      t.link.statusTaken == 1) = true := by decide +kernel
/-- A frame of line 1024 in flight, debited 12,176 bits. -/
def inFlightState : State :=
  { atWork with adm := { atWork.adm with
    flight := [⟨1024, .t0, 0, 1502, 12176, ⟨0, 0⟩, 0, 4000000⟩] } }
/-- R29: NOT_SENT refunds the debit. -/
theorem test_txCompletion_refund : gives .txCompletion
    (waiting .modem (fullWrite 1024 (descriptor 0 0 1 2 1502 0)) inFlightState)
    (fun t => t.adm.flight == [] && (clsAt t .t0).credit == 62176 && (clsAt t .t0).counters.notSent == 1) = true := by
  decide +kernel
theorem test_descriptorOverwrite : gives (.descriptorOverwrite .site)
    (waiting .site (fullWrite 1024 (descriptor 0 0 1 0 1502 0)) inFlightState)
    (fun t => t.adm.flight == [] && (clsAt t .t0).credit == 50000 && (clsAt t .t0).counters.overwritten == 1) = true := by
  decide +kernel
/-- R37: a received frame counts with its length. -/
theorem test_rxCompletion : gives .rxCompletion (waiting .modem (fullWrite 6144 (descriptor 0 0 1 3 1500 0)) atWork)
    (fun t => (clsAt t .t0).counters.rxFrames == 1 && (clsAt t .t0).counters.rxBytes == 1500) = true := by decide +kernel
/-- R62, R63: an OFFER of domain 0 enters the pending message table. -/
theorem test_frameWrite : gives .frameWrite
    (waiting .modem (fullWrite 6208 ([⟨0, 1, 1⟩, ⟨1, 1, 0⟩, ⟨2, 2, 77⟩] ++ stampFields 6 12 ⟨5, 250⟩)) atWork)
    (fun t => t.xfer.pendingTable == [⟨6208, true, 77, 0, ⟨5, 250⟩, 0⟩]) = true := by decide +kernel
theorem test_returnedLine_stray : gives .returnedLine (waiting .modem (fullWrite 6272 [⟨0, 1, 1⟩]) atWork)
    (fun t => t.loop.strayLines == 1) = true := by decide +kernel

/-! ### The memory port -/

/-- Line 100,000 holds a line that begins with 0xAB. -/
def stored100000 : State := { atWork with dram := [(100000, buildLine [⟨0, 1, 0xAB⟩])] }
theorem test_portReadComplete : gives (.portReadComplete cleanLine)
    (issued 100000 (.port .radio (readOf 100000) none none) (.portRead .radio) stored100000)
    (fun t => answerOf t 0 == some ⟨0, true, some (buildLine [⟨0, 1, 0xAB⟩])⟩) = true := by decide +kernel
/-- R112: a marked line answers ERROR, and nothing but MARKED_READS counts. -/
theorem test_portReadComplete_marked : gives (.portReadComplete lostLine)
    (issued 100000 (.port .radio (readOf 100000) none none) (.portRead .radio)
      { stored100000 with integ := { atWork.integ with marked := [100000] } })
    (fun t => answerOf t 0 == some ⟨0, false, some Line.zero⟩ && t.integ.counters.markedReads == 1 &&
      t.integ.counters.uncorrectable == 0) = true := by decide +kernel
theorem test_portWriteComplete : gives .portWriteComplete
    (issued 100000 (.port .radio (fullWrite 100000 [⟨0, 1, 5⟩]) none none) (.portWrite .radio (buildLine [⟨0, 1, 5⟩]))
      { stored100000 with integ := { atWork.integ with marked := [99, 100000] } })
    (fun t => dramRead t.dram 100000 == buildLine [⟨0, 1, 5⟩] && t.integ.marked == [99] &&
      answerOf t 0 == some ⟨0, true, none⟩) = true := by decide +kernel
/-- A modem read of descriptor line 1024, whose buffer is line 1088. -/
def judging (fs : List FieldSpec) (s : State) : State :=
  issued 1024 (.port .modem (readOf 1024) (some (2, ⟨.txRing, 16, 1, some .t0, allowed⟩)) none) .descriptorRead
    { s with dram := [(1024, buildLine fs)] }
/-- R27: an admitted frame of 1,502 bytes with an overhead of 20 debits 12,176 bits. -/
theorem test_descriptorReadJudged_admits : gives (.descriptorReadJudged cleanLine)
    (judging (descriptor 1 0 1 0 1502 (64 * 1088)) atWork)
    (fun t => (clsAt t .t0).credit == 50000 - 12176 && t.adm.flight.map (·.debit) == [12176] &&
      (answerOf t 0).map (·.data) == some (some (buildLine (descriptor 1 0 1 0 1502 (64 * 1088))))) = true := by
  decide +kernel
/-- R25: without credit the descriptor is held, and the modem sees it with ready cleared. -/
theorem test_descriptorReadJudged_holds : gives (.descriptorReadJudged cleanLine)
    (judging (descriptor 1 0 1 0 1502 (64 * 1088))
      { atWork with adm := { atWork.adm with classes := { testClasses with t0 := { testClasses.t0 with credit := 0 } } } })
    (fun t => (clsAt t .t0).held == [⟨1024, 1502, 0⟩] && t.adm.flight == [] &&
      (answerOf t 0).map (·.data) == some (some (buildLine (descriptor 0 0 1 0 1502 (64 * 1088))))) = true := by
  decide +kernel
/-- R114: byte 0 comes from the write, the others from memory. -/
theorem test_rmwReadComplete : gives (.rmwReadComplete correctedLine)
    (issued 100000 (.port .radio (writeOf 100000 1 (buildLine [⟨0, 1, 9⟩])) none none) (.rmwRead .radio)
      { atWork with dram := [(100000, buildLine [⟨0, 2, 0x0807⟩])] })
    (fun t => (findReq t 0).map (·.stage) == some (.writeReady 100000 (buildLine [⟨0, 2, 0x0809⟩])) &&
      t.integ.counters.corrected == 1) = true := by decide +kernel
theorem test_rmwWriteComplete : gives .rmwWriteComplete
    (issued 100000 (.port .radio (writeOf 100000 1 Line.zero) none none) (.rmwWrite .radio (buildLine [⟨0, 1, 9⟩]))
      { atWork with path := { atWork.path with locks := [⟨100000, .portPartial .radio⟩] } })
    (fun t => t.path.locks == [] && dramRead t.dram 100000 == buildLine [⟨0, 1, 9⟩]) = true := by decide +kernel
/-- R115, R23: the write-back clears the ready flag of its descriptor and sets the status NOT_SENT. -/
theorem test_internalPartialReadComplete : gives (.internalPartialReadComplete cleanLine)
    (issued 1024 .writeBack .writeBackRead { atWork with dram := [(1024, buildLine (descriptor 1 0 1 0 20 0))] })
    (fun t => (findReq t 0).map (·.stage) == some (.writeReady 1024 (buildLine (descriptor 0 0 1 2 20 0)))) = true := by
  decide +kernel
theorem test_internalWriteComplete : gives .internalWriteComplete
    (issued 4160 (.notice .s (buildLine [⟨4, 4, 1⟩])) (.noticeWrite (buildLine [⟨4, 4, 1⟩])) atWork)
    (fun t => dramRead t.dram 4160 == buildLine [⟨4, 4, 1⟩] && t.path.reqs == []) = true := by decide +kernel
/-- R69: the descriptor of slot 2 follows its query frame, at line 2 of the window. -/
theorem test_queryFrameWriteComplete : gives .queryFrameWriteComplete
    (issued 2144 (.queryFrame 2 5 6 Line.zero) (.queryFrameWrite Line.zero) atWork)
    (fun t => t.path.reqs.map (fun r => (r.line, r.job)) ==
      [(2050, .slotDescriptor 2 (slotDescriptorLine 1 64 6 (64 * 2144)))]) = true := by decide +kernel
/-- R145: the descriptor of a frame of one line follows that line. -/
theorem test_testFrameWriteComplete : gives .testFrameWriteComplete
    (issued 2112 (.testLine 0 7 1 Line.zero) (.testLineWrite Line.zero) atWork)
    (fun t => t.path.reqs.map (fun r => (r.line, r.job)) ==
      [(2048, .slotDescriptor 0 (slotDescriptorLine 2 64 7 (64 * 2112)))]) = true := by decide +kernel
/-- R156, R160: W advances and the report timer starts. -/
theorem test_reportEntryWriteComplete : gives .reportEntryWriteComplete
    (issued 64 (.reportEntry Line.zero) (.reportWrite Line.zero)
      { atWork with rep := { atWork.rep with ring := some { emptyRing with made := 1 } } })
    (fun t => t.rep.ring == some { emptyRing with made := 1, written := 1, timer := some 400000 }) = true := by
  decide +kernel
theorem test_snapshotLineWriteComplete : gives .snapshotLineWriteComplete
    (issued 143 (.snapshotLine 63 Line.zero) (.snapshotWrite 63 Line.zero)
      { atWork with rep := { atWork.rep with snapshotWriting := true } })
    (fun t => t.rep.snapshotsWritten == 1 && !t.rep.snapshotWriting) = true := by decide +kernel
theorem test_scrubReadComplete : gives (.scrubReadComplete correctedLine) (issued 100000 .scrub .scrubRead stored100000)
    (fun t => (findReq t 0).map (·.stage) == some (.writeReady 100000 (buildLine [⟨0, 1, 0xAB⟩])) &&
      t.integ.counters.corrected == 1) = true := by decide +kernel
theorem test_scrubWritebackComplete : gives .scrubWritebackComplete
    (issued 100000 .scrub (.scrubWrite (buildLine [⟨0, 1, 0xAB⟩])) stored100000)
    (fun t => t.integ.counters.scrubCorrected == 1 && t.integ.counters.scrubLines == 1) = true := by decide +kernel
/-- A copy of page 1,562 to page 80, at line 32. -/
def copying (n : Nat) (s : State) : State :=
  { s with integ := { s.integ with remaps := [⟨1562, 80, .copying, .copy, n, ⟨0, 0⟩⟩] } }
theorem test_copyReadComplete : gives (.copyReadComplete cleanLine) (copying 32 (issued 100000 .copyLine .copyRead stored100000))
    (fun t => t.path.reqs.map (fun r => (r.line, r.job)) == [(5152, .copyWrite (buildLine [⟨0, 1, 0xAB⟩]))]) = true := by
  decide +kernel
/-- R123: at 64 the entry is ACTIVE. -/
theorem test_copyWriteComplete : gives .copyWriteComplete
    (copying 63 (issued 5183 (.copyWrite Line.zero) (.copyWrite Line.zero) stored100000))
    (fun t => t.integ.remaps.map (fun e => (e.state, e.pointer)) == [(.active, 64)]) = true := by decide +kernel
/-- A march over page 1,562 that is in element 2, with SOLID. -/
def marching : State :=
  { atWork with march := { Initial.march with
    state := .running, startPage := 1562, pageCount := 1, element := 2, index := 32 } }
/-- R134: a read that differs from the background fails, with its page listed. -/
theorem test_marchReadComplete : gives (.marchReadComplete cleanLine)
    (issued 100000 (.march none) .marchRead { marching with dram := stored100000.dram })
    (fun t => t.march.failing == [1562] && t.march.failingReads == 1 && t.march.writeNext &&
      t.march.firstFailure == some ⟨2, 100000, .mismatch⟩) = true := by decide +kernel
/-- R133: element 2 goes on with the read of the next line. -/
theorem test_marchWriteComplete : gives .marchWriteComplete
    (issued 100000 (.march (some Line.zero)) (.marchWrite Line.zero)
      { marching with march := { marching.march with writeNext := true } })
    (fun t => t.march.index == 33 && t.march.element == 2 && !t.march.writeNext) = true := by decide +kernel

/-! ### Timers -/

/-- What a link event leaves in the monitor; its news to the other blocks come in an order that is free. -/
theorem linkTaken_gives {ev : LinkMonitor → LinkWork} {b : Bool} {s : State} : (linkTaken ev b s).link = (ev s.link).l :=
  linkTaken_link

/-- R6. -/
theorem test_statusTimerExpiry : ∃ t, exec .statusTimerExpiry { atWork with now := 2000000 } = .next t ∧
    t.link.state = .down .stale ∧ t.link.planned = none ∧ t.link.downEntries = 1 := by
  refine ⟨_, rfl, ?_⟩
  rw [if_pos (by decide +kernel), linkTaken_gives]
  decide +kernel
/-- R7, R10: the restore hold makes E_tx the planned profile; below the floor the link is DEGRADED. -/
theorem test_restoreHoldExpiry : ∃ t, exec .restoreHoldExpiry
    { atWork with link := { linkUp with state := .restoring, planned := none, restoreTimer := some 0, floor := 4 } } = .next t ∧
    t.link.state = .degraded ∧ t.link.planned = some 3 := by
  refine ⟨_, rfl, ?_⟩
  rw [if_pos (by decide +kernel), linkTaken_gives]
  decide +kernel
theorem test_upshiftHoldExpiry : gives .upshiftHoldExpiry
    { atWork with link := { linkUp with kept := some ⟨1, 5, 3⟩, etx := some 5, upshiftTimer := some 0 } }
    (fun t => t.link.planned == some 5 && t.link.upshifts == 1 && t.link.upshiftTimer == none) = true := by decide +kernel
/-- R19, R20: capacity 100,000; S gets its recovery share 20,000 up to its burst; T0 gets 50,000, which its burst of
100,000 takes. -/
theorem test_refillTimerExpiry : gives .refillTimerExpiry { atWork with now := 40000 }
    (fun t => (clsAt t .s).credit == 20000 && (clsAt t .t0).credit == 100000 && t.adm.refillTimer == some 80000) = true := by
  decide +kernel
theorem test_flightTimeout : gives (.flightTimeout 1024) { inFlightState with now := 4000000 }
    (fun t => t.adm.flight == [] && (clsAt t .t0).counters.lost == 1 && (clsAt t .t0).credit == 50000) = true := by
  decide +kernel
/-- A class T0 that has held one descriptor for 50 ms. -/
def heldLong : State :=
  { atWork with
    now := 2000000
    adm := { atWork.adm with classes := { testClasses with
      t0 := { testClasses.t0 with held := [⟨1024, 1502, 0⟩], ageTimer := some 2000000 } } } }
/-- R34 to R36: at the maximum hold age the class is CONGESTED, and a notice is written at line 1 of the window. -/
theorem test_ageTimerExpiry : gives (.ageTimerExpiry .t0) heldLong (fun t => (clsAt t .t0).congested &&
    t.fault.congestion.raw && t.path.reqs.any (fun r => r.line == 4161)) = true := by decide +kernel
/-- An offer, received at 3 s and 100 ns. -/
def offered : Exchange :=
  { offerSeq := 5, a := ⟨2, 0⟩, b := ⟨⟨3, 100⟩, true, 0⟩, querySeq := none, c := none, d := none, state := .offered
    created := 0, expiry := 40000000 }
/-- The engine holds an offer. -/
def withOffer : State := { atWork with now := 5000000, xfer := { atWork.xfer with exchanges := [offered] } }
/-- R67, R69: the query goes to slot 0, and the timer restarts at 8 Hz. -/
theorem test_queryTimerExpiry : gives .queryTimerExpiry withOffer (fun t => slotAt t 0 == .query 5 0 &&
    t.xfer.queryTimer == some 10000000 && t.xfer.counters.queriesSent == 1 && t.path.reqs.map (·.line) == [2112]) = true := by
  decide +kernel
theorem test_exchangeTimeout : gives (.exchangeTimeout 5) { withOffer with now := 40000000 }
    (fun t => t.xfer.exchanges == [] && t.xfer.counters.exchangeTimedOut == 1) = true := by decide +kernel
theorem test_blockTimerExpiry : gives .blockTimerExpiry { atWork with xfer := { atWork.xfer with
      state := .acquire, blockTimer := some 0, block := [⟨1, 2⟩], integral := 9 } }
    (fun t => t.xfer.state == .freerun && t.xfer.block == [] && t.xfer.integral == 9) = true := by decide +kernel
/-- R117: at rate 1 the scrubber takes line 0, and the range of one line is passed. -/
theorem test_scrubTimerExpiry : gives .scrubTimerExpiry
    { atWork with now := 40000, integ := { atWork.integ with scrubber := { atWork.integ.scrubber with rate := 1 } } }
    (fun t => t.integ.scrubber.passCount == 1 && t.integ.scrubber.allowance == 0 &&
      t.path.reqs == [⟨0, 0, .forwarded, .scrub⟩]) = true := by decide +kernel
/-- A session of two frames of one line. -/
def looping : State :=
  { atWork with loop := { Initial.loop with
    state := .running, params := ⟨2, 1, 10, 3, 0, 100, 0, 0⟩, identifier := 1, lastIdentifier := 1, sendTimer := some 40000 } }
theorem test_sendTimerExpiry : gives .sendTimerExpiry { looping with now := 40000 }
    (fun t => t.loop.outstanding == [⟨0, 0, 40000, .posted, none, 0⟩] && t.loop.sendTimer == some 80000 &&
      slotAt t 0 == .test 0 && t.path.reqs.map (·.line) == [2112]) = true := by decide +kernel
/-- R145: byte 17 of the first line of frame 0 is the seed and its place. -/
theorem test_testFrameLine : getByte (testFrameLine 1 looping.loop.params 0 0) 17 = 4#8 := by decide +kernel
theorem test_lossTimeout : gives (.lossTimeout 0) { looping with
      now := 4000000, loop := { looping.loop with nextSeq := 1, outstanding := [⟨0, 0, 0, .posted, none, 0⟩] } }
    (fun t => t.loop.outstanding == [] && t.loop.counts.lost == 1 && t.loop.state == .running) = true := by decide +kernel
theorem test_reportTimerExpiry : gives .reportTimerExpiry
    { atWork with rep := { atWork.rep with ring := some { emptyRing with made := 1, written := 1, timer := some 0 } } }
    (fun t => t.rep.ring == some { emptyRing with made := 1, written := 1, timeoutFlag := true }) = true := by decide +kernel
/-- R166: an event condition is clear again when its retry timer expires. -/
theorem test_retryTimerExpiry : gives (.retryTimerExpiry .portParity) { atWork with fault := { atWork.fault with
      portParity := ⟨.follow, false, true, false, some 0, 1⟩, line := true } }
    (fun t => !t.fault.portParity.raw && t.fault.portParity.timer == none && !t.fault.line) = true := by decide +kernel

/-! ### Records (chapters 1 to 10) -/

/-- A record at the site port of the part at work. -/
def withRecord (kind : Nat) (fs : List FieldSpec) (s : State) : State := waiting .site (recordOf kind fs) s

theorem test_controlWriteUnmarked : gives .controlWriteUnmarked (waiting .site (fullWrite 0 [⟨0, 1, 0xC7⟩]) atWork)
    (fun t => t.dec == { Initial.dec with ignored := 1 } && t.rep.sequence == 0) = true := by decide +kernel
/-- R153, R154: kind 0x12 is unknown; the result is the entry of the ring's first line. -/
theorem test_recordPartialOrKind : gives .recordPartialOrKind (withRecord 0x12 [⟨2, 1, 0x77⟩] atWork)
    (fun t => t.dec == { Initial.dec with kind := 1 } && (t.path.reqs.map (fun r => (r.line, r.job))).getLast? ==
      some (64, .reportEntry (buildLine [⟨0, 1, 1⟩, ⟨1, 1, 1⟩, ⟨24, 1, 0x12⟩, ⟨25, 1, 0x77⟩, ⟨26, 1, 2⟩]))) = true := by
  decide +kernel
/-- The fields of a WINDOW record: index, kind, class, permissions, base page and size. -/
def windowFields (i k c p page n : Nat) : List FieldSpec :=
  [⟨4, 1, i⟩, ⟨5, 1, k⟩, ⟨6, 1, c⟩, ⟨7, 1, p⟩, ⟨8, 8, 4096 * page⟩, ⟨16, 4, n⟩]
theorem test_windowRecord : gives .windowRecord (withRecord 0x01 (windowFields 11 4 1 0x3F 200 2) atWork)
    (fun t => windowEntry t 11 == some ⟨.buffer, 200, 2, some .t0, allowed⟩ && t.dec.applied == 1) = true := by
  decide +kernel
/-- R99: a second STATUS window is refused with CONFLICT. -/
theorem test_windowRecord_conflict : gives .windowRecord (withRecord 0x01 (windowFields 11 8 0 0x3F 200 1) atWork)
    (fun t => windowEntry t 11 == none && t.dec.conflict == 1) = true := by decide +kernel
/-- The fields of a PROFILE record. -/
def profileFields (i valid overhead capacity tx rx : Nat) : List FieldSpec :=
  [⟨4, 1, i⟩, ⟨5, 1, valid⟩, ⟨6, 1, overhead⟩, ⟨8, 4, capacity⟩, ⟨12, 4, tx⟩, ⟨16, 4, rx⟩]
/-- R14, R11: a changed latency steps the epoch. -/
theorem test_profileRecord : gives .profileRecord (withRecord 0x02 (profileFields 5 1 20 200000 50 61) atWork)
    (fun t => profileAt t.link 5 == ⟨true, 200000, 20, 50, 61⟩ && t.time.epoch == 1 && t.link.planned == some 3) = true := by
  decide +kernel
/-- R13: profile 4 may not reach the capacity of profile 5. -/
theorem test_profileRecord_order : gives .profileRecord (withRecord 0x02 (profileFields 4 1 20 200000 50 60) atWork)
    (fun t => t.dec.order == 1) = true := by decide +kernel
/-- The fields of a CLASS record: class, needs-timing, weight, share, recovery share, burst, high, low, age. -/
def classFields (c w share recovery burst : Nat) : List FieldSpec :=
  [⟨4, 1, c⟩, ⟨6, 1, w⟩, ⟨8, 2, share⟩, ⟨10, 2, recovery⟩, ⟨12, 2, burst⟩, ⟨14, 2, 500⟩, ⟨16, 2, 100⟩, ⟨18, 2, 50⟩]
/-- R40: the credit is cut to the new burst. -/
theorem test_classRecord : gives .classRecord (withRecord 0x03 (classFields 1 7 800 0 30) atWork)
    (fun t => (clsAt t .t0).credit == 30000 && (clsAt t .t0).share == 800 && (clsAt t .t0).weight == 7) = true := by
  decide +kernel
/-- R39: 801 and class S's recovery share of 200 exceed 1,000. -/
theorem test_classRecord_conflict : gives .classRecord (withRecord 0x03 (classFields 1 7 801 0 30) atWork)
    (fun t => (clsAt t .t0).share == 500 && t.dec.conflict == 1) = true := by decide +kernel
/-- R41, R42: class T0 is disabled and T1 enabled. -/
theorem test_admitRecord : gives .admitRecord (withRecord 0x04 [⟨5, 1, 2⟩, ⟨6, 1, 1⟩, ⟨10, 2, 70⟩] atWork)
    (fun t => !(clsAt t .t0).enabled && (clsAt t .t0).credit == 0 && (clsAt t .t1).enabled &&
      t.adm.flightTimeout == 70) = true := by decide +kernel
theorem test_linkRecord : gives .linkRecord
    (withRecord 0x05 [⟨4, 1, 3⟩, ⟨6, 2, 60⟩, ⟨8, 2, 1⟩, ⟨10, 2, 2⟩] atWork)
    (fun t => t.link.floor == 3 && t.link.statusTimeout == 60 && t.link.state == .up && t.link.upshiftHold == 2) = true := by
  decide +kernel
/-- The fields of a TIMING record at the defaults of R86, but for the domain. -/
def timingFields (domain : Nat) : List FieldSpec :=
  [⟨4, 1, domain⟩, ⟨5, 1, 8⟩, ⟨6, 1, 8⟩, ⟨7, 1, 1⟩, ⟨8, 1, 4⟩, ⟨9, 1, 8⟩, ⟨10, 2, 1000⟩, ⟨16, 4, 5000000⟩,
    ⟨20, 4, 100000⟩, ⟨24, 4, 1000⟩, ⟨28, 2, 10⟩, ⟨30, 4, 10000⟩]
theorem test_timingRecord : gives .timingRecord (withRecord 0x06 (timingFields 9) atWork)
    (fun t => t.xfer.params == { Initial.timingParams with domain := 9 }) = true := by decide +kernel
theorem test_timesetRecord : gives .timesetRecord (withRecord 0x07 [⟨8, 6, 1000⟩, ⟨16, 4, 999999999⟩] atWork)
    (fun t => timeNow t == ⟨1000, 999999999⟩ && t.time.epoch == 1) = true := by decide +kernel
theorem test_synthRecord : gives .synthRecord (withRecord 0x08 [⟨4, 1, 1⟩, ⟨5, 1, 4⟩, ⟨6, 1, 100⟩, ⟨7, 1, 10⟩] atWork)
    (fun t => t.time.synth == ⟨4, 100, 10, true, .locking, some 80000⟩) = true := by decide +kernel
/-- R106: with a high mark of 1 the one request held sets LOAD_HIGH. -/
theorem test_portsRecord : gives .portsRecord
    (withRecord 0x09 [⟨4, 1, 1⟩, ⟨5, 1, 2⟩, ⟨6, 1, 3⟩, ⟨7, 1, 15⟩, ⟨8, 1, 0⟩, ⟨9, 1, 1⟩] atWork)
    (fun t => t.path.weights == ⟨1, 2, 3, 15⟩ && t.path.loadHigh && t.path.loadHighEntries == 1) = true := by decide +kernel
theorem test_scrubRecord : gives .scrubRecord
    (withRecord 0x0A [⟨4, 1, 64⟩, ⟨5, 1, 1⟩, ⟨6, 1, 9⟩, ⟨8, 8, 64 * 7⟩, ⟨16, 8, 64 * 8⟩] atWork)
    (fun t => t.integ.scrubber.rate == 64 && t.integ.scrubber.position == 7 && t.integ.scrubber.endLine == 8 &&
      t.integ.autoRemap && t.integ.suspectThreshold == 9) = true := by decide +kernel
/-- R120, R123: the entry takes the pool's lowest page, and its copy begins at once. -/
theorem test_remapRecord : gives .remapRecord (withRecord 0x0B [⟨8, 8, 4096 * 1562⟩] atWork)
    (fun t => t.integ.remaps == [⟨1562, 80, .copying, .copy, 0, ⟨0, 0⟩⟩]) = true := by decide +kernel
/-- The fields of a MEMTEST record. -/
def memtestFields (action page n : Nat) : List FieldSpec := [⟨4, 1, action⟩, ⟨8, 8, 4096 * page⟩, ⟨16, 2, n⟩]
/-- R133: element 1 begins with a write of the first line. -/
theorem test_memtestStart : gives .memtestStart (withRecord 0x0C (memtestFields 1 1562 2) atWork)
    (fun t => t.march.state == .running && t.march.element == 1 &&
      t.path.reqs.any (fun r => r == ⟨1, 99968, .forwarded, .march (some Line.zero)⟩)) = true := by decide +kernel
theorem test_memtestSuspend : gives .memtestSuspend (withRecord 0x0C [⟨4, 1, 2⟩] marching)
    (fun t => t.march.state == .suspended && t.march.causeManual) = true := by decide +kernel
theorem test_memtestResume : gives .memtestResume (withRecord 0x0C [⟨4, 1, 3⟩]
      { marching with march := { marching.march with state := .suspended, causeManual := true } })
    (fun t => t.march.state == .running && !t.march.causeManual) = true := by decide +kernel
theorem test_memtestStop : gives .memtestStop (withRecord 0x0C [⟨4, 1, 4⟩] marching)
    (fun t => t.march.state == .aborted && t.march.outcome == some .aborted && t.march.abortedCount == 1) = true := by
  decide +kernel
/-- The fields of a LOOPTEST START of two frames of one line. -/
def looptestFields : List FieldSpec :=
  [⟨4, 1, 1⟩, ⟨5, 1, 1⟩, ⟨6, 1, 3⟩, ⟨8, 2, 2⟩, ⟨10, 2, 10⟩, ⟨12, 2, 100⟩]
theorem test_looptestStart : gives .looptestStart (withRecord 0x0D looptestFields atWork)
    (fun t => t.loop.state == .running && t.loop.identifier == 1 && t.loop.sendTimer == some 40000) = true := by
  decide +kernel
theorem test_looptestStop : gives .looptestStop (withRecord 0x0D [⟨4, 1, 2⟩] looping)
    (fun t => t.loop.state == .aborted && t.loop.cause == some .stop) = true := by decide +kernel
/-- R169: a present level condition enters LATCH with its latch set, and the fault line is asserted. -/
theorem test_faultRecord : gives .faultRecord (withRecord 0x0E [⟨4, 2, 4⟩, ⟨10, 1, 0x12⟩] atWork)
    (fun t => t.fault.timingUnqualified == ⟨.latch, true, true, true, none, 1⟩ && t.fault.line &&
      t.fault.assertions == 1) = true := by decide +kernel
theorem test_clearRecord : gives .clearRecord (withRecord 0x0F [⟨4, 1, 2⟩]
      { atWork with path := { atWork.path with grants := ⟨1, 2, 3, 4⟩ } })
    (fun t => t.path.grants == ⟨0, 0, 0, 0⟩ && t.dec.applied == 1) = true := by decide +kernel
theorem test_reportConfigure : gives .reportConfigure
    (withRecord 0x10 [⟨4, 1, 1⟩, ⟨6, 2, 128⟩, ⟨8, 2, 127⟩, ⟨10, 2, 1⟩] { atWork with rep := Initial.rep })
    (fun t => t.rep.ring == some ⟨false, 128, 127, 1, 1, 0, 0, false, none⟩) = true := by decide +kernel
/-- R157: an index that catches up with M passes the record's own result. -/
theorem test_reportConsume : gives .reportConsume (withRecord 0x10 [⟨4, 1, 2⟩, ⟨12, 2, 3⟩]
      { atWork with rep := { atWork.rep with ring := some { emptyRing with made := 3, written := 3, timer := some 9 } } })
    (fun t => t.rep.ring == some { emptyRing with made := 4, written := 3, consumed := 4 }) = true := by decide +kernel
theorem test_reportRelease : gives .reportRelease (withRecord 0x10 [⟨4, 1, 3⟩] atWork)
    (fun t => t.rep.ring == some { emptyRing with releasing := true, made := 1 }) = true := by decide +kernel
/-- R161: a snapshot makes 64 lines behind the ring's 16, and the record's result follows. -/
theorem test_snapshotRecord : gives .snapshotRecord (withRecord 0x11 [] atWork)
    (fun t => t.rep.snapshotSequence == 1 && t.path.reqs.length == 66 &&
      (t.path.reqs.map (·.line)).take 2 == [0, 80] && (t.path.reqs.map (·.line)).drop 64 == [143, 64]) = true := by
  decide +kernel

/-- Log entry 1: on an empty queue the part idles; else the command at the front is carried out. -/
theorem test_step : step atWork = .next atWork ∧ ∃ t, step (atWork.setPending [.oscillatorPeriod, .pulseEnd]) = .next t ∧
    t.pending = [.pulseEnd] ∧ t.time.nanoseconds = 25 := ⟨rfl, _, rfl, rfl, by decide +kernel⟩
/-- The table gives no row bits, so no word spells a command. -/
theorem test_decodeTableWord : decodeTableWord 16 0xC6 = none ∧ atWork.withFetchWord 16 0xC6 = atWork := ⟨rfl, rfl⟩

/-! ### Witnesses: the hypotheses of the statements can be met -/

/-- The part at work, with a command at the front of its queue. -/
def queued : State := atWork.setPending [.oscillatorPeriod]

theorem step_queued : ∃ t, step queued = .next t := ⟨_, rfl⟩

/-- The line path's law, from checks that evaluate: at most one lock stands, and each access has its request. -/
theorem pathLaw_of {s : State} (h : occupancy s .site ≤ 16 ∧ occupancy s .radio ≤ 16 ∧ occupancy s .modem ≤ 16)
    (g : s.path.locks.length ≤ 1 ∧ (s.path.locks.map (·.line)).Nodup ∧ (s.path.reqs.map (·.id)).Nodup ∧
      (∀ r ∈ s.path.reqs, r.id < s.path.nextId) ∧ (s.path.memPort.map (·.id)).Nodup)
    (k : ∀ a ∈ s.path.memPort, a.id < s.path.nextId ∧ ∃ r ∈ s.path.reqs, r.id = a.id ∧ accessOf r a) : pathLaw s := by
  refine ⟨fun p => by cases p <;> simp [h], le_trans g.1 (by decide), g.2.1,
    fun _ _ => le_trans (List.length_filter_le _ _) g.1, g.2.2.1, g.2.2.2.1, g.2.2.2.2, fun a ha => ?_⟩
  obtain ⟨hid, r, hr, he, hk⟩ := k a ha
  refine ⟨hid, fun _ => ⟨r, hr, he⟩, fun q hq hqe => ?_⟩
  rwa [List.inj_on_of_nodup_map g.2.2.1 hq hr (hqe.trans he.symm)]

/-- As before, with nothing at the memory port. -/
theorem pathLaw_idle {s : State} (h : occupancy s .site ≤ 16 ∧ occupancy s .radio ≤ 16 ∧ occupancy s .modem ≤ 16)
    (g : s.path.locks.length ≤ 1 ∧ (s.path.locks.map (·.line)).Nodup ∧ (s.path.reqs.map (·.id)).Nodup ∧
      ∀ r ∈ s.path.reqs, r.id < s.path.nextId) (e : s.path.memPort = []) : pathLaw s :=
  pathLaw_of h ⟨g.1, g.2.1, g.2.2.1, g.2.2.2, by simp [e]⟩ (by simp [e])

/-- As before, with one access at the memory port, that of the first request. -/
theorem pathLaw_one {s : State} {r : Req} {a : Access}
    (h : occupancy s .site ≤ 16 ∧ occupancy s .radio ≤ 16 ∧ occupancy s .modem ≤ 16)
    (g : s.path.locks.length ≤ 1 ∧ (s.path.locks.map (·.line)).Nodup ∧ (s.path.reqs.map (·.id)).Nodup ∧
      ∀ r ∈ s.path.reqs, r.id < s.path.nextId) (e : s.path.memPort = [a])
    (k : r ∈ s.path.reqs ∧ r.id = a.id ∧ a.id < s.path.nextId) (j : accessOf r a) : pathLaw s :=
  pathLaw_of h ⟨g.1, g.2.1, g.2.2.1, g.2.2.2, by simp [e]⟩ fun x hx => by
    obtain rfl : x = a := by simpa [e] using hx
    exact ⟨k.2.2, r, k.1, k.2.1, j⟩

/-- A claim about the windows of the table, from its sixteen entries. -/
theorem windows_of {s : State} {P : Nat → Window → Prop} (g : ∀ i < 16, ∀ w ∈ windowEntry s i, P i w) (i : Nat)
    (w : Window) (hw : windowEntry s i = some w) : P i w := by
  by_cases hi : i < 16
  · exact g i hi w hw
  · simp [windowEntry, show ¬i < 16 from hi] at hw

theorem remapLaw_of {s : State}
    (h : s.integ.remaps.length ≤ 32 ∧ (s.integ.remaps.map (·.failed)).Nodup ∧ (s.integ.remaps.map (·.spare)).Nodup ∧
      (s.integ.remaps.filter fun e => e.state == .copying).length ≤ 1 ∧
      ∀ e ∈ s.integ.remaps, inSpare s e.spare = true ∧ remapPointerOk e)
    (g : ∀ i < 16, ∀ w ∈ windowEntry s i, w.kind = .spare → w.size ≤ 32) : remapLaw s := by
  obtain ⟨a, b, c, d, e⟩ := h
  exact ⟨a, b, c, d, e, windows_of g⟩

/-- Two windows share no page, and their kinds may stand together (R93). -/
def apart (a b : Window) : Bool :=
  decide ((a.base + a.size ≤ b.base ∨ b.base + b.size ≤ a.base) ∧
    (a.kind = b.kind → a.kind = .rxRing ∨ a.kind = .buffer ∨ (a.kind = .txRing ∧ a.cls ≠ b.cls)))
theorem windowLaw_queued : windowLaw queued :=
  ⟨by decide +kernel,
    fun i w hi hw => windows_of (P := fun i w => i ≠ 0 → w.kind ≠ .control ∧ (1 ≤ w.size ∧ w.size ≤ 65536) ∧
      w.base + w.size ≤ 2 ^ 24 ∧ (w.kind = .partTx → 17 ≤ w.size) ∧ (w.kind = .status ∨ w.kind = .notice → w.size = 1) ∧
      (w.kind = .spare → w.size ≤ 32 ∧ w.perms = ⟨false, false, false, false, false, false⟩) ∧
      (w.cls.isSome = true ↔ w.kind = .txRing ∨ w.kind = .buffer)) (by decide +kernel) i w hw hi,
    fun i j a b hij ha hb => of_decide_eq_true (windows_of (P := fun i a => ∀ j < 16, ∀ b ∈ windowEntry queued j,
        i = j ∨ apart a b = true) (by decide +kernel) i a ha j
      (windows_of (P := fun j _ => j < 16) (fun j hj _ _ => hj) j b hb) b hb |>.resolve_left hij),
    by decide +kernel⟩

theorem witness_StepTakesFrontCommand : queued.pending = [.oscillatorPeriod] ∧ atWork.pending = [] := ⟨rfl, rfl⟩
/-- The flipped bits of a line: these of word 0. -/
def flipsOf (v : BitVec 72) : Flips := Flips.none.set 0 v
theorem witness_DramCanonicalKept :
    dramLaw { queued with dram := [(5, buildLine [⟨0, 1, 1⟩])], flips := [(5, flipsOf 1), (7, flipsOf (2 ^ 71))] } ∧
    ∃ t, step { queued with dram := [(5, buildLine [⟨0, 1, 1⟩])], flips := [(5, flipsOf 1), (7, flipsOf (2 ^ 71))] } = .next t :=
  ⟨by unfold dramLaw; decide +kernel, _, rfl⟩
theorem witness_ClockRangesKept : clockLaw queued ∧ ∃ t, step queued = .next t :=
  ⟨by unfold clockLaw; decide +kernel, step_queued⟩
/-- A read whose judgement admits the frame of its descriptor, at the front of the queue. -/
def admitting : State :=
  (judging (descriptor 1 0 1 0 1502 (64 * 1088)) atWork).setPending [.descriptorReadJudged cleanLine]
theorem admissionLaw_of {s : State} (h : s.adm.classes = testClasses)
    (g : s.adm.flight.length ≤ 64 ∧ (s.adm.flight.map (·.line)).Nodup) : admissionLaw s := by
  have e : ∀ c, clsAt s c = classGet testClasses c := fun c => by simp [clsAt, h]
  refine ⟨fun c => ?_, fun c hc => ?_, ?_, ?_, g.1, g.2, fun _ _ c => ?_⟩
  · rw [e]; cases c <;> (unfold classLaw; decide +kernel)
  · rw [e]; cases c <;> first | rfl | exact absurd rfl hc
  · simp only [e]; decide +kernel
  · simp only [e]; decide +kernel
  · rw [e]; cases c <;> rfl
theorem witness_AdmissionLawKept :
    (admissionLaw (inFlightState.setPending [.oscillatorPeriod]) ∧
      (∃ t, step (inFlightState.setPending [.oscillatorPeriod]) = .next t ∧ t.adm.flight = inFlightState.adm.flight) ∧
      inFlight inFlightState 1024 = true ∧ InDescriptorWindow inFlightState 1024) ∧
    (admissionLaw admitting ∧ pathLaw admitting ∧ inFlight admitting 1024 = false ∧
      (match step admitting with
       | .next t => t.adm.flight.map (·.line)
       | _ => []) = [1024]) :=
  ⟨⟨admissionLaw_of rfl (by decide +kernel), ⟨_, rfl, rfl⟩, by decide +kernel, 2, (windowEntry atWork 2).getD (Initial.controlWindow 0),
      by decide +kernel, by decide +kernel, by decide +kernel⟩,
    admissionLaw_of rfl (by decide +kernel),
    pathLaw_one (by decide +kernel) (by decide +kernel) rfl ⟨List.mem_singleton.2 rfl, rfl, by decide⟩
      ⟨rfl, rfl, .inl ⟨rfl, by decide +kernel⟩⟩, by decide +kernel, by decide +kernel⟩
theorem witness_TransferTablesKept : tableLaw queued ∧ ∃ t, step queued = .next t :=
  ⟨by unfold tableLaw; decide +kernel, step_queued⟩
theorem witness_LinkLawKept : profileLaw queued ∧ linkLaw queued ∧ ∃ t, step queued = .next t :=
  ⟨fun i j hij hj => (by decide +kernel : ∀ j < 12, ∀ i < j, (profileAt queued.link i).valid = true →
      (profileAt queued.link j).valid = true → (profileAt queued.link i).capacity < (profileAt queued.link j).capacity)
      j hj i hij,
    ⟨by decide +kernel, by decide +kernel, by decide +kernel, fun _ => ⟨by decide +kernel, 3, by decide +kernel,
      by decide +kernel, fun e he => by
        obtain rfl : 3 = e := by simpa using (show some 3 = some e from he)
        exact Nat.le_refl _⟩, by decide +kernel⟩, step_queued⟩
/-- A read of a port at the memory port, before a command. -/
def reading : State :=
  issued 100000 (.port .radio (readOf 100000) none none) (.portRead .radio) stored100000
theorem pathLaw_reading : pathLaw reading :=
  pathLaw_one (by decide +kernel) (by decide +kernel) rfl ⟨List.mem_singleton.2 rfl, rfl, by decide⟩
    ⟨rfl, rfl, .inl ⟨rfl, by decide +kernel⟩⟩
theorem pathLaw_queued : pathLaw queued := pathLaw_idle (by decide +kernel) (by decide +kernel) rfl
theorem witness_PathLawKept : pathLaw (reading.setPending [.oscillatorPeriod]) ∧
    ∃ t, step (reading.setPending [.oscillatorPeriod]) = .next t := ⟨pathLaw_reading, _, rfl⟩
theorem witness_LoadLawKept : pathLaw queued ∧ loadLaw queued ∧ ∃ t, step queued = .next t :=
  ⟨pathLaw_queued, ⟨fun q => by cases q <;> decide +kernel, by decide +kernel⟩, step_queued⟩
/-- A read of a port that completes next, with line 7 marked. -/
def completingRead : State :=
  { reading with integ := { reading.integ with marked := [7] } }.setPending [.portReadComplete cleanLine]
theorem witness_MarkLawKept : pathLaw completingRead ∧ markLaw completingRead ∧
    (match step completingRead with
     | .next t => (answerOf t 0).map fun x => x.okay && x.data.isSome
     | _ => none) = some true :=
  ⟨pathLaw_reading, by unfold markLaw; decide +kernel, by decide +kernel⟩
theorem remapLaw_copying : remapLaw (copying 63 queued) :=
  remapLaw_of ⟨by decide +kernel, by decide +kernel, by decide +kernel, by decide +kernel,
    fun e he => by
      obtain rfl : e = ⟨1562, 80, .copying, .copy, 63, ⟨0, 0⟩⟩ := by simpa [copying] using he
      exact ⟨by decide +kernel, by simp [remapPointerOk]⟩⟩ (by decide +kernel)
theorem witness_WindowAndRemapLawsKept : (windowLaw queued ∧ ∃ t, step queued = .next t) ∧
    (remapLaw (copying 63 queued) ∧ ∃ t, step (copying 63 queued) = .next t) :=
  ⟨⟨windowLaw_queued, step_queued⟩, remapLaw_copying, _, rfl⟩
/-- A march with its read at the memory port. -/
def marchReading : State := (issued 100000 (.march none) .marchRead marching).setPending [.oscillatorPeriod]
theorem witness_MarchLawKept : marchLaw marchReading ∧ pathLaw marchReading ∧ fenceLaw marchReading ∧
    fenceUp marchReading = true ∧ ∃ t, step marchReading = .next t := by
  refine ⟨by unfold marchLaw; decide +kernel,
    pathLaw_one (by decide +kernel) (by decide +kernel) rfl ⟨List.mem_singleton.2 rfl, rfl, by decide⟩
      ⟨rfl, rfl, .inl ⟨rfl, rfl⟩⟩,
    ⟨fun _ => ⟨by decide, by decide, windows_of fun i hi w hw _ => ?_⟩, fun r hr _ => ?_, by decide +kernel⟩, rfl, _, rfl⟩
  · exact .inl ((by decide +kernel : ∀ i < 16, ∀ w ∈ windowEntry marchReading i,
      w.base + w.size ≤ marchReading.march.startPage) i hi w hw)
  · obtain rfl : r = ⟨0, 100000, .issued 100000, .march none⟩ := List.mem_singleton.1 hr
    exact ⟨by decide +kernel, by decide +kernel, fun m h => by simpa [eq_comm] using h⟩
theorem witness_LoopLawKept : loopLaw (looping.setPending [.oscillatorPeriod]) ∧
    ∃ t, step (looping.setPending [.oscillatorPeriod]) = .next t := ⟨by unfold loopLaw; decide +kernel, _, rfl⟩
theorem witness_RingLawKept : pathLaw queued ∧ ringLaw queued ∧ queued.rep.ring = some emptyRing ∧
    ∃ t, step queued = .next t :=
  ⟨pathLaw_queued, ⟨by decide +kernel, fun r hr => by
    obtain rfl : r = emptyRing := by simpa using (show some r = some emptyRing from hr.symm)
    decide +kernel⟩, rfl, step_queued⟩
theorem witness_FaultLawKept : faultLaw queued ∧ ∃ t, step queued = .next t :=
  ⟨⟨by decide +kernel, fun c => by cases c <;> decide +kernel⟩, step_queued⟩

/-- An access issued before POWER_ON, at the memory port after it. -/
def outlived (k : AccessKind) : State :=
  { atWork with path := { atWork.path with memPort := [{ accessAt 100000 k with live := false, gone := true }] } }
theorem witness_PowerOnSetsResetValues : ∀ k ∈ [AccessKind.portRead .radio, .descriptorRead, .rmwRead .site, .writeBackRead,
    .scrubRead, .copyRead, .marchRead], ∃ a, Completes (outlived k) a ∧ a.live = false ∧ a.gone = true ∧ a.kind = k :=
  fun _ _ => ⟨_, rfl, rfl, rfl, rfl⟩
/-- The reset line's assertion is made with so many periods in the queue before its end. -/
def assertedFor (n : Nat) : State :=
  { atWork with pending := .refillTimerExpiry :: List.replicate n .oscillatorPeriod ++ [.resetLineDeassert] }
theorem witness_ResetLineKeepsAndClears : atWork.inReset = false ∧ shortAssertion atWork = false ∧
    ({ atWork with xfer := { atWork.xfer with state := .track } } : State).xfer.state = .track ∧
    ({ atWork with inReset := true } : State).inReset = true ∧
    ([0, 39, 40].map fun n => (shortAssertion (assertedFor n), (assertedFor n).inReset)) =
      [(true, false), (true, false), (false, false)] := ⟨rfl, rfl, rfl, rfl, by decide +kernel⟩
theorem witness_ResetEndStartsTimersAndLevels : ({ atWork with inReset := true } : State).inReset = true ∧
    atWork.inReset = false := ⟨rfl, rfl⟩
/-- The period that carries the holdover past its limit, and one that does not. -/
def holdingOver (age : Nat) : State :=
  { lastPeriod with xfer := { atWork.xfer with state := .holdover, holdoverAge := age } }
theorem witness_PeriodAndRollover : (∃ q, q = atWork.time.nanoseconds * 4294967296 + atWork.time.fraction +
      (increment atWork.time.freq).toNat ∧ q / 4294967296 < 1000000000) ∧ atWork.inReset = false ∧
    (∃ q, q = lastPeriod.time.nanoseconds * 4294967296 +
      lastPeriod.time.fraction + (increment lastPeriod.time.freq).toNat ∧ 1000000000 ≤ q / 4294967296) ∧
    lastPeriod.xfer.state ≠ .holdover ∧ lastPeriod.time.todSending = none ∧
    ((holdingOver 1000).xfer.params.holdoverLimit < ((holdingOver 1000).xfer.holdoverAge + 1) * 10) ∧
    (((holdingOver 999).xfer.holdoverAge + 1) * 10 ≤ (holdingOver 999).xfer.params.holdoverLimit) ∧
    willRollOver atWork.time = false :=
  ⟨⟨_, rfl, by decide +kernel⟩, rfl, ⟨_, rfl, by decide +kernel⟩, by decide +kernel, rfl, by decide +kernel,
    by decide +kernel, by decide +kernel⟩
/-- Class T0 needs timing. -/
def needing (x : TimingState) : State :=
  { atWork with
    xfer := { atWork.xfer with state := x }
    adm := { atWork.adm with classes := { testClasses with t0 := { testClasses.t0 with needsTiming := true } } } }
theorem witness_QualifiedLineFollowsState :
    ((needing .track).inReset = false ∧ qualifiedLine (needing .track) = true ∧
      qualifiedLine (needing .acquire) = false ∧ qualifiedLine (needing .holdover) = true) ∧
    shortAssertion (needing .track) = false ∧
    (windowClass ⟨.txRing, 16, 1, some .t0, allowed⟩ ≠ .s ∧ (clsAt (needing .track) .t0).needsTiming = true ∧
      isTimingDescriptor ⟨.txRing, 16, 1, some .t0, allowed⟩ (buildLine (descriptor 1 0 1 0 64 0)) = false) ∧
    (willRollOver lastPeriod.time = true ∧ lastPeriod.time.todSending = none ∧
      gives .rollover lastPeriod (fun t => t.time.todSending.isSome) = true) := by decide +kernel
theorem witness_OutputAndReportTimersEnd : (ending.time.pulse = some 4000000 ∧ 4000000 ≤ ending.oscillator ∧
    (∃ m, ending.time.todSending = some m ∧ 140 * 40000000 ≤ (ending.oscillator - m.start) * 115200) ∧
    ending.time.synth.lockTimer = some 80000 ∧ 80000 ≤ ending.oscillator) ∧
    ([0, 347, 348, 48611, 48612].map fun n => (n - 0) * 115200 / 40000000) = [0, 0, 1, 139, 140] ∧
    atWork.time.todSending = none ∧
    (∃ r d, ({ atWork.rep with ring := some { emptyRing with timer := some 0 } } : Reports).ring = some r ∧
      r.timer = some d ∧ d ≤ atWork.now) ∧
    (∀ c ∈ [Cond.portParity, .linkDown], ∃ d, (condGet (condSet atWork.fault c ⟨.latch, true, true, true, some 0, 1⟩) c).timer =
      some d ∧ d ≤ atWork.now) :=
  ⟨⟨rfl, by decide, ⟨_, rfl, by decide⟩, rfl, by decide⟩, by decide, rfl, ⟨_, _, rfl, rfl, by decide⟩,
    fun c _ => ⟨0, by cases c <;> rfl, by decide⟩⟩

/-- Port p's queue holds sixteen answered requests. -/
def fullPort : State :=
  { atWork with path := { atWork.path with
    reqs := (List.range 16).map fun i => ⟨i, 100000, .answered ⟨0, true, none⟩, .port .site (readOf 100000) none none⟩
    nextId := 16 } }
theorem witness_RequestTakenOrStalled : atWork.inReset = false ∧ occupancy atWork .site < 16 ∧
    16 ≤ occupancy fullPort .site ∧ atWork.path.loadHigh = false := by decide +kernel
/-- The window of an index. -/
def win (i : Nat) : Window := (windowEntry atWork i).getD (Initial.controlWindow 0)
/-- A request of a march region with its fence. -/
def fencedState : State := waiting .radio (readOf 100000) marching
theorem witness_ClassificationChecksInOrder :
    (Next (waiting .site (.read 1 5 false) atWork) .site 0 (.read 1 5 false) ∧ parityOk (.read 1 5 false) = false) ∧
    (Next (waiting .site (readOf 5120) atWork) .site 0 (readOf 5120) ∧ parityOk (readOf 5120) = true ∧
      isPermitted (windowAt (waiting .site (readOf 5120) atWork) 5120) .site (readOf 5120) = false) ∧
    (Next fencedState .radio 0 (readOf 100000) ∧ fenced fencedState 100000 = true) ∧
    (Next (waiting .radio (writeOf 100000 0 Line.zero) atWork) .radio 0 (writeOf 100000 0 Line.zero) ∧
      windowAt (waiting .radio (writeOf 100000 0 Line.zero) atWork) 100000 = none) ∧
    (pathLaw (waiting .site (readOf 5120) atWork) ∧ atWork.rep.ring = some emptyRing ∧
      unread emptyRing + 1 < emptyRing.size - 1 ∧ (∃ w, windowOfKind atWork .report = some w) ∧
      ∃ v, windowAt (waiting .site (readOf 5120) atWork) 5120 = some (7, v)) := by
  refine ⟨by unfold Next; decide +kernel, by unfold Next; decide +kernel, by unfold Next; decide +kernel,
    by unfold Next; decide +kernel, pathLaw_idle (by decide +kernel) (by decide +kernel) rfl, rfl, by decide, ⟨_, rfl⟩, win 7,
    by decide +kernel⟩
theorem witness_AcceptedRequestGoesOn :
    Next (withRecord 0x11 [] atWork) .site 0 (recordOf 0x11 []) ∧ parityOk (recordOf 0x11 []) = true ∧
    isPermitted (windowAt (withRecord 0x11 [] atWork) 0) .site (recordOf 0x11 []) = true ∧
    fenced (withRecord 0x11 [] atWork) 0 = false ∧
    rowFor .site (sight (withRecord 0x11 [] atWork) .site (recordOf 0x11 [])) = some .snapshotRecord := by
  unfold Next; decide +kernel
/-- The turn of the radio queue, with grants left. -/
def midTurn : State := { readyRead with path := { readyRead.path with current := .radio, remaining := 1 } }
/-- A notice that waits at the lock station, and a scrub line ready behind it. -/
def contending : State :=
  { atWork with path := { atWork.path with
    reqs := [⟨0, 9, .waitLine, .notice .s Line.zero⟩, ⟨1, 7, .ready 7, .scrub⟩], nextId := 2, waits := [0] } }
theorem witness_GrantIssuesOneAccess :
    (∃ r, candidate midTurn .radio = some r ∧ r.stage = .ready 100000) ∧ 0 < midTurn.path.remaining ∧
    (candidate readyRead .internal = none ∧ cycleFrom readyRead.path.current = [.site] ++ .radio :: [.modem, .internal] ∧
      candidate readyRead .site = none ∧ ∃ r, candidate readyRead .radio = some r) ∧
    (∀ q, candidate atWork q = none) ∧
    (candidate contending .internal = some ⟨1, 7, .ready 7, .scrub⟩ ∧ grantable contending ⟨0, 9, .waitLine, .notice .s Line.zero⟩ = false) :=
  ⟨⟨_, rfl, rfl⟩, by decide, ⟨by decide +kernel, rfl, by decide +kernel, _, rfl⟩, fun q => by cases q <;> decide +kernel,
    by decide +kernel, by decide +kernel⟩
/-- A partial write on its way to the lock station. -/
def partialAt (locks : List Lock) : State :=
  { atWork with path := { atWork.path with
    locks := locks
    reqs := [⟨0, 100000, .forwarded, .port .radio (writeOf 100000 1 Line.zero) none none⟩], nextId := 1 } }
theorem witness_StationTakesAccess :
    (∃ r, headOf forwardedRead (.port .radio) = some r ∧ r.stage = .forwarded ∧ lineLocked forwardedRead r.line = false ∧
      lockHolder r.job = none) ∧
    (∃ r, headOf (partialAt []) (.port .radio) = some r ∧ r.stage = .forwarded ∧
      lockHolder r.job = some (.portPartial .radio) ∧ (partialAt []).path.locks.length < 8) ∧
    lineLocked (partialAt [⟨100000, .scrubber⟩]) 100000 = true ∧
    (8 ≤ (partialAt (List.replicate 8 ⟨1, .scrubber⟩)).path.locks.length ∧
      lineLocked (partialAt (List.replicate 8 ⟨1, .scrubber⟩)) 100000 = false) ∧
    (lineLocked (partialAt [⟨99999, .portPartial .radio⟩]) 100000 = false ∧ Holder.portPartial .radio ≠ .internalPartial ∧
      ∃ k ∈ (partialAt [⟨99999, .portPartial .radio⟩]).path.locks, k.holder = .portPartial .radio) :=
  ⟨⟨_, rfl, rfl, by decide +kernel, by decide +kernel⟩, ⟨_, rfl, rfl, by decide +kernel, by decide⟩, by decide +kernel,
    ⟨by decide +kernel, by decide +kernel⟩, by decide +kernel, by decide, _, List.mem_singleton.2 rfl, rfl⟩
theorem witness_ResponseFreesPlace : pathLaw answered ∧
    (∃ q rest x, portQueue answered .radio = q :: rest ∧ q.stage = .answered x) ∧
    (∃ q rest, portQueue readyRead .radio = q :: rest ∧ ∀ x, q.stage ≠ .answered x) :=
  ⟨pathLaw_idle (by decide +kernel) (by decide +kernel) rfl, ⟨_, _, _, rfl, rfl⟩, _, _, rfl, fun _ => by simp⟩

/-- A status write at the modem port, with the link as given. -/
def statusAt (carrier tx rx : Nat) (l : LinkMonitor) : State :=
  waiting .modem (fullWrite 4096 [⟨0, 1, carrier⟩, ⟨1, 1, tx⟩, ⟨2, 1, rx⟩]) { atWork with link := l }
/-- The write that `statusAt` presents. -/
def statusOf (carrier tx rx : Nat) : LineRequest := fullWrite 4096 [⟨0, 1, carrier⟩, ⟨1, 1, tx⟩, ⟨2, 1, rx⟩]
theorem witness_StatusWriteMovesLink :
    (ModemNext (statusAt 0 3 3 linkUp) 0 (statusOf 0 3 3) .status 5 (win 5) ∧ field (seen (statusOf 0 3 3)) 0 1 ≠ 1) ∧
    (ModemNext (statusAt 1 2 3 linkUp) 0 (statusOf 1 2 3) .status 5 (win 5) ∧ effective linkUp 2 = none) ∧
    (ModemNext (statusAt 1 3 3 { linkUp with state := .down .stale, planned := none }) 0 (statusOf 1 3 3) .status 5 (win 5) ∧
      linkUp.restoreHold ≠ 0) ∧
    (ModemNext (statusAt 1 3 3 { linkUp with state := .restoring, planned := none }) 0 (statusOf 1 3 3) .status 5 (win 5)) ∧
    (ModemNext (statusAt 1 5 3 linkUp) 0 (statusOf 1 5 3) .status 5 (win 5) ∧ effective linkUp 5 = some 5 ∧
      linkUp.planned = some 3 ∧ linkUp.upshiftHold ≠ 0) ∧
    (ModemNext (statusAt 1 3 3 { linkUp with etx := some 5, planned := some 5 }) 0 (statusOf 1 3 3) .status 5 (win 5) ∧
      effective linkUp 3 = some 3) := by unfold ModemNext Next; decide +kernel
/-- A link whose status timer is over. -/
def silent : State := { atWork with now := 2000000 }
theorem witness_LinkTimersExpire : (due silent.link.statusTimer silent.now = true ∧ isDown silent.link.state = false ∧
    (due ({ linkUp with state := .restoring, restoreTimer := some 0 } : LinkMonitor).restoreTimer 0 = true) ∧
    (due ({ linkUp with upshiftTimer := some 0 } : LinkMonitor).upshiftTimer 0 = true ∧
      carriesTraffic linkUp.state = true)) ∧
    (∃ t, exec .statusTimerExpiry silent = .next t) ∧
    (∃ t, exec .statusTimerExpiry { looping with now := 2000000, xfer := { atWork.xfer with state := .track } } = .next t) ∧
    loopActive looping.loop = true := ⟨by decide +kernel, ⟨_, rfl⟩, ⟨_, rfl⟩, by decide⟩

/-- A part with a sample block and a timing state. -/
def sampling (n : Nat) (x : TimingState) : State :=
  { atWork with xfer := { atWork.xfer with state := x, block := List.replicate n ⟨3, 100⟩ } }
/-- A stamp of a second and nanoseconds. -/
def stampAt (ns : Nat) (valid : Bool) (epoch : BitVec 16) : TakenStamp := ⟨⟨3, ns⟩, valid, epoch⟩
/-- Each test of a sample, at its boundary: B − A of 101 and D − C of 100 give a delay of 100 and θ of 0. -/
theorem witness_SampleComputed :
    (totalNs (stampAt 101 true 0).stamp - totalNs ⟨3, 0⟩ = 101 ∧ totalNs ⟨3, 200⟩ - totalNs (stampAt 100 true 0).stamp = 100 ∧
      2 * (100 : Int) ≤ 101 + 100 ∧ (101 : Int) + 100 < 2 * 100 + 2 ∧
      2 * (0 : Int) ≤ 101 - 100 - atWork.xfer.params.pathDifference ∧
      (101 : Int) - 100 - atWork.xfer.params.pathDifference < 2 * 0 + 2) ∧
    ((stampAt 0 false 0).valid = false ∧ (stampAt 0 true 1).epoch ≠ (stampAt 0 true 0).epoch ∧
      (stampAt 0 true 0).epoch = (sampling 6 .freerun).time.epoch) ∧
    (2147483647 < |(2147483648 : Int)| ∧ |(2147483647 : Int)| ≤ 2147483647) ∧
    ((atWork.xfer.params.maximumDelay : Int) < 5000001 ∧ (5000000 : Int) ≤ atWork.xfer.params.maximumDelay) ∧
    ((sampling 6 .freerun).xfer.block.length < 7 ∧ 7 ≤ (sampling 7 .acquire).xfer.block.length ∧
      (sampling 7 .acquire).xfer.state ≠ .freerun) := by decide +kernel

/-- A completion of a line with a kind and a status, at the modem port. -/
def completing (line kind status : Nat) (s : State) : State :=
  waiting .modem (fullWrite line (descriptor 0 kind 1 status 1502 0)) s
/-- The write that `completing` presents. -/
def completion (line kind status : Nat) : LineRequest := fullWrite line (descriptor 0 kind 1 status 1502 0)
theorem witness_UnmatchedCompletionPasses :
    ModemNext (completing 1024 0 1 atWork) 0 (completion 1024 0 1) .txCompletion 2 (win 2) ∧
    inFlight (completing 1024 0 1 atWork) 1024 = false := by unfold ModemNext Next; decide +kernel
/-- A TIMING frame of slot 0 in flight. -/
def timingFlight : State :=
  { atWork with adm := { atWork.adm with flight := [⟨2048, .s, 1, 64, 672, ⟨0, 0⟩, 0, 4000000⟩] } }
theorem witness_MatchedCompletionSettles :
    (ModemNext (completing 1024 0 1 inFlightState) 0 (completion 1024 0 1) .txCompletion 2 (win 2) ∧
      descStatus (seen (completion 1024 0 1)) = 1) ∧
    (ModemNext (completing 1024 0 2 inFlightState) 0 (completion 1024 0 2) .txCompletion 2 (win 2) ∧
      descStatus (seen (completion 1024 0 2)) = 2) ∧
    (flightOf (completing 1024 0 1 inFlightState) 1024).map (·.kind) = some 0 ∧
    ModemNext (completing 2048 1 1 timingFlight) 0 (completion 2048 1 1) .txCompletion 4 (win 4) ∧
    (flightOf (completing 2048 1 1 timingFlight) 2048).map (·.kind) = some 1 := by
  unfold ModemNext Next; decide +kernel
/-- Residence and air profile of a completion. -/
def delays (residence profile : Nat) : Line := buildLine [⟨16, 4, residence⟩, ⟨20, 1, profile⟩]
theorem witness_StampIsArrivalLessDelays :
    (descAirProfile (delays 1000000 5) ≤ 11 ∧ (profileAt linkUp (descAirProfile (delays 1000000 5))).valid = true ∧
      descResidence (delays 1000000 5) ≤ 1000000 ∧ (0 : Int) ≤ totalNs (timeNow lastPeriod) - 1000000 - 50 ∧
      totalNs (timeNow atWork) - 1000000 - 50 < 0) ∧
    11 < descAirProfile (delays 0 12) ∧ (profileAt linkUp (descAirProfile (delays 0 11))).valid = false ∧
    1000000 < descResidence (delays 1000001 5) ∧ clockLaw lastPeriod := by unfold clockLaw; decide +kernel
theorem witness_OverwriteRemovesEntry :
    Next (waiting .radio (completion 1024 0 0) inFlightState) .radio 0 (completion 1024 0 0) ∧
    sight (waiting .radio (completion 1024 0 0) inFlightState) .radio (completion 1024 0 0) = .overwrite ∧
    (flightOf inFlightState 1024).isSome = true ∧ clearsReady (reqMask (completion 1024 0 0)) (seen (completion 1024 0 0)) = true ∧
    sight (waiting .radio (writeOf 1024 2 Line.zero) atWork) .radio (writeOf 1024 2 Line.zero) = .overwrite ∧
    clearsReady 2 (seen (writeOf 1024 2 Line.zero)) = false ∧ inFlight atWork 1024 = false := by unfold Next; decide +kernel
theorem witness_RxCompletionCounts :
    (ModemNext (completing 6144 0 3 atWork) 0 (completion 6144 0 3) .rxCompletion 8 (win 8) ∧
      clsOfCode (descClass (seen (completion 6144 0 3))) = some .t0) ∧
    ModemNext (completing 6144 0 4 atWork) 0 (completion 6144 0 4) .rxCompletion 8 (win 8) ∧
    ModemNext (completing 6144 1 3 atWork) 0 (completion 6144 1 3) .rxCompletion 8 (win 8) ∧
    ModemNext (waiting .modem (fullWrite 6144 (descriptor 0 0 5 3 64 0)) atWork) 0 (fullWrite 6144 (descriptor 0 0 5 3 64 0))
      .rxCompletion 8 (win 8) ∧ 4 < descClass (seen (fullWrite 6144 (descriptor 0 0 5 3 64 0))) := by
  unfold ModemNext Next; decide +kernel
theorem witness_AdmissionTimersExpire : State.reset.adm.refillTimer = some 40000 ∧
    (∃ (share grant : Cls → Nat) (R W : Nat),
      (∀ c, share c = if c = .s ∧ atWork.xfer.state ≠ .track then (clsAt atWork c).recoveryShare else (clsAt atWork c).share) ∧
      (∀ c, grant c = if (clsAt atWork c).enabled then share c * capacity atWork.link / 1000 else 0) ∧
      R = capacity atWork.link - (grant .s + grant .t0 + grant .t1 + grant .t2 + grant .t3) ∧
      W = sumClasses (fun c => if backlogged (clsAt atWork c) then (clsAt atWork c).weight else 0)) ∧
    due (clsAt heldLong .t0).ageTimer heldLong.now = true ∧
    ∃ e, flightOf inFlightState (1024 : BitVec 30).toNat = some e ∧ e.expiry ≤ 4000000 :=
  ⟨rfl, ⟨_, _, _, _, fun _ => rfl, fun _ => rfl, rfl, rfl⟩, by decide +kernel, _, rfl, by decide⟩

/-- A frame at the modem port: kind, domain, nanoseconds. -/
def frameOf (kind domain ns : Nat) (mask : BitVec 64) : LineRequest :=
  writeOf 6208 mask (buildLine ([⟨0, 1, kind⟩, ⟨1, 1, domain⟩, ⟨2, 2, 77⟩] ++ stampFields 6 12 ⟨5, ns⟩))
/-- The pending message table holds n messages; the first one is an offer at line 6,208. -/
def expecting (n : Nat) (s : State) : State :=
  { s with xfer := { s.xfer with
    pendingTable := (List.range n).map fun i => ⟨6208 + i, i == 0, 5, 6, ⟨2, 0⟩, 0⟩ } }
theorem witness_FrameWriteEntersTable : (∀ r ∈ [frameOf 1 0 250 (BitVec.allOnes 64), frameOf 3 0 999999999 (BitVec.allOnes 64),
      frameOf 2 0 250 (BitVec.allOnes 64), frameOf 1 9 250 (BitVec.allOnes 64), frameOf 1 0 250 7],
      ModemNext (waiting .modem r atWork) 0 r .frame 9 (win 9)) ∧
    field (seen (frameOf 1 0 250 (BitVec.allOnes 64))) 0 1 = 1 ∧ field (seen (frameOf 3 0 999999999 (BitVec.allOnes 64))) 12 4 ≤ 999999999 ∧
    field (seen (frameOf 1 0 250 (BitVec.allOnes 64))) 1 1 = atWork.xfer.params.domain ∧ maskFull (reqMask (frameOf 1 0 250 7)) = false ∧
    field (seen (frameOf 1 9 250 (BitVec.allOnes 64))) 1 1 ≠ atWork.xfer.params.domain ∧
    (∀ n ∈ [1, 7, 8], ModemNext (waiting .modem (frameOf 1 0 250 (BitVec.allOnes 64)) (expecting n atWork)) 0
      (frameOf 1 0 250 (BitVec.allOnes 64)) .frame 9 (win 9) ∧ (expecting n atWork).xfer.pendingTable.length = n) ∧
    (∃ y ∈ (expecting 1 atWork).xfer.pendingTable, y.line = 6208) := by
  refine ⟨by unfold ModemNext Next; decide +kernel, by decide +kernel, by decide +kernel, by decide +kernel, by decide +kernel,
    by decide +kernel, by unfold ModemNext Next; decide +kernel, _, List.mem_singleton.2 rfl, rfl⟩
/-- A returned line: identifier, index, count of lines. -/
def returnOf (ident i n : Nat) (mask : BitVec 64) : LineRequest :=
  writeOf 6272 mask (buildLine [⟨0, 1, ident⟩, ⟨1, 1, i⟩, ⟨2, 1, n⟩])
theorem witness_ReturnedLineChecked : (∀ r ∈ [returnOf 1 0 1 (BitVec.allOnes 64), returnOf 2 0 1 (BitVec.allOnes 64),
      returnOf 1 1 1 (BitVec.allOnes 64), returnOf 1 0 1 1], ModemNext (waiting .modem r looping) 0 r .returned 10 (win 10)) ∧
    ModemNext (waiting .modem (returnOf 1 0 1 1) atWork) 0 (returnOf 1 0 1 1) .returned 10 (win 10) ∧
    loopActive looping.loop = true ∧ loopActive atWork.loop = false ∧ looping.loop.identifier.toNat = 1 ∧
    looping.loop.params.lines = 1 := by unfold ModemNext Next; decide +kernel
theorem witness_TransferTimersExpire : (withOffer.xfer.queryTimer = some 5000000 ∧ 5000000 ≤ withOffer.now ∧
    isDown withOffer.link.state = false ∧ newestOffered withOffer.xfer = some offered ∧
    (∃ w, windowOfKind withOffer .partTx = some w) ∧ nextFreeSlot withOffer = some 0 ∧
    newestOffered atWork.xfer = none ∧ isDown State.reset.link.state = true ∧ windowOfKind State.reset .partTx = none) ∧
    (withOffer.xfer.exchanges.find? fun x => x.offerSeq = 5) = some offered ∧ offered.expiry ≤ 40000000 ∧
    due (some 0) atWork.now = true :=
  ⟨⟨rfl, by decide, rfl, by decide +kernel, ⟨_, rfl⟩, by decide +kernel, by decide +kernel, rfl, by decide +kernel⟩,
    by decide +kernel, by decide, by decide⟩
/-- The exchange table holds entries in a state, with the query sequence 6 where one was sent. -/
def exchanging (n : Nat) (x : ExchangeState) (s : State) : State :=
  { s with xfer := { s.xfer with exchanges := (List.range n).map fun i => { offered with
    offerSeq := BitVec.ofNat 16 (5 + i), state := x
    querySeq := if x = .offered then none else some 6
    c := if x = .queried then some ⟨⟨3, 200⟩, true, 0⟩ else none
    d := if x = .answeredEarly then some ⟨3, 300⟩ else none } } }
/-- A TIMING RX completion whose buffer is line 6,208 + i. -/
def timingArrival (i : Nat) : LineRequest := fullWrite 6144 (descriptor 0 1 0 3 64 (64 * (6208 + i)))
/-- A slot's content, with its frame in flight. -/
def posted (kind : Nat) (u : Slot) (s : State) : State :=
  { s with
    xfer := { s.xfer with slots := s.xfer.slots.setIfInBounds 0 u }
    adm := { s.adm with flight := [⟨2048, .s, kind, 64, 672, ⟨0, 0⟩, 0, 4000000⟩] } }
/-- Received completions reach a pending offer, new, known and into a full table, and a pending answer in each state
of its entry; query completions reach each state of theirs. -/
theorem witness_TimingCompletionsReachExchange :
    ((∀ s ∈ [atWork, expecting 2 atWork, expecting 2 (exchanging 1 .offered atWork),
        expecting 2 { (exchanging 9 .offered atWork) with xfer := { (exchanging 9 .offered atWork).xfer with
          exchanges := (exchanging 9 .offered atWork).xfer.exchanges.drop 1 } }],
        ModemNext (waiting .modem (timingArrival 0) s) 0 (timingArrival 0) .rxCompletion 8 (win 8)) ∧
      descStatus (seen (timingArrival 0)) = 3 ∧ descKind (seen (timingArrival 0)) = 1 ∧ atWork.xfer.pendingTable = [] ∧
      ((expecting 2 atWork).xfer.pendingTable.find? fun y => lineAddress y.line = descBuffer (seen (timingArrival 0))).map
        (·.offer) = some true ∧ (exchanging 9 .offered atWork).xfer.exchanges.length = 8 + 1) ∧
    ((∀ x ∈ [ExchangeState.querySent, .queried, .answeredEarly],
        ModemNext (waiting .modem (timingArrival 1) (expecting 2 (exchanging 1 x atWork))) 0 (timingArrival 1) .rxCompletion 8
          (win 8) ∧ (findExchange (exchanging 1 x atWork) 5 6).map (·.state) = some x) ∧
      findExchange (exchanging 1 .offered atWork) 5 6 = none ∧
      ((expecting 2 atWork).xfer.pendingTable.find? fun y => lineAddress y.line = descBuffer (seen (timingArrival 1))).map
        (·.offer) = some false ∧ (findExchange (exchanging 1 .queried atWork) 5 6).map (·.c.isSome) = some true) ∧
    (∀ u ∈ [Slot.free, .test 6, .query 5 6], ∀ st ∈ [1, 2], ∀ x ∈ [ExchangeState.offered, .querySent, .queried, .answeredEarly],
      ModemNext (completing 2048 1 st (posted 1 u (exchanging 1 x atWork))) 0 (completion 2048 1 st) .txCompletion 4 (win 4) ∧
      slotOfLine (posted 1 u (exchanging 1 x atWork)) 2048 = some 0 ∧ slotAt (posted 1 u (exchanging 1 x atWork)) 0 = u ∧
      (flightOf (posted 1 u (exchanging 1 x atWork)) 2048).map (·.kind) = some 1 ∧
      descStatus (seen (completion 2048 1 st)) = st) := by
  unfold ModemNext Next; decide +kernel
theorem witness_ScrubTimerTakesLine : atWork.integ.scrubber.timer = some 40000 ∧ atWork.inReset = false ∧
    atWork.path.loadHigh = false ∧ scrubBusy atWork = false ∧ atWork.integ.scrubber.rate = 0 ∧
    fenced atWork atWork.integ.scrubber.position = false ∧
    atWork.integ.scrubber.endLine ≤ atWork.integ.scrubber.position := by decide +kernel
theorem witness_SendTimerGeneratesFrame : looping.loop.sendTimer = some 40000 ∧ looping.loop.state = .running ∧
    looping.loop.outstanding.length < 32 ∧ nextFreeSlot looping = some 0 ∧ 5 ≤ freeSlots looping ∧
    (∃ w, windowOfKind looping .partTx = some w) ∧ windowOfKind State.reset .partTx = none ∧
    32 ≤ (List.replicate 32 (⟨0, 0, 0, .posted, none, 0⟩ : Outstanding)).length :=
  ⟨rfl, rfl, by decide, by decide +kernel, by decide +kernel, ⟨_, rfl⟩, by decide +kernel, by decide⟩
/-- The session of one frame whose last entry is out. -/
def draining (st : OutState) : State :=
  { looping with
    now := 4000000
    loop := { looping.loop with state := .draining, nextSeq := 2, outstanding := [⟨1, 0, 0, st, none, 0⟩] } }
/-- The session's entry at the buffer of slot 0, with its first line back. -/
def returning (st : OutState) : State :=
  { draining st with loop := { (draining st).loop with outstanding := [⟨1, 0, 0, st, some 2112, 0⟩] } }
/-- A TEST RX completion whose buffer is line 2,112. -/
def testArrival : LineRequest := fullWrite 6144 (descriptor 0 2 0 3 64 (64 * 2112))
theorem witness_OutstandingEntriesSettle :
    ((∀ st ∈ [OutState.posted, .returnedEarly ⟨⟨1, 0⟩, true, 0⟩],
        (draining st).loop.outstanding.find? (fun x => x.frameSeq = 1) = some ⟨1, 0, 0, st, none, 0⟩) ∧
      0 + ms looping.loop.params.lossTimeout ≤ (draining .posted).now ∧ (draining .posted).loop.state = .draining ∧
      looping.loop.state ≠ .draining) ∧
    (∀ st ∈ [OutState.posted, .returnedEarly ⟨⟨1, 0⟩, true, 0⟩], ∀ status ∈ [1, 2],
      ModemNext (completing 2048 2 status (posted 2 (.test 1) (draining st))) 0 (completion 2048 2 status) .txCompletion 4
        (win 4) ∧
      (flightOf (posted 2 (.test 1) (draining st)) 2048).map (·.kind) = some 2 ∧
      slotOfLine (posted 2 (.test 1) (draining st)) 2048 = some 0 ∧
      outstandingOf (draining st).loop 0 1 = some ⟨1, 0, 0, st, none, 0⟩ ∧ outstandingOf atWork.loop 0 1 = none) ∧
    ((flightOf (posted 2 (.test 1) (draining .posted)) (2048 : BitVec 30).toNat).map (·.expiry) = some 4000000 ∧
      4000000 ≤ (draining .posted).now ∧
      Next (waiting .site (completion 2048 2 0) (posted 2 (.test 1) (draining .posted))) .site 0 (completion 2048 2 0) ∧
      sight (waiting .site (completion 2048 2 0) (posted 2 (.test 1) (draining .posted))) .site (completion 2048 2 0) =
        .overwrite) ∧
    ∀ st ∈ [OutState.posted, .sent ⟨⟨1, 0⟩, true, 0⟩, .unstamped, .returnedEarly ⟨⟨1, 0⟩, true, 0⟩],
      ModemNext (waiting .modem testArrival (returning st)) 0 testArrival .rxCompletion 8 (win 8) ∧
      descStatus (seen testArrival) = 3 ∧ descKind (seen testArrival) = 2 ∧
      ((returning st).loop.outstanding.find? fun x => x.firstLine.map lineAddress = some (descBuffer (seen testArrival))) =
        some ⟨1, 0, 0, st, some 2112, 0⟩ ∧
      ((draining st).loop.outstanding.find? fun x => x.firstLine.map lineAddress = some (descBuffer (seen testArrival))) = none ∧
      loopActive (returning st).loop = true := by
  unfold ModemNext Next; decide +kernel
/-- Selections at each boundary: a step, the tracking limit and the clamp of F, with S at its bound. -/
theorem witness_SelectionServo :
    (∀ x ∈ [TimingState.acquire, .track, .holdover], (sampling 0 x).xfer.state ≠ .freerun ∧ (sampling 0 x).inReset = false) ∧
    ((atWork.xfer.params.tStep : Int) < |(100001 : Int)| ∧ |(100000 : Int)| ≤ atWork.xfer.params.tStep ∧
      (atWork.xfer.params.tTrk : Int) < |(1001 : Int)| ∧ |(1000 : Int)| ≤ atWork.xfer.params.tTrk) ∧
    (-800000 ≤ -((atWork.xfer.params.gp : Int) * 88888 + (atWork.xfer.params.gi : Int) * 88888) ∧
      -((atWork.xfer.params.gp : Int) * 88889 + (atWork.xfer.params.gi : Int) * 88889) < -800000) ∧
    (0 ≤ totalNs (timeNow lastPeriod) - 100001 ∧ totalNs (timeNow lastPeriod) - 100001 < 2 ^ 48 * 1000000000 ∧
      totalNs (timeNow atWork) - 100001 < 0) ∧
    ((sampling 0 .track).xfer.runCount + 1 < atWork.xfer.params.k ∧
      atWork.xfer.params.k ≤ 3 + 1) := by decide +kernel
theorem witness_PortReadAnswered : Completes reading (accessAt 100000 (.portRead .radio)) ∧
    portRequestOf reading (accessAt 100000 (.portRead .radio)) = some (readOf 100000) ∧ isMarked reading 100000 = false ∧
    isMarked { reading with integ := { reading.integ with marked := [100000] } } 100000 = true ∧
    ([cleanLine, correctedLine, lostLine].map fun f => lineOutcome (lineRead f (accessAt 100000 (.portRead .radio)) reading)) =
      [.clean, .corrected, .uncorrectable] ∧ dramLaw reading ∧ LineFlips.wellFormed correctedLine = true ∧
    reading.integ.marked.length < 64 := ⟨by unfold Completes; decide +kernel, by unfold dramLaw; decide +kernel⟩
/-- The flipped bits of word 0 that stand in line 100,000. -/
def flipped (v : BitVec 72) : State := { reading with flips := [(100000, flipsOf v)] }
/-- Three flipped bits that pass as CLEAN, as CORRECTED, with the data written, and that are detected. -/
def manyFlipped : List LineFlips := [.clean 5, .corrected 5, .clean 0xAB, .uncorrectable].map (flipsIn 7)
/-- Flipped bits that stand and new ones, from none to three of a word, and three that pass or not; a read leaves
them, a second read meets them again, and a write of the line ends them (R108). -/
theorem witness_PortReadAnswered_flips :
    (∀ v : Nat, v ∈ [1, 3, 7] →
      dramLaw (flipped v) ∧ Completes (flipped v) (accessAt 100000 (.portRead .radio))) ∧
    ([(0, 0), (1, 0), (1, 1), (1, 2), (3, 0)].map fun x : BitVec 72 × BitVec 72 => lineOutcome (lineRead
      (flipsIn x.2 .uncorrectable) (accessAt 100000 (.portRead .radio)) (flipped x.1))) =
      [.clean, .corrected, .corrected, .uncorrectable, .uncorrectable] ∧
    (manyFlipped.map fun f => lineOutcome (lineRead f (accessAt 100000 (.portRead .radio)) reading)) =
      [.clean, .corrected, .uncorrectable, .uncorrectable] ∧
    wordOf (stored reading (accessAt 100000 (.portRead .radio))) 0 = 0xAB ∧
    deliveredByte (lineRead (flipsIn 0 (.clean 5)) (accessAt 100000 (.portRead .radio)) (flipped 7)) Line.zero 0 = 5 ∧
    gives (.portReadComplete correctedLine) reading
      (fun t => t.flips == [(100000, flipsOf 1)] && t.integ.counters.corrected == 1) = true ∧
    (storeLine 100000 Line.zero (flipped 7)).flips = [] := by
  unfold dramLaw Completes; decide +kernel
/-- A judged read of a ready descriptor of T0. -/
def judgedT0 : State := judging (descriptor 1 0 1 0 1502 (64 * 1088)) atWork
theorem witness_DescriptorJudged :
    (Completes judgedT0 (accessAt 1024 .descriptorRead) ∧ portRequestOf judgedT0 (accessAt 1024 .descriptorRead) = some (readOf 1024) ∧
      windowOfAccess judgedT0 (accessAt 1024 .descriptorRead) = some (2, win 2)) ∧
    isMarked judgedT0 1024 = false ∧ lineOutcome (lineRead cleanLine (accessAt 1024 .descriptorRead) judgedT0) ≠ .uncorrectable ∧
    (deliveredLine (lineRead cleanLine (accessAt 1024 .descriptorRead) judgedT0) (dramRead judgedT0.dram 1024) = buildLine (descriptor 1 0 1 0 1502 (64 * 1088)) ∧
      descReady (buildLine (descriptor 1 0 1 0 1502 (64 * 1088))) = true ∧
      rejectReason judgedT0 (win 2) (buildLine (descriptor 1 0 1 0 1502 (64 * 1088))) = none) ∧
    ((clsAt judgedT0 .t0).enabled = true ∧ carriesTraffic judgedT0.link.state = true ∧ (clsAt judgedT0 .t0).needsTiming = false ∧
      judgedT0.adm.flight.length < 64 ∧ (clsAt judgedT0 .t0).held = [] ∧ 1 ≤ (clsAt judgedT0 .t0).credit) ∧
    inFlight judgedT0 1024 = false ∧ inFlight inFlightState 1024 = true ∧
    rejectReason judgedT0 (win 2) (buildLine (descriptor 1 0 1 0 63 (64 * 1088))) = some 1 ∧
    rejectReason judgedT0 (win 4) (buildLine (descriptor 1 1 0 0 64 (64 * 2112))) = none ∧
    descReady (buildLine (descriptor 0 0 1 0 1502 0)) = false := by unfold Completes; decide +kernel
/-- A write of a port at the memory port. -/
def writing (k : AccessKind) (mask : BitVec 64) : State :=
  issued 100000 (.port .radio (writeOf 100000 mask Line.zero) none none) k stored100000
/-- An access of the internal requester at the memory port. -/
def internal (line : Nat) (job : Job) (k : AccessKind) : State := issued line job k stored100000
/-- The second access of a request at the memory port, under its lock, with a write of the line waiting. -/
def writingBack (job : Job) (h : Holder) (k : AccessKind) : State :=
  { stored100000 with path := { stored100000.path with
    reqs := [⟨0, 100000, .writeIssued 100000, job⟩,
      ⟨1, 100000, .waitLine, .port .site (writeOf 100000 1 Line.zero) none none⟩]
    nextId := 2, memPort := [accessAt 100000 k], locks := [⟨100000, h⟩], waits := [1] } }
/-- A partial write of the radio port, of which the first access is at the memory port. -/
def partialRadio (stamp : Option TakenStamp) : Job := .port .radio (writeOf 100000 1 Line.zero) none stamp
theorem dramLaw_stored {s : State} (h : s.dram = stored100000.dram) (g : s.flips = []) : dramLaw s := by
  unfold dramLaw; rw [h, g]; decide +kernel
theorem pathLaw_internal {job : Job} {k : AccessKind} (h : ∀ p, isPortReq p ⟨0, 100000, .issued 100000, job⟩ = false)
    (g : k = firstAccess job) : pathLaw (internal 100000 job k) :=
  pathLaw_one (by simp [internal, issued, occupancy, portQueue, stored100000, atWork, State.reset, State.atPowerOn,
      Initial.path, h])
    ⟨Nat.zero_le 1, List.nodup_nil, List.nodup_singleton 0, fun r hr => by
      obtain rfl : r = ⟨0, 100000, .issued 100000, job⟩ := List.mem_singleton.1 hr
      exact Nat.zero_lt_one⟩ rfl ⟨List.mem_singleton.2 rfl, rfl, Nat.zero_lt_one⟩ ⟨rfl, rfl, .inl ⟨rfl, g⟩⟩
theorem pathLaw_writingBack {job : Job} {h : Holder} {k : AccessKind} (d : Line) (g : k = secondAccess job d)
    (o : occupancy (writingBack job h k) .site ≤ 16 ∧ occupancy (writingBack job h k) .radio ≤ 16 ∧
      occupancy (writingBack job h k) .modem ≤ 16) : pathLaw (writingBack job h k) :=
  pathLaw_one o ⟨Nat.le_refl 1, List.nodup_singleton 100000, (by decide : [0, 1].Nodup), fun r hr => by
      rcases List.mem_cons.1 hr with rfl | hr
      · exact Nat.zero_lt_two
      · rw [List.mem_singleton.1 hr]; exact Nat.one_lt_two⟩ rfl ⟨List.mem_cons_self, rfl, Nat.zero_lt_two⟩
    ⟨rfl, rfl, .inr ⟨rfl, d, g⟩⟩
/-- The two requests of `writingBack`: the lock's release takes the waiting one again. -/
theorem waiter_writingBack (job : Job) (h : Holder) (k : AccessKind) : (writingBack job h k).path.waits = [] ++ 1 :: [] ∧
    findReq (writingBack job h k) 1 = some ⟨1, 100000, .waitLine, .port .site (writeOf 100000 1 Line.zero) none none⟩ ∧
    lockHolder (.port .site (writeOf 100000 1 Line.zero) none none) = some (.portPartial .site) :=
  ⟨rfl, rfl, by decide +kernel⟩
theorem witness_PortAndPartialWrites :
    (dramLaw (writing (.portWrite .radio Line.zero) (BitVec.allOnes 64)) ∧
      Completes (writing (.portWrite .radio Line.zero) (BitVec.allOnes 64)) (accessAt 100000 (.portWrite .radio Line.zero))) ∧
    (∀ c ∈ [none, some ⟨⟨1, 0⟩, true, 0⟩], pathLaw (internal 100000 (partialRadio c) (.rmwRead .radio)) ∧
      Completes (internal 100000 (partialRadio c) (.rmwRead .radio)) (accessAt 100000 (.rmwRead .radio)) ∧
      portRequestOf (internal 100000 (partialRadio c) (.rmwRead .radio)) (accessAt 100000 (.rmwRead .radio)) =
        some (writeOf 100000 1 Line.zero) ∧
      stampOfAccess (internal 100000 (partialRadio c) (.rmwRead .radio)) (accessAt 100000 (.rmwRead .radio)) = c ∧
      isMarked (internal 100000 (partialRadio c) (.rmwRead .radio)) 100000 = false) ∧
    (dramLaw (writingBack (partialRadio none) (.portPartial .radio) (.rmwWrite .radio Line.zero)) ∧
      pathLaw (writingBack (partialRadio none) (.portPartial .radio) (.rmwWrite .radio Line.zero)) ∧
      Completes (writingBack (partialRadio none) (.portPartial .radio) (.rmwWrite .radio Line.zero))
        (accessAt 100000 (.rmwWrite .radio Line.zero)) ∧
      portRequestOf (writingBack (partialRadio none) (.portPartial .radio) (.rmwWrite .radio Line.zero))
        (accessAt 100000 (.rmwWrite .radio Line.zero)) = some (writeOf 100000 1 Line.zero)) ∧
    (pathLaw (internal 100000 .writeBack .writeBackRead) ∧
      Completes (internal 100000 .writeBack .writeBackRead) (accessAt 100000 .writeBackRead) ∧
      ∃ q, findReq (internal 100000 .writeBack .writeBackRead) 0 = some q) ∧
    (dramLaw (writingBack .writeBack .internalPartial (.writeBackWrite Line.zero)) ∧
      pathLaw (writingBack .writeBack .internalPartial (.writeBackWrite Line.zero)) ∧
      Completes (writingBack .writeBack .internalPartial (.writeBackWrite Line.zero))
        (accessAt 100000 (.writeBackWrite Line.zero))) := by
  refine ⟨⟨dramLaw_stored rfl rfl, rfl⟩, fun c hc => ?_, ⟨dramLaw_stored rfl rfl, pathLaw_writingBack Line.zero rfl (by decide +kernel),
    rfl, rfl⟩, ⟨pathLaw_internal (fun p => by cases p <;> rfl) rfl, rfl, _, rfl⟩, dramLaw_stored rfl rfl,
    pathLaw_writingBack Line.zero rfl (by decide +kernel), rfl⟩
  refine ⟨pathLaw_one ?_ ?_ rfl ⟨List.mem_singleton.2 rfl, rfl, Nat.zero_lt_one⟩ ⟨rfl, rfl, .inl ⟨rfl, ?_⟩⟩, rfl, rfl, ?_, ?_⟩ <;>
    (simp only [List.mem_cons, List.not_mem_nil, or_false] at hc; rcases hc with rfl | rfl <;> decide +kernel)
/-- Each write of the part's own lines, with its row. -/
def ownWrites : List (Job × AccessKind × Instr) :=
  [(.notice .s Line.zero, .noticeWrite Line.zero, .internalWriteComplete),
    (.slotDescriptor 1 Line.zero, .slotDescriptorWrite Line.zero, .internalWriteComplete),
    (.queryFrame 1 5 6 Line.zero, .queryFrameWrite Line.zero, .queryFrameWriteComplete),
    (.testLine 1 7 1 Line.zero, .testLineWrite Line.zero, .testFrameWriteComplete),
    (.reportEntry Line.zero, .reportWrite Line.zero, .reportEntryWriteComplete),
    (.snapshotLine 0 Line.zero, .snapshotWrite 0 Line.zero, .snapshotLineWriteComplete),
    (.snapshotLine 63 Line.zero, .snapshotWrite 63 Line.zero, .snapshotLineWriteComplete)]
theorem witness_OwnWritesComplete : (∀ x ∈ ownWrites, dramLaw (internal 100000 x.1 x.2.1) ∧ pathLaw (internal 100000 x.1 x.2.1) ∧
      Completes (internal 100000 x.1 x.2.1) (accessAt 100000 x.2.1) ∧ (accessAt 100000 x.2.1).live = true) ∧
    (∃ r, atWork.rep.ring = some r ∧ r.releasing = false) ∧ atWork.rep.snapshotRemembered = false ∧
    ({ atWork.rep with snapshotRemembered := true } : Reports).snapshotRemembered = true ∧
    (∃ w, windowOfKind atWork .partTx = some w) := by
  refine ⟨fun x hx => ?_, ⟨_, rfl, rfl⟩, rfl, rfl, _, rfl⟩
  simp only [ownWrites, List.mem_cons, List.not_mem_nil, or_false] at hx
  rcases hx with rfl | rfl | rfl | rfl | rfl | rfl | rfl <;>
    exact ⟨dramLaw_stored rfl rfl, pathLaw_internal (fun p => by cases p <;> rfl) rfl, rfl, rfl⟩
theorem witness_ScrubAndCopyAccesses :
    (pathLaw (internal 100000 .scrub .scrubRead) ∧ Completes (internal 100000 .scrub .scrubRead) (accessAt 100000 .scrubRead) ∧
      ∃ q, findReq (internal 100000 .scrub .scrubRead) 0 = some q) ∧
    (dramLaw (writingBack .scrub .scrubber (.scrubWrite Line.zero)) ∧
      pathLaw (writingBack .scrub .scrubber (.scrubWrite Line.zero)) ∧
      Completes (writingBack .scrub .scrubber (.scrubWrite Line.zero)) (accessAt 100000 (.scrubWrite Line.zero))) ∧
    (Completes (copying 32 (internal 100000 .copyLine .copyRead)) (accessAt 100000 .copyRead) ∧
      ∃ e, copyingEntry (copying 32 (internal 100000 .copyLine .copyRead)) = some e) ∧
    64 ≤ (List.range 64).length ∧
    (remapLaw (copying 63 queued) ∧
      Completes (copying 63 (internal 5183 (.copyWrite Line.zero) (.copyWrite Line.zero))) (accessAt 5183 (.copyWrite Line.zero)) ∧
      ∃ e, copyingEntry (copying 63 queued) = some e ∧ e.pointer = 63) :=
  ⟨⟨pathLaw_internal (fun p => by cases p <;> rfl) rfl, rfl, _, rfl⟩,
    ⟨dramLaw_stored rfl rfl, pathLaw_writingBack Line.zero rfl (by decide +kernel), rfl⟩, ⟨rfl, _, rfl⟩,
    by decide, remapLaw_copying, rfl, _, rfl, rfl⟩
theorem witness_MarchAccesses :
    Completes (issued 100000 (.march none) .marchRead marching) (accessAt 100000 .marchRead) ∧
    (lineOutcome (lineRead cleanLine (accessAt 100000 .marchRead) marching) = .clean ∧
      deliveredLine (lineRead cleanLine (accessAt 100000 .marchRead) marching) (dramRead marching.dram 100000) =
        backgroundLine false false 100000) ∧
    isLastRead marching.march = false ∧
    isLastRead { marching.march with element := 6, index := 63 } = true ∧
    Completes (issued 100000 (.march (some Line.zero)) (.marchWrite Line.zero) marching) (accessAt 100000 (.marchWrite Line.zero)) ∧
    dramLaw marching ∧ lastOfElement marching.march = false ∧ lastOfElement { marching.march with index := 63 } = true ∧
    lastOfElement { marching.march with element := 4, index := 0 } = true ∧
    ({ marching.march with autoRemap := true, failingReads := 1, failing := [1562] } : March).autoRemap = true := by
  unfold Completes dramLaw; decide +kernel

theorem recordNext_of {s : State} {id k a : Nat} {r : LineRequest}
    (h : (nextRequest s .site == some (id, r) && sight s .site r == .record k a) = true) : RecordNext s id r k a := by
  simpa [RecordNext, Next] using h

theorem witness_RefusedRecords :
    (Next (waiting .site (fullWrite 0 []) atWork) .site 0 (fullWrite 0 []) ∧
      sight (waiting .site (fullWrite 0 []) atWork) .site (fullWrite 0 []) = .unmarked) ∧
    (∀ r ∈ [writeOf 0 3 (buildLine [⟨0, 1, 0xC6⟩, ⟨1, 1, 1⟩]), recordOf 0 [], recordOf 0x12 []],
      Next (waiting .site r atWork) .site 0 r ∧ sight (waiting .site r atWork) .site r = .refused) ∧
    pathLaw (withRecord 0x12 [] atWork) ∧
    (∀ x ∈ [(0x0C, 0), (0x0C, 5), (0x0D, 3), (0x10, 4)],
      RecordNext (withRecord x.1 [⟨4, 1, x.2⟩] atWork) 0 (recordOf x.1 [⟨4, 1, x.2⟩]) x.1 x.2) := by
  refine ⟨by unfold Next; decide +kernel, by unfold Next; decide +kernel,
    pathLaw_idle (by decide +kernel) (by decide +kernel) rfl, by unfold RecordNext Next; decide +kernel⟩
/-- A WINDOW record's index, kind, class, permissions, base page and size. -/
def windowRecords : List (Nat × Nat × Nat × Nat × Nat × Nat) :=
  [(0, 4, 1, 0x3F, 200, 2), (1, 4, 1, 0x3F, 200, 2), (4, 0, 0, 0, 0, 0), (15, 4, 1, 0x3F, 200, 2), (15, 4, 5, 0x3F, 200, 2),
    (16, 0, 0, 0, 0, 0), (15, 8, 0, 0x3F, 200, 1), (15, 4, 1, 0x3F, 18, 1), (2, 2, 1, 0x3F, 16, 1)]
/-- A record at both ends of the index range, with a class above 4, a second STATUS window, a shared page, and
contents that the entry already has; a ring that makes REPORT busy, a line in flight, a fence, and a PART_TX window
that is not busy. -/
theorem witness_WindowRecord :
    (∀ x ∈ windowRecords, RecordNext
      (withRecord 0x01 (windowFields x.1 x.2.1 x.2.2.1 x.2.2.2.1 x.2.2.2.2.1 x.2.2.2.2.2) atWork) 0
      (recordOf 0x01 (windowFields x.1 x.2.1 x.2.2.1 x.2.2.2.1 x.2.2.2.2.1 x.2.2.2.2.2)) 0x01 x.1) ∧
    (windowKindOfCode 4 = some .buffer ∧ windowKindOfCode 8 = some .status ∧ windowKindOfCode 2 = some .txRing ∧
      windowEntry atWork 15 = none ∧ (win 5).kind = .status ∧ win 2 = ⟨.txRing, 16, 1, some .t0, allowed⟩ ∧
      (win 3).base = 17 ∧ (win 4).kind = .partTx) ∧
    (fenceMeets atWork 200 2 = false ∧ replaceBusy atWork (win 4) = false ∧ replaceBusy atWork (win 1) = true ∧
      inFlight inFlightState 1024 = true ∧ windowCovers (win 2) 1024 = true ∧ fenceMeets marching 1562 1 = true) := by
  unfold RecordNext Next; decide +kernel
theorem witness_LinkRecords :
    (∀ x ∈ [(5, 1, 20, 200000, 50, 61), (11, 0, 0, 0, 0, 0), (4, 1, 20, 200000, 50, 60)],
      RecordNext (withRecord 0x02 (profileFields x.1 x.2.1 x.2.2.1 x.2.2.2.1 x.2.2.2.2.1 x.2.2.2.2.2) atWork) 0
        (recordOf 0x02 (profileFields x.1 x.2.1 x.2.2.1 x.2.2.2.1 x.2.2.2.2.1 x.2.2.2.2.2)) 0x02 x.1) ∧
    (∀ j ≤ 11, (profileAt linkUp j).valid = true → (j < 5 → (profileAt linkUp j).capacity < 200000) ∧
      (5 < j → 200000 < (profileAt linkUp j).capacity)) ∧
    ((profileAt linkUp 5).valid = true ∧ 4 < 5 ∧ (profileAt linkUp 5).capacity ≤ 200000) ∧
    RecordNext (withRecord 0x05 [⟨4, 1, 11⟩, ⟨6, 2, 1000⟩, ⟨8, 2, 60000⟩, ⟨10, 2, 0⟩] atWork) 0
      (recordOf 0x05 [⟨4, 1, 11⟩, ⟨6, 2, 1000⟩, ⟨8, 2, 60000⟩, ⟨10, 2, 0⟩]) 0x05 11 := by
  unfold RecordNext Next; decide +kernel
/-- A share of each class beside a CLASS record for T0. -/
def shares (g : Nat) (c : Cls) : Nat := if c = .t0 then g else (clsAt atWork c).share
theorem witness_AdmissionRecords :
    (∀ g ∈ [800, 801, 901], RecordNext (withRecord 0x03 (classFields 1 7 g 0 30) atWork) 0 (recordOf 0x03 (classFields 1 7 g 0 30)) 0x03 1) ∧
    (sumClasses (shares 800) ≤ 1000 ∧ sumClasses (fun x => if x = .s then 200 else shares 800 x) ≤ 1000) ∧
    1000 < sumClasses (fun x => if x = .s then 200 else shares 801 x) ∧ 1000 < sumClasses (shares 901) ∧
    (RecordNext (withRecord 0x04 [⟨4, 1, 2⟩, ⟨5, 1, 1⟩, ⟨6, 1, 1⟩, ⟨10, 2, 1000⟩] looping) 0
        (recordOf 0x04 [⟨4, 1, 2⟩, ⟨5, 1, 1⟩, ⟨6, 1, 1⟩, ⟨10, 2, 1000⟩]) 0x04 2 ∧
      (∀ c ∈ allClasses, classFenced looping c = false) ∧ (clsAt looping .s).enabled = true ∧ loopActive looping.loop = true) ∧
    (classFenced { marching with march := { marching.march with startPage := 16 } } .t0 = true) := by
  unfold RecordNext Next; decide +kernel
theorem witness_TimeRecords :
    RecordNext (withRecord 0x06 (timingFields 255) atWork) 0 (recordOf 0x06 (timingFields 255)) 0x06 255 ∧
    RecordNext (withRecord 0x07 [⟨4, 1, 0⟩, ⟨16, 4, 999999999⟩] atWork) 0 (recordOf 0x07 [⟨4, 1, 0⟩, ⟨16, 4, 999999999⟩]) 0x07 0 ∧
    qualifiedState atWork.xfer.state = false ∧ qualifiedState .track = true ∧
    (∀ b ∈ [0, 1], RecordNext (withRecord 0x08 [⟨4, 1, b⟩, ⟨5, 1, 2⟩, ⟨6, 1, 30⟩, ⟨7, 1, 64⟩] ending) 0
      (recordOf 0x08 [⟨4, 1, b⟩, ⟨5, 1, 2⟩, ⟨6, 1, 30⟩, ⟨7, 1, 64⟩]) 0x08 b) ∧
    atWork.time.synth.state = .off ∧ ending.time.synth.state ≠ .off ∧ 2 ≠ ending.time.synth.n ∧
    600 * 2 ≤ 40 * 30 ∧ 40 * 30 ≤ 1200 * 2 := by unfold RecordNext Next; decide +kernel
theorem witness_MemoryRecords :
    RecordNext (withRecord 0x09 [⟨4, 1, 15⟩, ⟨5, 1, 1⟩, ⟨6, 1, 1⟩, ⟨7, 1, 1⟩, ⟨8, 1, 47⟩, ⟨9, 1, 48⟩] atWork) 0
      (recordOf 0x09 [⟨4, 1, 15⟩, ⟨5, 1, 1⟩, ⟨6, 1, 1⟩, ⟨7, 1, 1⟩, ⟨8, 1, 47⟩, ⟨9, 1, 48⟩]) 0x09 15 ∧
    RecordNext (withRecord 0x0A [⟨4, 1, 64⟩, ⟨6, 1, 1⟩, ⟨16, 8, 2 ^ 36 - 64⟩] atWork) 0
      (recordOf 0x0A [⟨4, 1, 64⟩, ⟨6, 1, 1⟩, ⟨16, 8, 2 ^ 36 - 64⟩]) 0x0A 64 ∧
    RecordNext (withRecord 0x0B [⟨8, 8, 4096 * 1562⟩] atWork) 0 (recordOf 0x0B [⟨8, 8, 4096 * 1562⟩]) 0x0B 0x00 ∧
    (remapHas atWork 1562 = false ∧ poolPage atWork = some 80 ∧ inSpare atWork 1562 = false) ∧
    remapHas (copying 0 atWork) 1562 = true ∧ (remapHas State.reset 1562 = false ∧ poolPage State.reset = none) := by
  unfold RecordNext Next; decide +kernel
theorem witness_TestRecords :
    (RecordNext (withRecord 0x0C (memtestFields 1 1562 4096) atWork) 0 (recordOf 0x0C (memtestFields 1 1562 4096)) 0x0C 1 ∧
      marchActive atWork.march = false ∧ regionForbidden atWork 1562 4096 = false) ∧
    regionForbidden atWork 80 1 = true ∧ marchActive marching.march = true ∧
    (∀ a ∈ [2, 3, 4], RecordNext (withRecord 0x0C [⟨4, 1, a⟩] marching) 0 (recordOf 0x0C [⟨4, 1, a⟩]) 0x0C a) ∧
    (RecordNext (withRecord 0x0D looptestFields atWork) 0 (recordOf 0x0D looptestFields) 0x0D 1 ∧
      loopActive atWork.loop = false ∧ atWork.link.state = .up ∧ windowOfKind atWork .testRx ≠ none ∧
      windowOfKind atWork .partTx ≠ none ∧ (clsAt atWork .s).enabled = true) ∧
    (RecordNext (withRecord 0x0D [⟨4, 1, 2⟩] looping) 0 (recordOf 0x0D [⟨4, 1, 2⟩]) 0x0D 2 ∧ loopActive looping.loop = true) ∧
    (∃ x, ({ atWork.path with memPort := [{ accessAt 100000 (.portWrite .site Line.zero) with live := false }] } : Path).memPort =
      [x] ∧ x.live = false ∧ isDrainAccess x.kind = true) := by
  refine ⟨by unfold RecordNext Next; decide +kernel, by decide +kernel, by decide +kernel,
    by unfold RecordNext Next; decide +kernel, by unfold RecordNext Next; decide +kernel,
    by unfold RecordNext Next; decide +kernel, _, rfl, rfl, rfl⟩
theorem witness_FaultRecords :
    (RecordNext (withRecord 0x0E [⟨4, 2, 4⟩, ⟨10, 1, 0x12⟩] atWork) 0 (recordOf 0x0E [⟨4, 2, 4⟩, ⟨10, 1, 0x12⟩]) 0x0E 4 ∧
      field (seen (recordOf 0x0E [⟨4, 2, 4⟩, ⟨10, 1, 0x12⟩])) 4 2 < 512 ∧
      ∀ c ∈ allConds, (4 : Nat).testBit (condIndex c) = true →
        faultModeOfCode (field (seen (recordOf 0x0E [⟨4, 2, 4⟩, ⟨10, 1, 0x12⟩])) (8 + condIndex c) 1 % 16) = some .latch ∧
        field (seen (recordOf 0x0E [⟨4, 2, 4⟩, ⟨10, 1, 0x12⟩])) (8 + condIndex c) 1 / 16 ≤ 1) ∧
    ∀ g ∈ [0, 31], RecordNext (withRecord 0x0F [⟨4, 1, g⟩, ⟨6, 2, 511⟩] atWork) 0 (recordOf 0x0F [⟨4, 1, g⟩, ⟨6, 2, 511⟩]) 0x0F g := by
  unfold RecordNext Next; decide +kernel
/-- The part at work with a ring. -/
def withRing (r : Option Ring) : State := { atWork with rep := { atWork.rep with ring := r } }
theorem witness_ReportRecords :
    (pathLaw (withRecord 0x10 [⟨4, 1, 1⟩, ⟨6, 2, 128⟩, ⟨8, 2, 127⟩, ⟨10, 2, 1000⟩] (withRing none)) ∧
      RecordNext (withRecord 0x10 [⟨4, 1, 1⟩, ⟨6, 2, 128⟩, ⟨8, 2, 127⟩, ⟨10, 2, 1000⟩] (withRing none)) 0
        (recordOf 0x10 [⟨4, 1, 1⟩, ⟨6, 2, 128⟩, ⟨8, 2, 127⟩, ⟨10, 2, 1000⟩]) 0x10 1 ∧
      ∃ w, windowOfKind (withRing none) .report = some w ∧ 128 + 64 ≤ 64 * w.size) ∧
    (∀ q ∈ [1, 2, 3], RecordNext (withRecord 0x10 [⟨4, 1, 2⟩, ⟨12, 2, q⟩]
      (withRing (some { emptyRing with made := 3, written := 3, consumed := 1 }))) 0 (recordOf 0x10 [⟨4, 1, 2⟩, ⟨12, 2, q⟩]) 0x10 2) ∧
    (RecordNext (withRecord 0x10 [⟨4, 1, 3⟩] atWork) 0 (recordOf 0x10 [⟨4, 1, 3⟩]) 0x10 3 ∧
      unread emptyRing < emptyRing.size - 1 ∧ emptyRing.written ≤ emptyRing.made) ∧
    RecordNext (withRecord 0x10 [⟨4, 1, 3⟩] (withRing (some { emptyRing with releasing := true }))) 0
      (recordOf 0x10 [⟨4, 1, 3⟩]) 0x10 3 :=
  ⟨⟨pathLaw_idle (by decide +kernel) (by decide +kernel) rfl, recordNext_of (by decide +kernel), _, rfl, by decide⟩,
    by unfold RecordNext Next; decide +kernel, ⟨recordNext_of (by decide +kernel), by decide, by decide⟩,
    recordNext_of (by decide +kernel)⟩
theorem witness_SnapshotRecord : (pathLaw (withRecord 0x11 [] atWork) ∧ RecordNext (withRecord 0x11 [] atWork) 0 (recordOf 0x11 []) 0x11 0) ∧
    RecordNext (withRecord 0x11 [] (withRing none)) 0 (recordOf 0x11 []) 0x11 0 ∧ atWork.rep.snapshotWriting = false ∧
    unread emptyRing < emptyRing.size - 1 ∧
    RecordNext (withRecord 0x11 [] { atWork with rep := { atWork.rep with snapshotWriting := true } }) 0 (recordOf 0x11 []) 0x11 0 :=
  ⟨⟨pathLaw_idle (by decide +kernel) (by decide +kernel) rfl, recordNext_of (by decide +kernel)⟩,
    recordNext_of (by decide +kernel), rfl, by decide, recordNext_of (by decide +kernel)⟩

/-! ### Witnesses of further clauses, at the boundaries where they meet -/

/-- The reset line is asserted, with a remap table. -/
def underResetWith (l : List RemapEntry) : State :=
  { atWork with inReset := true, integ := { atWork.integ with remaps := l } }
/-- A copy at its last line goes on there; of two waiting entries behind an ACTIVE one the first is taken (R123,
R126). -/
theorem witness_ResetEndStartsTimersAndLevels_copies :
    (∀ l ∈ [[], [⟨1562, 80, .copying, .copy, 63, ⟨0, 0⟩⟩],
        [⟨1561, 81, .active, .copy, 64, ⟨0, 0⟩⟩, ⟨1562, 80, .waiting, .fill, 0, ⟨0, 0⟩⟩, ⟨7, 82, .waiting, .copy, 0, ⟨0, 0⟩⟩]],
      (underResetWith l).inReset = true ∧ copyBusy (underResetWith l) = false) ∧
    copyingEntry (underResetWith [⟨1562, 80, .copying, .copy, 63, ⟨0, 0⟩⟩]) = some ⟨1562, 80, .copying, .copy, 63, ⟨0, 0⟩⟩ ∧
    gives .resetLineDeassert (underResetWith [⟨1562, 80, .copying, .copy, 63, ⟨0, 0⟩⟩])
      (fun t => t.path.reqs.any fun q => q.line == 64 * 1562 + 63 && q.job == .copyLine) = true ∧
    copyingEntry (underResetWith [⟨1561, 81, .active, .copy, 64, ⟨0, 0⟩⟩, ⟨1562, 80, .waiting, .fill, 0, ⟨0, 0⟩⟩]) = none ∧
    gives .resetLineDeassert (underResetWith [⟨1561, 81, .active, .copy, 64, ⟨0, 0⟩⟩, ⟨1562, 80, .waiting, .fill, 0, ⟨0, 0⟩⟩])
      (fun t => t.integ.remaps == [⟨1561, 81, .active, .copy, 64, ⟨0, 0⟩⟩, ⟨1562, 80, .copying, .fill, 0, ⟨0, 0⟩⟩]) = true ∧
    copyBusy { underResetWith [] with path := { atWork.path with reqs := [⟨0, 9, .forwarded, .copyLine⟩] } } = true := by
  decide +kernel
/-- The period that carries, with a message being sent, one waiting or none, and the report unit as given. -/
def carrying (w : Option TodMessage) (u : Reports) : State :=
  { lastPeriod with
    time := { lastPeriod.time with todSending := some ⟨⟨8, 0, false, 0⟩, 0⟩, todWaiting := w }, rep := u }
/-- A rollover while a message is sent, with one waiting and with none; its snapshot request meets a ring that is
ACTIVE with the snapshot unit IDLE, WRITING and WRITING with a request remembered, one that is RELEASING, and none. -/
theorem witness_PeriodAndRollover_waiting :
    (∀ w ∈ [none, some ⟨8, 0, false, 0⟩],
      ∀ u ∈ [atWork.rep, { atWork.rep with snapshotWriting := true },
          { atWork.rep with snapshotWriting := true, snapshotRemembered := true },
          { atWork.rep with ring := some { emptyRing with releasing := true } }, Initial.rep],
        1000000000 ≤ ((carrying w u).time.nanoseconds * 4294967296 + (carrying w u).time.fraction +
          (increment (carrying w u).time.freq).toNat) / 4294967296 ∧ (carrying w u).time.todSending ≠ none ∧
        gives .rollover (carrying w u) (fun t => t.time.todWaiting == some ⟨10, 0, false, 0⟩ &&
          t.time.todSending == some ⟨⟨8, 0, false, 0⟩, 0⟩ &&
          t.time.todReplaced == (if w.isSome then 1 else 0)) = true) ∧
    (∃ w, windowOfKind lastPeriod .report = some w) ∧
    gives .rollover (carrying none atWork.rep) (fun t => t.rep.snapshotSequence == 1 && t.rep.snapshotWriting &&
      t.path.reqs.length == 64) = true ∧
    gives .rollover (carrying none { atWork.rep with snapshotWriting := true, snapshotRemembered := true })
      (fun t => t.rep.snapshotMerged == 1) = true ∧
    gives .rollover (carrying none Initial.rep) (fun t => t.rep.snapshotDropped == 1) = true := by
  refine ⟨by decide +kernel, ⟨_, rfl⟩, by decide +kernel, by decide +kernel, by decide +kernel⟩
theorem witness_QualifiedLineFollowsState_waiting : willRollOver (carrying none atWork.rep).time = true ∧
    (carrying none atWork.rep).time.todSending ≠ none ∧ (needing .track).inReset = false := by decide +kernel
/-- The three lines at both levels: the trigger just reached and just missed, the timeout flag alone, each state of
the synthesizer. -/
theorem witness_OutputAndReportTimersEnd_lines :
    ([0, 1].map fun n => attentionLine { atWork with rep := { atWork.rep with
      ring := some { emptyRing with made := 1, written := n } } }) = [false, true] ∧
    attentionLine { atWork with rep := { atWork.rep with ring := some { emptyRing with timeoutFlag := true } } } = true ∧
    attentionLine { atWork with rep := Initial.rep } = false ∧ pulseLine ending = true ∧ pulseLine atWork = false ∧
    radioReference ending = none ∧
    radioReference { ending with time := { ending.time with synth := ⟨5, 96, 25, true, .running, none⟩ } } =
      some (40000000 * 96 * 16000000000, 5 * 25 * 16000000000) := by decide +kernel
/-- The copy engine's line of a FILL entry, locked and drained, with its spare line locked or not. -/
def filling (locks : List Lock) : State :=
  { atWork with
    path := { atWork.path with
      reqs := [⟨0, 100000, .draining 100000, .copyLine⟩], nextId := 1, locks := ⟨100000, .copyEngine⟩ :: locks }
    integ := { atWork.integ with remaps := [⟨1562, 80, .copying, .fill, 32, ⟨0, 0⟩⟩] } }
theorem witness_StationTakesAccess_fill :
    (pathLaw (filling []) ∧ ∀ l ∈ [[], [⟨5152, .internalPartial⟩]], (filling l).inReset = false ∧
      drained (filling l) ⟨0, 100000, .draining 100000, .copyLine⟩ = true ∧
      copyingEntry (filling l) = some ⟨1562, 80, .copying, .fill, 32, ⟨0, 0⟩⟩ ∧ 64 * 80 + 32 = 5152 ∧
      (∀ q ∈ (filling l).path.reqs, stationOf q.job = .copy → q = ⟨0, 100000, .draining 100000, .copyLine⟩) ∧
      lineLocked (filling l) 5152 = !l.isEmpty) ∧
    gives (.lockStationArrival .copy) (filling [])
      (fun t => t.path.reqs == [⟨1, 5152, .ready 5152, .copyWrite (Vector.replicate 64 0)⟩]) = true ∧
    gives (.lockStationArrival .copy) (filling [⟨5152, .internalPartial⟩])
      (fun t => t.path.waits == [1] && t.path.reqs.map (·.stage) == [.waitLine]) = true :=
  ⟨⟨pathLaw_idle (by decide +kernel) (by decide +kernel) rfl, by decide +kernel⟩, by decide +kernel, by decide +kernel⟩
/-- A link in DOWN(PROFILE) that keeps LOCKED, without the hold of a restore. -/
def downProfile : LinkMonitor :=
  { linkUp with state := .down .profile, planned := none, etx := none, erx := none, restoreHold := 0 }
/-- Holds of length 0: the restore from DOWN, and the rise of E_tx in UP; an entry into DOWN from RESTORING. -/
theorem witness_StatusWriteMovesLink_holds :
    (ModemNext (statusAt 1 3 3 downProfile) 0 (statusOf 1 3 3) .status 5 (win 5) ∧ downProfile.restoreHold = 0 ∧
      isDown downProfile.state = true ∧
      ([3, 4].map fun f => (statusEvent 0 (seen (statusOf 1 3 3)) { downProfile with floor := f }).l.state) = [.up, .degraded]) ∧
    (ModemNext (statusAt 1 5 3 { linkUp with upshiftHold := 0 }) 0 (statusOf 1 5 3) .status 5 (win 5) ∧
      effective linkUp 5 = some 5 ∧ linkUp.planned = some 3 ∧
      gives .statusWrite (statusAt 1 5 3 { linkUp with upshiftHold := 0 })
        (fun t => t.link.planned == some 5 && t.link.upshifts == 1 && t.link.upshiftTimer == none) = true) ∧
    (ModemNext (statusAt 0 3 3 { linkUp with state := .restoring, planned := none }) 0 (statusOf 0 3 3) .status 5 (win 5) ∧
      isDown LinkState.restoring = false) ∧
    (ModemNext (statusAt 1 3 3 { linkUp with state := .degraded, floor := 3 }) 0 (statusOf 1 3 3) .status 5 (win 5) ∧
      (statusEvent 0 (seen (statusOf 1 3 3)) { linkUp with state := .degraded, floor := 3 }).l.state = .up) := by unfold ModemNext Next; decide +kernel
/-- A DATA completion of line 2,048, the descriptor of slot 0: the slot is freed, and the exchange entry stays (log
entry 53). -/
theorem witness_MatchedCompletionSettles_slot :
    ModemNext (completing 2048 0 1 (posted 0 (.query 5 6) (exchanging 1 .querySent atWork))) 0 (completion 2048 0 1)
      .txCompletion 4 (win 4) ∧
    (flightOf (posted 0 (.query 5 6) (exchanging 1 .querySent atWork)) 2048).map (·.kind) = some 0 ∧
    slotOfLine (posted 0 (.query 5 6) (exchanging 1 .querySent atWork)) 2048 = some 0 ∧
    slotOfLine atWork 1024 = none ∧
    gives .txCompletion (completing 2048 0 1 (posted 0 (.query 5 6) (exchanging 1 .querySent atWork)))
      (fun t => slotAt t 0 == .free && t.xfer.exchanges.map (·.state) == [.querySent]) = true := by
  unfold ModemNext Next; decide +kernel
/-- What a descriptor's slot holds when the descriptor is lost: nothing, a query with its exchange entry or without, a
test frame with its outstanding entry or without. -/
def lostCases : List State :=
  [posted 1 .free (draining .posted), posted 1 (.query 5 6) (exchanging 1 .querySent atWork), posted 1 (.query 5 6) atWork,
    posted 2 (.test 1) (draining .posted), posted 2 (.test 1) atWork]
theorem witness_OverwriteRemovesEntry_slots : (∀ s ∈ lostCases,
      Next (waiting .site (completion 2048 1 0) s) .site 0 (completion 2048 1 0) ∧
      sight (waiting .site (completion 2048 1 0) s) .site (completion 2048 1 0) = .overwrite ∧
      inFlight s 2048 = true ∧ slotOfLine s 2048 = some 0) ∧
    (lostCases.map fun s => (findExchange s 5 6).isSome) = [false, true, false, false, false] ∧
    (lostCases.map fun s => (outstandingOf s.loop 0 1).isSome) = [true, false, false, true, false] ∧
    (lostCases.map fun s => gives (.descriptorOverwrite .site) (waiting .site (completion 2048 1 0) s) fun t =>
      slotAt t 0 == .free && t.xfer.exchanges == []) = [true, true, true, true, true] ∧
    (lostCases.map fun s => gives (.descriptorOverwrite .site) (waiting .site (completion 2048 1 0) s) fun t =>
      t.xfer.counters.queryLost == 1) = [false, true, true, false, false] := by
  unfold Next; decide +kernel
theorem witness_AdmissionTimersExpire_slots : ∀ s ∈ lostCases, (flightOf s (2048 : BitVec 30).toNat).map (·.expiry) =
      some 4000000 ∧ slotOfLine s 2048 = some 0 ∧ slotOfLine inFlightState 1024 = none ∧
    gives (.flightTimeout 2048) { s with now := 4000000 } (fun t => slotAt t 0 == .free && t.xfer.exchanges == []) = true := by
  decide +kernel
/-- The scrubber of lines 99,966 to 99,969 at a position and rate, of which the last two lie in the fence over page
1,562. -/
def scrubbing (position rate : Nat) : State :=
  { marching with integ := { atWork.integ with scrubber :=
    { atWork.integ.scrubber with startLine := 99966, endLine := 99969, position := position, rate := rate } } }
/-- One line before the fence; two lines in it, and one behind the wrap; two lines in it, at which the allowance ends;
rate 0. -/
theorem witness_ScrubTimerTakesLine_fence :
    (∀ x ∈ [(99967, 1), (99968, 3), (99968, 2), (99968, 0)], (scrubbing x.1 x.2).inReset = false ∧
      (scrubbing x.1 x.2).path.loadHigh = false ∧ scrubBusy (scrubbing x.1 x.2) = false ∧
      (scrubbing x.1 x.2).integ.scrubber.timer = some 40000) ∧
    ([99966, 99967, 99968, 99969].map (fenced (scrubbing 99968 3))) = [false, false, true, true] ∧
    (∀ p : Nat → Nat, p 0 = 99968 → (∀ n, p (n + 1) = if 99969 ≤ p n then 99966 else p n + 1) →
      p 1 = 99969 ∧ p 2 = 99966 ∧ p 3 = 99967) ∧
    (∃ p : Nat → Nat, p 0 = 99968 ∧ ∀ n, p (n + 1) = if 99969 ≤ p n then 99966 else p n + 1) ∧
    gives .scrubTimerExpiry { scrubbing 99968 3 with now := 40000 } (fun t => t.integ.counters.scrubSkipped == 2 &&
      t.integ.scrubber.passCount == 1 && t.integ.scrubber.position == 99967 && t.integ.scrubber.allowance == 0 &&
      t.path.reqs == [⟨0, 99966, .forwarded, .scrub⟩]) = true ∧
    gives .scrubTimerExpiry { scrubbing 99968 2 with now := 40000 } (fun t => t.integ.counters.scrubSkipped == 2 &&
      t.integ.scrubber.passCount == 1 && t.integ.scrubber.position == 99966 && t.path.reqs == []) = true := by
  refine ⟨by decide +kernel, by decide +kernel, fun p h g => by simp [g, h],
    ⟨fun n => n.rec 99968 fun _ x => if 99969 ≤ x then 99966 else x + 1, rfl, fun _ => rfl⟩, by decide +kernel,
    by decide +kernel⟩
/-- A read of line 100,000, in page 1,562, with a suspect page list, and automatic remapping on or off. -/
def suspecting (l : List Suspect) (auto : Bool) : State :=
  { reading with integ := { reading.integ with suspects := l, autoRemap := auto } }
/-- Eight suspects, of which those of pages 2 and 4 have the lowest count. -/
def eightSuspects : List Suspect := (List.range 8).map fun i => ⟨i, if i = 2 ∨ i = 4 then 1 else 3, 10 - i⟩
/-- At the default threshold of 4: a page that is new, to a full list too, one that stays below it, and one that
reaches it, which is reported or remapped, or remapped already, or finds no spare page. -/
theorem witness_PortReadAnswered_suspects :
    (∀ l ∈ [[], eightSuspects, [⟨1562, 2, 5⟩], [⟨1562, 3, 5⟩]], ∀ auto ∈ [false, true],
      Completes (suspecting l auto) (accessAt 100000 (.portRead .radio)) ∧
      portRequestOf (suspecting l auto) (accessAt 100000 (.portRead .radio)) = some (readOf 100000) ∧
      isMarked (suspecting l auto) 100000 = false ∧ inSpare (suspecting l auto) (pageOf 100000) = false) ∧
    pathLaw (suspecting [⟨1562, 3, 5⟩] false) ∧ lineOutcome (lineRead correctedLine (accessAt 100000 (.portRead .radio))
      (suspecting [⟨1562, 3, 5⟩] false)) = .corrected ∧
    (eightSuspects.find? (fun x => x.page = pageOf 100000) = none ∧ reading.integ.suspectThreshold = 4 ∧
      unread emptyRing < emptyRing.size - 1 ∧ ∃ w, windowOfKind (suspecting [⟨1562, 3, 5⟩] false) .report = some w) ∧
    (remapHas (suspecting [⟨1562, 3, 5⟩] true) 1562 = false ∧ poolPage (suspecting [⟨1562, 3, 5⟩] true) = some 80 ∧
      remapHas (copying 0 (suspecting [⟨1562, 3, 5⟩] true)) 1562 = true ∧
      poolPage { suspecting [⟨1562, 3, 5⟩] true with windows := State.reset.windows } = none) ∧
    gives (.portReadComplete correctedLine) (suspecting eightSuspects false) (fun t =>
      t.integ.suspects == eightSuspects.filter (fun x => x.page != 4) ++ [⟨1562, 1, 0⟩] &&
        t.integ.counters.suspectReplaced == 1) = true ∧
    gives (.portReadComplete correctedLine) (suspecting [⟨1562, 2, 5⟩] false)
      (fun t => t.integ.suspects == [⟨1562, 3, 5⟩]) = true ∧
    gives (.portReadComplete correctedLine) (suspecting [⟨1562, 3, 5⟩] false) (fun t => t.integ.suspects == [] &&
      t.path.reqs.map (·.line) == [100000, 64]) = true ∧
    gives (.portReadComplete correctedLine) (suspecting [⟨1562, 3, 5⟩] true)
      (fun t => t.integ.remaps == [⟨1562, 80, .copying, .copy, 0, ⟨0, 0⟩⟩]) = true := by
  refine ⟨by unfold Completes; decide +kernel, pathLaw_reading, by decide +kernel, ⟨by decide +kernel, rfl, by decide, _, rfl⟩,
    by decide +kernel, by decide +kernel, by decide +kernel, by decide +kernel, by decide +kernel⟩
/-- A modem read of slot 0's descriptor line, whose length of 63 is too short. -/
def judgingSlot (sequence : Nat) (s : State) : State :=
  issued 2048 (.port .modem (readOf 2048) (some (4, win 4)) none) .descriptorRead
    { s with dram := [(2048, buildLine [⟨0, 1, 1⟩, ⟨1, 1, 1⟩, ⟨4, 2, 63⟩, ⟨6, 2, sequence⟩])], adm := atWork.adm }
/-- A read of a marked line and one that is UNCORRECTABLE; a listed line without credit; rejections of a slot's
descriptor that fit what it records, or not. -/
theorem witness_DescriptorJudged_others :
    (Completes judgedT0 (accessAt 1024 .descriptorRead) ∧
      lineOutcome (lineRead lostLine (accessAt 1024 .descriptorRead) judgedT0) = .uncorrectable ∧
      isMarked { judgedT0 with integ := { judgedT0.integ with marked := [1024] } } 1024 = true ∧
      gives (.descriptorReadJudged cleanLine) { judgedT0 with integ := { judgedT0.integ with marked := [1024] } }
        (fun t => answerOf t 0 == some ⟨0, false, some Line.zero⟩ && t.integ.counters.markedReads == 1) = true) ∧
    (listed (clsAt { heldLong with dram := judgedT0.dram } .t0) 1024 = true ∧
      gives (.descriptorReadJudged cleanLine) (judging (descriptor 1 0 1 0 64 (64 * 1088))
        { heldLong with link := Initial.link })
        (fun t => (clsAt t .t0).held == [⟨1024, 64, 0⟩] && (clsAt t .t0).counters.heldUnlisted == 0) = true) ∧
    (∀ s ∈ lostCases, ∀ q ∈ [1, 6], Completes (judgingSlot q s) (accessAt 2048 .descriptorRead) ∧
      portRequestOf (judgingSlot q s) (accessAt 2048 .descriptorRead) = some (readOf 2048) ∧
      windowOfAccess (judgingSlot q s) (accessAt 2048 .descriptorRead) = some (4, win 4) ∧
      inFlight (judgingSlot q s) 2048 = false ∧ slotOfLine (judgingSlot q s) 2048 = some 0 ∧
      rejectReason (judgingSlot q s) (win 4) (dramRead (judgingSlot q s).dram 2048) = some 1 ∧
      descSequence (dramRead (judgingSlot q s).dram 2048) = q) ∧
    (lostCases.map fun s => gives (.descriptorReadJudged cleanLine) (judgingSlot 6 s) fun t =>
      t.xfer.counters.queryRejected == 1 && slotAt t 0 == .free) = [false, true, true, false, false] ∧
    (lostCases.map fun s => gives (.descriptorReadJudged cleanLine) (judgingSlot 1 s) fun t =>
      t.xfer.counters.rejectOrphan == 1) = [true, true, true, false, false] := by
  unfold Completes; decide +kernel
/-- A rejected read of a listed line, with so many write-backs held and a suspect page just below the threshold. -/
def rejecting (n : Nat) : State :=
  let s := judging (descriptor 1 0 1 0 63 (64 * 1088)) heldLong
  { s with
    path := { s.path with
      reqs := s.path.reqs ++ (List.range n).map fun i => ⟨i + 1, 1025 + i, .forwarded, .writeBack⟩, nextId := n + 1 }
    integ := { s.integ with suspects := [⟨pageOf 1024, 3, 0⟩] } }
theorem pathLaw_rejecting {n : Nat} (o : occupancy (rejecting n) .site ≤ 16 ∧ occupancy (rejecting n) .radio ≤ 16 ∧
    occupancy (rejecting n) .modem ≤ 16) (g : ((rejecting n).path.reqs.map (·.id)).Nodup ∧
      ∀ r ∈ (rejecting n).path.reqs, r.id < (rejecting n).path.nextId) : pathLaw (rejecting n) :=
  pathLaw_one o ⟨Nat.zero_le 1, List.nodup_nil, g.1, g.2⟩ rfl ⟨List.mem_cons_self, rfl, Nat.succ_pos n⟩
    ⟨rfl, rfl, .inl ⟨rfl, rfl⟩⟩
/-- The write-back of a rejected read with 15 and with 16 held, and its ADMIT_REJECT report, behind the SUSPECT_PAGE
of a CORRECTED read or at once (R23). -/
theorem witness_DescriptorJudged_rejected :
    (pathLaw (rejecting 0) ∧ pathLaw (rejecting 15) ∧ pathLaw (rejecting 16)) ∧
    (∀ n ∈ [0, 15, 16], Completes (rejecting n) (accessAt 1024 .descriptorRead) ∧
      portRequestOf (rejecting n) (accessAt 1024 .descriptorRead) = some (readOf 1024) ∧
      windowOfAccess (rejecting n) (accessAt 1024 .descriptorRead) = some (2, win 2) ∧
      isMarked (rejecting n) 1024 = false ∧ inFlight (rejecting n) 1024 = false ∧
      rejectReason (rejecting n) (win 2) (dramRead (rejecting n).dram 1024) = some 1 ∧
      ((rejecting n).path.reqs.filter fun q => q.job == .writeBack).length = n) ∧
    (unread emptyRing + 7 < emptyRing.size - 1 ∧ (rejecting 0).rep.ring = some emptyRing ∧
      ∃ w, windowOfKind (rejecting 0) .report = some w) ∧
    ([0, 15, 16].map fun n => gives (.descriptorReadJudged cleanLine) (rejecting n) fun t =>
      t.adm.writebackDropped == 0 && t.path.reqs.any fun q => q.line == 1024 && q.job == .writeBack) = [true, true, false] ∧
    gives (.descriptorReadJudged cleanLine) (rejecting 16) (fun t => t.adm.writebackDropped == 1) = true ∧
    ([(cleanLine, 0), (correctedLine, 1)].map fun x => gives (.descriptorReadJudged x.1) (rejecting 16) fun t =>
      t.path.reqs.any fun q => q.line == 64 + x.2 && q.job == .reportEntry (buildLine [⟨0, 1, 4⟩, ⟨1, 1, 1⟩, ⟨2, 4, x.2⟩,
        ⟨16, 8, 65536⟩, ⟨24, 1, 2⟩, ⟨25, 1, 1⟩, ⟨26, 1, 1⟩, ⟨28, 2, 63⟩])) = [true, true] := by
  refine ⟨⟨pathLaw_rejecting (by decide +kernel) (by decide +kernel), pathLaw_rejecting (by decide +kernel) (by decide +kernel),
    pathLaw_rejecting (by decide +kernel) (by decide +kernel)⟩, by unfold Completes; decide +kernel, ⟨by decide, by decide +kernel,
    _, rfl⟩, by decide +kernel, by decide +kernel, by decide +kernel⟩
/-- The link on profiles 3 and 5, for PROFILE records: DOWN(PROFILE), at the planned profile 5 with E_tx at 5 or above
it, and RESTORING. -/
def profileLinks : List LinkMonitor :=
  [downProfile, { linkUp with kept := some ⟨1, 7, 3⟩, etx := some 5, planned := some 5 },
    { linkUp with state := .restoring, planned := none, restoreTimer := some 9 }]
/-- Profile 3 made invalid, or again as it is, or profile 5 made invalid; the values just out of range of both
records. -/
theorem witness_LinkRecords_cases :
    (∀ l ∈ profileLinks, ∀ x ∈ [(3, 0, 0), (3, 1, 100000), (5, 0, 0)],
      RecordNext (withRecord 0x02 (profileFields x.1 x.2.1 20 x.2.2 50 60) { atWork with link := l }) 0
        (recordOf 0x02 (profileFields x.1 x.2.1 20 x.2.2 50 60)) 0x02 x.1) ∧
    (profileEvent 0 (seen (recordOf 0x02 (profileFields 3 1 20 100000 50 60))) downProfile).l.state = .up ∧
    gives .profileRecord (withRecord 0x02 (profileFields 5 0 0 0 0 0) { atWork with link :=
        { linkUp with kept := some ⟨1, 7, 3⟩, etx := some 5, planned := some 5 } })
      (fun t => t.link.planned == some 3 && t.link.etx == some 3 && t.link.downshifts == 1 && t.link.upshiftTimer == none) =
      true ∧
    gives .profileRecord (withRecord 0x02 (profileFields 3 0 0 0 0 0) { atWork with link :=
        { linkUp with kept := some ⟨1, 5, 5⟩, etx := some 5, erx := some 5 } })
      (fun t => t.link.planned == some 5 && t.link.downshifts == 1 && t.link.upshiftTimer == none) = true ∧
    Replaces { linkUp with profiles := linkUp.profiles.setIfInBounds 5 ⟨false, 0, 0, 0, 0⟩ } 5 3 ∧
    (∀ x ∈ [(12, 0, 0, 0, 0), (11, 1, 0, 0, 0), (11, 1, 2000001, 0, 0), (11, 1, 2000000, 1000001, 0),
        (11, 1, 2000000, 1000000, 1000001)],
      RecordNext (withRecord 0x02 (profileFields x.1 x.2.1 20 x.2.2.1 x.2.2.2.1 x.2.2.2.2) atWork) 0
        (recordOf 0x02 (profileFields x.1 x.2.1 20 x.2.2.1 x.2.2.2.1 x.2.2.2.2)) 0x02 x.1 ∧
      gives .profileRecord (withRecord 0x02 (profileFields x.1 x.2.1 20 x.2.2.1 x.2.2.2.1 x.2.2.2.2) atWork)
        (fun t => t.dec.range == 1) = true) ∧
    ∀ x ∈ [(12, 50, 0, 0), (11, 0, 0, 0), (11, 1001, 0, 0), (11, 1000, 60001, 0), (11, 1000, 60000, 60001)],
      RecordNext (withRecord 0x05 [⟨4, 1, x.1⟩, ⟨6, 2, x.2.1⟩, ⟨8, 2, x.2.2.1⟩, ⟨10, 2, x.2.2.2⟩] atWork) 0
        (recordOf 0x05 [⟨4, 1, x.1⟩, ⟨6, 2, x.2.1⟩, ⟨8, 2, x.2.2.1⟩, ⟨10, 2, x.2.2.2⟩]) 0x05 x.1 ∧
      gives .linkRecord (withRecord 0x05 [⟨4, 1, x.1⟩, ⟨6, 2, x.2.1⟩, ⟨8, 2, x.2.2.1⟩, ⟨10, 2, x.2.2.2⟩] atWork)
        (fun t => t.dec.range == 1) = true := by
  refine ⟨by unfold RecordNext Next; decide +kernel, by decide +kernel, by decide +kernel, by decide +kernel,
    ⟨by decide +kernel, .inl ⟨by decide, fun x h g => ?_⟩⟩, by unfold RecordNext Next; decide +kernel,
    by unfold RecordNext Next; decide +kernel⟩
  obtain rfl : x = 4 := by omega
  decide +kernel
/-- A REPORT CONFIGURE's trigger and timeout for a ring of N entries. -/
def configureOf (n trigger timeout : Nat) : List FieldSpec :=
  [⟨4, 1, 1⟩, ⟨6, 2, n⟩, ⟨8, 2, trigger⟩, ⟨10, 2, timeout⟩]
/-- A ring of 16 entries that is full. -/
def fullRing : Ring := { emptyRing with made := 15, written := 15 }
/-- CONFIGURE of the ACTIVE ring, with room and full; of another size; of a RELEASING ring; without room in the
window; out of range at either end. CONSUME at C, of a full ring, of one that has passed W, of a RELEASING one, and
refused; RELEASE of a full ring. -/
theorem witness_ReportRecords_others :
    (∀ x ∈ [(some emptyRing, 16, 1, 1, 0), (some fullRing, 16, 15, 1000, 0), (some emptyRing, 17, 1, 1, 1),
        (some { emptyRing with releasing := true }, 16, 1, 1, 1), (none, 129, 1, 1, 2), (none, 15, 1, 1, 3),
        (none, 1025, 1, 1, 3), (some emptyRing, 16, 0, 1, 3), (some emptyRing, 16, 16, 1, 3), (some emptyRing, 16, 1, 0, 3),
        (some emptyRing, 16, 1, 1001, 3)],
      RecordNext (withRecord 0x10 (configureOf x.2.1 x.2.2.1 x.2.2.2.1) (withRing x.1)) 0
        (recordOf 0x10 (configureOf x.2.1 x.2.2.1 x.2.2.2.1)) 0x10 1 ∧
      gives .reportConfigure (withRecord 0x10 (configureOf x.2.1 x.2.2.1 x.2.2.2.1) (withRing x.1)) (fun t =>
        t.dec == [{ Initial.dec with applied := 1 }, { Initial.dec with busy := 1 }, { Initial.dec with conflict := 1 },
          { Initial.dec with range := 1 }].getD x.2.2.2.2 Initial.dec) = true) ∧
    (pathLaw (withRecord 0x10 (configureOf 16 1 1) (withRing (some emptyRing))) ∧ unread emptyRing < 16 - 1 ∧
      16 - 1 ≤ unread fullRing ∧ (windowOfKind atWork .report).map (64 * ·.size) = some 192) ∧
    (∀ x ∈ [(fullRing, 0), (fullRing, 1), (fullRing, 15), ({ emptyRing with made := 3, consumed := 4, written := 3 }, 4),
        ({ fullRing with releasing := true }, 15)],
      RecordNext (withRecord 0x10 [⟨4, 1, 2⟩, ⟨12, 2, x.2⟩] (withRing (some x.1))) 0
        (recordOf 0x10 [⟨4, 1, 2⟩, ⟨12, 2, x.2⟩]) 0x10 2 ∧
      gives .reportConsume (withRecord 0x10 [⟨4, 1, 2⟩, ⟨12, 2, x.2⟩] (withRing (some x.1)))
        (fun t => t.dec == { Initial.dec with applied := 1 }) = true) ∧
    (pathLaw (withRecord 0x10 [⟨4, 1, 2⟩, ⟨12, 2, 1⟩] (withRing (some fullRing))) ∧ fullRing.written - fullRing.consumed < 16) ∧
    (∀ x ∈ [(some emptyRing, 16), (some emptyRing, 1), (some fullRing, 16), (none, 0)],
      RecordNext (withRecord 0x10 [⟨4, 1, 2⟩, ⟨12, 2, x.2⟩] (withRing x.1)) 0 (recordOf 0x10 [⟨4, 1, 2⟩, ⟨12, 2, x.2⟩]) 0x10 2 ∧
      gives .reportConsume (withRecord 0x10 [⟨4, 1, 2⟩, ⟨12, 2, x.2⟩] (withRing x.1))
        (fun t => t.dec.range == (if x.1 = none then 0 else 1)) = true) ∧
    (∀ u ∈ [false, true], RecordNext (withRecord 0x10 [⟨4, 1, 3⟩] { withRing (some fullRing) with rep :=
        { (withRing (some fullRing)).rep with snapshotWriting := u } }) 0 (recordOf 0x10 [⟨4, 1, 3⟩]) 0x10 3 ∧
      gives .reportRelease (withRecord 0x10 [⟨4, 1, 3⟩] { withRing (some fullRing) with rep :=
        { (withRing (some fullRing)).rep with snapshotWriting := u } }) (fun t => t.rep.ring.isSome == u) = true) ∧
    pathLaw (withRecord 0x10 [⟨4, 1, 3⟩] (withRing (some fullRing))) := by
  refine ⟨by unfold RecordNext Next; decide +kernel,
    ⟨pathLaw_idle (by decide +kernel) (by decide +kernel) rfl, by decide, by decide, by decide +kernel⟩,
    by unfold RecordNext Next; decide +kernel,
    ⟨pathLaw_idle (by decide +kernel) (by decide +kernel) rfl, by decide⟩, by unfold RecordNext Next; decide +kernel,
    by unfold RecordNext Next; decide +kernel, pathLaw_idle (by decide +kernel) (by decide +kernel) rfl⟩
/-- Each of several idle states meets the line path's law. -/
theorem pathLaw_all {l : List State} (h : ∀ s ∈ l, (occupancy s .site ≤ 16 ∧ occupancy s .radio ≤ 16 ∧ occupancy s .modem ≤ 16) ∧
    (s.path.locks.length ≤ 1 ∧ (s.path.locks.map (·.line)).Nodup ∧ (s.path.reqs.map (·.id)).Nodup ∧
      ∀ r ∈ s.path.reqs, r.id < s.path.nextId) ∧ s.path.memPort = []) : ∀ s ∈ l, pathLaw s :=
  fun s hs => pathLaw_idle (h s hs).1 (h s hs).2.1 (h s hs).2.2
/-- The march session, with LOAD_HIGH and its LOAD cause at a level, marks of 0 and 1, and so many answered requests
at the radio port. -/
def loaded (high : Bool) (n : Nat) : State :=
  { marching with
    march := { marching.march with state := if high then .suspended else .running, causeLoad := high }
    path := { atWork.path with
      loadHigh := high, lowMark := 0, highMark := 1, nextId := n
      reqs := (List.range n).map fun i => ⟨i, 200000, .answered ⟨0, true, none⟩, .port .radio (readOf 200000) none none⟩ } }
/-- A PORTS record's marks, with every weight 1. -/
def marksOf (low high : Nat) : List FieldSpec := [⟨4, 1, 1⟩, ⟨5, 1, 1⟩, ⟨6, 1, 1⟩, ⟨7, 1, 1⟩, ⟨8, 1, low⟩, ⟨9, 1, high⟩]
/-- LOAD_HIGH set by the request that reaches the high mark, by a PORTS record, and at a response; cleared at the low
mark by a response and by a PORTS record, and kept just above it: the march session's LOAD cause and state follow
(R105, R135). -/
theorem witness_LoadTold :
    (marchLaw (loaded true 1) ∧ marchLaw (loaded false 0) ∧ ∀ s ∈ [loaded true 1, loaded true 2, loaded false 2], pathLaw s) ∧
    (∀ x ∈ [(true, 1), (true, 2), (false, 2)],
      (portQueue (loaded x.1 x.2) .radio).head?.map (·.stage) = some (.answered ⟨0, true, none⟩)) ∧
    ([(.lineRequestTaken .radio (readOf 200000), loaded false 0), (.responseReturned .radio, loaded false 2),
        (.responseReturned .radio, loaded true 2), (.portsRecord, withRecord 0x09 (marksOf 0 1) (loaded false 0))].map
      fun x : Instr × State => gives x.1 x.2 fun t => t.path.loadHigh && t.march.causeLoad && t.march.state == .suspended &&
        t.path.loadHighEntries == if x.2.path.loadHigh then 0 else 1) = [true, true, true, true] ∧
    ([(.responseReturned .radio, loaded true 1), (.portsRecord, withRecord 0x09 (marksOf 1 48) (loaded true 0)),
        (.lineRequestTaken .radio (readOf 200000), { loaded false 0 with path := { atWork.path with highMark := 2 } })].map
      fun x : Instr × State => gives x.1 x.2 fun t => !t.path.loadHigh && !t.march.causeLoad && t.march.state == .running &&
        t.path.loadHighEntries == 0) = [true, true, true] := by
  refine ⟨⟨by unfold marchLaw; decide +kernel, by unfold marchLaw; decide +kernel, pathLaw_all (by decide +kernel)⟩,
    by decide +kernel, by decide +kernel, by decide +kernel⟩
/-- Class T0 as CONGESTED or CLEAR, with marks and a held list. -/
def crowded (congested : Bool) (low high : Nat) (l : List HeldEntry) (s : State) : State :=
  { s with
    adm := { s.adm with classes := { testClasses with t0 := { testClasses.t0 with
      congested := congested, lowMark := low, highMark := high, held := l } } }
    fault := { s.fault with congestion := { s.fault.congestion with raw := congested } } }
/-- A command changes class T0 to a congestion state, with its notice, and the CONGESTION condition with it. -/
def turns (next : Bool) (c : Instr) (s : State) : Bool :=
  gives c s fun t => (clsAt t .t0).congested == next && (clsAt t .t0).noticeSeq == 1 && t.fault.congestion.raw == next &&
    t.path.reqs.any fun q => q.line == 4161 && isWaitingNotice .t0 q
/-- A held frame of 12,000 bits on air. -/
def heldFrame (line : Nat) : HeldEntry := ⟨line, 1480, 0⟩
/-- A refill at the high mark and just below it, at the low mark and just above it; the maximum hold age just reached
and just missed (R34, R35). -/
theorem witness_CongestionSettled :
    ([(false, 11, 12, 40000), (false, 12, 13, 40000), (true, 12, 13, 40000), (true, 11, 13, 40000),
        (false, 11, 13, 2000000), (false, 11, 13, 1999999), (true, 12, 13, 2000000), (true, 12, 13, 1999999)].map
      fun x : Bool × Nat × Nat × Nat => gives .refillTimerExpiry
        { crowded x.1 x.2.1 x.2.2.1 [heldFrame 1024] atWork with now := x.2.2.2 } fun t => (clsAt t .t0).congested) =
      [true, false, false, true, true, false, true, false] ∧
    pathLaw { crowded false 11 12 [heldFrame 1024] atWork with now := 40000 } ∧
    gives .refillTimerExpiry { crowded false 11 12 [heldFrame 1024] atWork with now := 40000 } (fun t =>
      t.path.reqs.map (fun q => (q.line, q.job)) == [(4161, .notice .t0 (buildLine [⟨0, 1, 1⟩, ⟨1, 1, 1⟩, ⟨2, 1, 1⟩,
        ⟨8, 4, 12000⟩, ⟨12, 4, 100000⟩, ⟨16, 4, 1⟩])), (64, .reportEntry (entryLine 0x10 1 0 ⟨0, 0⟩
          [⟨16, 1, 3⟩, ⟨18, 1, 1⟩, ⟨19, 1, 1⟩, ⟨20, 1, 1⟩, ⟨24, 4, 1⟩]))]) = true := by
  refine ⟨by decide +kernel, pathLaw_idle (by decide +kernel) (by decide +kernel) rfl, by decide +kernel⟩
/-- The events that change class T0 to CONGESTED: a held read behind the head joins the list or changes a length in
it, the age timer's expiry, and a CLASS record; and to CLEAR: the head's completion, unmatched or matched, its
overwrite, its reads, not ready, rejected and admitted, and the ends of its list. -/
theorem witness_CongestionSettled_events :
    ([(.descriptorReadJudged cleanLine, judging (descriptor 1 0 1 0 1480 (64 * 1088)) (crowded false 11 24 [heldFrame 1025] atWork)),
        (.descriptorReadJudged cleanLine, judging (descriptor 1 0 1 0 1480 (64 * 1088))
          (crowded false 11 24 [heldFrame 1025, ⟨1024, 64, 0⟩] atWork)),
        (.classRecord, withRecord 0x03 [⟨4, 1, 1⟩, ⟨12, 2, 30⟩, ⟨14, 2, 12⟩, ⟨18, 2, 50⟩]
          (crowded false 11 13 [heldFrame 1024] atWork))].map fun x : Instr × State =>
      turns true x.1 x.2) = [true, true, true] ∧
    turns true (.ageTimerExpiry .t0) heldLong = true ∧
    ([(.txCompletion, completing 1024 0 1 (crowded true 11 13 [heldFrame 1024] atWork)),
        (.txCompletion, completing 1024 0 1 (crowded true 11 13 [heldFrame 1024] inFlightState)),
        (.descriptorOverwrite .site, waiting .site (completion 1024 0 0) (crowded true 11 13 [heldFrame 1024] atWork)),
        (.descriptorReadJudged cleanLine, judging (descriptor 0 0 1 0 1480 (64 * 1088)) (crowded true 11 13 [heldFrame 1024] atWork)),
        (.descriptorReadJudged cleanLine, judging (descriptor 1 0 1 0 63 (64 * 1088)) (crowded true 11 13 [heldFrame 1024] atWork)),
        (.descriptorReadJudged cleanLine, judging (descriptor 1 0 1 0 1480 (64 * 1088)) (crowded true 11 13 [heldFrame 1024] atWork)),
        (.classRecord, withRecord 0x03 (classFields 1 7 800 0 30) (crowded true 11 13 [heldFrame 1024] atWork)),
        (.admitRecord, withRecord 0x04 [⟨5, 1, 2⟩] (crowded true 11 13 [heldFrame 1024] atWork))].map fun x : Instr × State =>
      turns false x.1 x.2) = List.replicate 8 true := by
  refine ⟨by decide +kernel, by decide +kernel, by decide +kernel⟩
/-- Class T0 clear at the high mark, with a notice of a class at a stage. -/
def noticed (c : Cls) (st : Stage) : State :=
  { crowded false 11 12 [heldFrame 1024] atWork with
    now := 40000
    path := { atWork.path with reqs := [⟨0, 4161, st, .notice c Line.zero⟩], nextId := 1 } }
/-- A waiting notice of the class is replaced, one that is issued or of another class is not; without a NOTICE window
the new one is dropped, and a waiting one stays (R36, log entry 51). -/
theorem witness_CongestionSettled_notices :
    (∀ s ∈ [noticed .t0 .forwarded, noticed .t1 .forwarded], pathLaw s) ∧
    ([noticed .t0 .forwarded, noticed .t0 (.issued 4161), noticed .t1 .forwarded].map fun s =>
      gives .refillTimerExpiry s fun t => t.adm.noticeReplaced == 1 && t.adm.noticeDropped == 0) = [true, false, false] ∧
    windowOfKind { noticed .t0 .forwarded with windows := State.reset.windows } .notice = none ∧
    gives .refillTimerExpiry { noticed .t0 .forwarded with windows := State.reset.windows } (fun t =>
      t.adm.noticeReplaced == 0 && t.adm.noticeDropped == 1 && (clsAt t .t0).noticeSeq == 1 && t.fault.congestion.raw &&
      (t.path.reqs.filter (isWaitingNotice .t0)).map (·.id) == [0]) = true :=
  ⟨pathLaw_all (by decide +kernel), by decide +kernel, by decide +kernel, by decide +kernel⟩
/-- The line path's law holds at each kind of command that evaluates a class. -/
theorem witness_CongestionSettled_paths :
    (∀ s ∈ [heldLong, completing 1024 0 1 (crowded true 11 13 [heldFrame 1024] atWork),
        completing 1024 0 1 (crowded true 11 13 [heldFrame 1024] inFlightState),
        waiting .site (completion 1024 0 0) (crowded true 11 13 [heldFrame 1024] atWork),
        withRecord 0x03 (classFields 1 7 800 0 30) (crowded true 11 13 [heldFrame 1024] atWork),
        withRecord 0x04 [⟨5, 1, 2⟩] (crowded true 11 13 [heldFrame 1024] atWork)], pathLaw s) ∧
    pathLaw (judging (descriptor 0 0 1 0 1480 (64 * 1088)) (crowded true 11 13 [heldFrame 1024] atWork)) :=
  ⟨pathLaw_all (by decide +kernel), pathLaw_one (by decide +kernel) (by decide +kernel) rfl
    ⟨List.mem_singleton.2 rfl, rfl, by decide⟩ ⟨rfl, rfl, .inl ⟨rfl, by decide +kernel⟩⟩⟩
/-- A line that fits a session of frames of two lines, with its index and frame sequence. -/
def fitting (i sequence : Nat) : LineRequest :=
  fullWrite 6272 [⟨0, 1, 1⟩, ⟨1, 1, i⟩, ⟨2, 1, 2⟩, ⟨4, 2, sequence⟩]
/-- The session with frames 0 and 1 out: no line of frame 0 is back, and both of frame 1, the first at line 6,272. -/
def returningTwo : State :=
  { looping with loop := { looping.loop with
    params := { looping.loop.params with lines := 2 }, nextSeq := 2
    outstanding := [⟨0, 0, 0, .posted, none, 0⟩, ⟨1, 1, 0, .posted, some 6272, 2⟩] } }
/-- Line 0 of frame 0, whose buffer line frame 1 held; line 1 of frame 0, and of frame 1, which has seen them all; a
line of a frame that is not out (R147). -/
theorem witness_ReturnedLineChecked_entries :
    (∀ x ∈ [(0, 0), (1, 0), (1, 1), (0, 2)], ModemNext (waiting .modem (fitting x.1 x.2) returningTwo) 0 (fitting x.1 x.2)
        .returned 10 (win 10) ∧ field (seen (fitting x.1 x.2)) 4 2 = x.2) ∧
    ([(0, 0), (1, 0), (1, 1), (0, 2)].map fun x => match exec .returnedLine (waiting .modem (fitting x.1 x.2) returningTwo) with
      | .next t => t.loop.outstanding.map fun e => (e.firstLine, e.seen)
      | _ => []) = [[(some 6272, 1), (none, 2)], [(none, 1), (some 6272, 2)], [(none, 0), (some 6272, 2)],
        [(none, 0), (some 6272, 2)]] := by unfold ModemNext Next; decide +kernel
/-- The reasons of R23 at their boundaries, each with the tests before it passed: the length; the class; the kind in
TX_RING and in PART_TX; the buffer aligned or not, from the first line of its memory and to its last, and one line
outside. BUFFER's lines are 1,088 to 1,279, those of PART_TX 2,112 to 3,135. -/
theorem witness_DescriptorJudged_reasons :
    ([(1, 0, 63, 64 * 1088), (1, 0, 64, 64 * 1088), (1, 0, 9600, 64 * 1088), (1, 0, 9601, 64 * 1088), (0, 0, 64, 64 * 1088),
        (2, 0, 64, 64 * 1088), (1, 1, 64, 64 * 1088), (1, 0, 64, 64 * 1088 + 1), (1, 0, 64, 64 * 1087), (1, 0, 65, 64 * 1278),
        (1, 0, 65, 64 * 1279)].map fun x : Nat × Nat × Nat × Nat =>
      rejectReason atWork (win 2) (buildLine (descriptor 1 x.2.1 x.1 0 x.2.2.1 x.2.2.2))) =
      [some 1, none, none, some 1, some 2, some 2, some 3, some 4, some 4, none, some 4] ∧
    ([(0, 1, 64, 64 * 2112), (0, 2, 64, 64 * 2112), (1, 1, 64, 64 * 2112), (0, 0, 64, 64 * 2112), (0, 3, 64, 64 * 2112),
        (0, 1, 64, 64 * 2111), (0, 1, 65, 64 * 3134), (0, 1, 65, 64 * 3135)].map fun x : Nat × Nat × Nat × Nat =>
      rejectReason atWork (win 4) (buildLine (descriptor 1 x.2.1 x.1 0 x.2.2.1 x.2.2.2))) =
      [none, none, some 2, some 3, some 3, some 4, none, some 4] ∧
    ((win 3).base = 17 ∧ (win 3).size = 3 ∧ windowLine (win 4) 64 = 2112 ∧ windowLine (win 4) (64 * 17) = 3136) := by
  decide +kernel
/-- A RELEASING ring of two entries, one of which is written. -/
def releasingRing : Ring := { emptyRing with releasing := true, made := 2, written := 1 }
/-- The report unit with a ring, the snapshot unit WRITING or not, a request remembered or not. -/
def unitOf (r : Option Ring) (writing remembered : Bool) : Reports :=
  { atWork.rep with ring := r, snapshotWriting := writing, snapshotRemembered := remembered }
/-- An entry's write, or the write of a snapshot's last line, with a report unit. -/
def endingWrite (last : Bool) (u : Reports) : State :=
  { (if last then internal 100000 (.snapshotLine 63 Line.zero) (.snapshotWrite 63 Line.zero)
    else internal 100000 (.reportEntry Line.zero) (.reportWrite Line.zero)) with rep := u }
/-- A RELEASING ring's last entry, with a snapshot still being written or not, and one that is not its last; a
snapshot's last line, with a RELEASING ring that has written all or has an entry left, with none, and with a request
remembered (R159, R161). -/
theorem witness_OwnWritesComplete_releasing :
    (∀ l u, Completes (endingWrite l u) (accessAt 100000 (if l then .snapshotWrite 63 Line.zero else .reportWrite Line.zero)) ∧
      dramLaw (endingWrite l u) ∧ pathLaw (endingWrite l u)) ∧
    ([unitOf (some releasingRing) false false, unitOf (some releasingRing) true false,
        unitOf (some { releasingRing with made := 3 }) false false, unitOf none false false].map fun u =>
      match exec .reportEntryWriteComplete (endingWrite false u) with
      | .next t => t.rep.ring.map (·.written)
      | _ => some 0) = [none, some 2, some 2, none] ∧
    ([unitOf (some { releasingRing with written := 2 }) true false, unitOf (some { releasingRing with written := 2 }) true true,
        unitOf (some releasingRing) true true, unitOf none true true].map fun u =>
      match exec .snapshotLineWriteComplete (endingWrite true u) with
      | .next t => some (t.rep.ring.isSome, t.rep.snapshotWriting, t.rep.snapshotRemembered, t.rep.snapshotDropped.toNat)
      | _ => none) = [some (false, false, false, 0), some (false, false, false, 1), some (true, false, false, 1),
        some (false, false, false, 1)] ∧
    gives .snapshotLineWriteComplete (endingWrite true (unitOf (some emptyRing) true true)) (fun t =>
      t.rep == { unitOf (some emptyRing) true false with snapshotsWritten := 1, snapshotSequence := 1 } &&
        t.path.reqs.map (·.line) == (List.range 64).map (80 + ·)) = true := by
  refine ⟨fun l u => ⟨by cases l <;> rfl, by cases l <;> exact dramLaw_stored rfl rfl, ?_⟩, by decide +kernel, by decide +kernel,
    by decide +kernel⟩
  cases l
  · exact pathLaw_internal (job := .reportEntry Line.zero) (k := .reportWrite Line.zero) (fun p => by cases p <;> rfl) rfl
  · exact pathLaw_internal (job := .snapshotLine 63 Line.zero) (k := .snapshotWrite 63 Line.zero)
      (fun p => by cases p <;> rfl) rfl
/-- A record at the idle site port is the next request. -/
theorem next_withRecord (kind : Nat) (fs : List FieldSpec) : Next (withRecord kind fs atWork) .site 0 (recordOf kind fs) := rfl
/-- A record of a kind and action is seen as such, which with `next_withRecord` is its statement's hypothesis, and
refused with RANGE. -/
def refuses (kind : Nat) (c : Instr) (action : Nat) (fs : List FieldSpec) : Bool :=
  sight (withRecord kind fs atWork) .site (recordOf kind fs) == .record kind action &&
    gives c (withRecord kind fs atWork) fun t => t.dec == { Initial.dec with range := 1 }
/-- A record's fields with one of them set. -/
def fieldsWith (fs : List FieldSpec) (x : FieldSpec) : List FieldSpec := fs.filter (fun f => f.off != x.off) ++ [x]
/-- The least value below, and the least above, each range of CLASS, ADMIT, TIMING and TIMESET. -/
theorem witness_Records_range_admission_time :
    ([⟨4, 1, 5⟩, ⟨8, 2, 1001⟩, ⟨12, 2, 0⟩, ⟨14, 2, 0⟩, ⟨14, 2, 100⟩, ⟨18, 2, 0⟩, ⟨18, 2, 10001⟩].all fun x : FieldSpec =>
      refuses 0x03 .classRecord (if x.off = 4 then 5 else 1) (fieldsWith (classFields 1 7 800 0 30) x)) = true ∧
    refuses 0x03 .classRecord 0 (classFields 0 7 800 1001 30) = true ∧
    refuses 0x03 .classRecord 1 (classFields 1 7 800 1001 30) = false ∧
    ([⟨4, 1, 3⟩, ⟨5, 1, 3⟩, ⟨6, 1, 3⟩, ⟨7, 1, 3⟩, ⟨8, 1, 255⟩, ⟨10, 2, 1001⟩].all fun x : FieldSpec =>
      refuses 0x04 .admitRecord (if x.off = 4 then 3 else 0) [x]) = true ∧
    ([⟨5, 1, 0⟩, ⟨5, 1, 65⟩, ⟨10, 2, 99⟩, ⟨10, 2, 5001⟩, ⟨12, 4, 2 ^ 32 - 1000001⟩, ⟨12, 4, 1000001⟩, ⟨16, 4, 0⟩,
        ⟨16, 4, 100000001⟩, ⟨20, 4, 999⟩, ⟨20, 4, 100000001⟩, ⟨24, 4, 0⟩, ⟨24, 4, 100001⟩, ⟨8, 1, 0⟩, ⟨8, 1, 17⟩, ⟨9, 1, 0⟩,
        ⟨9, 1, 61⟩, ⟨28, 2, 0⟩, ⟨28, 2, 10001⟩, ⟨30, 4, 999⟩, ⟨30, 4, 100000001⟩].all fun x : FieldSpec =>
      refuses 0x06 .timingRecord 0 (fieldsWith (timingFields 0) x)) = true ∧
    refuses 0x07 .timesetRecord 0 [⟨16, 4, 1000000000⟩] = true := by decide +kernel
/-- The same of SYNTH, whose reference clock and oscillator lie at 2 to 20 and 600 to 1,200 MHz. -/
theorem witness_Records_range_synth :
    ([(0, 100, 1), (17, 255, 1), (1, 7, 1), (1, 30, 0), (1, 30, 65), (21, 255, 1), (1, 20, 1), (4, 59, 10), (4, 121, 10)].all fun x : Nat × Nat × Nat =>
      refuses 0x08 .synthRecord 1 [⟨4, 1, 1⟩, ⟨5, 1, x.1⟩, ⟨6, 1, x.2.1⟩, ⟨7, 1, x.2.2⟩]) = true ∧
    ([(2, 30, 64), (2, 60, 1), (16, 240, 1), (4, 60, 10), (4, 120, 10)].all fun x : Nat × Nat × Nat =>
      !refuses 0x08 .synthRecord 1 [⟨4, 1, 1⟩, ⟨5, 1, x.1⟩, ⟨6, 1, x.2.1⟩, ⟨7, 1, x.2.2⟩]) = true ∧
    (∀ fs ∈ [[⟨4, 1, 1⟩, ⟨5, 1, 5⟩, ⟨6, 1, 96⟩, ⟨7, 1, 25⟩], [⟨4, 1, 1⟩, ⟨5, 1, 5⟩, ⟨6, 1, 96⟩, ⟨7, 1, 24⟩]],
      RecordNext (withRecord 0x08 fs ending) 0 (recordOf 0x08 fs) 0x08 1) ∧
    gives .synthRecord (withRecord 0x08 [⟨4, 1, 1⟩, ⟨5, 1, 5⟩, ⟨6, 1, 96⟩, ⟨7, 1, 25⟩] ending)
      (fun t => t.dec.applied == 1 && t.time == ending.time) = true ∧
    gives .synthRecord (withRecord 0x08 [⟨4, 1, 1⟩, ⟨5, 1, 5⟩, ⟨6, 1, 96⟩, ⟨7, 1, 24⟩] ending)
      (fun t => t.dec.busy == 1) = true := by unfold RecordNext Next; decide +kernel
/-- The same of PORTS, SCRUB, REMAP, FAULT and CLEAR. -/
theorem witness_Records_range_memory_faults :
    ([⟨4, 1, 0⟩, ⟨4, 1, 16⟩, ⟨5, 1, 0⟩, ⟨5, 1, 16⟩, ⟨6, 1, 0⟩, ⟨6, 1, 16⟩, ⟨7, 1, 0⟩, ⟨7, 1, 16⟩, ⟨8, 1, 48⟩,
        ⟨9, 1, 49⟩].all fun x : FieldSpec =>
      refuses 0x09 .portsRecord (if x.off = 4 then x.value else 1) (fieldsWith (marksOf 1 48) x)) = true ∧
    ([⟨4, 1, 65⟩, ⟨6, 1, 0⟩, ⟨8, 8, 64 * 7 + 1⟩, ⟨16, 8, 64 * 8 + 63⟩, ⟨8, 8, 2 ^ 36⟩, ⟨16, 8, 2 ^ 36⟩, ⟨8, 8, 64 * 9⟩].all
      fun x : FieldSpec => refuses 0x0A .scrubRecord (if x.off = 4 then 65 else 64)
        (fieldsWith [⟨4, 1, 64⟩, ⟨6, 1, 9⟩, ⟨8, 8, 64 * 7⟩, ⟨16, 8, 64 * 8⟩] x)) = true ∧
    ([4096 * 1562 + 1, 2 ^ 36].all fun v => refuses 0x0B .remapRecord 0 [⟨8, 8, v⟩]) = true ∧
    ([[⟨4, 2, 512⟩], [⟨4, 2, 1⟩, ⟨8, 1, 4⟩], [⟨4, 2, 256⟩, ⟨16, 1, 0x20⟩]].all fun fs : List FieldSpec =>
      refuses 0x0E .faultRecord ((fs.map (·.value)).headD 0 % 256) fs) = true ∧
    refuses 0x0E .faultRecord 1 [⟨4, 2, 1⟩, ⟨9, 1, 4⟩] = false ∧
    refuses 0x0F .clearRecord 32 [⟨4, 1, 32⟩] = true ∧ refuses 0x0F .clearRecord 0 [⟨6, 2, 512⟩] = true := by decide +kernel
/-- The same of the two STARTs; LOOPTEST START without TEST_RX, PART_TX or class S, and REMAP of the first and the
last page of SPARE, are refused with CONFLICT (R125, R142). -/
theorem witness_Records_range_tests :
    ([⟨8, 8, 4096 * 1562 + 1⟩, ⟨16, 2, 0⟩, ⟨16, 2, 4097⟩, ⟨8, 8, 2 ^ 36 - 4096⟩, ⟨5, 1, 2⟩].all fun x : FieldSpec =>
      refuses 0x0C .memtestStart 1 (fieldsWith (memtestFields 1 1562 2) x)) = true ∧
    ([⟨8, 2, 0⟩, ⟨5, 1, 0⟩, ⟨5, 1, 17⟩, ⟨10, 2, 0⟩, ⟨10, 2, 10001⟩, ⟨12, 2, 0⟩, ⟨12, 2, 5001⟩, ⟨16, 4, 1048561⟩].all
      fun x : FieldSpec => refuses 0x0D .looptestStart 1 (fieldsWith looptestFields x)) = true ∧
    (∀ s ∈ [{ atWork with windows := testWindows.set 10 none }, { atWork with windows := testWindows.set 4 none },
        { atWork with adm := { atWork.adm with classes := { testClasses with s := Initial.cls } } }],
      RecordNext (withRecord 0x0D looptestFields s) 0 (recordOf 0x0D looptestFields) 0x0D 1 ∧ loopActive s.loop = false ∧
      s.link.state = .up ∧
      (windowOfKind s .testRx = none ∨ windowOfKind s .partTx = none ∨ (clsAt s .s).enabled = false) ∧
      gives .looptestStart (withRecord 0x0D looptestFields s) (fun t => t.dec == { Initial.dec with conflict := 1 }) = true) ∧
    ∀ page ∈ [80, 83], inSpare (withRecord 0x0B [⟨8, 8, 4096 * page⟩] atWork) page = true ∧
      RecordNext (withRecord 0x0B [⟨8, 8, 4096 * page⟩] atWork) 0 (recordOf 0x0B [⟨8, 8, 4096 * page⟩]) 0x0B 0 ∧
      gives .remapRecord (withRecord 0x0B [⟨8, 8, 4096 * page⟩] atWork)
        (fun t => t.dec == { Initial.dec with conflict := 1 }) = true := by unfold RecordNext Next; decide +kernel
/-- The ring's entry at a position is made with its report, the first of the part. -/
def made (k code : Nat) (time : Stamp) (body : List FieldSpec) (t : State) : Bool :=
  t.path.reqs.any fun q => q.line == 64 + k && q.job == .reportEntry (entryLine code 1 k time body)
/-- The engine in a timing state whose block timer is over. -/
def blockOver (x : TimingState) : State :=
  { atWork with
    xfer := { atWork.xfer with state := x, blockTimer := some 0, holdoverAge := 9, integral := 5, history := [100, 200] } }
/-- A retry timer that is over, at the condition of a port's parity. -/
def retrying : State :=
  { atWork with fault := { atWork.fault with portParity := ⟨.follow, true, true, false, some 0, 7⟩, line := true } }
/-- Every report has room in the empty ring, behind as many as eight others; the last entry of a ring has room for one
more. -/
theorem witness_reports_room : (atWork.rep.ring = some emptyRing ∧ emptyRing.releasing = false ∧
      unread emptyRing + 8 < emptyRing.size - 1 ∧ unread { emptyRing with made := 14 } + 0 < emptyRing.size - 1 ∧
      ¬unread { emptyRing with made := 15 } + 0 < emptyRing.size - 1) ∧
    ∃ w, windowOfKind atWork .report = some w :=
  ⟨by decide, _, rfl⟩
/-- The reports of timers, and of the records that make one, in full. -/
theorem witness_reports_timers :
    (∀ s ∈ [{ inFlightState with now := 4000000 }, blockOver .acquire, blockOver .track, retrying, holdingOver 1000, draining .posted,
        { atWork with link := { linkUp with kept := some ⟨1, 5, 3⟩, etx := some 5, upshiftTimer := some 0 } }],
      pathLaw s) ∧
    gives (.flightTimeout 1024) { inFlightState with now := 4000000 } (made 0 0x05 ⟨0, 0⟩
      [⟨16, 8, 65536⟩, ⟨24, 1, 1⟩, ⟨26, 2, 1502⟩, ⟨28, 4, 12176⟩]) = true ∧
    gives .blockTimerExpiry (blockOver .acquire) (made 0 0x07 ⟨0, 0⟩
      [⟨16, 1, 1⟩, ⟨18, 1, 5⟩, ⟨28, 4, 5⟩, ⟨32, 4, 9⟩]) = true ∧
    gives (.retryTimerExpiry .portParity) retrying (made 0 0x10 ⟨0, 0⟩
      [⟨16, 1, 7⟩, ⟨17, 1, 1⟩, ⟨19, 1, 0x13⟩, ⟨20, 1, 4⟩, ⟨24, 4, 7⟩]) = true ∧
    gives .upshiftHoldExpiry { atWork with link := { linkUp with kept := some ⟨1, 5, 3⟩, etx := some 5, upshiftTimer := some 0 } }
      (made 0 0x03 ⟨0, 0⟩ [⟨16, 1, 2⟩, ⟨17, 1, 2⟩, ⟨18, 1, 0xFF⟩, ⟨19, 1, 5⟩, ⟨20, 1, 3⟩, ⟨21, 1, 5⟩]) = true := by
  refine ⟨pathLaw_all (by decide +kernel), by decide +kernel, by decide +kernel, by decide +kernel, by decide +kernel⟩
/-- A remap table that is full of other pages, or a SPARE window without a free page, leaves the pool empty. -/
def exhausted : State := { atWork with windows := testWindows.set 7 none }
/-- The reports of records. -/
theorem witness_reports_records :
    (∀ s ∈ [withRecord 0x07 [⟨8, 6, 1000⟩, ⟨16, 4, 9⟩] atWork, withRecord 0x0B [⟨8, 8, 4096 * 1562⟩] atWork,
        withRecord 0x0B [⟨8, 8, 4096 * 1562⟩] exhausted, withRecord 0x0C [⟨4, 1, 4⟩] marching, withRecord 0x0D [⟨4, 1, 2⟩] looping,
        withRecord 0x0E [⟨4, 2, 4⟩, ⟨10, 1, 0x12⟩] atWork, withRecord 0x0F [⟨6, 2, 4⟩] atWork,
        withRecord 0x04 [⟨4, 1, 2⟩] looping, withRecord 0x01 (windowFields 4 0 0 0 0 0) looping], pathLaw s) ∧
    gives .timesetRecord (withRecord 0x07 [⟨8, 6, 1000⟩, ⟨16, 4, 9⟩] lastPeriod) (made 0 0x06 ⟨1000, 9⟩
      ([⟨16, 1, 1⟩, ⟨18, 2, 1⟩] ++ stampFields 24 32 ⟨9, 999999975⟩ ++ stampFields 40 48 ⟨1000, 9⟩)) = true ∧
    gives .remapRecord (withRecord 0x0B [⟨8, 8, 4096 * 1562⟩] atWork) (made 0 0x0A ⟨0, 0⟩
      [⟨16, 8, 4096 * 1562⟩, ⟨24, 8, 4096 * 80⟩]) = true ∧
    poolPage exhausted = none ∧
    gives .memtestStop (withRecord 0x0C [⟨4, 1, 4⟩] marching) (fun t => made 0 0x0E ⟨0, 0⟩ (memtestDoneBody t.march) t) = true ∧
    ([(Instr.looptestStop, withRecord 0x0D [⟨4, 1, 2⟩] looping), (.windowRecord, withRecord 0x01 (windowFields 4 0 0 0 0 0) looping),
        (.admitRecord, withRecord 0x04 [⟨4, 1, 2⟩] looping)].map fun x =>
      gives x.1 x.2 fun t => made 0 0x0F ⟨0, 0⟩ (loopDoneBody t.loop) t) = [true, true, true] ∧
    gives .faultRecord (withRecord 0x0E [⟨4, 2, 4⟩, ⟨10, 1, 0x12⟩] atWork) (made 0 0x10 ⟨0, 0⟩
      [⟨16, 1, 2⟩, ⟨17, 1, 1⟩, ⟨18, 1, 3⟩, ⟨19, 1, 0x12⟩, ⟨20, 1, 6⟩, ⟨21, 1, 1⟩, ⟨24, 4, 1⟩]) = true :=
  ⟨pathLaw_all (by decide +kernel), by decide +kernel⟩
/-- An access whose outcome is UNCORRECTABLE, on a line that is not marked, with the set as full as given: by a port's
partial write, the clearing of a ready flag, the scrubber and the copy engine, whose entry is abandoned where the set
is full. -/
theorem witness_reports_uncorrectable :
    (∀ x ∈ [(partialRadio none, AccessKind.rmwRead .radio), (.writeBack, .writeBackRead), (.scrub, .scrubRead),
        (.copyLine, .copyRead)], ∀ n ∈ [0, 63, 64], ∀ s : State,
      s = copying 0 { internal 100000 x.1 x.2 with integ := { atWork.integ with marked := List.range n } } →
      Completes s (accessAt 100000 x.2) ∧ isMarked s 100000 = false ∧ s.integ.marked.length = n ∧
      lineOutcome (lineRead lostLine (accessAt 100000 x.2) s) = .uncorrectable) ∧
    (pathLaw (copying 0 (internal 100000 .copyLine .copyRead)) ∧ pathLaw (internal 100000 .scrub .scrubRead) ∧
      pathLaw (internal 100000 .writeBack .writeBackRead)) := by
  refine ⟨?_, pathLaw_internal (job := .copyLine) (k := .copyRead) (fun p => by cases p <;> rfl) rfl,
    pathLaw_internal (fun p => by cases p <;> rfl) rfl, pathLaw_internal (fun p => by cases p <;> rfl) rfl⟩
  intro x hx n hn s hs
  subst hs
  revert x n
  unfold Completes
  decide +kernel
/-- A change of the link's state at each kind of row that has LINK_CHANGE reports, and the states between which each
moves: none in DOWN, the cause of DOWN, out of DOWN with a hold and without, into DOWN with a plan and without, a
planned profile, and a planned profile with the floor (R12). -/
theorem witness_LinkReported :
    (∀ s ∈ [statusAt 0 3 3 linkUp, silent, withRecord 0x02 (profileFields 3 0 0 0 0 0) atWork, looping,
        withRecord 0x05 [⟨4, 1, 4⟩, ⟨6, 2, 50⟩] atWork], pathLaw s) ∧
    ([(statusOf 0 3 3, { linkUp with state := .down .carrier, planned := none }), (statusOf 1 0 3, { linkUp with state := .down .carrier, planned := none }),
        (statusOf 1 3 3, { linkUp with state := .down .stale, planned := none }), (statusOf 1 3 3, downProfile),
        (statusOf 0 3 3, linkUp), (statusOf 0 3 3, { linkUp with state := .restoring, planned := none }),
        (statusOf 1 5 3, { linkUp with upshiftHold := 0 }),
        (statusOf 1 3 3, { linkUp with floor := 4, kept := some ⟨1, 5, 3⟩, etx := some 5, planned := some 5 })].map
      fun x => linkSteps x.2 (statusEvent 0 (seen x.1) x.2).l) =
      [[], [(.down .profile, .down .profile)], [(.down .stale, .restoring)],
        [(.down .profile, .restoring), (.restoring, .restoring), (.restoring, .up)],
        [(.up, .down .carrier), (.down .carrier, .down .carrier)], [(.restoring, .down .carrier)], [(.up, .up)],
        [(.up, .up), (.up, .degraded)]] := by
  refine ⟨pathLaw_all (by decide +kernel), by decide +kernel⟩
/-- The capture of a rollover is the state after its count, before the message and the WRITING of the snapshot, with
the sequence advanced (log entry 23): its first line and its last. -/
theorem witness_PeriodAndRollover_capture : gives .rollover lastPeriod (fun t =>
      let c := { t with
        rep := { t.rep with snapshotWriting := false }
        time := { t.time with todSending := none, todWaiting := none, todReplaced := 0 } }
      [0, 63].all fun n => t.path.reqs.any fun q => q.line == 80 + n &&
        q.job == .snapshotLine n (snapshotLine c (snapshotFields c) n)) = true ∧
    windowOfKind lastPeriod .report = some (win 1) ∧ windowLine (win 1) (emptyRing.size + 63) = 143 := by decide +kernel
/-- The line path's law where the timing state changes: a sample in FREERUN, selections in each other state, a step.
-/
theorem witness_reports_timing : (∀ s ∈ [sampling 6 .freerun, sampling 0 .acquire, sampling 0 .track, sampling 0 .holdover,
      { looping with now := 2000000, xfer := { atWork.xfer with state := .track } }], pathLaw s) ∧
    (made 0 0x07 ⟨0, 0⟩ [⟨17, 1, 1⟩, ⟨18, 1, 1⟩]
      (computeSample ⟨3, 0⟩ (stampAt 101 true 0) (stampAt 100 true 0) ⟨3, 200⟩ (sampling 6 .freerun)) = true) ∧
    (made 0 0x06 ⟨0, 0⟩ ([⟨17, 1, 1⟩, ⟨18, 2, 1⟩, ⟨20, 4, 100001⟩]) (applySelection 100001 (sampling 0 .acquire)) = true) := by
  refine ⟨pathLaw_all (by decide +kernel), by decide +kernel, by decide +kernel⟩
/-- The last read of a march that fails, the last entry of a session lost, and the last line of a copy: their reports.
-/
theorem witness_reports_ends :
    gives (.marchReadComplete cleanLine) { issued 100031 (.march none) .marchRead
        { marching with march := { marching.march with element := 6, index := 63 } } with flips := [] }
      (fun t => t.march.outcome == some .pass && made 0 0x0E ⟨0, 0⟩ (memtestDoneBody t.march) t) = true ∧
    gives (.lossTimeout 1) { draining .posted with loop := { (draining .posted).loop with
        params := { looping.loop.params with maxLost := 1 } } }
      (fun t => t.loop.outcome == some .pass && made 0 0x0F ⟨0, 0⟩ (loopDoneBody t.loop) t) = true ∧
    gives .copyWriteComplete (copying 63 (internal 5183 (.copyWrite Line.zero) (.copyWrite Line.zero)))
      (made 0 0x0C ⟨0, 0⟩ [⟨16, 8, 4096 * 1562⟩, ⟨24, 8, 4096 * 80⟩]) = true := by
  refine ⟨by decide +kernel, by decide +kernel, by decide +kernel⟩
/-- A refused record meets a ring that is full, RELEASING, or not there: its result is dropped and counted (R154,
R156). -/
theorem witness_Records_refused_dropped : ([some fullRing, some { emptyRing with releasing := true }, none].all fun g =>
    gives .clearRecord (withRecord 0x0F [⟨4, 1, 32⟩] (withRing g)) fun t => t.dec == { Initial.dec with range := 1 } &&
      t.rep.dropped == 1 && t.rep.sequence == 1 && t.path.reqs.length == 1) = true := by decide +kernel

/-- The two sorts of accepted request that no row names: a write to the status line by another port, with a partial
mask and with an empty one, and a modem write that clears ready and names no status, or names none, on a listed line
(R2, R26, R29). -/
theorem witness_AcceptedRequestGoesOn_unnamed :
    (∀ x ∈ [(Port.site, BitVec.allOnes 64), (.radio, 1), (.modem, 1), (.modem, 0)], ∀ s : State,
      s = waiting x.1 (writeOf 4096 x.2 Line.zero) atWork → Next s x.1 0 (writeOf 4096 x.2 Line.zero) ∧
      parityOk (writeOf 4096 x.2 Line.zero) = true ∧ fenced s 4096 = false ∧
      isPermitted (windowAt s 4096) x.1 (writeOf 4096 x.2 Line.zero) = true ∧ windowAt s 4096 = some (5, win 5) ∧
      windowLine (win 5) 0 = 4096 ∧ (x.1 ≠ .modem ∨ maskFull x.2 = false) ∧
      gives (.requestClassified x.1) s (fun t => t.link == { linkUp with statusIgnored := 1 }) = true) ∧
    (∀ r ∈ [writeOf 1024 1 Line.zero, fullWrite 1024 []], ∀ s : State, s = waiting .modem r heldLong →
      Next s .modem 0 r ∧ parityOk r = true ∧ isPermitted (windowAt s 1024) .modem r = true ∧ fenced s 1024 = false ∧
      windowAt s 1024 = some (2, win 2) ∧ isDescriptorLine (win 2) 1024 = true ∧ covers (reqMask r) 0 = true ∧
      descReady (seen r) = false ∧ (covers (reqMask r) 2 = false ∨ (descStatus (seen r) ≠ 1 ∧ descStatus (seen r) ≠ 2)) ∧
      gives (.requestClassified .modem) s (fun t => (clsAt t .t0).held == [] && (clsAt t .t0).ageTimer == none) = true) := by
  constructor
  · intro x hx s hs
    subst hs
    revert x
    unfold Next
    decide +kernel
  · intro r hr s hs
    subst hs
    revert r
    unfold Next
    decide +kernel
/-- Reads whose outcome goes to the integrity unit, by source: both kinds of partial write, the scrubber, the copy
engine and a judged read. -/
def outcomeReads : List (Instr × IntegritySource × Access × State) :=
  [(.rmwReadComplete correctedLine, .port .radio, accessAt 100000 (.rmwRead .radio),
      internal 100000 (partialRadio none) (.rmwRead .radio)),
    (.internalPartialReadComplete correctedLine, .internalPartial, accessAt 100000 .writeBackRead,
      internal 100000 .writeBack .writeBackRead),
    (.scrubReadComplete correctedLine, .scrubber, accessAt 100000 .scrubRead, internal 100000 .scrub .scrubRead),
    (.copyReadComplete correctedLine, .copyEngine, accessAt 100000 .copyRead,
      copying 32 (internal 100000 .copyLine .copyRead)),
    (.descriptorReadJudged correctedLine, .port .modem, accessAt 1024 .descriptorRead, judgedT0)]
/-- A CORRECTED outcome of each source below the threshold: it is counted, it replaces LAST_CORRECTED, and its page has
its first entry among the suspects (R109, R116). -/
theorem witness_outcomes_corrected : ∀ x ∈ outcomeReads, Completes x.2.2.2 x.2.2.1 ∧
    isMarked x.2.2.2 x.2.2.1.line = false ∧ lineOutcome (lineRead correctedLine x.2.2.1 x.2.2.2) = .corrected ∧
    gives x.1 x.2.2.2 (fun t => t.integ.counters.corrected == 1 && t.integ.marked == [] &&
      t.integ.lastCorrected == some ⟨x.2.2.1.line, x.2.2.1.memLine, x.2.1, ⟨0, 0⟩⟩ &&
      t.integ.suspects == [⟨pageOf x.2.2.1.line, 1, 0⟩]) = true := by
  unfold Completes; decide +kernel
/-- A read of a marked line: both kinds of partial write end with MARKED_READS and no outcome; the scrubber and the copy
engine count an UNCORRECTABLE outcome and fill FIRST_UNCORRECTABLE, and the set stands (R109 to R112). -/
theorem witness_outcomes_marked :
    (∀ x ∈ outcomeReads.take 2, ∀ s : State, s = { x.2.2.2 with integ := { x.2.2.2.integ with marked := [100000] } } →
      isMarked s x.2.2.1.line = true ∧
      gives x.1 s (fun t => t.integ == { s.integ with counters := { s.integ.counters with markedReads := 1 } }) = true) ∧
    (∀ x ∈ [(Instr.scrubReadComplete lostLine, IntegritySource.scrubber, accessAt 100000 .scrubRead,
          internal 100000 .scrub .scrubRead),
        (.copyReadComplete lostLine, .copyEngine, accessAt 100000 .copyRead,
          copying 32 (internal 100000 .copyLine .copyRead))],
      ∀ s : State, s = { x.2.2.2 with integ := { x.2.2.2.integ with marked := [100000] } } →
      Completes s x.2.2.1 ∧ lineOutcome (lineRead lostLine x.2.2.1 s) = .uncorrectable ∧
      gives x.1 s (fun t => t.integ.counters.uncorrectable == 1 && t.integ.marked == [100000] && t.rep == s.rep &&
        t.integ.firstUncorrectable == some ⟨100000, 100000, x.2.1, ⟨0, 0⟩⟩) = true) := by
  constructor
  · intro x hx s hs
    subst hs
    revert x
    decide +kernel
  · intro x hx s hs
    subst hs
    revert x
    unfold Completes
    decide +kernel
/-- A march at a place of its progress, with its read or its write at the memory port. -/
def marchAt (element index : Nat) (k : AccessKind) (f : March → March) : State :=
  issued (99968 + index) (.march none) k { marching with
    march := f { marching.march with element := element, index := index, writeNext := k != .marchRead } }
/-- What the march makes after a completion: the line and, for a write, its first byte; nothing when suspended or with
a start drain that has not ended (R130, R132, R133, R135). -/
def marchMakes (c : Instr) (s : State) : Option (List (Nat × Option Byte)) :=
  match exec c s with
  | .next t => some (t.path.reqs.filterMap fun q =>
      match q.job with
      | .march d => some (q.line, d.map fun l => getByte l 0)
      | _ => none)
  | .fault _ => none
  | .refused _ => none
theorem witness_MarchAccesses_next :
    (∀ e ∈ [2, 3, 4, 5, 6], ∀ i ∈ [0, 63], Completes (marchAt e i .marchRead id) (accessAt (99968 + i) .marchRead)) ∧
    ([2, 3, 4, 5, 6].map fun e => marchMakes (.marchReadComplete cleanLine) (marchAt e 5 .marchRead id)) =
      [some [(99973, some 0xFF)], some [(99973, some 0)], some [(99973, some 0xFF)], some [(99973, some 0)],
        some [(99974, none)]] ∧
    marchMakes (.marchReadComplete cleanLine) (marchAt 6 63 .marchRead id) = some [] ∧
    ([(1, 5), (1, 63), (2, 63), (3, 63), (4, 5), (4, 0), (5, 0)].map fun x => marchMakes .marchWriteComplete
      (marchAt x.1 x.2 (.marchWrite Line.zero) id)) =
      [some [(99974, some 0)], some [(99968, none)], some [(99968, none)], some [(100031, none)], some [(99972, none)],
        some [(100031, none)], some [(99968, none)]] ∧
    ([(2, 5), (2, 4), (3, 5)].map fun x => marchMakes (.marchReadComplete cleanLine)
      (marchAt x.1 x.2 .marchRead fun m => { m with checker := true })) =
      [some [(99973, some 0x55)], some [(99972, some 0xAA)], some [(99973, some 0xAA)]] ∧
    marchMakes (.marchReadComplete cleanLine) (marchAt 2 5 .marchRead fun m => { m with state := .suspended }) = some [] ∧
    marchMakes (.marchReadComplete cleanLine) (marchAt 2 5 .marchRead fun m => { m with drain := [7] }) = some [] ∧
    (∀ q ∈ (marchAt 2 5 .marchRead id).path.reqs.filter fun q => q.id != 0, stationOf q.job ≠ .march) ∧
    (marchAt 2 5 .marchRead id).path.memPort.drop 1 = [] ∧ (marchAt 2 5 .marchRead id).inReset = false := by
  unfold Completes; and_intros <;> decide +kernel
/-- The kinds of a failure, in order, the kept first failure, and the failing page list when full: a page that is
listed, and one that is not (R134). -/
theorem witness_MarchAccesses_failures :
    (∀ f ∈ [cleanLine, correctedLine, lostLine], ¬(lineOutcome (lineRead f (accessAt 100000 .marchRead)
        { marching with dram := stored100000.dram }) = .clean ∧ IsBackground false false 100000
          (deliveredLine (lineRead f (accessAt 100000 .marchRead) { marching with dram := stored100000.dram })
            (dramRead stored100000.dram 100000)))) ∧
    IsBackground false false 100000 (dramRead marching.dram 100000) ∧
    ([cleanLine, correctedLine, lostLine].map fun f => match exec (.marchReadComplete f)
        { marchAt 2 32 .marchRead id with dram := stored100000.dram } with
      | .next t => t.march.firstFailure
      | _ => none) = [some ⟨2, 100000, .mismatch⟩, some ⟨2, 100000, .corrected⟩, some ⟨2, 100000, .uncorrectable⟩] ∧
    gives (.marchReadComplete lostLine) (marchAt 3 32 .marchRead fun m => { m with
        failing := List.range 16, firstFailure := some ⟨2, 7, .mismatch⟩ })
      (fun t => t.march.unlisted == 1 && t.march.failing == List.range 16 &&
        t.march.firstFailure == some ⟨2, 7, .mismatch⟩) = true ∧
    gives (.marchReadComplete lostLine) (marchAt 3 32 .marchRead fun m => { m with failing := 1562 :: List.range 15 })
      (fun t => t.march.unlisted == 0 && t.march.failing == 1562 :: List.range 15) = true := by
  simp only [isBackground_iff]
  decide +kernel
/-- A MEMTEST START, a SUSPEND and a RESUME in a part without a march access meet the premises of what the march then
makes. -/
theorem witness_TestRecords_march :
    (∀ s ∈ [withRecord 0x0C (memtestFields 1 1562 2) atWork, withRecord 0x0C [⟨4, 1, 2⟩] marching,
        withRecord 0x0C [⟨4, 1, 3⟩] marching],
      pathLaw s) ∧
    (∀ s ∈ [withRecord 0x0C (memtestFields 1 1562 2) atWork, withRecord 0x0C [⟨4, 1, 2⟩] marching,
        withRecord 0x0C [⟨4, 1, 3⟩] marching],
      s.inReset = false ∧ s.path.memPort = [] ∧ ∀ q ∈ s.path.reqs, stationOf q.job ≠ .march) ∧
    marchMakes .memtestStart (withRecord 0x0C (memtestFields 1 1562 2) atWork) = some [(99968, some 0)] ∧
    marchMakes .memtestSuspend (withRecord 0x0C [⟨4, 1, 2⟩] marching) = some [] ∧
    marchMakes .memtestResume (withRecord 0x0C [⟨4, 1, 3⟩] marching) = some [(100000, none)] :=
  ⟨pathLaw_all (by decide +kernel), by decide +kernel⟩
/-- A selection that moves ACQUIRE to TRACK, and one that moves TRACK to ACQUIRE, with TIMING_UNQUALIFIED present and
absent before it: the change is reported unless the condition's mode is OFF (R165, R170). -/
theorem witness_SelectionServo_fault :
    (pathLaw (sampling 0 .acquire) ∧ pathLaw (sampling 0 .track)) ∧
    ((sampling 0 .acquire).fault.timingUnqualified.raw = true ∧
      (sampling 0 .acquire).fault.timingUnqualified.mode ≠ .off ∧
      ({ sampling 0 .track with fault := Initial.fault } : State).fault.timingUnqualified.raw = false) ∧
    atWork.xfer.params.k ≤ 0 + atWork.xfer.params.k ∧ (unread emptyRing + 2 < emptyRing.size - 1) :=
  ⟨⟨pathLaw_idle (by decide +kernel) (by decide +kernel) rfl, pathLaw_idle (by decide +kernel) (by decide +kernel) rfl⟩,
    by decide +kernel, by decide +kernel, by decide⟩
/-- The event ends with the record's RECORD_RESULT, behind at most `n` other reports. -/
def resultLast (n outcome : Nat) (s : State) (r : LineRequest) (t : State) : Bool :=
  (List.range (n + 1)).any fun k => t.rep.sequence == s.rep.sequence + BitVec.ofNat 32 (k + 1) &&
    match s.rep.ring with
    | none => t.rep.ring == none && t.rep.dropped == satAdd s.rep.dropped (k + 1)
    | some g =>
      let room := if g.releasing then 0 else g.size - 1 - unread g
      t.rep.ring == some { g with made := g.made + min (k + 1) room } &&
        t.rep.dropped == satAdd s.rep.dropped (k + 1 - room) && (decide (room ≤ k) ||
          t.path.reqs.any fun q => q.line == 64 + (g.made + k) % g.size && q.job == .reportEntry (entryLine 1
            (phaseBit (g.made + k) g.size) (s.rep.sequence + BitVec.ofNat 32 k).toNat (timeNow s) (resultBody r outcome)))
/-- A WINDOW record that ends a loopback session, and a REMAP record, in a ring with room,
with room for one report, with none, RELEASING and UNCONFIGURED (R154, R156). -/
theorem witness_records_result : ∀ g ∈ [some emptyRing, some { emptyRing with made := 14 }, some { emptyRing with made := 15 },
      some { emptyRing with releasing := true }, none], ∀ x ∈ [(Instr.windowRecord, 0x01, windowFields 4 0 0 0 0 0, looping, 1, 0),
        (.remapRecord, 0x0B, [⟨8, 8, 4096 * 1562⟩], atWork, 1, 0)],
      ∀ s : State, s = withRecord x.2.1 x.2.2.1 { x.2.2.2.1 with rep := { x.2.2.2.1.rep with ring := g } } →
        gives x.1 s (resultLast x.2.2.2.2.1 x.2.2.2.2.2 s (recordOf x.2.1 x.2.2.1)) = true := by
  intro g hg x hx s hs
  subst hs
  revert x g
  decide +kernel
/-- A session that has counted begins anew with every count and figure at 0 (R143). -/
theorem witness_TestRecords_counts : gives .looptestStart (withRecord 0x0D looptestFields { atWork with loop := { Initial.loop with
      counts := ⟨1, 1, 1, 1, 1, 1, 1, 1, 1, 1, 1, 1, 1⟩, trips := ⟨1, 1, 1, 1, 1⟩ } })
    (fun t => t.loop.counts == ⟨0, 0, 0, 0, 0, 0, 0, 0, 0, 0, 0, 0, 0⟩ && t.loop.trips == ⟨0, 0, 0, 0, 0⟩) = true := by
  decide +kernel
/-- Narrowed values (R172): a figure above 64 bits shows the field's maximum in a snapshot. -/
theorem test_item_narrow : [2 ^ 64 - 1, 2 ^ 64].map (fun n => (item8 n).value) = [2 ^ 64 - 1, 2 ^ 64 - 1] := by
  decide +kernel
/-- A first time of 2⁶⁴ periods shows the maximum of its 8 bytes in a SUSPECT_PAGE report too (log entry 60). -/
theorem test_suspect_narrow : [2 ^ 64 - 1, 2 ^ 64].all (fun n => made 0 0x09 (timeNow atWork)
      [⟨16, 8, 4096 * 7⟩, ⟨24, 1, 3⟩, ⟨32, 8, 2 ^ 64 - 1⟩] (suspectReached ⟨7, 3, n⟩ atWork)) = true := by
  decide +kernel
/-- A copy at a pointer, with a WAITING entry behind it. -/
def copyingTwo (n : Nat) (s : State) : State :=
  { s with integ := { s.integ with
    remaps := [⟨1562, 80, .copying, .copy, n, ⟨0, 0⟩⟩, ⟨7, 81, .waiting, .fill, 0, ⟨0, 0⟩⟩] } }
/-- The copy engine's line ends: the locks and the requests that it leaves, and the remap table. -/
def copyMakes (c : Instr) (s : State) : Option (List Lock × List (Nat × Nat) × List (RemapState × Nat)) :=
  match exec c s with
  | .next t => some (t.path.locks, t.path.reqs.map (fun q => (q.id, q.line)), t.integ.remaps.map fun e => (e.state, e.pointer))
  | .fault _ => none
  | .refused _ => none
/-- A copy write under the engine's lock, with a write of the copied line waiting. -/
def copyWriting (n : Nat) : State :=
  copyingTwo n { writingBack .writeBack .copyEngine (.copyWrite Line.zero) with path := { atWork.path with
    reqs := [⟨0, 5120 + n, .issued (5120 + n), .copyWrite Line.zero⟩,
      ⟨1, 99968 + n, .waitLine, .port .site (writeOf (99968 + n) 1 Line.zero) none none⟩]
    nextId := 2, memPort := [accessAt (5120 + n) (.copyWrite Line.zero)], locks := [⟨99968 + n, .copyEngine⟩], waits := [1] } }
theorem remapLaw_copyWriting : remapLaw (copyWriting 62) ∧ remapLaw (copyWriting 63) := by
  constructor <;> exact remapLaw_of ⟨by decide +kernel, by decide +kernel, by decide +kernel, by decide +kernel, fun e he => by
    simp only [copyWriting, copyingTwo, List.mem_cons, List.not_mem_nil, or_false] at he
    rcases he with rfl | rfl <;> exact ⟨by decide +kernel, by simp [remapPointerOk]⟩⟩ (by decide +kernel)
theorem pathLaw_copyWriting : pathLaw (copyWriting 62) ∧ pathLaw (copyWriting 63) := by
  constructor <;> exact pathLaw_one (r := ⟨0, _, .issued _, .copyWrite Line.zero⟩) (by decide +kernel) (by decide +kernel) rfl
    ⟨List.mem_cons_self, rfl, by decide⟩ ⟨rfl, rfl, .inl ⟨rfl, rfl⟩⟩
/-- The end of a line of the copy engine: the pointer goes on, and the entry becomes ACTIVE and the next one is
taken; the waiting write has the lock (R113, R123). -/
theorem witness_ScrubAndCopyAccesses_copies :
    (∀ n ∈ [62, 63], Completes (copyWriting n) (accessAt (5120 + n) (.copyWrite Line.zero)) ∧
      copyingEntry (copyWriting n) = some ⟨1562, 80, .copying, .copy, n, ⟨0, 0⟩⟩ ∧ (copyWriting n).inReset = false ∧
      (copyWriting n).path.waits = [] ++ 1 :: [] ∧
      ∀ q ∈ (copyWriting n).path.reqs.filter (fun q => q.id != 0), stationOf q.job ≠ .copy) ∧
    copyMakes .copyWriteComplete (copyWriting 62) =
      some ([⟨100030, .portPartial .site⟩], [(1, 100030), (2, 100031)], [(.copying, 63), (.waiting, 0)]) ∧
    copyMakes .copyWriteComplete (copyWriting 63) =
      some ([⟨100031, .portPartial .site⟩], [(1, 100031), (2, 64), (3, 448)], [(.active, 64), (.copying, 0)]) := by
  unfold Completes; and_intros <;> decide +kernel
/-- A copy read of line 100,000 under its lock, with the marked line set full. -/
def copyLosing : State :=
  copyingTwo 32 (issued 100000 .copyLine .copyRead { stored100000 with
    integ := { atWork.integ with marked := List.range 64 }
    path := { stored100000.path with locks := [⟨100000, .copyEngine⟩] } })
/-- It is abandoned; the WAITING entry is left in the table. -/
theorem witness_ScrubAndCopyAccesses_abandoned :
    pathLaw copyLosing ∧ remapLaw copyLosing ∧ Completes copyLosing (accessAt 100000 .copyRead) ∧
    lineOutcome (lineRead lostLine (accessAt 100000 .copyRead) copyLosing) = .uncorrectable ∧
    isMarked copyLosing 100000 = false ∧ copyLosing.inReset = false ∧ copyLosing.path.waits = [] ∧
    (∀ q ∈ copyLosing.path.reqs.filter (fun q => q.id != 0), stationOf q.job ≠ .copy) ∧
    (copyLosing.integ.remaps.filter fun x => x.failed != 1562).map (fun e => (e.failed, e.state)) = [(7, .waiting)] := by
  refine ⟨pathLaw_one (r := ⟨0, 100000, .issued 100000, .copyLine⟩) (by decide +kernel) (by decide +kernel) rfl
    ⟨List.mem_cons_self, rfl, by decide⟩ ⟨rfl, rfl, .inl ⟨rfl, rfl⟩⟩, remapLaw_of ⟨by decide +kernel, by decide +kernel,
    by decide +kernel, by decide +kernel, fun e he => ?_⟩ (by decide +kernel), rfl, ?_⟩
  · simp only [copyLosing, copyingTwo, List.mem_cons, List.not_mem_nil, or_false] at he
    rcases he with rfl | rfl <;> exact ⟨by decide +kernel, by simp [remapPointerOk]⟩
  · decide +kernel
/-- A scrub line that ends with allowance left, or with none, where the next positions lie in the fence: those are
skipped, and the scrubber sets out on the first that does not (R117, R118). -/
theorem witness_ScrubAndCopyAccesses_scrubs : ∀ n ∈ [0, 2, 3], ∀ s : State, s = { issued 100000 .scrub .scrubRead (scrubbing 99968 3) with
        integ := { (scrubbing 99968 3).integ with scrubber := { (scrubbing 99968 3).integ.scrubber with allowance := n } } } →
      (∀ q ∈ s.path.reqs.filter fun q => q.id != 0, stationOf q.job ≠ .scrub) ∧ s.inReset = false ∧ s.path.loadHigh = false ∧
      gives (.scrubReadComplete cleanLine) s (fun t => t.integ.scrubber.allowance == 0 &&
        t.integ.counters.scrubSkipped.toNat == min n 2 && t.integ.scrubber.position == [99968, 0, 99966, 99967].getD n 0 &&
        t.path.reqs.map (·.line) == if n = 3 then [99966] else []) = true := by
  intro n hn s hs
  subst hs
  revert n
  decide +kernel

end Sys2Proof.Tests
end

namespace Sys2Proof.Machine

/-! ### The moves of the link monitor, one rule each (R4 to R10) -/

section LinkMoves

/-- The monitor without what the moves of the link change: its state, plan and holds, and the counters of those. -/
def LinkMonitor.fixed (l : LinkMonitor) : LinkMonitor :=
  { l with
    state := .restoring, planned := none, restoreTimer := none, upshiftTimer := none
    downEntries := 0, downshifts := 0, upshifts := 0 }

/-- The monitor without its plan: the planned profile, the upshift hold, and the counters of the plan's changes. -/
def LinkMonitor.unplanned (l : LinkMonitor) : LinkMonitor :=
  { l with planned := none, upshiftTimer := none, downshifts := 0, upshifts := 0 }

theorem fixed_of_unplanned {l m : LinkMonitor} (h : m.unplanned = l.unplanned) : m.fixed = l.fixed := by
  have hf : m.unplanned.fixed = l.unplanned.fixed := congrArg LinkMonitor.fixed h
  exact hf

theorem fields_of_unplanned {l m : LinkMonitor} (h : m.unplanned = l.unplanned) : m.state = l.state ∧ m.etx = l.etx ∧
    m.restoreTimer = l.restoreTimer ∧ m.upshiftHold = l.upshiftHold ∧ m.profiles = l.profiles := by
  simp only [LinkMonitor.unplanned, LinkMonitor.mk.injEq] at h
  tauto

theorem fields_of_fixed {l m : LinkMonitor} (h : m.fixed = l.fixed) :
    (m.profiles = l.profiles ∧ m.kept = l.kept ∧ m.etx = l.etx ∧ m.erx = l.erx) ∧
    (m.floor = l.floor ∧ m.statusTimeout = l.statusTimeout ∧ m.statusTimer = l.statusTimer) ∧
    m.statusTaken = l.statusTaken ∧ m.statusIgnored = l.statusIgnored := by
  simp only [LinkMonitor.fixed, LinkMonitor.mk.injEq] at h
  tauto

/-- What the floor makes of the planned profile (R10). -/
theorem floorState_eq (l : LinkMonitor) : floorState l = match l.planned with
    | some p => if p < l.floor then .degraded else .up
    | none => .up := by
  cases h : l.planned <;> simp [floorState, belowFloor, h]

@[simp] theorem floorState_carries (l : LinkMonitor) : carriesTraffic (floorState l) = true := by
  unfold floorState; split <;> rfl

@[simp] theorem floorState_notDown (l : LinkMonitor) : isDown (floorState l) = false := by
  unfold floorState; split <;> rfl

@[simp] theorem floorState_ne_restoring (l : LinkMonitor) : floorState l ≠ .restoring := by
  unfold floorState; split <;> simp

theorem isDown_of_carries {st : LinkState} (h : carriesTraffic st = true) : isDown st = false := by
  cases st <;> simp_all [carriesTraffic, isDown]

/-- The states are DOWN, RESTORING and those that carry traffic (R4). -/
theorem linkState_cases (st : LinkState) :
    isDown st = true ∨ st = .restoring ∨ carriesTraffic st = true := by
  cases st <;> simp [isDown, carriesTraffic]

variable (w : LinkWork)

@[simp] theorem LinkWork.upd_l (f : LinkMonitor → LinkMonitor) : (w.upd f).l = f w.l := rfl
@[simp] theorem LinkWork.upd_trail (f : LinkMonitor → LinkMonitor) : (w.upd f).trail = w.trail := rfl
@[simp] theorem LinkWork.enter_l (st : LinkState) : (w.enter st).l = { w.l with state := st } := rfl
@[simp] theorem LinkWork.enter_trail (st : LinkState) : (w.enter st).trail = w.trail ++ [.moved st] := rfl

@[simp] theorem LinkWork.note_l : w.note.l = w.l := by unfold LinkWork.note; split <;> rfl

theorem LinkWork.note_trail : w.note.trail =
    if w.trail.all isMove then w.trail ++ [.remaining w.l.state] else w.trail := by
  unfold LinkWork.note; split <;> rfl

@[simp] theorem LinkWork.plan_l (q : Option Nat) : (w.plan q).l = { w.l with planned := q } := by
  simp only [LinkWork.plan]; split <;> simp

theorem LinkWork.plan_trail (q : Option Nat) : (w.plan q).trail =
    if w.l.planned = q then w.trail
    else if w.trail.all isMove then w.trail ++ [.remaining w.l.state] else w.trail := by
  simp only [LinkWork.plan]; split <;> simp [LinkWork.note_trail]

@[simp] theorem LinkWork.setCause_l (c : DownCause) : (w.setCause c).l = { w.l with state := .down c } := by
  simp only [LinkWork.setCause]; split <;> simp

@[simp] theorem LinkWork.down_l (c : DownCause) : (w.down c).l = { w.l with
    restoreTimer := none, upshiftTimer := none, downEntries := satInc w.l.downEntries, state := .down c
    planned := none } := by simp [LinkWork.down]

/-- A placed link changes its state alone. -/
theorem LinkWork.place_l : w.place.l = { w.l with
    state := if carriesTraffic w.l.state then floorState w.l else w.l.state } := by
  simp only [LinkWork.place]
  by_cases h : carriesTraffic w.l.state = true ∧ w.l.state ≠ floorState w.l
  · simp [h]
  · rw [if_neg h]
    by_cases hc : carriesTraffic w.l.state = true
    · have hs : w.l.state = floorState w.l := by simpa [hc] using h
      rw [if_pos hc, ← hs]
    · rw [if_neg hc]

theorem LinkWork.place_trail : w.place.trail =
    if carriesTraffic w.l.state ∧ w.l.state ≠ floorState w.l then w.trail ++ [.moved (floorState w.l)]
    else w.trail := by
  simp only [LinkWork.place]; split <;> rfl

theorem LinkWork.restored_l : w.restored.l = { w.l with
    restoreTimer := none, planned := w.l.etx, state := floorState { w.l with planned := w.l.etx } } := by
  simp [LinkWork.restored, floorState_eq]

theorem LinkWork.restoring_l_held (now : Nat) (h : w.l.restoreHold ≠ 0) : (w.restoring now).l =
    { w.l with state := .restoring, restoreTimer := some (now + ms w.l.restoreHold) } := by
  simp [LinkWork.restoring, h]

theorem LinkWork.restoring_l_atOnce (now : Nat) (h : w.l.restoreHold = 0) : (w.restoring now).l =
    { w.l with
      restoreTimer := none, planned := w.l.etx, state := floorState { w.l with planned := w.l.etx } } := by
  simp [LinkWork.restoring, h, LinkWork.restored_l, floorState_eq]

theorem LinkWork.upshift_l : w.upshift.l = { w.l with
    upshiftTimer := none, upshifts := satInc w.l.upshifts, planned := w.l.etx } := by simp [LinkWork.upshift]

theorem LinkWork.startUpshift_held (now : Nat) (h : w.l.upshiftHold ≠ 0) :
    w.startUpshift now = w.upd fun l => { l with upshiftTimer := some (now + ms l.upshiftHold) } := by
  simp [LinkWork.startUpshift, h]

theorem LinkWork.startUpshift_atOnce (now : Nat) (h : w.l.upshiftHold = 0) : w.startUpshift now = w.upshift := by
  simp [LinkWork.startUpshift, h]

theorem LinkWork.startUpshift_l_held (now : Nat) (h : w.l.upshiftHold ≠ 0) : (w.startUpshift now).l =
    { w.l with upshiftTimer := some (now + ms w.l.upshiftHold) } := by rw [w.startUpshift_held now h]; rfl

theorem LinkWork.startUpshift_l_atOnce (now : Nat) (h : w.l.upshiftHold = 0) : (w.startUpshift now).l =
    { w.l with upshiftTimer := none, upshifts := satInc w.l.upshifts, planned := w.l.etx } := by
  rw [w.startUpshift_atOnce now h, LinkWork.upshift_l]

/-! The comparison of R8, by the place of E_tx. -/

theorem LinkWork.compare_below (now : Nat) {e p : Nat} (he : w.l.etx = some e) (hp : w.l.planned = some p)
    (h : e < p) : w.compare now =
      (w.upd fun l => { l with upshiftTimer := none, downshifts := satInc l.downshifts }).plan (some e) := by
  simp [LinkWork.compare, he, hp, h]

theorem LinkWork.compare_at (now : Nat) {e : Nat} (he : w.l.etx = some e) (hp : w.l.planned = some e) :
    w.compare now = w.upd fun l => { l with upshiftTimer := none } := by
  simp [LinkWork.compare, he, hp]

theorem LinkWork.compare_above (now : Nat) {e p : Nat} (he : w.l.etx = some e) (hp : w.l.planned = some p)
    (h : p < e) : w.compare now = w.startUpshift now := by
  simp [LinkWork.compare, he, hp, Nat.lt_asymm h, Nat.ne_of_gt h]

theorem LinkWork.compare_l_at (now : Nat) {e : Nat} (he : w.l.etx = some e) (hp : w.l.planned = some e) :
    (w.compare now).l = { w.l with upshiftTimer := none } := by rw [w.compare_at now he hp]; rfl

theorem LinkWork.compare_l_above (now : Nat) {e p : Nat} (he : w.l.etx = some e) (hp : w.l.planned = some p)
    (h : p < e) : (w.compare now).l = (w.startUpshift now).l := by rw [w.compare_above now he hp h]

/-! What a move leaves of the monitor, and what a change of the plan leaves. -/

theorem LinkWork.place_fixed : w.place.l.fixed = w.l.fixed := by rw [LinkWork.place_l]; rfl

theorem LinkWork.restoring_fixed (now : Nat) : (w.restoring now).l.fixed = w.l.fixed := by
  by_cases h : w.l.restoreHold = 0
  · rw [LinkWork.restoring_l_atOnce w now h]; rfl
  · rw [LinkWork.restoring_l_held w now h]; rfl

theorem LinkWork.startUpshift_unplanned (now : Nat) : (w.startUpshift now).l.unplanned = w.l.unplanned := by
  by_cases h : w.l.upshiftHold = 0
  · rw [LinkWork.startUpshift_atOnce w now h, LinkWork.upshift_l]; rfl
  · rw [LinkWork.startUpshift_held w now h]; rfl

theorem LinkWork.compare_unplanned (now : Nat) : (w.compare now).l.unplanned = w.l.unplanned := by
  unfold LinkWork.compare
  split
  · split
    · rw [LinkWork.plan_l]; rfl
    · split
      · rfl
      · exact w.startUpshift_unplanned now
  · rfl

/-- The profile that takes the place of one made invalid (R14). -/
def replacement (l : LinkMonitor) (p : Nat) : Option Nat :=
  match highestValidBelow l p with
  | some i => some i
  | none => lowestValid l

/-- The plan as R14 replaces it, before the hold is dealt with. -/
def LinkWork.replaced (p : Nat) (w : LinkWork) : LinkWork :=
  (w.upd fun l => { l with downshifts := satInc l.downshifts }).plan (replacement w.l p)

theorem LinkWork.replaced_l (p : Nat) : (w.replaced p).l = { w.l with
    downshifts := satInc w.l.downshifts, planned := replacement w.l p } := by simp [LinkWork.replaced]

theorem LinkWork.replan_eq (now : Nat) : w.replan now = match w.l.planned with
    | some p =>
      if (profileAt w.l p).valid then w
      else match w.l.etx, replacement w.l p with
        | some e, some n =>
          if e = n then (w.replaced p).upd fun l => { l with upshiftTimer := none }
          else if n < e ∧ w.l.upshiftTimer = none then (w.replaced p).startUpshift now else w.replaced p
        | _, _ => w.replaced p
    | none => w := by
  cases hp : w.l.planned with
  | none => simp [LinkWork.replan, hp]
  | some p =>
    by_cases hv : (profileAt w.l p).valid = true
    · simp [LinkWork.replan, hp, hv]
    · simp only [LinkWork.replan, hp, hv, LinkWork.replaced, replacement, LinkWork.plan_l, LinkWork.upd_l] <;> rfl

theorem LinkWork.replan_unplanned (now : Nat) : (w.replan now).l.unplanned = w.l.unplanned := by
  have hr : ∀ p, (w.replaced p).l.unplanned = w.l.unplanned := fun p => by rw [LinkWork.replaced_l]; rfl
  rw [LinkWork.replan_eq]
  repeat' split
  all_goals first
    | rfl
    | exact hr _
    | exact (LinkWork.startUpshift_unplanned _ now).trans (hr _)

end LinkMoves
end Sys2Proof.Machine

namespace Sys2Proof.Machine

/-! ### The trail of an event, as the steps of the link that it reports (R12) -/

section Trail

/-- The steps that a trail reports, from the state before them, in the order made. -/
def trailSteps : LinkState → List LinkNote → List (LinkState × LinkState)
  | _, [] => []
  | old, .moved new :: rest => (old, new) :: trailSteps new rest
  | _, .remaining st :: rest => (st, st) :: trailSteps st rest

theorem trailSteps_length (st : LinkState) (notes : List LinkNote) : (trailSteps st notes).length = notes.length := by
  induction notes generalizing st with
  | nil => rfl
  | cons x xs ih => cases x <;> simp [trailSteps, ih]

/-- The trail shows the link's steps from the monitor before the event, and in DOWN it has a change of state exactly
where the event has entered DOWN. -/
structure TrailShows (l : LinkMonitor) (w : LinkWork) : Prop where
  steps : trailSteps l.state w.trail = linkSteps l w.l
  entry : isDown w.l.state = true → w.trail.any isMove = !isDown l.state

/-- An event's work so far has changed no more than the plan, which its trail shows. -/
def PlanShown (l : LinkMonitor) (w : LinkWork) : Prop :=
  w.l.state = l.state ∧ w.trail = if w.l.planned = l.planned then [] else [.remaining l.state]

/-- An event's work has not begun: link state and plan are those before it. -/
def Fresh (l : LinkMonitor) (w : LinkWork) : Prop :=
  w.trail = [] ∧ w.l.state = l.state ∧ w.l.planned = l.planned

variable {l : LinkMonitor} {w : LinkWork}

theorem Fresh.planShown (h : Fresh l w) : PlanShown l w := by
  obtain ⟨ht, hs, hp⟩ := h
  exact ⟨hs, by simp [hp, ht]⟩

/-- A link that takes no step. -/
theorem Fresh.shows (h : Fresh l w) : TrailShows l w := by
  obtain ⟨ht, hs, hp⟩ := h
  constructor
  · cases hd : isDown l.state <;> simp [linkSteps, trailSteps, ht, hs, hp, hd]
  · simp [ht, hs]

/-- In DOWN only the cause may change. -/
theorem Fresh.setCause_shows (h : Fresh l w) (hd : isDown l.state = true) (c : DownCause) :
    TrailShows l (w.setCause c) := by
  obtain ⟨ht, hs, -⟩ := h
  have hc : isDown (.down c) = true := rfl
  by_cases he : l.state = .down c
  · constructor <;> simp [LinkWork.setCause, linkSteps, trailSteps, ht, hs, he, hc]
  · constructor <;>
      simp [LinkWork.setCause, linkSteps, trailSteps, LinkWork.note_trail, ht, hs, he, hc, hd, Ne.symm he, isMove]

theorem down_trail (c : DownCause) (ht : w.trail = []) :
    (w.down c).trail = .moved (.down c) :: if w.l.planned = none then [] else [.remaining (.down c)] := by
  by_cases hp : w.l.planned = none <;> simp [LinkWork.down, LinkWork.plan_trail, ht, hp, isMove]

/-- The entry into DOWN, and the end of the plan there. -/
theorem Fresh.down_shows (h : Fresh l w) (hd : isDown l.state = false) (c : DownCause) :
    TrailShows l (w.down c) := by
  obtain ⟨ht, -, hp⟩ := h
  have hc : isDown (.down c) = true := rfl
  constructor
  · by_cases hn : l.planned = none <;> simp [down_trail c ht, linkSteps, trailSteps, hp, hd, hc, hn]
  · simp [down_trail c ht, hd, isMove]

/-- The end of a restore hold: the plan is made in RESTORING, and the link leaves it. -/
theorem restored_trail (hm : w.trail.all isMove = true) : w.restored.trail =
    w.trail ++ (if w.l.planned = w.l.etx then [] else [.remaining w.l.state]) ++ [.moved w.restored.l.state] := by
  by_cases hp : w.l.planned = w.l.etx <;>
    simp [LinkWork.restored, LinkWork.plan_trail, hm, hp]

theorem Fresh.restored_shows (h : Fresh l w) (hr : l.state = .restoring) : TrailShows l w.restored := by
  obtain ⟨ht, hs, hp⟩ := h
  have hd : isDown w.restored.l.state = false := by rw [LinkWork.restored_l]; simp
  have hn : w.restored.l.state ≠ .restoring := by rw [LinkWork.restored_l]; simp
  have hq : w.restored.l.planned = w.l.etx := by rw [LinkWork.restored_l]
  have hl : isDown l.state = false := by rw [hr]; rfl
  refine ⟨?_, by simp [hd]⟩
  rw [restored_trail (by simp [ht]), linkSteps, hl, hd]
  by_cases he : l.planned = w.l.etx
  · simp [ht, hq, hp, hr, he, hn, trailSteps]
  · simp [ht, hs, hq, hp, hr, he, hn, trailSteps, Ne.symm he]

/-- The entry into RESTORING, and its end in the same event where the hold has length 0. -/
theorem Fresh.restoring_shows (h : Fresh l w) (hd : isDown l.state = true) (now : Nat) :
    TrailShows l (w.restoring now) := by
  obtain ⟨ht, -, hp⟩ := h
  have hr : isDown .restoring = false := rfl
  by_cases h0 : w.l.restoreHold = 0
  · set v := (w.enter .restoring).upd fun m => { m with restoreTimer := some (now + ms m.restoreHold) } with hv
    have hw : w.restoring now = v.restored := by simp [LinkWork.restoring, hv, h0]
    have hm : v.trail = [.moved .restoring] := by simp [hv, ht]
    have hvp : v.l.planned = l.planned := by simp [hv, hp]
    have hvs : v.l.state = .restoring := by simp [hv]
    have hf : isDown v.restored.l.state = false := by rw [LinkWork.restored_l]; simp
    have hn : v.restored.l.state ≠ .restoring := by rw [LinkWork.restored_l]; simp
    have hq : v.restored.l.planned = v.l.etx := by rw [LinkWork.restored_l]
    rw [hw]
    refine ⟨?_, by simp [hf]⟩
    rw [restored_trail (by simp [hm, isMove]), linkSteps, hd, hf]
    by_cases he : l.planned = v.l.etx
    · simp [hm, hq, hvp, he, hn, trailSteps]
    · simp [hm, hq, hvp, hvs, he, hn, trailSteps, Ne.symm he]
  · have hs : (w.restoring now).trail = [.moved .restoring] := by simp [LinkWork.restoring, h0, ht]
    have hf : (w.restoring now).l.state = .restoring := by rw [LinkWork.restoring_l_held w now h0]
    constructor <;> simp [hs, hf, linkSteps, hd, hr, trailSteps]

/-- A new plan is shown, unless it restores the plan before the event. -/
theorem PlanShown.plan (h : PlanShown l w) {q : Option Nat} (hq : q = l.planned → w.l.planned = l.planned) :
    PlanShown l (w.plan q) := by
  obtain ⟨hs, ht⟩ := h
  refine ⟨by simpa using hs, ?_⟩
  rw [LinkWork.plan_trail, ht, LinkWork.plan_l, hs]
  by_cases hw : w.l.planned = l.planned
  · by_cases hn : l.planned = q
    · simp [hw, hn]
    · simp [hw, hn, Ne.symm hn]
  · have hn : q ≠ l.planned := fun hc => hw (hq hc)
    simp [hw, hn, isMove]

theorem PlanShown.upd (h : PlanShown l w) {f : LinkMonitor → LinkMonitor} (hs : (f w.l).state = w.l.state)
    (hp : (f w.l).planned = w.l.planned) : PlanShown l (w.upd f) := by
  obtain ⟨h1, h2⟩ := h
  exact ⟨hs.trans h1, by simpa [hp] using h2⟩

theorem PlanShown.upshift (h : PlanShown l w) (hq : w.l.etx = l.planned → w.l.planned = l.planned) :
    PlanShown l w.upshift := (h.upd rfl rfl).plan hq

theorem PlanShown.startUpshift (h : PlanShown l w) (now : Nat) (hq : w.l.etx = l.planned → w.l.planned = l.planned) :
    PlanShown l (w.startUpshift now) := by
  unfold LinkWork.startUpshift
  split
  · exact h.upshift hq
  · exact h.upd rfl rfl

theorem PlanShown.compare (h : PlanShown l w) (now : Nat) (hq : w.l.etx = l.planned → w.l.planned = l.planned) :
    PlanShown l (w.compare now) := by
  unfold LinkWork.compare
  split
  · rename_i e p he _
    split
    · exact (h.upd rfl rfl).plan fun hc => hq (he.trans hc)
    · split
      · exact h.upd rfl rfl
      · exact h.startUpshift now hq
  · exact h

/-- A link that carries traffic, once the floor has placed it. -/
theorem PlanShown.place_shows (h : PlanShown l w) (hc : carriesTraffic l.state = true) : TrailShows l w.place := by
  obtain ⟨hs, ht⟩ := h
  have hl := isDown_of_carries hc
  refine ⟨?_, by simp [LinkWork.place_l, hs, hc]⟩
  rw [LinkWork.place_trail, LinkWork.place_l, ht, hs]
  simp only [linkSteps, hc, hl, if_true, floorState_notDown, true_and]
  by_cases hf : floorState w.l = l.state
  · by_cases hp : w.l.planned = l.planned <;> simp [hf, hp, trailSteps]
  · by_cases hp : w.l.planned = l.planned <;> simp [hf, hp, trailSteps, Ne.symm hf]

theorem TrailShows.upd (h : TrailShows l w) {f : LinkMonitor → LinkMonitor} (hs : (f w.l).state = w.l.state)
    (hp : (f w.l).planned = w.l.planned) : TrailShows l (w.upd f) :=
  ⟨by simpa [linkSteps, hs, hp] using h.steps, by simpa [hs] using h.entry⟩

/-- An event that ends in DOWN takes at most two steps. -/
theorem TrailShows.length_down (h : TrailShows l w) (hw : isDown w.l.state = true) : w.trail.length ≤ 2 := by
  rw [← trailSteps_length l.state, h.steps]
  cases hl : isDown l.state <;> simp only [linkSteps, hl, hw] <;> split <;> simp

/-- No event takes more than three. -/
theorem TrailShows.length_le (h : TrailShows l w) : w.trail.length ≤ 3 := by
  rw [← trailSteps_length l.state, h.steps]
  unfold linkSteps
  repeat' split
  all_goals simp

end Trail
end Sys2Proof.Machine

namespace Sys2Proof.Machine

/-! ### The profile table (R1, R3, R14) -/

section Profiles

variable {l m : LinkMonitor}

theorem profileAt_congr (h : m.profiles = l.profiles) (i : Nat) : profileAt m i = profileAt l i := by
  simp [profileAt, h]

theorem lt_of_valid {i : Nat} (h : (profileAt l i).valid = true) : i < 12 := by
  by_contra hi
  simp [profileAt, Vector.getElem?_eq_none (Nat.le_of_not_lt hi), Initial.profileEntry] at h

theorem highestValidBelow_congr (h : m.profiles = l.profiles) (n : Nat) :
    highestValidBelow m n = highestValidBelow l n := by
  induction n with
  | zero => rfl
  | succ n ih => simp [highestValidBelow, profileAt_congr h, ih]

theorem effective_congr (h : m.profiles = l.profiles) (i : Nat) : effective m i = effective l i :=
  highestValidBelow_congr h _

theorem highestValidBelow_some {n i : Nat} (h : highestValidBelow l n = some i) :
    i < n ∧ (profileAt l i).valid = true ∧ ∀ x, i < x → x < n → (profileAt l x).valid = false := by
  induction n with
  | zero => simp [highestValidBelow] at h
  | succ n ih =>
    by_cases hv : (profileAt l n).valid = true
    · obtain rfl : n = i := by simpa [highestValidBelow, hv] using h
      exact ⟨Nat.lt_succ_self n, hv, fun x h1 h2 => absurd h1 (by omega)⟩
    · obtain ⟨h1, h2, h3⟩ := ih (by simpa [highestValidBelow, hv] using h)
      refine ⟨by omega, h2, fun x hx hn => ?_⟩
      rcases Nat.lt_succ_iff_lt_or_eq.mp hn with hn | rfl
      · exact h3 x hx hn
      · simpa using hv

theorem highestValidBelow_none {n : Nat} (h : highestValidBelow l n = none) :
    ∀ x, x < n → (profileAt l x).valid = false := by
  induction n with
  | zero => intro x hx; omega
  | succ n ih =>
    by_cases hv : (profileAt l n).valid = true
    · simp [highestValidBelow, hv] at h
    · intro x hx
      rcases Nat.lt_succ_iff_lt_or_eq.mp hx with hx | rfl
      · exact ih (by simpa [highestValidBelow, hv] using h) x hx
      · simpa using hv

theorem effective_valid {i e : Nat} (h : effective l i = some e) : (profileAt l e).valid = true :=
  (highestValidBelow_some h).2.1

theorem lowestValid_some {i : Nat} (h : lowestValid l = some i) :
    (profileAt l i).valid = true ∧ ∀ x, x < i → (profileAt l x).valid = false := by
  obtain ⟨hv, -, hb⟩ := List.find?_range_eq_some.mp h
  exact ⟨hv, fun x hx => by simpa using hb x hx⟩

theorem lowestValid_of_valid {i : Nat} (h : (profileAt l i).valid = true) : ∃ n, lowestValid l = some n := by
  cases hn : lowestValid l with
  | some n => exact ⟨n, rfl⟩
  | none => simpa [h] using List.find?_range_eq_none.mp hn i (lt_of_valid h)

/-- The replacement is a valid entry, and none is lower than it and still at or above the plan it replaces. -/
theorem replacement_some {p q : Nat} (h : replacement l p = some q) : Replaces l p q := by
  unfold replacement at h
  split at h
  · rename_i i hi
    obtain rfl := Option.some.inj h
    obtain ⟨h1, h2, h3⟩ := highestValidBelow_some hi
    exact ⟨h2, .inl ⟨h1, h3⟩⟩
  · rename_i hn
    obtain ⟨h1, h2⟩ := lowestValid_some h
    exact ⟨h1, .inr ⟨highestValidBelow_none hn, h2⟩⟩

/-- With a valid entry in the table there is a replacement. -/
theorem replacement_exists {p e : Nat} (h : (profileAt l e).valid = true) : ∃ q, replacement l p = some q := by
  unfold replacement
  split
  · exact ⟨_, rfl⟩
  · exact lowestValid_of_valid h

/-- R14 names one profile. -/
theorem Replaces.unique {p q r : Nat} (hq : Replaces l p q) (hr : Replaces l p r) : q = r := by
  obtain ⟨vq, hq⟩ := hq
  obtain ⟨vr, hr⟩ := hr
  have hqr : ∀ {x y : Nat}, (profileAt l x).valid = true → (profileAt l y).valid = false → x = y → False := by
    rintro x _ h1 h2 rfl
    simp [h1] at h2
  by_contra hne
  rcases Nat.lt_or_gt_of_ne hne with hlt | hlt
  · rcases hq with ⟨h1, h2⟩ | ⟨h1, h2⟩ <;> rcases hr with ⟨h3, h4⟩ | ⟨h3, h4⟩
    · exact hqr vr (h2 r hlt h3) rfl
    · exact hqr vq (h4 q hlt) rfl
    · exact hqr vr (h1 r h3) rfl
    · exact hqr vq (h4 q hlt) rfl
  · rcases hq with ⟨h1, h2⟩ | ⟨h1, h2⟩ <;> rcases hr with ⟨h3, h4⟩ | ⟨h3, h4⟩
    · exact hqr vq (h4 q hlt h1) rfl
    · exact hqr vq (h3 q h1) rfl
    · exact hqr vr (h2 r hlt) rfl
    · exact hqr vr (h2 r hlt) rfl

/-- Where a valid E_tx lies at or above the plan, its replacement does not lie above E_tx. -/
theorem Replaces.le {p q e : Nat} (h : Replaces l p q) (he : (profileAt l e).valid = true) (hp : p ≤ e) : q ≤ e := by
  obtain ⟨-, ⟨h1, -⟩ | ⟨-, h2⟩⟩ := h
  · omega
  · by_contra hc
    simp [h2 e (by omega)] at he

end Profiles

/-! ### The events of the link monitor, case by case (R5, R6, R13, R14) -/

section Events

variable {l : LinkMonitor}

/-- The comparison of E_tx with the plan takes place where the event has changed E_tx (R8). -/
def LinkWork.compareChanged (now : Nat) (old : Option Nat) (w : LinkWork) : LinkWork :=
  if old = w.l.etx then w else w.compare now

theorem LinkWork.compareChanged_unplanned (now : Nat) (old : Option Nat) (w : LinkWork) :
    (w.compareChanged now old).l.unplanned = w.l.unplanned := by
  unfold LinkWork.compareChanged
  split
  · rfl
  · exact w.compare_unplanned now

theorem PlanShown.compareChanged {w : LinkWork} (h : PlanShown l w) (now : Nat) (old : Option Nat)
    (hq : w.l.etx = l.planned → w.l.planned = l.planned) : PlanShown l (w.compareChanged now old) := by
  unfold LinkWork.compareChanged
  split
  · exact h
  · exact h.compare now hq

/-- The cause of DOWN that the kept carrier and the effective profiles give (R5). -/
def causeOf (l : LinkMonitor) : Option DownCause :=
  if keptLocked l = false then some .carrier else if bothPresent l = false then some .profile else none

theorem causeOf_none : causeOf l = none ↔ keptLocked l = true ∧ bothPresent l = true := by
  unfold causeOf
  cases keptLocked l <;> cases bothPresent l <;> simp

/-! The table of R5. -/

section StatusCases

variable {now : Nat} {before : LinkMonitor} {w : LinkWork}

theorem statusCases_recause {c : DownCause} (hc : causeOf w.l = some c) (hd : isDown w.l.state = true) :
    statusCases now before w = w.setCause c := by
  simp only [causeOf] at hc
  simp only [statusCases, hc]
  cases hs : w.l.state <;> simp_all [isDown]

theorem statusCases_fall {c : DownCause} (hc : causeOf w.l = some c) (hd : isDown w.l.state = false) :
    statusCases now before w = w.down c := by
  simp only [causeOf] at hc
  simp only [statusCases, hc]
  cases hs : w.l.state <;> simp_all [isDown]

theorem statusCases_restore (hc : causeOf w.l = none) (hd : isDown w.l.state = true) :
    statusCases now before w = w.restoring now := by
  simp only [causeOf] at hc
  simp only [statusCases, hc]
  cases hs : w.l.state <;> simp_all [isDown]

theorem statusCases_hold (hc : causeOf w.l = none) (hd : w.l.state = .restoring) :
    statusCases now before w = w := by
  simp only [causeOf] at hc
  simp only [statusCases, hc, hd]

theorem statusCases_plan (hc : causeOf w.l = none) (hd : carriesTraffic w.l.state = true) :
    statusCases now before w = (w.compareChanged now before.etx).place := by
  simp only [causeOf] at hc
  simp only [statusCases, hc, LinkWork.compareChanged]
  cases hs : w.l.state <;> simp_all [carriesTraffic]

theorem statusCases_fixed : (statusCases now before w).l.fixed = w.l.fixed := by
  cases hc : causeOf w.l with
  | some c =>
    cases hd : isDown w.l.state with
    | true => rw [statusCases_recause hc hd, LinkWork.setCause_l]; rfl
    | false => rw [statusCases_fall hc hd, LinkWork.down_l]; rfl
  | none =>
    rcases linkState_cases w.l.state with hs | hs | hs
    · rw [statusCases_restore hc hs, LinkWork.restoring_fixed]
    · rw [statusCases_hold hc hs]
    · rw [statusCases_plan hc hs, LinkWork.place_fixed, fixed_of_unplanned (w.compareChanged_unplanned now _)]

theorem statusCases_shows (h : Fresh before w) : TrailShows before (statusCases now before w) := by
  have hst := h.2.1
  cases hc : causeOf w.l with
  | some c =>
    cases hd : isDown w.l.state with
    | true => rw [statusCases_recause hc hd]; exact h.setCause_shows (hst ▸ hd) c
    | false => rw [statusCases_fall hc hd]; exact h.down_shows (hst ▸ hd) c
  | none =>
    rcases linkState_cases w.l.state with hs | hs | hs
    · rw [statusCases_restore hc hs]; exact h.restoring_shows (hst ▸ hs) now
    · rw [statusCases_hold hc hs]; exact h.shows
    · rw [statusCases_plan hc hs]
      exact (h.planShown.compareChanged now _ fun _ => h.2.2).place_shows (hst ▸ hs)

end StatusCases

/-- The monitor once a status write's bytes are kept, and E_tx and E_rx derived from them (R3, R16). -/
def statusKept (d : Line) (l : LinkMonitor) : LinkMonitor :=
  { l with
    kept := some ⟨field d 0 1, field d 1 1, field d 2 1⟩, statusTaken := satInc l.statusTaken
    etx := effective l (field d 1 1), erx := effective l (field d 2 1) }

theorem statusEvent_eq (now : Nat) (d : Line) (l : LinkMonitor) : statusEvent now d l =
    (statusCases now l ⟨statusKept d l, []⟩).upd fun m => { m with statusTimer := some (now + ms m.statusTimeout) } := by
  have hk : derive { l with
      kept := some ⟨field d 0 1, field d 1 1, field d 2 1⟩, statusTaken := satInc l.statusTaken } =
      statusKept d l := by
    simp only [derive, statusKept]
    congr 1 <;> exact effective_congr (by rfl) _
  rw [statusEvent, hk]

theorem statusEvent_shows (now : Nat) (d : Line) (l : LinkMonitor) : TrailShows l (statusEvent now d l) := by
  rw [statusEvent_eq]
  refine TrailShows.upd (statusCases_shows (before := l) (w := ⟨statusKept d l, []⟩) ⟨rfl, rfl, rfl⟩) ?_ ?_ <;> rfl

theorem statusTimerEvent_recause (h : isDown l.state = true) : statusTimerEvent l =
    (⟨{ l with statusTimer := none }, []⟩ : LinkWork).setCause .stale := by
  cases hs : l.state <;> simp_all [isDown, statusTimerEvent]

theorem statusTimerEvent_fall (h : isDown l.state = false) : statusTimerEvent l =
    (⟨{ l with statusTimer := none }, []⟩ : LinkWork).down .stale := by
  cases hs : l.state <;> simp_all [isDown, statusTimerEvent]

theorem statusTimerEvent_shows (l : LinkMonitor) : TrailShows l (statusTimerEvent l) := by
  have hf : Fresh l ⟨{ l with statusTimer := none }, []⟩ := ⟨rfl, rfl, rfl⟩
  cases hd : isDown l.state with
  | true => rw [statusTimerEvent_recause hd]; exact hf.setCause_shows hd _
  | false => rw [statusTimerEvent_fall hd]; exact hf.down_shows hd _

theorem restoreEvent_shows (h : l.state = .restoring) : TrailShows l (restoreEvent l) :=
  Fresh.restored_shows ⟨rfl, rfl, rfl⟩ h

theorem upshiftEvent_shows (h : carriesTraffic l.state = true) : TrailShows l (upshiftEvent l) :=
  ((Fresh.planShown (w := ⟨l, []⟩) ⟨rfl, rfl, rfl⟩).upshift fun _ => rfl).place_shows h

/-- The monitor with the values that a LINK record sets (R15). -/
def linkSet (d : Line) (l : LinkMonitor) : LinkMonitor :=
  { l with
    floor := field d 4 1, statusTimeout := field d 6 2, restoreHold := field d 8 2, upshiftHold := field d 10 2 }

theorem linkEvent_eq (d : Line) (l : LinkMonitor) : linkEvent d l = (⟨linkSet d l, []⟩ : LinkWork).place := rfl

theorem linkEvent_shows (d : Line) (l : LinkMonitor) : TrailShows l (linkEvent d l) := by
  have hf : Fresh l ⟨linkSet d l, []⟩ := ⟨rfl, rfl, rfl⟩
  rw [linkEvent_eq]
  cases hc : carriesTraffic l.state with
  | true => exact hf.planShown.place_shows hc
  | false =>
    have hp : (⟨linkSet d l, []⟩ : LinkWork).place = ⟨linkSet d l, []⟩ :=
      if_neg fun h => by simp [linkSet, hc] at h
    rw [hp]
    exact hf.shows

/-! The cases of R14. -/

section ProfileCases

variable {now : Nat} {before : LinkMonitor} {w : LinkWork}

theorem profileCases_restore (hs : w.l.state = .down .profile) (hk : keptLocked w.l = true)
    (hb : bothPresent w.l = true) : profileCases now before w = w.restoring now := by
  simp [profileCases, hs, hk, hb]

theorem profileCases_stay (hd : isDown w.l.state = true)
    (h : w.l.state ≠ .down .profile ∨ keptLocked w.l = false ∨ bothPresent w.l = false) :
    profileCases now before w = w := by
  unfold profileCases
  split
  · rename_i hs
    rcases h with h | h | h
    · exact absurd hs h
    · simp [h]
    · simp [h]
  · rfl
  all_goals simp_all [isDown]

theorem profileCases_fall (hd : isDown w.l.state = false) (hb : bothPresent w.l = false) :
    profileCases now before w = w.down .profile := by
  unfold profileCases
  cases hs : w.l.state <;> simp_all [isDown]

theorem profileCases_hold (hs : w.l.state = .restoring) (hb : bothPresent w.l = true) :
    profileCases now before w = w := by
  simp [profileCases, hs, hb]

theorem profileCases_plan (hc : carriesTraffic w.l.state = true) (hb : bothPresent w.l = true) :
    profileCases now before w = ((w.replan now).compareChanged now before.etx).place := by
  unfold profileCases
  cases hs : w.l.state <;> simp_all [carriesTraffic, LinkWork.compareChanged]

/-- Every case of R14 is one of the five. -/
theorem profileCases_cases (now : Nat) (before : LinkMonitor) (w : LinkWork) :
    (isDown w.l.state = true ∧ keptLocked w.l = true ∧ bothPresent w.l = true ∧
      profileCases now before w = w.restoring now) ∨
    (isDown w.l.state = true ∧ profileCases now before w = w) ∨
    (isDown w.l.state = false ∧ bothPresent w.l = false ∧ profileCases now before w = w.down .profile) ∨
    (w.l.state = .restoring ∧ bothPresent w.l = true ∧ profileCases now before w = w) ∨
    (carriesTraffic w.l.state = true ∧ bothPresent w.l = true ∧
      profileCases now before w = ((w.replan now).compareChanged now before.etx).place) := by
  cases hd : isDown w.l.state with
  | true =>
    by_cases h : w.l.state ≠ .down .profile ∨ keptLocked w.l = false ∨ bothPresent w.l = false
    · exact .inr (.inl ⟨rfl, profileCases_stay hd h⟩)
    · simp only [not_or, not_not, Bool.not_eq_false] at h
      obtain ⟨hs, hk, hb⟩ := h
      exact .inl ⟨rfl, hk, hb, profileCases_restore hs hk hb⟩
  | false =>
    cases hb : bothPresent w.l with
    | false => exact .inr (.inr (.inl ⟨rfl, rfl, profileCases_fall hd hb⟩))
    | true =>
      rcases linkState_cases w.l.state with hs | hs | hs
      · simp [hs] at hd
      · exact .inr (.inr (.inr (.inl ⟨hs, rfl, profileCases_hold hs hb⟩)))
      · exact .inr (.inr (.inr (.inr ⟨hs, rfl, profileCases_plan hs hb⟩)))

theorem profileCases_fixed : (profileCases now before w).l.fixed = w.l.fixed := by
  rcases profileCases_cases now before w with ⟨-, -, -, h⟩ | ⟨-, h⟩ | ⟨-, -, h⟩ | ⟨-, -, h⟩ | ⟨-, -, h⟩ <;> rw [h]
  · exact w.restoring_fixed now
  · rw [LinkWork.down_l]; rfl
  · rw [LinkWork.place_fixed, fixed_of_unplanned (LinkWork.compareChanged_unplanned now _ _),
      fixed_of_unplanned (w.replan_unplanned now)]

/-- The new plan of R14 is shown: it is not the one made invalid. -/
theorem PlanShown.replan (h : PlanShown before w) (hp : w.l.planned = before.planned)
    (hv : ∀ e, w.l.etx = some e → (profileAt w.l e).valid = true) :
    PlanShown before (w.replan now) ∧ ((w.replan now).l.etx = before.planned → (w.replan now).l.planned = before.planned) := by
  rw [LinkWork.replan_eq]
  cases hb : w.l.planned with
  | none => exact ⟨h, fun _ => hp⟩
  | some p =>
    simp only
    by_cases hpv : (profileAt w.l p).valid = true
    · rw [if_pos hpv]; exact ⟨h, fun _ => hp⟩
    · rw [if_neg hpv]
      have hne : ∀ {q}, (profileAt w.l q).valid = true → some q ≠ before.planned := by
        intro q hq hc
        obtain rfl : q = p := Option.some.inj (hc.trans (hp.symm.trans hb))
        exact hpv hq
      have het : w.l.etx ≠ before.planned := by
        cases he : w.l.etx with
        | none => rw [← hp, hb]; simp
        | some e => exact hne (hv e he)
      have hr : PlanShown before (w.replaced p) := by
        refine (h.upd rfl rfl).plan fun hc => ?_
        cases hq : replacement w.l p with
        | none => rw [hq, ← hp, hb] at hc; simp at hc
        | some q => exact absurd (hq ▸ hc) (hne (replacement_some hq).1)
      have hre : (w.replaced p).l.etx = w.l.etx := by rw [LinkWork.replaced_l]
      split
      · split
        · exact ⟨hr.upd rfl rfl, fun hc => absurd (hre.symm.trans hc) het⟩
        · split
          · obtain ⟨-, hse, -⟩ := fields_of_unplanned ((w.replaced p).startUpshift_unplanned now)
            exact ⟨hr.startUpshift now fun hc => absurd (hre.symm.trans hc) het,
              fun hc => absurd (hre.symm.trans (hse.symm.trans hc)) het⟩
          · exact ⟨hr, fun hc => absurd (hre.symm.trans hc) het⟩
      · exact ⟨hr, fun hc => absurd (hre.symm.trans hc) het⟩

theorem profileCases_shows (h : Fresh before w) (hv : ∀ e, w.l.etx = some e → (profileAt w.l e).valid = true) :
    TrailShows before (profileCases now before w) := by
  have hst := h.2.1
  rcases profileCases_cases now before w with ⟨hd, -, -, hw⟩ | ⟨-, hw⟩ | ⟨hd, -, hw⟩ | ⟨-, -, hw⟩ | ⟨hc, -, hw⟩ <;> rw [hw]
  · exact h.restoring_shows (hst ▸ hd) now
  · exact h.shows
  · exact h.down_shows (hst ▸ hd) _
  · exact h.shows
  · obtain ⟨h1, h2⟩ := h.planShown.replan (now := now) h.2.2 hv
    exact (h1.compareChanged now _ h2).place_shows (hst ▸ hc)

end ProfileCases

/-- The monitor whose table has another entry (R13). -/
def withProfile (i : Nat) (e : ProfileEntry) (l : LinkMonitor) : LinkMonitor :=
  { l with profiles := l.profiles.setIfInBounds i e }

/-- The derivation changes E_tx and E_rx alone (R3). -/
theorem derive_eq (l : LinkMonitor) : derive l = { l with
    etx := l.kept.bind fun k => effective l k.txIndex, erx := l.kept.bind fun k => effective l k.rxIndex } := by
  cases h : l.kept <;> simp [derive, h]

/-- The monitor once a PROFILE record has replaced its entry, and E_tx and E_rx are derived again (R14). -/
def profileKept (d : Line) (l : LinkMonitor) : LinkMonitor :=
  { withProfile (field d 4 1) (profileOf d) l with
    etx := l.kept.bind fun k => effective (withProfile (field d 4 1) (profileOf d) l) k.txIndex
    erx := l.kept.bind fun k => effective (withProfile (field d 4 1) (profileOf d) l) k.rxIndex }

theorem profileEvent_eq (now : Nat) (d : Line) (l : LinkMonitor) :
    profileEvent now d l = profileCases now l ⟨profileKept d l, []⟩ := by
  have h := derive_eq (withProfile (field d 4 1) (profileOf d) l)
  rw [profileEvent, profileKept]
  exact congrArg (fun m => profileCases now l ⟨m, []⟩) h

theorem profileKept_etx_valid {d : Line} {e : Nat} (h : (profileKept d l).etx = some e) :
    (profileAt (profileKept d l) e).valid = true := by
  obtain ⟨k, -, hk⟩ := Option.bind_eq_some_iff.mp h
  have hv : (profileAt (withProfile (field d 4 1) (profileOf d) l) e).valid = true := effective_valid hk
  exact hv

theorem profileEvent_shows (now : Nat) (d : Line) (l : LinkMonitor) : TrailShows l (profileEvent now d l) := by
  rw [profileEvent_eq]
  exact profileCases_shows ⟨rfl, rfl, rfl⟩ fun e he => profileKept_etx_valid he

end Events
end Sys2Proof.Machine

namespace Sys2Proof.Machine

/-! ### Reports that an event makes one after another (R156) -/

section Reporting

/-- From `s` the report unit has taken `n` requests for reports, and by the state reached nothing else of it, of the
requests, of the windows or of the time counter's value has changed. -/
inductive Reporting (s : State) : State → Nat → Prop
  | start : Reporting s s 0
  | silent {t u : State} {n : Nat} : Reporting s t n → u.rep = t.rep → u.path = t.path → u.windows = t.windows →
      timeNow u = timeNow t → Reporting s u n
  | report {t : State} {n : Nat} (time : Stamp) (code : Nat) (body : List FieldSpec) : Reporting s t n →
      Reporting s (reportAt time code body t) (n + 1)

variable {s t u : State} {m n k : Nat}

theorem Reporting.trans (h : Reporting s t m) (h2 : Reporting t u n) : Reporting s u (m + n) := by
  induction h2 with
  | start => exact h
  | silent _ h1 h2 h3 h4 ih => exact ih.silent h1 h2 h3 h4
  | report time code body _ ih => exact ih.report time code body

theorem ReportsTaken.silent (h : ReportsTaken s t n) (hr : u.rep = t.rep) : ReportsTaken s u n := by
  simpa only [ReportsTaken, hr] using h

theorem Reporting.taken (h : Reporting s t n) : ReportsTaken s t n := by
  induction h with
  | start => exact reportsTaken_none rfl
  | silent _ h1 _ _ _ ih => exact ih.silent h1
  | report _ _ _ _ ih => exact reportsTaken_succ ih

theorem Reporting.windows (h : Reporting s t n) : t.windows = s.windows := by
  induction h with
  | start => rfl
  | silent _ _ _ h3 _ ih => exact h3.trans ih
  | report _ _ _ _ ih => simpa using ih

theorem Reporting.timeNow (h : Reporting s t n) : timeNow t = timeNow s := by
  induction h with
  | start => rfl
  | silent _ _ _ _ h4 ih => exact h4.trans ih
  | report _ _ _ _ ih => simpa [Machine.timeNow] using ih

theorem windowOfKind_congr (h : t.windows = s.windows) (k : WindowKind) : windowOfKind t k = windowOfKind s k := by
  simp [windowOfKind, windowEntry, h]

/-- A report adds at most one request, at the end and with the next number. -/
theorem reportAt_reqs {time : Stamp} {code : Nat} {body : List FieldSpec} :
    ∃ l, (reportAt time code body s).path.reqs = s.path.reqs ++ l ∧ (∀ q ∈ l, s.path.nextId ≤ q.id) ∧
      s.path.nextId ≤ (reportAt time code body s).path.nextId := by
  simp only [reportAt]
  repeat' split
  · exact ⟨[_], rfl, by simp, by simp [makeReq, addReq]⟩
  all_goals exact ⟨[], by simp, by simp, Nat.le_refl _⟩

theorem Reporting.reqs (h : Reporting s t n) :
    ∃ l, t.path.reqs = s.path.reqs ++ l ∧ (∀ q ∈ l, s.path.nextId ≤ q.id) ∧ s.path.nextId ≤ t.path.nextId := by
  induction h with
  | start => exact ⟨[], by simp, by simp, Nat.le_refl _⟩
  | silent _ _ h2 _ _ ih => rw [h2]; exact ih
  | report time code body _ ih =>
    obtain ⟨l, hl, hid, hn⟩ := ih
    obtain ⟨l', hl', hid', hn'⟩ := reportAt_reqs (time := time) (code := code) (body := body)
    refine ⟨l ++ l', by rw [hl', hl, List.append_assoc], fun q hq => ?_, hn.trans hn'⟩
    rcases List.mem_append.mp hq with hq | hq
    · exact hid q hq
    · exact hn.trans (hid' q hq)

/-- An entry that is made stays among the requests. -/
theorem Reporting.keeps (h : Reporting t u n) {g : Ring} {time : Stamp} {code : Nat} {body : List FieldSpec}
    (hr : ReportAt s t g k time code body) : ReportAt s u g k time code body := by
  obtain ⟨l, hl, -, -⟩ := h.reqs
  intro w hw
  obtain ⟨q, hq, hrest⟩ := hr w hw
  exact ⟨q, by rw [hl]; exact List.mem_append_left _ hq, hrest⟩

/-- The next report of an event, where the ring has room for it behind the others. -/
theorem Reporting.made (h : Reporting s t k) {g : Ring} (hg : s.rep.ring = some g) (hr : g.releasing = false)
    (hu : unread g + k < g.size - 1) (time : Stamp) (code : Nat) (body : List FieldSpec) :
    ReportAt s (reportAt time code body t) g k time code body :=
  reportAt_behind h.taken (windowOfKind_congr h.windows _) hg hr hu

/-- A report among those of an event. -/
theorem Reporting.among (h : Reporting s t k) (hk : k ≤ n) {time : Stamp} {code : Nat} {body : List FieldSpec}
    (h2 : Reporting (reportAt time code body t) u m) : ReportAmong s u n time code body :=
  fun _ _ hg hr hu => ⟨k, hk, h2.keeps (h.made hg hr (by omega) time code body)⟩

/-- An operation that makes at most `n` reports, and does nothing else to the requests. -/
def TakesAtMost (n : Nat) (f : State → State) : Prop := ∀ s, ∃ k ≤ n, Reporting s (f s) k

theorem Reporting.of_same (h1 : t.rep = s.rep) (h2 : t.path = s.path) (h3 : t.windows = s.windows)
    (h4 : Machine.timeNow t = Machine.timeNow s) : Reporting s t 0 := Reporting.start.silent h1 h2 h3 h4

theorem Reporting.one (s : State) (code : Nat) (body : List FieldSpec) : Reporting s (Machine.report code body s) 1 :=
  Reporting.start.report _ _ _

theorem reportFault_takes (c : Cond) (d : Condition) (a : Nat) : TakesAtMost 1 (reportFault c d a) := by
  intro s
  simp only [reportFault]
  split
  · exact ⟨0, by simp, .start⟩
  · exact ⟨1, Nat.le_refl _, .one _ _ _⟩

theorem changeCondition_takes (c : Cond) (d : Condition) (a : Nat) : TakesAtMost 1 (changeCondition c d a) := by
  intro s
  obtain ⟨k, hk, h⟩ := reportFault_takes c (condGet s.fault c) a (evalFaultLine (s.updFault fun u => condSet u c d))
  refine ⟨0 + k, by omega, Reporting.trans (Reporting.of_same ?_ ?_ ?_ ?_) h⟩ <;> simp [Machine.timeNow]

theorem setLevel_takes (c : Cond) (b : Bool) : TakesAtMost 1 (setLevel c b) := by
  intro s
  simp only [setLevel]
  split
  · exact ⟨0, by simp, .start⟩
  · split
    · exact changeCondition_takes _ _ _ s
    · exact changeCondition_takes _ _ _ s

/-! Consequences that are taken in any order (R175). -/

theorem permute_perm {α : Type} (k : Nat) (l : List α) : (permute k l).Perm l := by
  induction l generalizing k with
  | nil => exact List.Perm.refl _
  | cons x xs ih =>
    have hl := (ih (k / (xs.length + 1))).length_eq
    rw [permute]
    refine (List.perm_insertIdx x _ ?_).trans ((ih _).cons x)
    rw [hl]
    exact Nat.lt_succ_iff.mp (Nat.mod_lt _ (Nat.succ_pos _))

/-- One of several consequences: some of the others are taken before it, and the rest after it. -/
theorem unordered_at (a : List (State → State)) (f : State → State) (b : List (State → State)) (s : State) :
    ∃ pre post : List (State → State), (pre ++ post).Perm (a ++ b) ∧ unordered (a ++ f :: b) s =
      post.foldl (fun t g => g t) (f (pre.foldl (fun t g => g t) (s.setFreeUses (s.freeUses + 1)))) := by
  have hp := permute_perm (Config.order s.freeUses) (a ++ f :: b)
  obtain ⟨pre, post, he⟩ := List.append_of_mem (hp.mem_iff.mpr (by simp : f ∈ a ++ f :: b))
  refine ⟨pre, post, ?_, by rw [unordered, he, List.foldl_append, List.foldl_cons]⟩
  rw [he] at hp
  exact (List.perm_middle.symm.trans (hp.trans List.perm_middle)).cons_inv

/-- Operations that together make at most `n` reports. -/
inductive Budget : List (State → State) → Nat → Prop
  | nil : Budget [] 0
  | cons {f : State → State} {fs : List (State → State)} {m n : Nat} : TakesAtMost m f → Budget fs n →
      Budget (f :: fs) (m + n)

theorem Budget.perm {l l' : List (State → State)} (hp : l.Perm l') {n : Nat} (h : Budget l n) : Budget l' n := by
  induction hp generalizing n with
  | nil => exact h
  | cons x _ ih =>
    obtain _ | ⟨hf, hs⟩ := h
    exact .cons hf (ih hs)
  | swap x y l =>
    obtain _ | ⟨hf, _ | ⟨hg, hs⟩⟩ := h
    rw [Nat.add_left_comm]
    exact .cons hg (.cons hf hs)
  | trans _ _ ih1 ih2 => exact ih2 (ih1 h)

theorem Budget.split {a b : List (State → State)} (h : Budget (a ++ b) n) :
    ∃ i j, i + j = n ∧ Budget a i ∧ Budget b j := by
  induction a generalizing n with
  | nil => exact ⟨0, n, by simp, .nil, h⟩
  | cons x xs ih =>
    obtain _ | ⟨hf, hs⟩ := h
    obtain ⟨i, j, rfl, hi, hj⟩ := ih hs
    exact ⟨_, j, by omega, .cons hf hi, hj⟩

theorem Budget.foldl {l : List (State → State)} (h : Budget l n) (s : State) :
    ∃ k ≤ n, Reporting s (l.foldl (fun t g => g t) s) k := by
  induction h generalizing s with
  | nil => exact ⟨0, Nat.le_refl _, .start⟩
  | @cons f fs m n hf _ ih =>
    obtain ⟨i, hi, h1⟩ := hf s
    obtain ⟨j, hj, h2⟩ := ih (f s)
    exact ⟨i + j, by omega, h1.trans h2⟩

theorem Reporting.setFreeUses (s : State) (n : Nat) : Reporting s (s.setFreeUses n) 0 := .of_same rfl rfl rfl rfl

theorem Budget.unordered {l : List (State → State)} (h : Budget l n) : TakesAtMost n (Machine.unordered l) := by
  intro s
  obtain ⟨k, hk, hr⟩ := (h.perm (permute_perm (Config.order s.freeUses) l).symm).foldl (s.setFreeUses (s.freeUses + 1))
  exact ⟨0 + k, by omega, (Reporting.setFreeUses s _).trans hr⟩

/-- One of several consequences in any order, with the reports that the others make before and after it. -/
theorem Budget.unordered_at {a b : List (State → State)} (h : Budget (a ++ b) n) (f : State → State) (s : State) :
    ∃ pre post : List (State → State), (∀ g ∈ pre ++ post, g ∈ a ++ b) ∧
      (∃ k ≤ n, Reporting s (pre.foldl (fun t g => g t) (s.setFreeUses (s.freeUses + 1))) k) ∧
      (∀ t, ∃ k, Reporting t (post.foldl (fun t g => g t) t) k) ∧
      Machine.unordered (a ++ f :: b) s =
        post.foldl (fun t g => g t) (f (pre.foldl (fun t g => g t) (s.setFreeUses (s.freeUses + 1)))) := by
  obtain ⟨pre, post, hp, he⟩ := Machine.unordered_at a f b s
  obtain ⟨i, j, hij, hi, hj⟩ := (h.perm hp.symm).split
  refine ⟨pre, post, fun g => hp.mem_iff.mp, ?_, fun t => ?_, he⟩
  · obtain ⟨k, hk, hr⟩ := hi.foldl (s.setFreeUses (s.freeUses + 1))
    exact ⟨0 + k, by omega, (Reporting.setFreeUses s _).trans hr⟩
  · obtain ⟨k, -, hr⟩ := hj.foldl t
    exact ⟨k, hr⟩

end Reporting
end Sys2Proof.Machine

namespace Sys2Proof.Machine

/-! ### What the other blocks do when the link enters DOWN (R83, R150, R165) -/

section LostTiming

variable {s t : State}

theorem Reporting.updXfer (f : Transfer → Transfer) (s : State) : Reporting s (s.updXfer f) 0 := .of_same rfl rfl rfl rfl

theorem Reporting.updLoop (f : Loopback → Loopback) (s : State) : Reporting s (s.updLoop f) 0 := .of_same rfl rfl rfl rfl

/-- F, as the entry into HOLDOVER leaves it. -/
theorem Reporting.setFreq (f : TimeUnit → Int) (s : State) :
    Reporting s (s.updTime fun t => { t with freq := f t }) 0 := .of_same rfl rfl rfl rfl

/-- The next report of an event, timed at the event. -/
theorem Reporting.made_now {n : Nat} (h : Reporting s t n) {g : Ring} (hg : s.rep.ring = some g)
    (hr : g.releasing = false) (hu : unread g + n < g.size - 1) (code : Nat) (body : List FieldSpec) :
    ReportAt s (Machine.report code body t) g n (Machine.timeNow s) code body := by
  rw [Machine.report, h.timeNow]
  exact h.made hg hr hu _ _ _

/-- A report among those of an event, timed at the event. -/
theorem Reporting.among_now {u : State} {k m n : Nat} (h : Reporting s t k) (hk : k ≤ n) {code : Nat}
    {body : List FieldSpec} (h2 : Reporting (Machine.report code body t) u m) :
    ReportAmong s u n (Machine.timeNow s) code body := by
  rw [← h.timeNow]
  exact h.among hk h2

theorem timingStateBody_congr {old : TimingState} {cause age : Nat} (hx : t.xfer = s.xfer) (ht : t.time = s.time) :
    timingStateBody old cause age t = timingStateBody old cause age s := by
  simp [timingStateBody, hx, ht]

theorem setLevel_budget (c : Cond) (b : Bool) : Budget [setLevel c b] 1 := .cons (setLevel_takes c b) .nil

theorem report_takes (code : Nat) (body : List FieldSpec) : TakesAtMost 1 (report code body) :=
  fun s => ⟨1, Nat.le_refl _, .one s code body⟩

theorem moveTiming_takes (new : TimingState) (cause : Nat) (f : Transfer → Transfer) :
    TakesAtMost 2 (moveTiming new cause f) := by
  intro s
  have h0 : Reporting s (s.updXfer fun x => f { x with state := new }) 0 := .of_same rfl rfl rfl rfl
  simp only [moveTiming]
  split
  · exact ⟨0 + 1, by omega, h0.trans (.one _ _ _)⟩
  · obtain ⟨k, hk, h⟩ := (Budget.cons (report_takes _ _) (setLevel_budget .timingUnqualified _)).unordered
      (s.updXfer fun x => f { x with state := new })
    exact ⟨0 + k, by omega, h0.trans h⟩

/-- A change of timing state is reported as it stands after the change, behind at most the change of
TIMING_UNQUALIFIED (R85, R156). -/
theorem moveTiming_reported (new : TimingState) (cause : Nat) (f : Transfer → Transfer) (s : State) :
    ∃ v, (∃ k ≤ 1, Reporting s v k) ∧ ∃ m, Reporting (report 0x07
      (timingStateBody s.xfer.state cause s.xfer.holdoverAge (moveTiming new cause f s)) v)
      (moveTiming new cause f s) m := by
  have hb : timingStateBody s.xfer.state cause s.xfer.holdoverAge (moveTiming new cause f s) =
      timingStateBody s.xfer.state cause s.xfer.holdoverAge (s.updXfer fun x => f { x with state := new }) :=
    timingStateBody_congr (by simp [moveTiming_xfer]) (by simp)
  have h0 : Reporting s (s.updXfer fun x => f { x with state := new }) 0 := .of_same rfl rfl rfl rfl
  rw [hb]
  simp only [moveTiming]
  split
  · exact ⟨_, ⟨0, by omega, h0⟩, 0, .start⟩
  · obtain ⟨pre, post, -, ⟨k, hk, h1⟩, h2, he⟩ := Budget.unordered_at (a := [])
      (setLevel_budget .timingUnqualified (!qualifiedState new)) (report 0x07
        (timingStateBody s.xfer.state cause s.xfer.holdoverAge (s.updXfer fun x => f { x with state := new })))
      (s.updXfer fun x => f { x with state := new })
    simp only [List.nil_append] at he
    rw [he]
    exact ⟨_, ⟨0 + k, by omega, h0.trans h1⟩, h2 _⟩

/-- A change of timing state leaves every condition but TIMING_UNQUALIFIED. -/
theorem moveTiming_cond {new : TimingState} {cause : Nat} {f : Transfer → Transfer} {c : Cond}
    (hc : c ≠ .timingUnqualified) : condGet (moveTiming new cause f s).fault c = condGet s.fault c := by
  simp only [moveTiming]
  split
  · simp
  · rw [unordered_keeps (fun t : State => condGet t.fault c)]
    · simp
    · intro g hg t
      simp only [List.mem_cons, List.not_mem_nil, or_false] at hg
      rcases hg with rfl | rfl
      · simp
      · exact setLevel_other hc
    · intro n t; rfl

theorem loseTiming_track (cause : Nat) (h : s.xfer.state = .track) : loseTiming cause s = moveTiming .holdover cause lapse
    (s.updTime fun t => { t with freq := holdoverFreq s.xfer.history t.freq }) := by simp [loseTiming, h, enterHoldover]

theorem loseTiming_acquire (cause : Nat) (h : s.xfer.state = .acquire) :
    loseTiming cause s = moveTiming .freerun cause lapse s := by simp [loseTiming, h, enterFreerun]

theorem loseTiming_other (cause : Nat) (h : ¬(s.xfer.state = .track ∨ s.xfer.state = .acquire)) :
    loseTiming cause s = s.updXfer fun x => { x with block := [] } := by
  cases hs : s.xfer.state <;> simp_all [loseTiming]

theorem loseTiming_cond {cause : Nat} {c : Cond} (hc : c ≠ .timingUnqualified) :
    condGet (loseTiming cause s).fault c = condGet s.fault c := by
  by_cases h : s.xfer.state = .track ∨ s.xfer.state = .acquire
  · rcases h with h | h
    · rw [loseTiming_track cause h, moveTiming_cond hc]; rfl
    · rw [loseTiming_acquire cause h, moveTiming_cond hc]
  · rw [loseTiming_other cause h]; rfl

/-- What R83 leaves in the engine. -/
theorem loseTiming_xfer (cause : Nat) (s : State) : (loseTiming cause s).xfer = { s.xfer with
    block := []
    state := if s.xfer.state = .track ∨ s.xfer.state = .holdover then .holdover else .freerun
    holdoverAge := if s.xfer.state = .track ∨ s.xfer.state = .acquire then 0 else s.xfer.holdoverAge
    runCount := if s.xfer.state = .track ∨ s.xfer.state = .acquire then 0 else s.xfer.runCount } := by
  by_cases h : s.xfer.state = .track ∨ s.xfer.state = .acquire
  · rcases h with h | h
    · rw [loseTiming_track cause h, moveTiming_xfer]; simp [h, lapse]
    · rw [loseTiming_acquire cause h, moveTiming_xfer]; simp [h, lapse]
  · rw [loseTiming_other cause h]
    rw [State.updXfer_xfer]
    have hst : s.xfer.state =
        if s.xfer.state = .track ∨ s.xfer.state = .holdover then .holdover else .freerun := by
      cases hs : s.xfer.state <;> simp_all
    rw [if_neg h, if_neg h, ← hst]

theorem loseTiming_freq (cause : Nat) (s : State) : (loseTiming cause s).time.freq =
    if s.xfer.state = .track then holdoverFreq s.xfer.history s.time.freq else s.time.freq := by
  by_cases h : s.xfer.state = .track ∨ s.xfer.state = .acquire
  · rcases h with h | h
    · rw [loseTiming_track cause h]; simp [h]
    · rw [loseTiming_acquire cause h]; simp [h]
  · rw [loseTiming_other cause h]
    rw [if_neg fun hc => h (.inl hc)]
    rfl

theorem loseTiming_takes (cause : Nat) : TakesAtMost 2 (loseTiming cause) := by
  intro s
  by_cases h : s.xfer.state = .track ∨ s.xfer.state = .acquire
  · rcases h with h | h
    · rw [loseTiming_track cause h]
      obtain ⟨k, hk, hr⟩ := moveTiming_takes .holdover cause lapse
        (s.updTime fun t => { t with freq := holdoverFreq s.xfer.history t.freq })
      exact ⟨0 + k, by omega, (Reporting.setFreq _ s).trans hr⟩
    · rw [loseTiming_acquire cause h]
      exact moveTiming_takes _ _ _ s
  · rw [loseTiming_other cause h]
    exact ⟨0, by omega, .of_same rfl rfl rfl rfl⟩

/-- The report of the timing state that R83 leaves. -/
theorem loseTiming_reported (cause : Nat) (h : s.xfer.state = .track ∨ s.xfer.state = .acquire) :
    ∃ v, (∃ k ≤ 1, Reporting s v k) ∧ ∃ m, Reporting (report 0x07
      (timingStateBody s.xfer.state cause s.xfer.holdoverAge (loseTiming cause s)) v) (loseTiming cause s) m := by
  rcases h with h | h
  · rw [loseTiming_track cause h]
    obtain ⟨v, ⟨k, hk, h1⟩, h2⟩ := moveTiming_reported .holdover cause lapse
      (s.updTime fun t => { t with freq := holdoverFreq s.xfer.history t.freq })
    exact ⟨v, ⟨0 + k, by omega, (Reporting.setFreq _ s).trans h1⟩, h2⟩
  · rw [loseTiming_acquire cause h]
    exact moveTiming_reported .freerun cause lapse s

/-- An active session once it is aborted (R150). -/
def abortedLoop (cause : LoopCause) (l : Loopback) : Loopback :=
  { l with
    state := .aborted, outcome := some .aborted, cause := some cause, sendTimer := none, outstanding := []
    abortedCount := satInc l.abortedCount }

theorem abortLoop_active {cause : LoopCause} (h : loopActive s.loop = true) : abortLoop cause s =
    (report 0x0F (loopDoneBody (abortedLoop cause s.loop)) (s.updLoop fun l => { l with
      state := .aborted, outcome := some .aborted, cause := some cause, sendTimer := none, outstanding := [] })).updLoop
      fun l => { l with abortedCount := satInc l.abortedCount } := by
  rw [abortLoop, if_pos h]; rfl

theorem abortLoop_idle {cause : LoopCause} (h : loopActive s.loop = false) : abortLoop cause s = s := by
  simp [abortLoop, h]

theorem abortLoop_loop {cause : LoopCause} (h : loopActive s.loop = true) :
    (abortLoop cause s).loop = abortedLoop cause s.loop := by
  rw [abortLoop_active h]; simp [abortedLoop]

/-- The report of the session as it is aborted (R150). -/
theorem abortLoop_reported {cause : LoopCause} (h : loopActive s.loop = true) : ∃ v, Reporting s v 0 ∧
    Reporting (report 0x0F (loopDoneBody (abortedLoop cause s.loop)) v) (abortLoop cause s) 0 := by
  rw [abortLoop_active h]
  exact ⟨_, .updLoop _ s, .updLoop _ _⟩

theorem abortLoop_takes (cause : LoopCause) : TakesAtMost 1 (abortLoop cause) := by
  intro s
  cases h : loopActive s.loop with
  | true =>
    rw [abortLoop_active h]
    exact ⟨0 + 1 + 0, by omega,
      ((Reporting.updLoop _ s).trans (.one _ _ _)).trans (.updLoop _ _)⟩
  | false => rw [abortLoop_idle h]; exact ⟨0, by omega, .start⟩

end LostTiming

/-! ### A link event and what it hands on (R11, R12, R175) -/

section LinkEvents

variable {s t : State} {event : LinkMonitor → LinkWork} {again : Bool}

theorem reportTrail_reporting (st : LinkState) (notes : List LinkNote) (t : State) :
    Reporting t (reportTrail st notes t) notes.length := by
  induction notes generalizing st t with
  | nil => exact .start
  | cons x xs ih =>
    rw [List.length_cons, Nat.add_comm]
    cases x with
    | moved new => exact (Reporting.one t _ _).trans (ih new _)
    | remaining st => exact (Reporting.one t _ _).trans (ih st _)

/-- Each step of a trail has its LINK_CHANGE report, in the order made. -/
theorem reportTrail_made {n : Nat} (h : Reporting s t n) {g : Ring} (hg : s.rep.ring = some g)
    (hr : g.releasing = false) {st : LinkState} {notes : List LinkNote} {k : Nat} {old new : LinkState}
    (hk : (trailSteps st notes)[k]? = some (old, new)) (hu : unread g + (n + k) < g.size - 1) :
    ReportAt s (reportTrail st notes t) g (n + k) (timeNow s) 0x03 (linkChangeBody old new t.link t.time.epoch) := by
  induction notes generalizing st t n k with
  | nil => simp [trailSteps] at hk
  | cons x xs ih =>
    have later : ∀ body c, (trailSteps c xs)[k - 1]? = some (old, new) → 0 < k →
        ReportAt s (reportTrail c xs (report 0x03 body t)) g (n + k) (timeNow s) 0x03
          (linkChangeBody old new t.link t.time.epoch) := fun body c hc h0 => by
      have := ih (h.trans (.one t 0x03 body)) hc (by omega)
      simpa [show n + 1 + (k - 1) = n + k by omega] using this
    have first : ∀ c, k = 0 → ReportAt s
        (reportTrail c xs (report 0x03 (linkChangeBody old new t.link t.time.epoch) t)) g (n + k) (timeNow s) 0x03
        (linkChangeBody old new t.link t.time.epoch) := fun c h0 =>
      (reportTrail_reporting c xs _).keeps (by subst h0; exact h.made_now hg hr hu _ _)
    cases k with
    | zero =>
      cases x with
      | moved b =>
        obtain ⟨rfl, rfl⟩ : st = old ∧ b = new := by simpa [trailSteps] using hk
        exact first _ rfl
      | remaining b =>
        obtain ⟨rfl, rfl⟩ : b = old ∧ b = new := by simpa [trailSteps] using hk
        exact first _ rfl
    | succ k => cases x <;> exact later _ _ (by simpa [trailSteps] using hk) (Nat.succ_pos k)

end LinkEvents
end Sys2Proof.Machine

namespace Sys2Proof.Machine

section LinkTaken

variable {s t : State} {event : LinkMonitor → LinkWork} {again : Bool}

/-- A link event before its reports: the monitor as it leaves it, and the epoch (R11). -/
def linkBegun (event : LinkMonitor → LinkWork) (again : Bool) (s : State) : State :=
  if linkEpochEvent s.link (event s.link) || again then stepEpoch (s.updLink fun _ => (event s.link).l)
  else s.updLink fun _ => (event s.link).l

/-- A link event with its LINK_CHANGE reports, before the other blocks learn of it. -/
def linkShown (event : LinkMonitor → LinkWork) (again : Bool) (s : State) : State :=
  reportTrail s.link.state (event s.link).trail (linkBegun event again s)

theorem linkTaken_eq : linkTaken event again s = if (event s.link).trail.any isMove
    then unordered (linkNews (event s.link)) (linkShown event again s) else linkShown event again s := rfl

theorem linkBegun_same {b : Block} (hl : b ≠ .link) (ht : b ≠ .time) : sameBlock s (linkBegun event again s) b := by
  unfold linkBegun
  split <;> cases b <;> simp_all [sameBlock]

theorem linkBegun_link : (linkBegun event again s).link = (event s.link).l := by
  unfold linkBegun; split <;> simp

theorem linkBegun_time : (linkBegun event again s).time = { s.time with
    epoch := if linkEpochEvent s.link (event s.link) || again then s.time.epoch + 1 else s.time.epoch } := by
  unfold linkBegun; split <;> simp [stepEpoch]

/-- The event steps the epoch where it changes an effective profile, or enters or leaves DOWN (R11). -/
theorem linkEpochEvent_iff {l : LinkMonitor} {w : LinkWork} : linkEpochEvent l w = true ↔
    w.l.etx ≠ l.etx ∨ w.l.erx ≠ l.erx ∨ isDown w.l.state ≠ isDown l.state := by
  simp only [linkEpochEvent, Bool.or_eq_true, bne_iff_ne, or_assoc, ne_comm (a := l.etx), ne_comm (a := l.erx),
    ne_comm (a := isDown l.state)]

theorem linkBegun_reporting : Reporting s (linkBegun event again s) 0 :=
  .of_same (linkBegun_same (b := .rep) (by simp) (by simp)) (linkBegun_same (b := .path) (by simp) (by simp))
    (linkBegun_same (b := .windows) (by simp) (by simp)) (by simp [timeNow, linkBegun_time])

theorem linkShown_reporting : Reporting s (linkShown event again s) (event s.link).trail.length := by
  have h := linkBegun_reporting.trans (reportTrail_reporting s.link.state (event s.link).trail
    (linkBegun event again s))
  rwa [Nat.zero_add] at h

theorem linkShown_frame : (linkShown event again s).xfer = s.xfer ∧ (linkShown event again s).loop = s.loop ∧
    (linkShown event again s).inReset = s.inReset := by
  have h : ∀ b, b ≠ .link → b ≠ .time → sameBlock s (linkBegun event again s) b := fun _ => linkBegun_same
  simp only [linkShown, reportTrail_frame]
  exact ⟨h .xfer (by simp) (by simp), h .loop (by simp) (by simp), h .inReset (by simp) (by simp)⟩

/-! What the other blocks are told. -/

theorem linkNews_up {w : LinkWork} (h : isDown w.l.state = false) :
    linkNews w = [setLevel .linkDown false, setLevel .linkDegraded (w.l.state == .degraded)] := by
  simp [linkNews, h]

theorem linkNews_down {w : LinkWork} (h : isDown w.l.state = true) :
    linkNews w = [timingLinkDown, abortLoop .linkDown, setLevel .linkDown true, setLevel .linkDegraded false] := by
  have hs : (w.l.state == .degraded) = false := by cases hs : w.l.state <;> simp_all [isDown]
  simp [linkNews, h, hs]

theorem linkNews_up_budget {w : LinkWork} (h : isDown w.l.state = false) : Budget (linkNews w) 2 := by
  rw [linkNews_up h]
  exact .cons (setLevel_takes _ _) (setLevel_budget _ _)

theorem linkNews_budget (w : LinkWork) : ∃ n ≤ 5, Budget (linkNews w) n ∧ (isDown w.l.state = false → n ≤ 2) := by
  cases h : isDown w.l.state with
  | false => exact ⟨2, by omega, linkNews_up_budget h, fun _ => Nat.le_refl _⟩
  | true =>
    refine ⟨2 + (1 + (1 + 1)), by omega, ?_, fun h => by simp at h⟩
    rw [linkNews_down h]
    exact .cons (loseTiming_takes 6) (.cons (abortLoop_takes _) (.cons (setLevel_takes _ _) (setLevel_budget _ _)))

/-- The reports of a link event: those of its trail first, then those of the blocks it tells. -/
theorem linkTaken_reporting_shown : ∃ k ≤ 5, (isDown (event s.link).l.state = false → k ≤ 2) ∧
    Reporting (linkShown event again s) (linkTaken event again s) k := by
  rw [linkTaken_eq]
  split
  · obtain ⟨n, hn, hb, h2⟩ := linkNews_budget (event s.link)
    obtain ⟨k, hk, hr⟩ := hb.unordered (linkShown event again s)
    exact ⟨k, hk.trans hn, fun h => hk.trans (h2 h), hr⟩
  · exact ⟨0, by omega, fun _ => by omega, .start⟩

theorem linkTaken_reporting : ∃ k, k ≤ (event s.link).trail.length + 5 ∧
    (isDown (event s.link).l.state = false → k ≤ (event s.link).trail.length + 2) ∧
    Reporting s (linkTaken event again s) k := by
  obtain ⟨k, hk, h2, hr⟩ := linkTaken_reporting_shown (event := event) (again := again) (s := s)
  exact ⟨_, by omega, fun h => by have := h2 h; omega, linkShown_reporting.trans hr⟩

theorem linkTaken_reporting_seven (h : TrailShows s.link (event s.link)) :
    ∃ k ≤ 7, Reporting s (linkTaken event again s) k := by
  obtain ⟨k, hk, h2, hr⟩ := linkTaken_reporting (event := event) (again := again) (s := s)
  refine ⟨k, ?_, hr⟩
  cases hd : isDown (event s.link).l.state with
  | true => have := h.length_down hd; omega
  | false => have := h.length_le; have := h2 hd; omega

/-- An event that moves nothing reports nothing. -/
theorem linkTaken_reporting_still (h : (event s.link).trail = []) : Reporting s (linkTaken event again s) 0 := by
  have hr := linkShown_reporting (event := event) (again := again) (s := s)
  rw [linkTaken_eq]
  simpa [h] using hr

/-- The time counter after a link event: the epoch, and F where timing is lost (R11, R83). -/
theorem linkTaken_time_eq : (linkTaken event again s).time = { s.time with
    epoch := if linkEpochEvent s.link (event s.link) || again then s.time.epoch + 1 else s.time.epoch
    freq := (linkTaken event again s).time.freq } := by
  have h := linkTaken_time (event := event) (again := again) (s := s)
  generalize (linkTaken event again s).time = u at h ⊢
  cases u
  split at h <;> simp_all [withoutFreq]

/-- Each change that a link event makes has its LINK_CHANGE report (R12). -/
theorem linkTaken_reported (h : TrailShows s.link (event s.link)) : LinkReported s (linkTaken event again s) := by
  intro _ g hg hr k old new hk hu
  obtain ⟨n, -, -, hn⟩ := linkTaken_reporting_shown (event := event) (again := again) (s := s)
  rw [linkTaken_link, ← h.steps] at hk
  have hm := reportTrail_made (linkBegun_reporting (event := event) (again := again)) hg hr hk (by omega)
  have := hn.keeps hm
  have he : (linkTaken event again s).time.epoch = (linkBegun event again s).time.epoch := by
    rw [linkTaken_time_eq, linkBegun_time]
  rw [linkTaken_link, he, ← linkBegun_link (again := again)]
  rw [Nat.zero_add] at this
  exact this

/-- Where the link does not enter DOWN, only the fault unit is told. -/
theorem linkTaken_untold (h : (event s.link).trail.any isMove = true → isDown (event s.link).l.state = false) :
    eraseBlocks [.path, .rep, .fault, .freeUses] (linkTaken event again s) =
      eraseBlocks [.path, .rep, .fault, .freeUses] (linkBegun event again s) := by
  have hs : eraseBlocks [.path, .rep, .fault, .freeUses] (linkShown event again s) =
      eraseBlocks [.path, .rep, .fault, .freeUses] (linkBegun event again s) := by simp [linkShown]
  rw [linkTaken_eq]
  split
  · rename_i hm
    rw [linkNews_up (h hm), unordered_erase (by simp), hs]
    intro f hf t
    simp only [List.mem_cons, List.not_mem_nil, or_false] at hf
    rcases hf with rfl | rfl <;> simp
  · exact hs

/-- Where the link does not enter DOWN, timing and a loopback session go on. -/
theorem linkTaken_notTold (h : (event s.link).trail.any isMove = true → isDown (event s.link).l.state = false) :
    NotTold s (linkTaken event again s) := by
  have he := onlyChanges_iff.mpr (linkTaken_untold (again := again) h)
  have hx : sameBlock _ _ .xfer := he .xfer (by simp)
  have hl : sameBlock _ _ .loop := he .loop (by simp)
  have ht : sameBlock _ _ .time := he .time (by simp)
  refine ⟨?_, ?_, ?_⟩
  · exact Eq.trans hx (linkBegun_same (b := .xfer) (by simp) (by simp))
  · exact Eq.trans hl (linkBegun_same (b := .loop) (by simp) (by simp))
  · rw [show (linkTaken event again s).time = _ from ht, linkBegun_time]

/-- An event that does not enter DOWN and steps no epoch touches the monitor and the fault unit, with their reports. -/
theorem linkTaken_changes_link (h : (event s.link).trail.any isMove = true → isDown (event s.link).l.state = false)
    (he : linkEpochEvent s.link (event s.link) = false) :
    OnlyChanges [.link, .path, .rep, .fault, .freeUses] s (linkTaken event false s) := by
  intro b hb
  simp only [List.mem_cons, List.not_mem_nil, or_false, not_or] at hb
  have ht := onlyChanges_iff.mpr (linkTaken_untold (again := false) h) b (by simp [hb])
  have hs : sameBlock s (linkBegun event false s) b := by
    by_cases hbt : b = .time
    · subst hbt
      have := linkBegun_time (event := event) (again := false) (s := s)
      simpa [he, sameBlock] using this
    · exact linkBegun_same hb.1 hbt
  revert ht hs
  cases b <;> exact fun ht hs => Eq.trans ht hs

/-! The entry into DOWN. -/

section Told

variable (hm : (event s.link).trail.any isMove = true) (hd : isDown (event s.link).l.state = true)
include hm hd

theorem linkTaken_told : linkTaken event again s = unordered
    [timingLinkDown, abortLoop .linkDown, setLevel .linkDown true, setLevel .linkDegraded false]
    (linkShown event again s) := by
  rw [linkTaken_eq, if_pos hm, linkNews_down hd]

/-- Timing is lost, and the change of its state is reported (R83, R85). -/
theorem linkTaken_losesTiming (h2 : (event s.link).trail.length ≤ 2) :
    (linkTaken event again s).xfer = (loseTiming 6 s).xfer ∧
    (linkTaken event again s).time.freq = (loseTiming 6 s).time.freq ∧
    (s.xfer.state = .track ∨ s.xfer.state = .acquire →
      TimingStateReported s (linkTaken event again s) 6 (timeNow s) s.xfer.state 6 s.xfer.holdoverAge) := by
  obtain ⟨pre, post, hmem, ⟨k, hk, hpre⟩, hpost, he⟩ := Budget.unordered_at (a := [])
    (.cons (abortLoop_takes .linkDown) (.cons (setLevel_takes .linkDown true) (setLevel_budget .linkDegraded false)))
    timingLinkDown (linkShown event again s)
  rw [List.nil_append] at he
  rw [linkTaken_told hm hd, he]
  set u := pre.foldl (fun t g => g t) ((linkShown event again s).setFreeUses _) with hu
  obtain ⟨n, hpost⟩ := hpost (timingLinkDown u)
  have keep : ∀ g ∈ pre ++ post, ∀ t, (g t).xfer = t.xfer ∧ (g t).time = t.time := by
    intro g hg t
    have := hmem g hg
    simp only [List.nil_append, List.mem_cons, List.not_mem_nil, or_false] at this
    rcases this with rfl | rfl | rfl <;> simp
  obtain ⟨shown_xfer, -, -⟩ := linkShown_frame (s := s) (event := event) (again := again)
  have hux : u.xfer = s.xfer := by
    rw [hu, foldl_keeps (fun t : State => t.xfer) pre _ fun t g hg => (keep g (List.mem_append_left _ hg) t).1]
    exact shown_xfer
  have hut : u.time.freq = s.time.freq := by
    rw [hu, foldl_keeps (fun t : State => t.time) pre _ fun t g hg => (keep g (List.mem_append_left _ hg) t).2]
    simp [linkShown, linkBegun_time]
  have htx := foldl_keeps (fun t : State => t.xfer) post (timingLinkDown u) fun t g hg =>
    (keep g (List.mem_append_right _ hg) t).1
  have htt := foldl_keeps (fun t : State => t.time) post (timingLinkDown u) fun t g hg =>
    (keep g (List.mem_append_right _ hg) t).2
  refine ⟨?_, ?_, fun hs => ?_⟩
  · rw [htx, timingLinkDown, loseTiming_xfer, loseTiming_xfer, hux]
  · rw [htt, timingLinkDown, loseTiming_freq, loseTiming_freq, hux, hut]
  · obtain ⟨v, ⟨i, hi, hv⟩, m, hrep⟩ := loseTiming_reported (s := u) 6 (by rwa [hux])
    have hb := timingStateBody_congr (old := s.xfer.state) (cause := 6) (age := s.xfer.holdoverAge) htx htt
    rw [hux, show timingStateBody _ _ _ (loseTiming 6 u) = _ from hb.symm] at hrep
    exact ((linkShown_reporting.trans hpre).trans hv).among_now (by omega) (hrep.trans hpost)

/-- A loopback session ends with cause LINK_DOWN (R150). -/
theorem linkTaken_endsSession (h2 : (event s.link).trail.length ≤ 2) :
    (loopActive s.loop = true → SessionAborted s (linkTaken event again s) 6 .linkDown) ∧
    (loopActive s.loop = false → (linkTaken event again s).loop = s.loop) := by
  obtain ⟨pre, post, hmem, ⟨k, hk, hpre⟩, hpost, he⟩ := Budget.unordered_at (a := [timingLinkDown])
    (.cons (loseTiming_takes 6) (.cons (setLevel_takes .linkDown true) (setLevel_budget .linkDegraded false)))
    (abortLoop .linkDown) (linkShown event again s)
  rw [List.singleton_append] at he
  rw [linkTaken_told hm hd, he]
  set u := pre.foldl (fun t g => g t) ((linkShown event again s).setFreeUses _) with hu
  obtain ⟨n, hpost⟩ := hpost (abortLoop .linkDown u)
  have keep : ∀ g ∈ pre ++ post, ∀ t, (g t).loop = t.loop := by
    intro g hg t
    have := hmem g hg
    simp only [List.singleton_append, List.mem_cons, List.not_mem_nil, or_false] at this
    rcases this with rfl | rfl | rfl <;> simp
  obtain ⟨-, shown_loop, -⟩ := linkShown_frame (s := s) (event := event) (again := again)
  have hul : u.loop = s.loop := by
    rw [hu, foldl_keeps (fun t : State => t.loop) pre _ fun t g hg => keep g (List.mem_append_left _ hg) t]
    exact shown_loop
  have htl := foldl_keeps (fun t : State => t.loop) post (abortLoop .linkDown u) fun t g hg =>
    keep g (List.mem_append_right _ hg) t
  constructor
  · intro ha
    rw [← hul] at ha
    refine ⟨by rw [htl, abortLoop_loop ha, hul]; rfl, ?_⟩
    obtain ⟨v, hv, hrep⟩ := abortLoop_reported (cause := .linkDown) ha
    rw [htl, abortLoop_loop ha]
    exact ((linkShown_reporting.trans hpre).trans hv).among_now (by omega) (hrep.trans hpost)
  · intro ha
    rw [htl, abortLoop_idle (by rwa [hul]), hul]

/-- The fault unit is told (R165). -/
theorem linkTaken_tellsFault (hr : s.inReset = false) :
    (linkTaken event again s).fault.linkDown.raw = true ∧ (linkTaken event again s).fault.linkDegraded.raw = false := by
  obtain ⟨-, -, hsr⟩ := linkShown_frame (s := s) (event := event) (again := again)
  rw [hr] at hsr
  have keepReset : ∀ g ∈ [timingLinkDown, abortLoop .linkDown, setLevel .linkDown true, setLevel .linkDegraded false],
      ∀ t : State, (g t).inReset = t.inReset := by
    intro g hg t
    simp only [List.mem_cons, List.not_mem_nil, or_false] at hg
    rcases hg with rfl | rfl | rfl | rfl <;> simp
  have told : ∀ (c : Cond) (b : Bool) (x y : List (State → State)), (∀ g ∈ x ++ y, ∀ t : State,
        condGet (g t).fault c = condGet t.fault c ∧ (g t).inReset = t.inReset) →
      (condGet (unordered (x ++ setLevel c b :: y) (linkShown event again s)).fault c).raw = b := by
    intro c b x y keep
    obtain ⟨pre, post, hp, he⟩ := unordered_at x (setLevel c b) y (linkShown event again s)
    have keep' : ∀ g ∈ pre ++ post, ∀ t : State, condGet (g t).fault c = condGet t.fault c ∧ (g t).inReset = t.inReset :=
      fun g hg => keep g (hp.mem_iff.mp hg)
    rw [he, foldl_keeps (fun t : State => condGet t.fault c) post _ fun t g hg =>
      (keep' g (List.mem_append_right _ hg) t).1]
    apply setLevel_raw
    rw [foldl_keeps (fun t : State => t.inReset) pre _ fun t g hg => (keep' g (List.mem_append_left _ hg) t).2]
    exact hsr
  have timing : ∀ (c : Cond) (t : State), c ≠ .timingUnqualified →
      condGet (timingLinkDown t).fault c = condGet t.fault c := fun c t hc => loseTiming_cond hc
  rw [linkTaken_told hm hd]
  constructor
  · refine told .linkDown true [timingLinkDown, abortLoop .linkDown] [setLevel .linkDegraded false] fun g hg t => ?_
    simp only [List.mem_append, List.mem_cons, List.not_mem_nil, or_false] at hg
    refine ⟨?_, keepReset g (by simp only [List.mem_cons]; tauto) t⟩
    rcases hg with (rfl | rfl) | rfl
    · exact timing _ t (by simp)
    · simp
    · exact setLevel_other (by simp)
  · refine told .linkDegraded false [timingLinkDown, abortLoop .linkDown, setLevel .linkDown true] [] fun g hg t => ?_
    simp only [List.mem_append, List.mem_cons, List.not_mem_nil, or_false] at hg
    refine ⟨?_, keepReset g (by simp only [List.mem_cons]; tauto) t⟩
    rcases hg with rfl | rfl | rfl
    · exact timing _ t (by simp)
    · simp
    · exact setLevel_other (by simp)

end Told

/-- What an event leaves of the monitor that has entered DOWN (R4, R16). -/
def DownEntered (l m : LinkMonitor) : Prop :=
  m.planned = none ∧ m.restoreTimer = none ∧ m.upshiftTimer = none ∧ m.downEntries = satInc l.downEntries

/-- An event that takes the link into DOWN, with all that learns of it. -/
theorem linkTaken_wentDown (h : TrailShows s.link (event s.link)) (hs : isDown s.link.state = false)
    (hd : isDown (event s.link).l.state = true) (he : DownEntered s.link (event s.link).l) :
    WentDown s (linkTaken event again s) := by
  have hm : (event s.link).trail.any isMove = true := by rw [h.entry hd, hs]; rfl
  have h2 := h.length_down hd
  obtain ⟨hx, hf, ht⟩ := linkTaken_losesTiming (again := again) hm hd h2
  obtain ⟨ha, hi⟩ := linkTaken_endsSession (again := again) hm hd h2
  refine ⟨?_, hx.trans (loseTiming_xfer 6 s), hf.trans (loseTiming_freq 6 s), ht, ha, hi,
    linkTaken_tellsFault (again := again) hm hd⟩
  rw [linkTaken_link]
  exact he

/-- An event that does not take the link into DOWN. -/
theorem linkTaken_spares (h : TrailShows s.link (event s.link))
    (hd : isDown s.link.state = true ∨ isDown (event s.link).l.state = false) : NotTold s (linkTaken event again s) := by
  refine linkTaken_notTold fun hm => ?_
  rcases hd with hd | hd
  · by_contra hc
    rw [h.entry (by simpa using hc), hd] at hm
    simp at hm
  · exact hd

end LinkTaken
end Sys2Proof.Machine

namespace Sys2Proof.Machine

/-! ### The timers of the link monitor (R6, R7, R9) -/

section Timers

variable {s : State} {event : LinkMonitor → LinkWork} {again : Bool}

theorem linkTaken_epoch : (linkTaken event again s).time.epoch =
    if linkEpochEvent s.link (event s.link) || again then s.time.epoch + 1 else s.time.epoch := by
  rw [linkTaken_time_eq]

/-- A link event touches no other block. -/
theorem linkTaken_changes :
    OnlyChanges [.link, .time, .xfer, .loop, .path, .rep, .fault, .freeUses] s (linkTaken event again s) :=
  onlyChanges_iff.mpr (linkTaken_erase (by decide))

/-- An event that does not move into DOWN and steps no epoch leaves the time unit. -/
theorem linkTaken_time_kept (h : (event s.link).trail.any isMove = true → isDown (event s.link).l.state = false)
    (he : linkEpochEvent s.link (event s.link) = false) : (linkTaken event false s).time = s.time :=
  linkTaken_changes_link h he .time (by simp)

/-- The restore hold makes E_tx the planned profile, and the floor places the link (R7, R10). -/
theorem restoreEvent_l (l : LinkMonitor) : (restoreEvent l).l = { l with
    restoreTimer := none, planned := l.etx, state := floorState { l with planned := l.etx } } :=
  LinkWork.restored_l _

/-- The upshift hold raises the planned profile to E_tx and counts, and the floor places the link (R9, R10). -/
theorem upshiftEvent_l {l : LinkMonitor} (h : carriesTraffic l.state = true) : (upshiftEvent l).l = { l with
    upshiftTimer := none, upshifts := satInc l.upshifts, planned := l.etx
    state := floorState { l with planned := l.etx } } := by
  rw [upshiftEvent, LinkWork.place_l, LinkWork.upshift_l]
  simp [h, floorState_eq]

theorem statusTimer_expires (h : due s.link.statusTimer s.now = true) :
    exec .statusTimerExpiry s = .next (linkTaken statusTimerEvent false s) := by
  show Host.Outcome.next _ = _
  rw [if_pos h]

theorem restoreHold_expires (h : due s.link.restoreTimer s.now = true) (hs : s.link.state = .restoring) :
    exec .restoreHoldExpiry s = .next (linkTaken restoreEvent false s) := by
  show Host.Outcome.next _ = _
  rw [if_pos ⟨h, hs⟩]

theorem upshiftHold_expires (h : due s.link.upshiftTimer s.now = true) (hs : carriesTraffic s.link.state = true) :
    exec .upshiftHoldExpiry s = .next (linkTaken upshiftEvent false s) := by
  show Host.Outcome.next _ = _
  rw [if_pos ⟨h, hs⟩]

/-- The status timeout in DOWN changes the cause alone (R6). -/
theorem statusTimerEvent_l_down {l : LinkMonitor} (h : isDown l.state = true) :
    (statusTimerEvent l).l = { l with state := .down .stale, statusTimer := none } := by
  rw [statusTimerEvent_recause h, LinkWork.setCause_l]

theorem statusTimerEvent_l_fall {l : LinkMonitor} (h : isDown l.state = false) : (statusTimerEvent l).l = { l with
    statusTimer := none, restoreTimer := none, upshiftTimer := none, downEntries := satInc l.downEntries
    state := .down .stale, planned := none } := by
  rw [statusTimerEvent_fall h, LinkWork.down_l]

theorem statusTimerEvent_fields (l : LinkMonitor) : (statusTimerEvent l).l.state = .down .stale ∧
    (statusTimerEvent l).l.statusTimer = none ∧ (statusTimerEvent l).l.kept = l.kept ∧
    (statusTimerEvent l).l.etx = l.etx ∧ (statusTimerEvent l).l.erx = l.erx := by
  cases hd : isDown l.state with
  | true => rw [statusTimerEvent_l_down hd]; simp
  | false => rw [statusTimerEvent_l_fall hd]; simp

/-- Settles O29: the three timers of the link monitor, each from its event's effect on the monitor. -/
theorem linkTimersExpire : Obligations.LinkTimersExpire := by
  unfold Obligations.LinkTimersExpire
  refine ⟨fun s h => ?_, fun s h hs => ?_, fun s h hs => ?_⟩
  · obtain ⟨hst, htm, hk, hx, hy⟩ := statusTimerEvent_fields s.link
    have hshow := statusTimerEvent_shows s.link
    have hdown : isDown (statusTimerEvent s.link).l.state = true := by rw [hst]; rfl
    refine ⟨_, statusTimer_expires h, ?_, ?_, ?_, linkTaken_reported hshow, fun hd => ⟨?_, ?_⟩, fun hd => ⟨?_, ?_, ?_⟩,
      linkTaken_changes⟩
    · rw [linkTaken_link, hst]
    · rw [linkTaken_link, htm]
    · rw [linkTaken_link, hk]
    · exact linkTaken_wentDown hshow hd hdown (by simp [DownEntered, statusTimerEvent_l_fall hd])
    · rw [linkTaken_epoch, if_pos]
      simp [linkEpochEvent_iff, hd, hdown]
    · rw [linkTaken_link, statusTimerEvent_l_down hd]
    · rw [linkTaken_epoch, if_neg]
      simp [linkEpochEvent_iff, hd, hdown, hx, hy]
    · exact linkTaken_spares hshow (.inl hd)
  · have hl := restoreEvent_l s.link
    have hup : isDown (restoreEvent s.link).l.state = false := by rw [hl]; simp
    have hr : isDown s.link.state = false := by rw [hs]; rfl
    have he : linkEpochEvent s.link (restoreEvent s.link) = false := by
      rw [Bool.eq_false_iff, ne_eq, linkEpochEvent_iff]
      simp [hl, hr]
    refine ⟨_, restoreHold_expires h hs, ?_, ?_, ?_, linkTaken_time_kept (fun _ => hup) he,
      linkTaken_reported (restoreEvent_shows hs), linkTaken_changes_link (fun _ => hup) he⟩
    · rw [linkTaken_link, hl]
    · rw [linkTaken_link, hl]
    · rw [linkTaken_link, hl]
      exact floorState_eq { s.link with planned := s.link.etx }
  · have hl := upshiftEvent_l hs
    have hup : isDown (upshiftEvent s.link).l.state = false := by rw [hl]; simp
    have he : linkEpochEvent s.link (upshiftEvent s.link) = false := by
      rw [Bool.eq_false_iff, ne_eq, linkEpochEvent_iff]
      simp [hl, isDown_of_carries hs]
    refine ⟨_, upshiftHold_expires h hs, ?_, ?_, ?_, ?_, linkTaken_time_kept (fun _ => hup) he,
      linkTaken_reported (upshiftEvent_shows hs), linkTaken_changes_link (fun _ => hup) he⟩
    · rw [linkTaken_link, hl]
    · rw [linkTaken_link, hl]
    · rw [linkTaken_link, hl]
    · rw [linkTaken_link, hl]
      exact floorState_eq { s.link with planned := s.link.etx }

end Timers
end Sys2Proof.Machine

namespace Sys2Proof.Machine

/-! ### What a row leaves behind its event: the request goes on (R96) -/

section Rows

variable {s t u : State}

/-- From `t` to `u` the blocks that a link event moves stand, and so do the reports made since `s`. -/
structure Follows (s t u : State) : Prop where
  link : u.link = t.link
  time : u.time = t.time
  xfer : u.xfer = t.xfer
  loop : u.loop = t.loop
  fault : u.fault = t.fault
  reports : pathLaw s → ∀ (g : Ring) (k : Nat) (time : Stamp) (code : Nat) (body : List FieldSpec),
    ReportAt s t g k time code body → ReportAt s u g k time code body

theorem Follows.trans {v : State} (h : Follows s t u) (h2 : Follows s u v) : Follows s t v :=
  ⟨h2.link.trans h.link, h2.time.trans h.time, h2.xfer.trans h.xfer, h2.loop.trans h.loop, h2.fault.trans h.fault,
    fun hp g k a b c hr => h2.reports hp g k a b c (h.reports hp g k a b c hr)⟩

theorem Follows.among (h : Follows s t u) {n : Nat} {time : Stamp} {code : Nat} {body : List FieldSpec}
    (hr : ReportAmong s t n time code body) : ReportAmong s u n time code body := by
  intro hp g hg hrel hu
  obtain ⟨k, hk, hm⟩ := hr hp g hg hrel hu
  exact ⟨k, hk, h.reports hp g k _ _ _ hm⟩

theorem Follows.linkReported (h : Follows s t u) (hr : LinkReported s t) : LinkReported s u := by
  intro hp g hg hrel k old new hk hu
  rw [h.link] at hk ⊢
  rw [h.time]
  exact h.reports hp g k _ _ _ (hr hp g hg hrel k old new hk hu)

theorem Follows.notTold (h : Follows s t u) (hn : NotTold s t) : NotTold s u := by
  obtain ⟨hx, hl, hf⟩ := hn
  exact ⟨h.xfer.trans hx, h.loop.trans hl, by rw [h.time, hf]⟩

theorem Follows.wentDown (h : Follows s t u) (hd : WentDown s t) : WentDown s u := by
  obtain ⟨hm, hx, hf, ht, ha, hi, hr⟩ := hd
  refine ⟨by rwa [h.link], h.xfer.trans hx, by rw [h.time, hf], fun hs => ?_, fun hs => ?_, fun hs => h.loop.trans (hi hs),
    by rwa [h.fault]⟩
  · have := h.among (ht hs)
    rwa [TimingStateReported, h.xfer, h.time]
  · obtain ⟨hl, hrep⟩ := ha hs
    exact ⟨h.loop.trans hl, by rw [h.loop]; exact h.among hrep⟩

/-- A port's next request is one of its requests. -/
theorem Next.mem {p : Port} {id : Nat} {r : LineRequest} (h : Next s p id r) :
    ∃ q ∈ s.path.reqs, q.id = id ∧ isPortReq p q = true := by
  simp only [Next, nextRequest] at h
  split at h
  · simp at h
  · obtain ⟨q, hq, hm⟩ := List.exists_of_findSome?_eq_some h
    obtain ⟨hq, hp⟩ := List.mem_filter.mp hq
    refine ⟨q, hq, ?_, hp⟩
    split at hm
    · simp only [Option.some.injEq, Prod.mk.injEq] at hm
      exact hm.1
    · simp at hm

/-- Where a port's request goes on, the entries that the event has made stand among the requests. -/
theorem Reporting.follows_setReq {n id : Nat} {p : Port} {r : LineRequest} {job : Job} {st : Stage}
    (h : Reporting s t n) (hn : Next s p id r) : Follows s t (setReq id job st t) := by
  refine ⟨rfl, rfl, rfl, rfl, rfl, fun hp g k time code body hr w hw => ?_⟩
  obtain ⟨-, -, -, -, hids, hlt, -⟩ := hp
  obtain ⟨q, hq, hline, hstage, hjob⟩ := hr w hw
  obtain ⟨x, hx, hxid, hxp⟩ := hn.mem
  obtain ⟨l, hl, hnew, -⟩ := h.reqs
  have hne : q.id ≠ id := by
    intro he
    rw [hl, List.mem_append] at hq
    rcases hq with hq | hq
    · have hqx : q = x := List.inj_on_of_nodup_map hids hq hx (he.trans hxid.symm)
      rw [← hqx, isPortReq, hjob] at hxp
      simp at hxp
    · have := hnew q hq
      have := hlt x hx
      omega
  refine ⟨q, ?_, hline, hstage, hjob⟩
  simp only [setReq, State.updPath_path]
  exact List.mem_map.mpr ⟨q, hq, if_neg hne⟩

end Rows

/-! ### The status write (R5) -/

section StatusWrite

variable {s : State} {now : Nat} {l : LinkMonitor} {w : LinkWork} {d : Line}

theorem place_floorPlaced (hc : carriesTraffic w.l.state = true) : FloorPlaced w.place.l := by
  intro p hp
  rw [LinkWork.place_l] at hp ⊢
  simp only [if_pos hc, floorState_eq]
  rw [show w.l.planned = some p from hp]

theorem restoring_begun (now : Nat) (w : LinkWork) : RestoreBegun now w.l (w.restoring now).l := by
  constructor
  · intro h
    rw [LinkWork.restoring_l_held w now h]
    exact ⟨rfl, rfl⟩
  · intro h
    rw [LinkWork.restoring_l_atOnce w now h]
    refine ⟨rfl, rfl, fun e he => ?_⟩
    simp only [floorState_eq]
    rw [show w.l.etx = some e from he]

/-- The comparison does as R8 says. -/
theorem compare_planCompared {e p : Nat} (he : w.l.etx = some e) (hp : w.l.planned = some p) :
    PlanCompared now e p w.l (w.compare now).l := by
  refine ⟨fun h => ?_, fun h => ?_, fun h => ?_⟩
  · rw [LinkWork.compare_below w now he hp h, LinkWork.plan_l]
    exact ⟨rfl, rfl, rfl, rfl⟩
  · subst h
    rw [LinkWork.compare_at w now he hp]
    exact ⟨hp, rfl, rfl, rfl⟩
  · rw [LinkWork.compare_above w now he hp h]
    by_cases h0 : w.l.upshiftHold = 0
    · rw [LinkWork.startUpshift_atOnce w now h0, LinkWork.upshift_l]
      exact ⟨rfl, fun hc => absurd h0 hc, fun _ => ⟨he, rfl, rfl⟩⟩
    · rw [LinkWork.startUpshift_held w now h0]
      exact ⟨rfl, fun _ => ⟨hp, rfl, rfl⟩, fun hc => absurd hc h0⟩

/-- The floor's move leaves what the comparison did. -/
theorem PlanCompared.place {e p : Nat} (h : PlanCompared now e p l w.l) : PlanCompared now e p l w.place.l := by
  rw [LinkWork.place_l]; exact h

theorem statusKept_causeOf_carrier (h : field d 0 1 ≠ 1) : causeOf (statusKept d l) = some .carrier := by
  have hk : keptLocked (statusKept d l) = false := by simpa [keptLocked, statusKept] using h
  simp [causeOf, hk]

theorem statusKept_locked (h : field d 0 1 = 1) : keptLocked (statusKept d l) = true := by
  simpa [keptLocked, statusKept] using h

theorem statusKept_etx (d : Line) (l : LinkMonitor) : (statusKept d l).etx = effective l (field d 1 1) := by
  simp only [statusKept]

theorem statusKept_erx (d : Line) (l : LinkMonitor) : (statusKept d l).erx = effective l (field d 2 1) := by
  simp only [statusKept]

theorem bothPresent_iff : bothPresent l = true ↔ l.etx ≠ none ∧ l.erx ≠ none := by
  simp [bothPresent, Option.isSome_iff_ne_none]

theorem causeOf_profile (h : keptLocked l = true) (hn : l.etx = none ∨ l.erx = none) :
    causeOf l = some .profile := by
  have hb : bothPresent l = false := by
    rw [Bool.eq_false_iff, ne_eq, bothPresent_iff]
    tauto
  simp [causeOf, h, hb]

/-- A status write with a cause of DOWN leaves the link there (R5). -/
theorem statusCases_state {before : LinkMonitor} {c : DownCause} (hc : causeOf w.l = some c) :
    (statusCases now before w).l.state = .down c := by
  cases hd : isDown w.l.state with
  | true => rw [statusCases_recause hc hd, LinkWork.setCause_l]
  | false => rw [statusCases_fall hc hd, LinkWork.down_l]

/-- A status write without one does not (R5). -/
theorem statusCases_up {before : LinkMonitor} (hc : causeOf w.l = none) :
    isDown (statusCases now before w).l.state = false := by
  rcases linkState_cases w.l.state with hs | hs | hs
  · rw [statusCases_restore hc hs]
    by_cases h0 : w.l.restoreHold = 0
    · rw [LinkWork.restoring_l_atOnce w now h0]; simp
    · rw [LinkWork.restoring_l_held w now h0]; rfl
  · rw [statusCases_hold hc hs, hs]; rfl
  · obtain ⟨hst, -⟩ := fields_of_unplanned (w.compareChanged_unplanned now before.etx)
    rw [statusCases_plan hc hs, LinkWork.place_l, hst, hs]
    simp

/-- What a status write keeps and derives, whatever it does to the link (R3, R6, R16). -/
theorem statusEvent_fields (now : Nat) (d : Line) (l : LinkMonitor) {m : LinkMonitor}
    (hm : m = (statusEvent now d l).l) :
    (m.kept = some ⟨field d 0 1, field d 1 1, field d 2 1⟩ ∧ m.etx = effective l (field d 1 1) ∧
      m.erx = effective l (field d 2 1)) ∧
    (m.statusTimer = some (now + ms l.statusTimeout) ∧ m.statusTaken = satInc l.statusTaken ∧
      m.statusIgnored = l.statusIgnored) ∧ m.profiles = l.profiles ∧ m.floor = l.floor := by
  obtain ⟨⟨hp, hk, hx, hy⟩, ⟨hf, ht, -⟩, hst, hsi⟩ :=
    fields_of_fixed (statusCases_fixed (now := now) (before := l) (w := ⟨statusKept d l, []⟩))
  rw [statusEvent_eq] at hm
  subst hm
  exact ⟨⟨hk, hx, hy⟩, ⟨by simp only [LinkWork.upd_l, ht]; rfl, hst, hsi⟩, hp, hf⟩

/-- The link's state after a status write is that of the table of R5, with the timer left out. -/
theorem statusEvent_l (now : Nat) (d : Line) (l : LinkMonitor) : (statusEvent now d l).l =
    { (statusCases now l ⟨statusKept d l, []⟩).l with
      statusTimer := some (now + ms (statusCases now l ⟨statusKept d l, []⟩).l.statusTimeout) } := by
  rw [statusEvent_eq]; rfl

/-- The cases of R5 with no cause of DOWN. -/
theorem statusEvent_moves {m : LinkMonitor} (hm : m = (statusEvent now d l).l)
    (hc : causeOf (statusKept d l) = none) :
    (isDown l.state = true → RestoreBegun now l m) ∧
    (l.state = .restoring → m.state = .restoring ∧ m.restoreTimer = l.restoreTimer) ∧
    (carriesTraffic l.state = true → FloorPlaced m ∧
      (m.etx = l.etx → m.planned = l.planned ∧ m.upshiftTimer = l.upshiftTimer) ∧
      ∀ e p, m.etx = some e → l.planned = some p → m.etx ≠ l.etx → PlanCompared now e p l m) := by
  obtain ⟨⟨-, hx, -⟩, -⟩ := statusEvent_fields now d l hm
  rw [statusEvent_l] at hm
  refine ⟨fun hd => ?_, fun hs => ?_, fun hs => ?_⟩
  · rw [statusCases_restore (w := ⟨statusKept d l, []⟩) hc hd] at hm
    have := restoring_begun now ⟨statusKept d l, []⟩
    rw [hm]
    exact this
  · rw [statusCases_hold (w := ⟨statusKept d l, []⟩) hc hs] at hm
    rw [hm]
    exact ⟨hs, rfl⟩
  · rw [statusCases_plan (w := ⟨statusKept d l, []⟩) hc hs] at hm
    set v := (⟨statusKept d l, []⟩ : LinkWork).compareChanged now l.etx with hv
    obtain ⟨hst, -⟩ := fields_of_unplanned ((⟨statusKept d l, []⟩ : LinkWork).compareChanged_unplanned now l.etx)
    have hvs : carriesTraffic v.l.state = true := by rw [hv, hst]; exact hs
    have hve : (statusKept d l).etx = m.etx := (statusKept_etx d l).trans hx.symm
    refine ⟨?_, fun he => ?_, fun e p he hp hne => ?_⟩
    · have := place_floorPlaced hvs
      rw [hm]
      exact this
    · rw [LinkWork.compareChanged, if_pos (he.symm.trans hve.symm)] at hv
      rw [hm, hv, LinkWork.place_l]
      exact ⟨rfl, rfl⟩
    · rw [LinkWork.compareChanged, if_neg fun h => hne (hve.symm.trans h.symm)] at hv
      have := (compare_planCompared (now := now) (w := ⟨statusKept d l, []⟩) (hve.trans he) hp).place
      rw [← hv] at this
      rw [hm]
      exact this

/-- A status write that takes the link into DOWN ends its plan (R4, R16). -/
theorem statusEvent_downEntered (hl : isDown l.state = false) (hd : isDown (statusEvent now d l).l.state = true) :
    DownEntered l (statusEvent now d l).l := by
  rw [statusEvent_l] at hd ⊢
  cases hc : causeOf (statusKept d l) with
  | none =>
    have := statusCases_up (now := now) (before := l) (w := ⟨statusKept d l, []⟩) hc
    rw [this] at hd
    simp at hd
  | some c =>
    rw [statusCases_fall (w := ⟨statusKept d l, []⟩) hc hl, LinkWork.down_l]
    exact ⟨rfl, rfl, rfl, rfl⟩

/-- What is sighted as a status write covers the whole line (R2). -/
theorem status_sight {p : Port} {w : Window} {line : Nat} {m : BitVec 64} {d : Line}
    (h : sightWrite p w line m d = .status) : maskFull m = true := by
  unfold sightWrite at h
  repeat' split at h
  all_goals simp_all

/-- The row of a status write: the link event, and the write goes on. -/
theorem statusWrite_row {id i : Nat} {r : LineRequest} {w : Window} (h : ModemNext s id r .status i w) :
    exec .statusWrite s = .next (setReq id (.port .modem r (some (i, w)) none) .forwarded
      (linkTaken (statusEvent s.now (seen r)) false s)) := by
  obtain ⟨hn, hx, hw⟩ := h
  obtain ⟨i', w', hw', -, hs⟩ := sight_accepted hx (by simp)
  have hm := maskFull_not_empty (status_sight hs)
  show Host.Outcome.next (classifyWhen _ .modem s) = _
  rw [observed_row hn hx hw rfl (by simp), accept_full hm]
  rfl

/-- Settles O28: the link event's effect on the monitor by the table of R5, and what it hands on. -/
theorem statusWriteMovesLink : Obligations.StatusWriteMovesLink := by
  unfold Obligations.StatusWriteMovesLink
  intro s id r i w h
  obtain ⟨m, hm⟩ : ∃ m, m = (statusEvent s.now (seen r) s.link).l := ⟨_, rfl⟩
  obtain ⟨⟨hk, hx, hy⟩, ⟨ht, hst, hsi⟩, hp, hf⟩ := statusEvent_fields s.now (seen r) s.link hm
  have hshow := statusEvent_shows s.now (seen r) s.link
  obtain ⟨n, -, -, hrep⟩ := linkTaken_reporting (event := statusEvent s.now (seen r)) (again := false) (s := s)
  have hfol := hrep.follows_setReq (job := .port .modem r (some (i, w)) none) (st := .forwarded) h.1
  set t := setReq id (.port .modem r (some (i, w)) none) .forwarded (linkTaken (statusEvent s.now (seen r)) false s)
    with htdef
  have hlink : t.link = m := hfol.link.trans (linkTaken_link.trans hm.symm)
  refine ⟨t, statusWrite_row h, ?_, ?_⟩
  · exact onlyChanges_iff.mpr (by simp [htdef])
  rw [hlink]
  refine ⟨hk, hx, hy, ht, hst, hsi, hp, hf, fun hc => ?_, fun hc hn => ?_, fun hc hxn hyn => ?_, fun hl hd => ?_,
    fun hd => ?_, ?_, hfol.linkReported (linkTaken_reported hshow)⟩
  · rw [hm, statusEvent_l]
    exact statusCases_state (w := ⟨statusKept (seen r) s.link, []⟩) (statusKept_causeOf_carrier hc)
  · have hcause : causeOf (statusKept (seen r) s.link) = some .profile := by
      rw [hx, hy, ← statusKept_etx, ← statusKept_erx] at hn
      exact causeOf_profile (statusKept_locked hc) hn
    rw [hm, statusEvent_l]
    exact statusCases_state (w := ⟨statusKept (seen r) s.link, []⟩) hcause
  · have hb : bothPresent (statusKept (seen r) s.link) = true := by
      rw [hx, ← statusKept_etx] at hxn
      rw [hy, ← statusKept_erx] at hyn
      exact bothPresent_iff.mpr ⟨hxn, hyn⟩
    exact statusEvent_moves hm (causeOf_none.mpr ⟨statusKept_locked hc, hb⟩)
  · rw [hm] at hd
    exact hfol.wentDown (linkTaken_wentDown hshow hl hd (statusEvent_downEntered hl hd))
  · rw [hm] at hd
    exact hfol.notTold (linkTaken_spares hshow hd)
  · rw [hfol.time, linkTaken_time_eq]
    simp only [Bool.or_false, linkEpochEvent_iff, ← hm]

end StatusWrite
end Sys2Proof.Machine

namespace Sys2Proof.Machine

/-! ### The end of a record's event (R153, R154) -/

section RecordEnd

variable {s x : State} {id n : Nat} {r : LineRequest}

/-- The state that a record's row leaves: its outcome counted, its result requested, and its write gone on. -/
def recordEnd (s : State) (id : Nat) (r : LineRequest) (o : RecordOutcome) (x : State) : State :=
  setReq id (.port .site r (windowAt s (reqLine r)) none) .forwarded
    (recordResult (timeNow s) (reqLine r) (seen r) o (countOutcome o x))

theorem countOutcome_reporting (o : RecordOutcome) (x : State) : Reporting x (countOutcome o x) 0 :=
  .of_same rfl rfl rfl rfl

theorem recordResult_reporting (h : Reporting s x n) (o : RecordOutcome) :
    Reporting s (recordResult (timeNow s) (reqLine r) (seen r) o (countOutcome o x)) (n + 1) :=
  .report _ _ _ (h.trans (countOutcome_reporting o x))

/-- The result of a record follows the other reports of its event. -/
theorem recordEnd_result (h : Reporting s x n) (hn : Next s .site id r) (o : RecordOutcome) :
    ReportsTaken s (recordEnd s id r o x) (n + 1) ∧
      (pathLaw s → ∀ g, s.rep.ring = some g → g.releasing = false → unread g + n < g.size - 1 →
        ReportAt s (recordEnd s id r o x) g n (timeNow s) 0x01 (resultBody r (outcomeCode o))) := by
  have hr := recordResult_reporting (r := r) h o
  refine ⟨hr.taken.silent rfl, fun hp g hg hrel hu => (hr.follows_setReq hn).reports hp _ _ _ _ _ ?_⟩
  exact (h.trans (countOutcome_reporting o x)).made hg hrel hu _ _ _

/-- The end of a record's event leaves the blocks and the reports as its application has left them. -/
theorem recordEnd_follows (h : Reporting s x n) (hn : Next s .site id r) (o : RecordOutcome) :
    Follows s x (recordEnd s id r o x) := by
  have hr := recordResult_reporting (r := r) h o
  refine Follows.trans ⟨?_, ?_, ?_, ?_, ?_, fun _ g k time code body hk => ?_⟩ (hr.follows_setReq hn)
  all_goals try simp
  exact ((countOutcome_reporting o x).report (timeNow s) 0x01 _).keeps hk

/-- An applied record counts, and its result comes last. -/
theorem recordEnd_done {m : Nat} (h : Reporting s x n) (hn : Next s .site id r) (hm : n ≤ m) (hd : x.dec = s.dec) :
    RecordDone s (recordEnd s id r .applied x) m r := by
  refine ⟨?_, n, hm, recordEnd_result h hn .applied⟩
  simp [RecordApplied, recordEnd, countOutcome, hd]

/-- The end of a record's event adds the decoder to what its application has changed. -/
theorem recordEnd_changes {l : List Block} (h : OnlyChanges l s x) (hp : .path ∈ l) (hr : .rep ∈ l)
    (o : RecordOutcome) : OnlyChanges (l ++ [.dec]) s (recordEnd s id r o x) := by
  have he : OnlyChanges [.path, .rep, .dec] x (recordEnd s id r o x) := onlyChanges_iff.mpr (by simp [recordEnd])
  intro b hb
  rw [List.mem_append, not_or] at hb
  obtain ⟨hbl, hbd⟩ := hb
  have hs := h b hbl
  have ht := he b fun hm => by
    simp only [List.mem_cons, List.not_mem_nil, or_false] at hm
    rcases hm with rfl | rfl | rfl
    · exact hbl hp
    · exact hbl hr
    · exact hbd (by simp)
  revert hs ht
  cases b <;> exact fun hs ht => Eq.trans ht hs

/-- A refused record has its count and its result, and changes nothing else. -/
theorem recordEnd_refused {c : Instr} (o : RecordOutcome) (hn : Next s .site id r)
    (hc : exec c s = .next (recordEnd s id r o s)) : RecordRefused c s r (outcomeCode o) (countOutcome o s).dec := by
  obtain ⟨ht, hmade⟩ := recordEnd_result .start hn o
  refine ⟨_, hc, by simp [recordEnd], ht.1, fun hp g hg hr hu => ?_, fun hall => ?_, ?_⟩
  · exact ⟨hmade hp g hg hr hu, ((ht.2.1 g hg hr).1 hu).2⟩
  · have := reportAt_drops (time := timeNow s) (code := 0x01) (body := resultBody r (outcomeCode o))
      (s := countOutcome o s) hall
    have hrep : (recordEnd s id r o s).rep = (reportAt (timeNow s) 0x01 (resultBody r (outcomeCode o))
      (countOutcome o s)).rep := rfl
    rw [hrep, this]
    rfl
  · exact onlyChanges_iff.mpr (by simp [recordEnd])

end RecordEnd

/-! ### The PROFILE record (R13, R14) -/

section ProfileRecord

variable {s : State} {now : Nat} {l : LinkMonitor} {d : Line}

theorem breaksOrder_iff {i c : Nat} : breaksOrder l i c = true ↔ ∃ j ≤ 11, (profileAt l j).valid = true ∧
    (j < i ∧ c ≤ (profileAt l j).capacity ∨ i < j ∧ (profileAt l j).capacity ≤ c) := by
  simp [breaksOrder, Nat.lt_succ_iff]

theorem profileCheck_range (h : 11 < field d 4 1 ∨ (flagField d 5 = true ∧ (field d 8 4 = 0 ∨ 2000000 < field d 8 4 ∨
    1000000 < field d 12 4 ∨ 1000000 < field d 16 4))) : profileCheck l d = .range := by
  unfold profileCheck
  rcases h with h | ⟨hf, h⟩
  · simp [h]
  · simp [profileOf, hf, h]

/-- Within the ranges of R13 only the ordering can refuse a record. -/
theorem profileCheck_inRange (hi : field d 4 1 ≤ 11) (hv : (profileOf d).valid = true → 1 ≤ (profileOf d).capacity ∧
    (profileOf d).capacity ≤ 2000000 ∧ (profileOf d).txLatency ≤ 1000000 ∧ (profileOf d).rxLatency ≤ 1000000) :
    profileCheck l d = if (profileOf d).valid = true ∧ breaksOrder l (field d 4 1) (profileOf d).capacity = true
      then .order else .applied := by
  unfold profileCheck
  rw [if_neg (by omega)]
  cases hval : (profileOf d).valid with
  | false => simp
  | true =>
    obtain ⟨h1, h2, h3, h4⟩ := hv hval
    rw [if_neg (by simp), if_neg (by omega)]
    simp

theorem profileAt_withProfile {i j : Nat} {e : ProfileEntry} (hi : i ≤ 11) :
    profileAt (withProfile i e l) j = if j = i then e else profileAt l j := by
  by_cases h : j = i
  · subst h
    simp [withProfile, profileAt, Nat.lt_succ_iff.mpr hi]
  · simp [withProfile, profileAt, h, Ne.symm h]

/-! The plan that a PROFILE record leaves where it has made the plan `p` invalid and `q` takes its place (R14). -/

section Replanning

variable {w : LinkWork} {e p q : Nat} (he : w.l.etx = some e) (hp : w.l.planned = some p)
  (hv : (profileAt w.l p).valid = false) (hq : replacement w.l p = some q)

include he hq in
theorem replaced_fields : (w.replaced p).l.etx = some e ∧ (w.replaced p).l.planned = some q ∧
    (w.replaced p).l.upshiftTimer = w.l.upshiftTimer := by
  rw [LinkWork.replaced_l]
  exact ⟨he, hq, rfl⟩

include he hp hv hq

theorem replan_invalid : w.replan now =
    if e = q then (w.replaced p).upd fun l => { l with upshiftTimer := none }
    else if q < e ∧ w.l.upshiftTimer = none then (w.replaced p).startUpshift now else w.replaced p := by
  rw [LinkWork.replan_eq]
  simp only [hp, he, hq, hv]
  simp

/-- E_tx equals the new plan: the hold stops. -/
theorem replan_meets (old : Option Nat) (h : e = q) : ((w.replan now).compareChanged now old).l =
    { (w.replaced p).l with upshiftTimer := none } := by
  obtain ⟨hre, hrp, -⟩ := replaced_fields he hq
  rw [replan_invalid he hp hv hq, if_pos h]
  subst h
  unfold LinkWork.compareChanged
  split
  · rfl
  · exact LinkWork.compare_l_at ((w.replaced p).upd _) now hre hrp

/-- E_tx stands above the new plan and a hold runs: it keeps running. -/
theorem replan_runs {dl : Nat} (h : q < e) (hd : w.l.upshiftTimer = some dl) :
    ((w.replan now).compareChanged now (some e)).l = (w.replaced p).l := by
  obtain ⟨hre, -⟩ := replaced_fields he hq
  rw [replan_invalid he hp hv hq, if_neg (Nat.ne_of_gt h), if_neg (by simp [hd]), LinkWork.compareChanged, if_pos hre.symm]

/-- E_tx stands above the new plan and has changed, or no hold runs: the hold starts. -/
theorem replan_restarts (old : Option Nat) (h : q < e) (hd : old ≠ some e ∨ w.l.upshiftTimer = none) :
    ((w.replan now).compareChanged now old).l = ((w.replaced p).startUpshift now).l := by
  obtain ⟨hre, hrp, hrt⟩ := replaced_fields he hq
  rw [replan_invalid he hp hv hq, if_neg (Nat.ne_of_gt h)]
  by_cases ht : w.l.upshiftTimer = none
  · rw [if_pos ⟨h, ht⟩]
    unfold LinkWork.compareChanged
    split
    · rfl
    · by_cases h0 : (w.replaced p).l.upshiftHold = 0
      · have hl := LinkWork.startUpshift_l_atOnce (w.replaced p) now h0
        rw [LinkWork.compare_l_at _ now (e := e) (by rw [hl]; exact hre) (by rw [hl]; exact hre), hl]
      · have hl := LinkWork.startUpshift_l_held (w.replaced p) now h0
        rw [LinkWork.compare_l_above _ now (e := e) (p := q) (by rw [hl]; exact hre) (by rw [hl]; exact hrp) h,
          LinkWork.startUpshift_l_held _ now (by rw [hl]; exact h0), hl]
  · rw [if_neg (by simp [ht]), LinkWork.compareChanged, if_neg (by rw [hre]; exact hd.resolve_right ht),
      LinkWork.compare_l_above _ now hre hrp h]

end Replanning

/-- What R14 makes of a plan that a PROFILE record has made invalid. -/
theorem profilePlan_replanned {w : LinkWork} {e p q : Nat} (he : w.l.etx = some e) (hp : w.l.planned = some p)
    (hv : (profileAt w.l p).valid = false) (old : Option Nat) :
    Replaces w.l p q → q ≤ e →
      ∀ m, m = ((w.replan now).compareChanged now old).l → m.downshifts = satInc w.l.downshifts ∧
      (e = q → m.planned = some q ∧ m.upshiftTimer = none ∧ m.upshifts = w.l.upshifts) ∧
      (∀ dl, q < e → old = some e → w.l.upshiftTimer = some dl →
        m.planned = some q ∧ m.upshiftTimer = some dl ∧ m.upshifts = w.l.upshifts) ∧
      (q < e → old ≠ some e ∨ w.l.upshiftTimer = none →
        (w.l.upshiftHold ≠ 0 → m.planned = some q ∧ m.upshiftTimer = some (now + ms w.l.upshiftHold) ∧
          m.upshifts = w.l.upshifts) ∧
        (w.l.upshiftHold = 0 → m.planned = some e ∧ m.upshiftTimer = none ∧ m.upshifts = satInc w.l.upshifts)) := by
  intro hrep hqe m hm
  obtain ⟨q', hq⟩ := replacement_exists (p := p) hrep.1
  obtain rfl := hrep.unique (replacement_some hq)
  have hr := LinkWork.replaced_l w p
  rw [hq] at hr
  rcases Nat.lt_or_eq_of_le hqe with h | h
  · by_cases hd : old ≠ some e ∨ w.l.upshiftTimer = none
    · rw [replan_restarts he hp hv hq old h hd] at hm
      by_cases h0 : w.l.upshiftHold = 0
      · rw [LinkWork.startUpshift_l_atOnce _ now (by rw [hr]; exact h0), hr] at hm
        subst hm
        exact ⟨rfl, fun hc => absurd hc (Nat.ne_of_gt h), fun dl _ hx ht => by simp [hx, ht] at hd,
          fun _ _ => ⟨fun hc => absurd h0 hc, fun _ => ⟨he, rfl, rfl⟩⟩⟩
      · rw [LinkWork.startUpshift_l_held _ now (by rw [hr]; exact h0), hr] at hm
        subst hm
        exact ⟨rfl, fun hc => absurd hc (Nat.ne_of_gt h), fun dl _ hx ht => by simp [hx, ht] at hd,
          fun _ _ => ⟨fun _ => ⟨rfl, rfl, rfl⟩, fun hc => absurd hc h0⟩⟩
    · obtain ⟨hx, ht⟩ := not_or.mp hd
      obtain ⟨dl, ht⟩ := Option.ne_none_iff_exists'.mp ht
      rw [not_not.mp hx, replan_runs he hp hv hq h ht, hr] at hm
      subst hm
      exact ⟨rfl, fun hc => absurd hc (Nat.ne_of_gt h), fun dl _ _ ht => ⟨rfl, ht, rfl⟩, fun _ hc => absurd hc hd⟩
  · subst h
    rw [replan_meets he hp hv hq old rfl, hr] at hm
    subst hm
    exact ⟨rfl, fun _ => ⟨rfl, rfl, rfl⟩, fun _ hc => absurd hc (Nat.lt_irrefl _), fun hc => absurd hc (Nat.lt_irrefl _)⟩

/-- What a PROFILE record changes in the monitor, whatever it does to the link (R13, R14). -/
theorem profileEvent_fields (now : Nat) (d : Line) (l : LinkMonitor) {m : LinkMonitor}
    (hm : m = (profileEvent now d l).l) :
    m.profiles = (withProfile (field d 4 1) (profileOf d) l).profiles ∧ m.kept = l.kept ∧
    (m.etx = (profileKept d l).etx ∧ m.erx = (profileKept d l).erx) ∧ m.floor = l.floor ∧
    m.statusTimer = l.statusTimer := by
  obtain ⟨⟨hp, hk, hx, hy⟩, ⟨hf, -, ht⟩, -⟩ :=
    fields_of_fixed (profileCases_fixed (now := now) (before := l) (w := ⟨profileKept d l, []⟩))
  rw [profileEvent_eq] at hm
  subst hm
  exact ⟨hp, hk, ⟨hx, hy⟩, hf, ht⟩

/-- The effective profiles are derived again, in the new table (R3, R14). -/
theorem profileEvent_derives {m : LinkMonitor} (hm : m = (profileEvent now d l).l) :
    m.etx = (match l.kept with | some k => effective m k.txIndex | none => none) ∧
    m.erx = (match l.kept with | some k => effective m k.rxIndex | none => none) := by
  obtain ⟨hp, -, ⟨hx, hy⟩, -⟩ := profileEvent_fields now d l hm
  rw [hx, hy]
  cases hk : l.kept with
  | none => simp [profileKept, hk]
  | some k =>
    simp only [profileKept, hk, Option.bind_some]
    exact ⟨(effective_congr hp _).symm, (effective_congr hp _).symm⟩

theorem bothPresent_congr {m : LinkMonitor} (hx : m.etx = l.etx) (hy : m.erx = l.erx) :
    bothPresent m = bothPresent l := by simp [bothPresent, hx, hy]

/-- The cases of R14 outside UP and DEGRADED. -/
theorem profileEvent_moves {m : LinkMonitor} (hm : m = (profileEvent now d l).l) :
    (isDown l.state = true → l.state = .down .profile → keptLocked l = true → bothPresent m = true →
      RestoreBegun now l m) ∧
    (isDown l.state = true → l.state ≠ .down .profile ∨ keptLocked l = false ∨ bothPresent m = false →
      m.state = l.state ∧ m.planned = l.planned ∧ m.restoreTimer = l.restoreTimer) ∧
    (isDown l.state = false → bothPresent m = false → m.state = .down .profile ∧ DownEntered l m) ∧
    (isDown l.state = false → bothPresent m = true → isDown m.state = false) ∧
    (l.state = .restoring → bothPresent m = true → m.state = .restoring ∧ m.restoreTimer = l.restoreTimer) := by
  obtain ⟨-, -, ⟨hx, hy⟩, -⟩ := profileEvent_fields now d l hm
  have hb := bothPresent_congr hx hy
  rw [profileEvent_eq] at hm
  have hold : l.state = .restoring → bothPresent m = true → m = profileKept d l := fun hs h => by
    rw [hm, profileCases_hold (w := ⟨profileKept d l, []⟩) hs (hb ▸ h)]
  refine ⟨fun _ hs hk h => ?_, fun hd h => ?_, fun hd h => ?_, fun hd h => ?_, fun hs h => ?_⟩
  · rw [profileCases_restore (w := ⟨profileKept d l, []⟩) hs hk (hb ▸ h)] at hm
    have := restoring_begun now ⟨profileKept d l, []⟩
    rw [hm]
    exact this
  · rw [profileCases_stay (w := ⟨profileKept d l, []⟩) hd (by rw [hb] at h; exact h)] at hm
    rw [hm]
    exact ⟨rfl, rfl, rfl⟩
  · rw [profileCases_fall (w := ⟨profileKept d l, []⟩) hd (hb ▸ h), LinkWork.down_l] at hm
    rw [hm]
    exact ⟨rfl, rfl, rfl, rfl, rfl⟩
  · rcases linkState_cases l.state with hs | hs | hs
    · simp [hs] at hd
    · rw [hold hs h]
      exact hd
    · obtain ⟨h1, -⟩ := fields_of_unplanned ((⟨profileKept d l, []⟩ : LinkWork).replan_unplanned now)
      obtain ⟨h2, -⟩ := fields_of_unplanned
        (((⟨profileKept d l, []⟩ : LinkWork).replan now).compareChanged_unplanned now l.etx)
      rw [profileCases_plan (w := ⟨profileKept d l, []⟩) hs (hb ▸ h), LinkWork.place_l, h2, h1] at hm
      rw [hm]
      have hs' : carriesTraffic (profileKept d l).state = true := hs
      simp [hs']
  · rw [hold hs h]
    exact ⟨hs, rfl⟩

/-- The plan in UP and DEGRADED (R8, R10, R14). -/
theorem profileEvent_plan {m : LinkMonitor} (hm : m = (profileEvent now d l).l) {p : Nat}
    (hs : carriesTraffic l.state = true) (hb : bothPresent m = true) (hp : l.planned = some p) :
    FloorPlaced m ∧
    ((profileAt m p).valid = true → m.etx = l.etx → m.planned = some p ∧ m.upshiftTimer = l.upshiftTimer ∧
      m.downshifts = l.downshifts) ∧
    ∀ x, m.etx = some x →
      ((profileAt m p).valid = true → m.etx ≠ l.etx → PlanCompared now x p l m) ∧
      ((profileAt m p).valid = false → ∀ q, Replanned now x p q l m) := by
  obtain ⟨hprof, -, ⟨hx, hy⟩, -⟩ := profileEvent_fields now d l hm
  rw [bothPresent_congr hx hy] at hb
  rw [profileEvent_eq, profileCases_plan (w := ⟨profileKept d l, []⟩) hs hb] at hm
  set w : LinkWork := ⟨profileKept d l, []⟩ with hw
  set v := (w.replan now).compareChanged now l.etx with hv
  obtain ⟨h1, -⟩ := fields_of_unplanned (w.replan_unplanned now)
  obtain ⟨h2, -⟩ := fields_of_unplanned ((w.replan now).compareChanged_unplanned now l.etx)
  have hvs : carriesTraffic v.l.state = true := by rw [hv, h2, h1]; exact hs
  have hwm : w.l.profiles = m.profiles := hprof.symm
  have hvalid : (profileAt w.l p).valid = (profileAt m p).valid := by rw [profileAt_congr hwm]
  have hsame : (profileAt m p).valid = true → w.replan now = w := fun h => by
    rw [LinkWork.replan_eq]
    simp only [show w.l.planned = some p from hp, hvalid, h]
    simp
  refine ⟨hm ▸ place_floorPlaced hvs, fun h he => ?_, fun x he => ⟨fun h hne => ?_, fun h q hrep hqe => ?_⟩⟩
  · rw [hsame h, LinkWork.compareChanged, if_pos (he.symm.trans hx)] at hv
    rw [hm, hv, LinkWork.place_l]
    exact ⟨hp, rfl, rfl⟩
  · rw [hsame h, LinkWork.compareChanged, if_neg fun hc => hne (hx.trans hc.symm)] at hv
    have := (compare_planCompared (now := now) (w := w) (hx.symm.trans he) hp).place
    rw [← hv] at this
    rw [hm]
    exact this
  · have hrw : Replaces w.l p q := by
      simpa only [Replaces, profileAt_congr hwm] using hrep
    obtain ⟨r1, r2, r3, r4⟩ := profilePlan_replanned (now := now) (w := w) (hx.symm.trans he) hp (hvalid.trans h)
      l.etx hrw hqe v.l rfl
    have hml : m = { v.l with state := m.state } := by rw [hm, LinkWork.place_l]
    rw [he]
    rw [hml]
    exact ⟨r1, r2, fun dl h3 h4 h5 => r3 dl h3 h4.symm h5, fun h3 h4 => r4 h3 (h4.imp_left Ne.symm)⟩

end ProfileRecord
end Sys2Proof.Machine

namespace Sys2Proof.Machine

/-! ### The PROFILE and LINK records, row by row (R13 to R15, R154) -/

section LinkRecords

variable {s : State} {id i : Nat} {r : LineRequest}

/-- A record's row where its checks pass: its application, and the end of its event. -/
theorem record_applies {k a : Nat} {sort : Sighting → Bool} {x : State} (h : RecordNext s id r k a)
    (hs : sort (.record k a) = true) (hk : k ≠ 0x10)
    (he : field (seen r) 4 1 = a → examineKind k (seen r) s = (.applied, x)) :
    classifyWhen sort .site s = recordEnd s id r .applied x := record_applied x h hs hk he

/-- A record's row where its checks refuse it. -/
theorem record_refuses {k a : Nat} {sort : Sighting → Bool} {c : Instr} {o : RecordOutcome} (h : RecordNext s id r k a)
    (hc : exec c s = .next (classifyWhen sort .site s)) (hs : sort (.record k a) = true) (ho : o ≠ .applied)
    (he : field (seen r) 4 1 = a → examineKind k (seen r) s = (o, s)) :
    RecordRefused c s r (outcomeCode o) (countOutcome o s).dec :=
  recordEnd_refused o h.1 (by rw [hc, record_refused o h hs ho he]; rfl)

/-- The action code of a record stands in its byte 4. -/
theorem RecordNext.action {k a : Nat} (h : RecordNext s id r k a) : field (seen r) 4 1 = a := by
  obtain ⟨-, hx⟩ := h
  obtain ⟨i, w, -, -, hs⟩ := sight_accepted hx (by simp)
  exact (record_sight hs).2.2.2

theorem profileRecord_applies (h : RecordNext s id r 0x02 i) (hc : profileCheck s.link (seen r) = .applied) :
    exec .profileRecord s = .next (recordEnd s id r .applied
      (linkTaken (profileEvent s.now (seen r)) (latencyChange s.link (seen r)) s)) := by
  show Host.Outcome.next (classifyWhen _ .site s) = _
  rw [record_applies h rfl (by decide) fun _ => by simp [examineKind, checked, hc, applyProfile] <;> rfl]

theorem profileRecord_refuses {o : RecordOutcome} (h : RecordNext s id r 0x02 i) (ho : o ≠ .applied)
    (hc : profileCheck s.link (seen r) = o) :
    RecordRefused .profileRecord s r (outcomeCode o) (countOutcome o s).dec :=
  record_refuses h rfl rfl ho fun _ => by simp [examineKind, checked, hc, ho]

theorem linkRecord_applies (h : RecordNext s id r 0x05 i) (hc : linkCheck (seen r) = .applied) :
    exec .linkRecord s = .next (recordEnd s id r .applied (linkTaken (linkEvent (seen r)) false s)) := by
  show Host.Outcome.next (classifyWhen _ .site s) = _
  rw [record_applies h rfl (by decide) fun _ => by simp [examineKind, checked, hc, applyLink] <;> rfl]

theorem linkRecord_refuses {o : RecordOutcome} (h : RecordNext s id r 0x05 i) (ho : o ≠ .applied)
    (hc : linkCheck (seen r) = o) : RecordRefused .linkRecord s r (outcomeCode o) (countOutcome o s).dec :=
  record_refuses h rfl rfl ho fun _ => by simp [examineKind, checked, hc, ho]

/-- The causes of an epoch step that R14 adds. -/
theorem latencyChange_iff {l : LinkMonitor} {d : Line} : latencyChange l d = true ↔
    (profileOf d).valid ≠ (profileAt l (field d 4 1)).valid ∨
    (profileOf d).txLatency ≠ (profileAt l (field d 4 1)).txLatency ∨
    (profileOf d).rxLatency ≠ (profileAt l (field d 4 1)).rxLatency := by
  simp only [latencyChange, Bool.or_eq_true, bne_iff_ne, or_assoc, ne_comm (a := (profileOf d).valid),
    ne_comm (a := (profileOf d).txLatency), ne_comm (a := (profileOf d).rxLatency)]

theorem linkSet_applies {l : LinkMonitor} {d : Line} : (linkEvent d l).l = { linkSet d l with
    state := if carriesTraffic l.state then floorState (linkSet d l) else l.state } := by
  rw [linkEvent_eq, LinkWork.place_l]
  rfl

theorem linkEvent_set {l : LinkMonitor} {d : Line} : (linkEvent d l).l = { l with
    floor := field d 4 1, statusTimeout := field d 6 2, restoreHold := field d 8 2, upshiftHold := field d 10 2
    state := (linkEvent d l).l.state } := by
  rw [linkSet_applies]
  rfl

theorem linkEvent_state {l : LinkMonitor} {d : Line} : (linkEvent d l).l.state =
    if carriesTraffic l.state then floorState (linkSet d l) else l.state := by rw [linkSet_applies]

/-- A LINK record's event stops at the floor: one change of state, where the link carries traffic. -/
theorem linkEvent_trail {l : LinkMonitor} {d : Line} : (linkEvent d l).trail.length ≤ 1 ∧
    (carriesTraffic l.state = false → (linkEvent d l).trail = []) := by
  rw [linkEvent_eq, LinkWork.place_trail]
  have hs : (linkSet d l).state = l.state := rfl
  refine ⟨by split <;> simp, fun hc => ?_⟩
  rw [if_neg]
  simp [hs, hc]

/-- A LINK record leaves DOWN as it is. -/
theorem linkEvent_isDown {l : LinkMonitor} {d : Line} : isDown (linkEvent d l).l.state = isDown l.state := by
  rw [linkSet_applies]
  by_cases hc : carriesTraffic l.state = true
  · simp [hc, isDown_of_carries hc]
  · simp [hc]

/-- Nor does it move into DOWN. -/
theorem linkEvent_moves {l : LinkMonitor} {d : Line} (h : (linkEvent d l).trail.any isMove = true) :
    isDown (linkEvent d l).l.state = false := by
  obtain ⟨-, hn⟩ := linkEvent_trail (l := l) (d := d)
  rw [linkEvent_isDown]
  cases hc : carriesTraffic l.state with
  | true => exact isDown_of_carries hc
  | false => simp [hn hc] at h

theorem linkEvent_epoch {l : LinkMonitor} {d : Line} : linkEpochEvent l (linkEvent d l) = false := by
  rw [Bool.eq_false_iff, ne_eq, linkEpochEvent_iff, linkEvent_isDown]
  simp [linkSet_applies, linkSet]

theorem linkEvent_reporting {d : Line} : ∃ k ≤ 3, Reporting s (linkTaken (linkEvent d) false s) k := by
  obtain ⟨h1, hn⟩ := linkEvent_trail (l := s.link) (d := d)
  cases hc : carriesTraffic s.link.state with
  | false => exact ⟨0, by omega, linkTaken_reporting_still (hn hc)⟩
  | true =>
    obtain ⟨k, -, h2, hr⟩ := linkTaken_reporting (event := linkEvent d) (again := false) (s := s)
    have := h2 (linkEvent_isDown.trans (isDown_of_carries hc))
    exact ⟨k, by omega, hr⟩

theorem linkCheck_range {d : Line} (h : 11 < field d 4 1 ∨ field d 6 2 = 0 ∨ 1000 < field d 6 2 ∨
    60000 < field d 8 2 ∨ 60000 < field d 10 2) : linkCheck d = .range := by
  rw [linkCheck, if_pos h]

theorem linkCheck_inRange {d : Line} (hi : field d 4 1 ≤ 11) (h1 : 1 ≤ field d 6 2) (h2 : field d 6 2 ≤ 1000)
    (h3 : field d 8 2 ≤ 60000) (h4 : field d 10 2 ≤ 60000) : linkCheck d = .applied := by
  rw [linkCheck, if_neg (by omega)]

theorem profileCheck_ordered {l : LinkMonitor} {d : Line} (hi : field d 4 1 ≤ 11)
    (hv : (profileOf d).valid = true → 1 ≤ (profileOf d).capacity ∧ (profileOf d).capacity ≤ 2000000 ∧
      (profileOf d).txLatency ≤ 1000000 ∧ (profileOf d).rxLatency ≤ 1000000)
    (ho : ∀ j, j ≤ 11 → (profileOf d).valid = true → (profileAt l j).valid = true →
      (j < field d 4 1 → (profileAt l j).capacity < (profileOf d).capacity) ∧
      (field d 4 1 < j → (profileOf d).capacity < (profileAt l j).capacity)) : profileCheck l d = .applied := by
  rw [profileCheck_inRange hi hv, if_neg]
  rintro ⟨hval, hb⟩
  obtain ⟨j, hj, hjv, hb⟩ := breaksOrder_iff.mp hb
  obtain ⟨hbelow, habove⟩ := ho j hj hval hjv
  rcases hb with ⟨hlt, hle⟩ | ⟨hlt, hle⟩
  · have := hbelow hlt; omega
  · have := habove hlt; omega

/-- Settles O53: both records' rows from their checks, their events' effect on the monitor, and the end of a record's
event. -/
theorem linkRecords : Obligations.LinkRecords := by
  unfold Obligations.LinkRecords
  refine ⟨fun s id r i d e h hd hi he hv => ⟨fun hord => ?_, fun j hj hev hjv hbreak => ?_⟩,
    fun s id r i d h hd hi h1 h2 h3 h4 => ?_, fun s id r i d c hd h => ?_⟩
  · subst hd
    obtain rfl : e = profileOf (seen r) := he
    obtain rfl := h.action
    have hc := profileCheck_ordered hi hv hord
    obtain ⟨m, hm⟩ : ∃ m, m = (profileEvent s.now (seen r) s.link).l := ⟨_, rfl⟩
    have hshow := profileEvent_shows s.now (seen r) s.link
    obtain ⟨n, hn, hrep⟩ := linkTaken_reporting_seven (again := latencyChange s.link (seen r)) hshow
    have hfol := recordEnd_follows hrep h.1 .applied
    have hdone := recordEnd_done hrep h.1 hn (by simp)
    have hch := recordEnd_changes (id := id) (r := r) (linkTaken_changes (s := s)
      (event := profileEvent s.now (seen r)) (again := latencyChange s.link (seen r))) (by simp) (by simp) .applied
    have hrow := profileRecord_applies h hc
    generalize recordEnd s id r .applied _ = t at hfol hdone hch hrow
    have hlink := hfol.link.trans (linkTaken_link.trans hm.symm)
    obtain ⟨hprof, hk, -, hf, ht⟩ := profileEvent_fields s.now (seen r) s.link hm
    have hat : ∀ j, profileAt m j = if j = field (seen r) 4 1 then profileOf (seen r) else profileAt s.link j :=
      fun j => (profileAt_congr hprof j).trans (profileAt_withProfile hi)
    obtain ⟨hx, hy⟩ := profileEvent_derives hm
    obtain ⟨hrestore, hstay, hfall, hup, hhold⟩ := profileEvent_moves hm
    refine ⟨t, hrow, ?_⟩
    rw [hlink]
    refine ⟨(hat _).trans (if_pos rfl), fun j hj => (hat j).trans (if_neg hj), hx, hy, hrestore, hstay,
      fun hs hb => ?_, fun hs => ?_, hhold, fun p hs hb hp => profileEvent_plan hm hs hb hp, hk, hf, ht, ?_,
      hfol.linkReported (linkTaken_reported hshow), hdone, hch⟩
    · obtain ⟨hst, hde⟩ := hfall hs hb
      rw [hm] at hst hde
      exact ⟨hm ▸ hst, hfol.wentDown (linkTaken_wentDown hshow hs (by rw [hst]; rfl) hde)⟩
    · refine hfol.notTold (linkTaken_spares hshow ?_)
      rw [← hm]
      cases hsd : isDown s.link.state with
      | true => exact .inl rfl
      | false => exact .inr (hup hsd (hs.resolve_left (by simp [hsd])))
    · rw [hfol.time, linkTaken_time_eq]
      simp only [Bool.or_eq_true, linkEpochEvent_iff, latencyChange_iff, ← hm, or_assoc]
  · subst hd
    obtain rfl : e = profileOf (seen r) := he
    obtain rfl := h.action
    have hb : breaksOrder s.link (field (seen r) 4 1) (profileOf (seen r)).capacity = true :=
      breaksOrder_iff.mpr ⟨j, hj, hjv, hbreak⟩
    refine profileRecord_refuses (o := .order) h (by simp) ?_
    rw [profileCheck_inRange hi hv, if_pos ⟨hev, hb⟩]
  · subst hd
    obtain rfl := h.action
    obtain ⟨n, hn, hrep⟩ := linkEvent_reporting (s := s) (d := seen r)
    have hfol := recordEnd_follows hrep h.1 .applied
    have hdone := recordEnd_done hrep h.1 hn (by simp)
    have hch := recordEnd_changes (id := id) (r := r) (linkTaken_changes_link (s := s)
      (event := linkEvent (seen r)) linkEvent_moves linkEvent_epoch) (by simp) (by simp) .applied
    have hrow := linkRecord_applies h (linkCheck_inRange hi h1 h2 h3 h4)
    generalize recordEnd s id r .applied _ = t at hfol hdone hch hrow
    have hlink := hfol.link.trans linkTaken_link
    refine ⟨t, hrow, ?_, fun hc => ?_, fun hc => ?_,
      hfol.linkReported (linkTaken_reported (linkEvent_shows _ _)), hdone, hch⟩
    · rw [hlink]
      exact linkEvent_set
    · rw [hlink, linkEvent_state, if_neg (by simp [hc])]
    · rw [hlink, linkEvent_state, if_pos hc, floorState_eq]
      simp only [linkSet]
      cases s.link.planned <;> rfl
  · subst hd
    rcases h with ⟨h, rfl, hr⟩ | ⟨h, rfl, hr⟩
    · obtain rfl := h.action
      exact profileRecord_refuses (o := .range) h (by simp) (profileCheck_range hr)
    · obtain rfl := h.action
      exact linkRecord_refuses (o := .range) h (by simp) (linkCheck_range hr)

end LinkRecords
end Sys2Proof.Machine

namespace Sys2Proof.Machine

/-! ### What every event of the link monitor keeps (R1, R3, R4, R7, R8, R10) -/

section LinkFits

variable {l m : LinkMonitor} {w : LinkWork} {now p e : Nat}

/-- The capacities of valid entries rise with the index (R1). -/
def ProfilesRise (l : LinkMonitor) : Prop :=
  ∀ i j, i < j → j < 12 → (profileAt l i).valid = true → (profileAt l j).valid = true →
    (profileAt l i).capacity < (profileAt l j).capacity

/-- The planned profile and E_tx are valid, and the plan stands at E_tx or below it (R8). -/
def PlanWithin (l : LinkMonitor) : Prop :=
  ∃ p e, l.planned = some p ∧ l.etx = some e ∧ (profileAt l p).valid = true ∧ (profileAt l e).valid = true ∧ p ≤ e

/-- What the link's state says of the plan and the holds (R4, R7, R8, R10). -/
structure LinkFits (l : LinkMonitor) : Prop where
  present : isDown l.state = false → bothPresent l = true
  idle : carriesTraffic l.state = false → l.planned = none ∧ l.upshiftTimer = none
  placed : carriesTraffic l.state = true → l.state = floorState l
  planned : carriesTraffic l.state = true → PlanWithin l
  held : l.state ≠ .restoring → l.restoreTimer = none

/-- The monitor's part of `profileLaw` and `linkLaw`, with the plan's capacity read as its index. -/
structure LinkOk (l : LinkMonitor) : Prop where
  rise : ProfilesRise l
  derived : derive l = l
  fits : LinkFits l

/-- E_tx is a valid profile where it is derived from the status line's (R3). -/
theorem etx_valid (h : derive l = l) (he : l.etx = some e) : (profileAt l e).valid = true := by
  rw [derive_eq] at h
  have hx : (l.kept.bind fun k => effective l k.txIndex) = some e := by
    rw [← he]
    exact congrArg LinkMonitor.etx h
  obtain ⟨k, -, hk⟩ := Option.bind_eq_some_iff.mp hx
  exact effective_valid hk

theorem etx_of_bothPresent (h : bothPresent l = true) : ∃ e, l.etx = some e :=
  Option.ne_none_iff_exists'.mp (bothPresent_iff.mp h).1

theorem bothPresent_of_unplanned (h : m.unplanned = l.unplanned) : bothPresent m = bothPresent l := by
  obtain ⟨⟨-, -, hx, hy⟩, -⟩ := fields_of_fixed (fixed_of_unplanned h)
  exact bothPresent_congr hx hy

/-- With capacities that rise, the plan's capacity is at most E_tx's exactly where its index is. -/
theorem ProfilesRise.le_iff (h : ProfilesRise l) (hp : (profileAt l p).valid = true) (he : (profileAt l e).valid = true) :
    (profileAt l p).capacity ≤ (profileAt l e).capacity ↔ p ≤ e := by
  have hp12 := lt_of_valid hp
  have he12 := lt_of_valid he
  rcases Nat.lt_trichotomy p e with hlt | rfl | hlt
  · have := h p e hlt he12 hp he
    omega
  · simp
  · have := h e p hlt hp12 he hp
    omega

/-- The laws of the profile table and of the link monitor speak of the monitor alone. -/
theorem linkOk_iff {s : State} : profileLaw s ∧ linkLaw s ↔ LinkOk s.link := by
  constructor
  · rintro ⟨hrise, hder, hpres, hidle, hbusy, hheld⟩
    refine ⟨hrise, hder, hpres, hidle, fun hc => (hbusy hc).1, fun hc => ?_, hheld⟩
    obtain ⟨-, p, hp, hv, hle⟩ := hbusy hc
    obtain ⟨e, he⟩ := etx_of_bothPresent (hpres (isDown_of_carries hc))
    have hev := etx_valid hder he
    exact ⟨p, e, hp, he, hv, hev, (ProfilesRise.le_iff hrise hv hev).mp (hle e he)⟩
  · rintro ⟨hrise, hder, hpres, hidle, hplaced, hplan, hheld⟩
    refine ⟨hrise, hder, hpres, hidle, fun hc => ⟨hplaced hc, ?_⟩, hheld⟩
    obtain ⟨p, e, hp, he, hv, hev, hle⟩ := hplan hc
    refine ⟨p, hp, hv, fun x hx => ?_⟩
    obtain rfl : e = x := Option.some.inj (he.symm.trans hx)
    exact (ProfilesRise.le_iff hrise hv hev).mpr hle

/-! A state of the link, with the plan and the holds that go with it. -/

theorem LinkFits.of_down (hd : isDown l.state = true) (hp : l.planned = none) (hu : l.upshiftTimer = none)
    (hr : l.restoreTimer = none) : LinkFits l := by
  have hc : carriesTraffic l.state = false := by
    rw [Bool.eq_false_iff]
    intro hc
    simp [isDown_of_carries hc] at hd
  refine ⟨fun h => ?_, fun _ => ⟨hp, hu⟩, fun h => ?_, fun h => ?_, fun _ => hr⟩ <;> simp_all

theorem LinkFits.of_restoring (hs : l.state = .restoring) (hb : bothPresent l = true) (hp : l.planned = none)
    (hu : l.upshiftTimer = none) : LinkFits l := by
  have hc : carriesTraffic l.state = false := by rw [hs]; rfl
  refine ⟨fun _ => hb, fun _ => ⟨hp, hu⟩, fun h => ?_, fun h => ?_, fun h => absurd hs h⟩ <;> simp_all

theorem LinkFits.of_placed (hs : l.state = floorState l) (hb : bothPresent l = true) (hp : PlanWithin l)
    (hr : l.restoreTimer = none) : LinkFits l := by
  have hc : carriesTraffic l.state = true := by rw [hs]; simp
  exact ⟨fun _ => hb, fun h => by simp [hc] at h, fun _ => hs, fun _ => hp, fun _ => hr⟩

theorem LinkFits.down (h : LinkFits l) (hd : isDown l.state = true) :
    l.planned = none ∧ l.upshiftTimer = none ∧ l.restoreTimer = none := by
  have hc : carriesTraffic l.state = false := by
    rw [Bool.eq_false_iff]
    intro hc
    simp [isDown_of_carries hc] at hd
  have hr : l.state ≠ .restoring := fun hs => by simp [hs, isDown] at hd
  obtain ⟨hp, hu⟩ := h.idle hc
  exact ⟨hp, hu, h.held hr⟩

/-! What the moves make of a monitor whose E_tx is valid. -/

/-- The plan becomes E_tx. -/
theorem planWithin_etx (hb : bothPresent l = true) (hv : ∀ e, l.etx = some e → (profileAt l e).valid = true)
    (hx : m.etx = l.etx) (hp : m.planned = l.etx) (hprof : m.profiles = l.profiles) : PlanWithin m := by
  obtain ⟨e, he⟩ := etx_of_bothPresent hb
  have hev := hv e he
  rw [← profileAt_congr hprof] at hev
  exact ⟨e, e, hp.trans he, hx.trans he, hev, hev, Nat.le_refl e⟩

theorem restoring_fits (hp : w.l.planned = none) (hu : w.l.upshiftTimer = none) (hb : bothPresent w.l = true)
    (hv : ∀ e, w.l.etx = some e → (profileAt w.l e).valid = true) : LinkFits (w.restoring now).l := by
  by_cases h0 : w.l.restoreHold = 0
  · rw [LinkWork.restoring_l_atOnce w now h0]
    exact .of_placed rfl hb (planWithin_etx hb hv rfl rfl rfl) rfl
  · rw [LinkWork.restoring_l_held w now h0]
    exact .of_restoring rfl hb hp hu

theorem down_fits (c : DownCause) : LinkFits (w.down c).l := by
  rw [LinkWork.down_l]
  exact .of_down rfl rfl rfl rfl

theorem place_fits (hc : carriesTraffic w.l.state = true) (hb : bothPresent w.l = true) (hp : PlanWithin w.l)
    (hr : w.l.restoreTimer = none) : LinkFits w.place.l := by
  rw [LinkWork.place_l, if_pos hc]
  exact .of_placed rfl hb hp hr

/-- A change of the plan leaves it within E_tx. -/
theorem planWithin_of_unplanned (h : m.unplanned = l.unplanned) (hp : m.planned = some p) (he : l.etx = some e)
    (hv : (profileAt l p).valid = true) (hev : (profileAt l e).valid = true) (hle : p ≤ e) : PlanWithin m := by
  obtain ⟨-, hx, -, -, hprof⟩ := fields_of_unplanned h
  exact ⟨p, e, hp, hx.trans he, by rwa [profileAt_congr hprof], by rwa [profileAt_congr hprof], hle⟩

/-- The comparison of a changed E_tx brings the plan within it (R8). -/
theorem compareChanged_planWithin {old : Option Nat} (he : w.l.etx = some e) (hp : w.l.planned = some p)
    (hv : (profileAt w.l p).valid = true) (hev : (profileAt w.l e).valid = true) (hle : old = some e → p ≤ e) :
    PlanWithin (w.compareChanged now old).l := by
  have hu := w.compareChanged_unplanned now old
  by_cases ho : old = w.l.etx
  · rw [LinkWork.compareChanged, if_pos ho]
    exact ⟨p, e, hp, he, hv, hev, hle (ho.trans he)⟩
  · rw [LinkWork.compareChanged, if_neg ho] at hu ⊢
    obtain ⟨hbelow, hat, habove⟩ := compare_planCompared (now := now) he hp
    rcases Nat.lt_trichotomy e p with hlt | heq | hlt
    · exact planWithin_of_unplanned hu (hbelow hlt).1 he hev hev (Nat.le_refl e)
    · exact planWithin_of_unplanned hu (hat heq).1 he hv hev (Nat.le_of_eq heq.symm)
    · obtain ⟨-, hhold, honce⟩ := habove hlt
      by_cases h0 : w.l.upshiftHold = 0
      · exact planWithin_of_unplanned hu (honce h0).1 he hev hev (Nat.le_refl e)
      · exact planWithin_of_unplanned hu (hhold h0).1 he hv hev (Nat.le_of_lt hlt)

/-- The start of an upshift hold leaves the plan, or makes E_tx the plan at once. -/
theorem startUpshift_planned (now : Nat) (w : LinkWork) :
    (w.startUpshift now).l.planned = w.l.planned ∨ (w.startUpshift now).l.planned = w.l.etx := by
  by_cases h0 : w.l.upshiftHold = 0
  · rw [LinkWork.startUpshift_l_atOnce w now h0]
    exact .inr rfl
  · rw [LinkWork.startUpshift_l_held w now h0]
    exact .inl rfl

/-- After its replacement the plan is valid, and where it was within E_tx it is so still (R14). -/
theorem replan_planned (he : w.l.etx = some e) (hev : (profileAt w.l e).valid = true) (hp : w.l.planned = some p) :
    ∃ q, (w.replan now).l.planned = some q ∧ (profileAt w.l q).valid = true ∧ (p ≤ e → q ≤ e) := by
  cases hv : (profileAt w.l p).valid with
  | true =>
    refine ⟨p, ?_, hv, id⟩
    rw [LinkWork.replan_eq]
    simp only [hp, hv, if_true]
  | false =>
    obtain ⟨q, hq⟩ := replacement_exists (p := p) hev
    have hrep := replacement_some hq
    obtain ⟨hre, hrp, -⟩ := replaced_fields he hq
    have hle : p ≤ e → q ≤ e := fun h => hrep.le hev h
    rw [replan_invalid he hp hv hq]
    split
    · exact ⟨q, hrp, hrep.1, hle⟩
    · split
      · rcases startUpshift_planned now (w.replaced p) with h | h
        · exact ⟨q, h.trans hrp, hrep.1, hle⟩
        · exact ⟨e, h.trans hre, hev, fun _ => Nat.le_refl e⟩
      · exact ⟨q, hrp, hrep.1, hle⟩

/-! The events of a status write and of a PROFILE record, on a monitor that has kept its state, plan and holds. -/

/-- The event has not begun to move the link. -/
def Unmoved (l m : LinkMonitor) : Prop :=
  m.state = l.state ∧ m.planned = l.planned ∧ m.upshiftTimer = l.upshiftTimer ∧ m.restoreTimer = l.restoreTimer

theorem LinkFits.unmoved_down (h : LinkFits l) (hm : Unmoved l m) (hd : isDown m.state = true) :
    m.planned = none ∧ m.upshiftTimer = none ∧ m.restoreTimer = none := by
  obtain ⟨hs, hp, hu, hr⟩ := hm
  rw [hp, hu, hr]
  exact h.down (hs ▸ hd)

theorem LinkFits.unmoved_restoring (h : LinkFits l) (hm : Unmoved l m) (hs : m.state = .restoring)
    (hb : bothPresent m = true) : LinkFits m := by
  obtain ⟨hms, hp, hu, -⟩ := hm
  obtain ⟨hlp, hlu⟩ := h.idle (by rw [← hms, hs]; rfl)
  exact .of_restoring hs hb (hp.trans hlp) (hu.trans hlu)

/-- The table of R5. -/
theorem statusCases_fits (h : LinkFits l) (hm : Unmoved l w.l) (hprof : w.l.profiles = l.profiles)
    (hv : ∀ e, w.l.etx = some e → (profileAt w.l e).valid = true) : LinkFits (statusCases now l w).l := by
  cases hc : causeOf w.l with
  | some c =>
    cases hd : isDown w.l.state with
    | true =>
      obtain ⟨hp, hu, hr⟩ := h.unmoved_down hm hd
      rw [statusCases_recause hc hd, LinkWork.setCause_l]
      exact .of_down rfl hp hu hr
    | false => rw [statusCases_fall hc hd]; exact down_fits c
  | none =>
    have hb := (causeOf_none.mp hc).2
    rcases linkState_cases w.l.state with hs | hs | hs
    · obtain ⟨hp, hu, -⟩ := h.unmoved_down hm hs
      rw [statusCases_restore hc hs]
      exact restoring_fits hp hu hb hv
    · rw [statusCases_hold hc hs]
      exact h.unmoved_restoring hm hs hb
    · obtain ⟨hst, hpl, -, hrt⟩ := hm
      obtain ⟨p, x, hp, hx, hpv, -, hle⟩ := h.planned (hst ▸ hs)
      obtain ⟨e, he⟩ := etx_of_bothPresent hb
      rw [← profileAt_congr hprof] at hpv
      rw [statusCases_plan hc hs]
      obtain ⟨hcs, -, hcr, -⟩ := fields_of_unplanned (w.compareChanged_unplanned now l.etx)
      refine place_fits (hcs ▸ hs) ?_ (compareChanged_planWithin he (hpl.trans hp) hpv (hv e he) fun ho => ?_) ?_
      · exact (bothPresent_of_unplanned (w.compareChanged_unplanned now l.etx)).trans hb
      · obtain rfl : x = e := Option.some.inj (hx.symm.trans ho)
        exact hle
      · rw [hcr, hrt]
        exact h.held fun hr => by rw [hst, hr] at hs; simp [carriesTraffic] at hs

/-- The cases of R14. -/
theorem profileCases_fits (h : LinkFits l) (hm : Unmoved l w.l)
    (hv : ∀ e, w.l.etx = some e → (profileAt w.l e).valid = true) : LinkFits (profileCases now l w).l := by
  rcases linkState_cases w.l.state with hs | hs | hs
  · obtain ⟨hp, hu, hr⟩ := h.unmoved_down hm hs
    by_cases hc : w.l.state = .down .profile ∧ keptLocked w.l = true ∧ bothPresent w.l = true
    · obtain ⟨hst, hk, hb⟩ := hc
      rw [profileCases_restore hst hk hb]
      exact restoring_fits hp hu hb hv
    · rw [profileCases_stay hs (by simpa only [not_and_or, Bool.not_eq_true] using hc)]
      exact .of_down hs hp hu hr
  · cases hb : bothPresent w.l with
    | false => rw [profileCases_fall (by rw [hs]; rfl) hb]; exact down_fits _
    | true => rw [profileCases_hold hs hb]; exact h.unmoved_restoring hm hs hb
  · cases hb : bothPresent w.l with
    | false => rw [profileCases_fall (isDown_of_carries hs) hb]; exact down_fits _
    | true =>
      obtain ⟨hst, hpl, -, hrt⟩ := hm
      obtain ⟨p, x, hp, hx, -, -, hle⟩ := h.planned (hst ▸ hs)
      obtain ⟨e, he⟩ := etx_of_bothPresent hb
      have hev := hv e he
      obtain ⟨q, hq, hqv, hqe⟩ := replan_planned (now := now) he hev (hpl.trans hp)
      have hru := w.replan_unplanned now
      have hcu := ((w.replan now).compareChanged_unplanned now l.etx).trans hru
      obtain ⟨-, hrx, -, -, hrp⟩ := fields_of_unplanned hru
      obtain ⟨hcs, -, hcr, -⟩ := fields_of_unplanned hcu
      rw [profileCases_plan hs hb]
      refine place_fits (hcs ▸ hs) ?_ (compareChanged_planWithin (hrx.trans he) hq (by rwa [profileAt_congr hrp])
        (by rwa [profileAt_congr hrp]) fun ho => ?_) ?_
      · exact (bothPresent_of_unplanned hcu).trans hb
      · obtain rfl : x = e := Option.some.inj (hx.symm.trans ho)
        exact hqe hle
      · rw [hcr, hrt]
        exact h.held fun hr => by rw [hst, hr] at hs; simp [carriesTraffic] at hs

/-! The moves, and what each of them keeps. -/

/-- What one step can make of the link monitor. -/
inductive LinkMove (now : Nat) (l : LinkMonitor) : LinkMonitor → Prop
  | stay : LinkMove now l l
  | reset : LinkMove now l Initial.link
  | ignored : LinkMove now l { l with statusIgnored := satInc l.statusIgnored }
  | status (d : Line) : LinkMove now l (statusEvent now d l).l
  | stale : LinkMove now l (statusTimerEvent l).l
  | restored : l.state = .restoring → LinkMove now l (restoreEvent l).l
  | upshifted : carriesTraffic l.state = true → LinkMove now l (upshiftEvent l).l
  | profile (d : Line) : profileCheck l d = .applied → LinkMove now l (profileEvent now d l).l
  | link (d : Line) : LinkMove now l (linkEvent d l).l

/-- A monitor whose table and status bytes stand is still derived from them. -/
theorem derived_congr (h : derive l = l) (hp : m.profiles = l.profiles) (hk : m.kept = l.kept) (hx : m.etx = l.etx)
    (hy : m.erx = l.erx) : derive m = m := by
  rw [derive_eq] at h ⊢
  have hxl := congrArg LinkMonitor.etx h
  have hyl := congrArg LinkMonitor.erx h
  simp only at hxl hyl
  rw [← hx, ← hk] at hxl
  rw [← hy, ← hk] at hyl
  simp only [effective_congr hp, hxl, hyl]

theorem derived_of (hx : m.etx = m.kept.bind fun k => effective m k.txIndex)
    (hy : m.erx = m.kept.bind fun k => effective m k.rxIndex) : derive m = m := by
  rw [derive_eq, ← hx, ← hy]

/-- The capacities still rise where the table stands. -/
theorem ProfilesRise.congr (h : ProfilesRise l) (hp : m.profiles = l.profiles) : ProfilesRise m := by
  intro i j
  simp only [profileAt_congr hp]
  exact h i j

/-- A move that leaves the table, the status bytes and what is derived from them. -/
theorem LinkOk.of_kept (h : LinkOk l) (hp : m.profiles = l.profiles) (hk : m.kept = l.kept) (hx : m.etx = l.etx)
    (hy : m.erx = l.erx) (hf : LinkFits m) : LinkOk m :=
  ⟨h.rise.congr hp, derived_congr h.derived hp hk hx hy, hf⟩

theorem initialLink_ok : LinkOk Initial.link := by
  refine ⟨fun i j _ _ hv => ?_, rfl, .of_down rfl rfl rfl rfl⟩
  have hi : profileAt Initial.link i = Initial.profileEntry := by
    by_cases h : i < 12 <;> simp [profileAt, Initial.link, h]
  simp [hi, Initial.profileEntry] at hv

theorem statusEvent_keeps (h : LinkOk l) (now : Nat) (d : Line) : LinkOk (statusEvent now d l).l := by
  obtain ⟨⟨hk, hx, hy⟩, -, hp, -⟩ := statusEvent_fields now d l rfl
  refine ⟨h.rise.congr hp, derived_of ?_ ?_, ?_⟩
  · rw [hx, hk, Option.bind_some, effective_congr hp]
  · rw [hy, hk, Option.bind_some, effective_congr hp]
  · have hf := statusCases_fits (now := now) (w := ⟨statusKept d l, []⟩) h.fits ⟨rfl, rfl, rfl, rfl⟩ rfl
      fun e he => effective_valid (l := l) he
    rw [statusEvent_l]
    exact ⟨hf.present, hf.idle, hf.placed, hf.planned, hf.held⟩

theorem statusTimerEvent_keeps (h : LinkOk l) : LinkOk (statusTimerEvent l).l := by
  cases hd : isDown l.state with
  | true =>
    obtain ⟨hp, hu, hr⟩ := h.fits.down hd
    rw [statusTimerEvent_l_down hd]
    exact h.of_kept rfl rfl rfl rfl (.of_down rfl hp hu hr)
  | false =>
    rw [statusTimerEvent_l_fall hd]
    exact h.of_kept rfl rfl rfl rfl (.of_down rfl rfl rfl rfl)

theorem restoreEvent_keeps (h : LinkOk l) (hs : l.state = .restoring) : LinkOk (restoreEvent l).l := by
  have hb := h.fits.present (by rw [hs]; rfl)
  rw [restoreEvent_l]
  exact h.of_kept rfl rfl rfl rfl
    (.of_placed rfl hb (planWithin_etx hb (fun _ => etx_valid h.derived) rfl rfl rfl) rfl)

theorem upshiftEvent_keeps (h : LinkOk l) (hs : carriesTraffic l.state = true) : LinkOk (upshiftEvent l).l := by
  have hb := h.fits.present (isDown_of_carries hs)
  have hr := h.fits.held fun hr => by simp [hr, carriesTraffic] at hs
  rw [upshiftEvent_l hs]
  exact h.of_kept rfl rfl rfl rfl
    (.of_placed rfl hb (planWithin_etx hb (fun _ => etx_valid h.derived) rfl rfl rfl) hr)

theorem linkEvent_keeps (h : LinkOk l) (d : Line) : LinkOk (linkEvent d l).l := by
  rw [linkSet_applies]
  obtain ⟨hpres, hidle, -, hplan, hheld⟩ := h.fits
  cases hc : carriesTraffic l.state with
  | true =>
    exact h.of_kept rfl rfl rfl rfl (.of_placed rfl (hpres (isDown_of_carries hc)) (hplan hc)
      (hheld fun hr => by simp [hr, carriesTraffic] at hc))
  | false =>
    exact h.of_kept rfl rfl rfl rfl ⟨hpres, hidle, fun hx => absurd hx (by simp [hc]),
      fun hx => absurd hx (by simp [hc]), hheld⟩

/-- An accepted PROFILE record has an index of the table and breaks no order (R13). -/
theorem profileCheck_applied {d : Line} (h : profileCheck l d = .applied) : field d 4 1 ≤ 11 ∧
    ((profileOf d).valid = true → breaksOrder l (field d 4 1) (profileOf d).capacity = false) := by
  unfold profileCheck at h
  simp only at h
  split at h
  · simp at h
  · refine ⟨by omega, fun hv => ?_⟩
    rw [if_neg (by simp [hv])] at h
    split at h
    · simp at h
    · split at h
      · simp at h
      · simp_all

/-- The table with an entry that breaks no order (R1, R13). -/
theorem ProfilesRise.withProfile {i : Nat} {x : ProfileEntry} (h : ProfilesRise l) (hi : i ≤ 11)
    (ho : x.valid = true → breaksOrder l i x.capacity = false) : ProfilesRise (withProfile i x l) := by
  have apart : ∀ j ≤ 11, x.valid = true → (profileAt l j).valid = true →
      (j < i → (profileAt l j).capacity < x.capacity) ∧ (i < j → x.capacity < (profileAt l j).capacity) := by
    intro j hj hx hv
    have hno : ¬ breaksOrder l i x.capacity = true := by simp [ho hx]
    rw [breaksOrder_iff] at hno
    constructor
    · exact fun hlt => Nat.lt_of_not_le fun hle => hno ⟨j, hj, hv, .inl ⟨hlt, hle⟩⟩
    · exact fun hlt => Nat.lt_of_not_le fun hle => hno ⟨j, hj, hv, .inr ⟨hlt, hle⟩⟩
  intro a b hab hb
  rw [profileAt_withProfile hi, profileAt_withProfile hi]
  by_cases ha : a = i
  · subst ha
    rw [if_pos rfl, if_neg (Nat.ne_of_gt hab)]
    exact fun hx hv => (apart b (by omega) hx hv).2 hab
  · rw [if_neg ha]
    by_cases hbi : b = i
    · subst hbi
      rw [if_pos rfl]
      exact fun hv hx => (apart a (by omega) hx hv).1 hab
    · rw [if_neg hbi]
      exact h a b hab hb

theorem profileEvent_keeps (h : LinkOk l) (now : Nat) {d : Line} (hc : profileCheck l d = .applied) :
    LinkOk (profileEvent now d l).l := by
  obtain ⟨hi, ho⟩ := profileCheck_applied hc
  obtain ⟨hp, hk, ⟨hx, hy⟩, -⟩ := profileEvent_fields now d l rfl
  refine ⟨(h.rise.withProfile hi ho).congr hp, derived_of ?_ ?_, ?_⟩
  · rw [hx, hk]
    simp only [effective_congr hp, profileKept]
  · rw [hy, hk]
    simp only [effective_congr hp, profileKept]
  · rw [profileEvent_eq]
    exact profileCases_fits h.fits ⟨rfl, rfl, rfl, rfl⟩ fun _ => profileKept_etx_valid

/-- Every move keeps the laws of the profile table and of the link monitor. -/
theorem LinkMove.keeps (hm : LinkMove now l m) (h : LinkOk l) : LinkOk m := by
  cases hm with
  | stay => exact h
  | reset => exact initialLink_ok
  | ignored => exact h.of_kept rfl rfl rfl rfl ⟨h.fits.present, h.fits.idle, h.fits.placed, h.fits.planned, h.fits.held⟩
  | status d => exact statusEvent_keeps h now d
  | stale => exact statusTimerEvent_keeps h
  | restored hs => exact restoreEvent_keeps h hs
  | upshifted hs => exact upshiftEvent_keeps h hs
  | profile d hc => exact profileEvent_keeps h now hc
  | link d => exact linkEvent_keeps h d

end LinkFits
end Sys2Proof.Machine

namespace Sys2Proof.Machine

/-! ### What a step can do to the link monitor -/

/-! The memory port's rows leave it. -/

section MemoryRows

variable {s : State} {f : LineFlips}

/-- An internal write's completion leaves the monitor where what follows it does. -/
theorem ownWrite_link {a : Access} {d : Line} {next : State → State} (h : ∀ t, (next t).link = t.link) :
    (ownWrite a d next s).link = s.link := by
  simp only [ownWrite]
  split <;> simp [h]

@[simp] theorem makeDescriptor_link {slot kind length sequence buffer : Nat} :
    (makeDescriptor slot kind length sequence buffer s).link = s.link := by
  simp only [makeDescriptor]
  split <;> simp

/-- A read's completion leaves the monitor where its delivery does. -/
theorem completeRead_link {p : Port} {a : Access} {o : EccObs} {deliver : Line → State → Line × State}
    (h : ∀ d t, (deliver d t).2.link = t.link) : (completeRead p a o deliver s).link = s.link := by
  simp only [completeRead]
  repeat' split
  all_goals simp [h]

theorem portReadDone_link : (portReadDone f s).link = s.link := by
  simp only [portReadDone]
  repeat' split
  all_goals simp [completeRead_link]

theorem descriptorDone_link : (descriptorDone f s).link = s.link := by
  simp only [descriptorDone]
  repeat' split
  all_goals simp [completeRead_link]

theorem portWriteDone_link : (portWriteDone s).link = s.link := by
  simp only [portWriteDone]
  repeat' split
  all_goals simp

theorem rmwReadDone_link : (rmwReadDone f s).link = s.link := by
  simp only [rmwReadDone]
  repeat' split
  all_goals simp

theorem rmwWriteDone_link : (rmwWriteDone s).link = s.link := by
  simp only [rmwWriteDone]
  repeat' split
  all_goals simp

theorem writeBackReadDone_link : (writeBackReadDone f s).link = s.link := by
  simp only [writeBackReadDone]
  repeat' split
  all_goals simp

theorem internalWriteDone_link : (internalWriteDone s).link = s.link := by
  simp only [internalWriteDone]
  repeat' split
  all_goals simp [ownWrite_link]

theorem queryFrameDone_link : (queryFrameDone s).link = s.link := by
  simp only [queryFrameDone]
  repeat' split
  all_goals simp [ownWrite_link]

theorem testLineDone_link : (testLineDone s).link = s.link := by
  simp only [testLineDone]
  repeat' split
  all_goals simp [ownWrite_link, apply_ite State.link]

theorem reportWriteDone_link : (reportWriteDone s).link = s.link := by
  simp only [reportWriteDone]
  repeat' split
  all_goals simp [ownWrite_link]

theorem snapshotWriteDone_link : (snapshotWriteDone s).link = s.link := by
  simp only [snapshotWriteDone]
  repeat' split
  all_goals simp [ownWrite_link]

theorem scrubReadDone_link : (scrubReadDone f s).link = s.link := by
  simp only [scrubReadDone]
  repeat' split
  all_goals simp

theorem scrubWriteDone_link : (scrubWriteDone s).link = s.link := by
  simp only [scrubWriteDone]
  repeat' split
  all_goals simp

theorem copyReadDone_link : (copyReadDone f s).link = s.link := by
  simp only [copyReadDone]
  repeat' split
  all_goals simp

theorem copyWriteDone_link : (copyWriteDone s).link = s.link := by
  simp only [copyWriteDone]
  repeat' split
  all_goals simp

theorem marchReadDone_link : (marchReadDone f s).link = s.link := by
  simp only [marchReadDone]
  repeat' split
  all_goals simp

theorem marchWriteDone_link : (marchWriteDone s).link = s.link := by
  simp only [marchWriteDone]
  repeat' split
  all_goals simp

end MemoryRows

/-! A port's rows move it by the request that they classify. -/

section PortRows

variable {s : State}

theorem LinkMove.of_same {now : Nat} {t : State} (h : t.link = s.link) : LinkMove now s.link t.link := by
  rw [h]
  exact .stay

theorem checked_link {o : RecordOutcome} {f : State → State} (h : (f s).link = s.link) :
    (checked o f s).2.link = s.link := by
  unfold checked
  split <;> simp [h]

theorem checked_move {now : Nat} {o : RecordOutcome} {f : State → State}
    (h : o = .applied → LinkMove now s.link (f s).link) : LinkMove now s.link (checked o f s).2.link := by
  unfold checked
  split
  · exact h ‹_›
  · exact .stay

/-- Of the records, PROFILE and LINK move the link monitor (R13, R15). -/
theorem examineKind_move (kind : Nat) (d : Line) : LinkMove s.now s.link (examineKind kind d s).2.link := by
  unfold examineKind
  split
  case h_2 =>
    refine checked_move fun hc => ?_
    rw [applyProfile, linkTaken_link]
    exact .profile d hc
  case h_5 =>
    refine checked_move fun _ => ?_
    rw [applyLink, linkTaken_link]
    exact .link d
  all_goals exact .of_same (by simp [checked_link])

theorem examineFull_move (line : Nat) (d : Line) : LinkMove s.now s.link (examineFull line d s).link := by
  have h := examineKind_move (s := s) (field d 1 1) d
  simp only [examineFull]
  split
  · simpa [passResult] using h
  · split
    · simpa using h
    · simpa using h

theorem examineRecord_move (line : Nat) (mask : BitVec 64) (d : Line) :
    LinkMove s.now s.link (examineRecord line mask d s).link := by
  simp only [examineRecord]
  split
  · exact .of_same (by simp)
  · split
    · exact .of_same (by simp)
    · exact examineFull_move line d

/-- Of the observed writes, those of the status line and the records move the link monitor. -/
theorem observe_move (x : Sighting) (w : Window) (r : LineRequest) :
    LinkMove s.now s.link (observe x w r s).2.link := by
  simp only [observe]
  split
  case h_1 =>
    rw [linkTaken_link]
    exact .status _
  case h_2 => exact .ignored
  case h_9 | h_10 | h_11 => exact examineRecord_move _ _ _
  all_goals exact .of_same (by simp)

theorem classifyRequest_move (id : Nat) (p : Port) (r : LineRequest) :
    LinkMove s.now s.link (classifyRequest id p r s).link := by
  simp only [classifyRequest]
  split
  case h_1 | h_2 | h_3 => exact .of_same (by simp)
  all_goals
    split
    · exact .of_same (by simp)
    · simpa using observe_move (s := s) _ _ r

theorem classifyWhen_move (sort : Sighting → Bool) (p : Port) :
    LinkMove s.now s.link (classifyWhen sort p s).link := by
  unfold classifyWhen
  split
  · split
    · exact classifyRequest_move _ _ _
    · exact .stay
  · exact .stay

end PortRows
end Sys2Proof.Machine

namespace Sys2Proof.Machine

/-! The reset line, the oscillator and the timers. -/

section StepMoves

variable {s : State} {now : Nat} {c : Prop} [Decidable c]

theorem LinkMove.of_ite {x : State} (h : c → LinkMove now s.link x.link) :
    LinkMove now s.link (if c then x else s).link := by
  split
  · exact h ‹_›
  · exact .stay

theorem LinkMove.of_linkTaken {event : LinkMonitor → LinkWork} {again : Bool}
    (h : LinkMove now s.link (event s.link).l) : LinkMove now s.link (linkTaken event again s).link := by
  rw [linkTaken_link]
  exact h

theorem onePeriod_link : (onePeriod s).link = s.link := by
  simp only [onePeriod]
  split <;> simp [rolledOver]

/-- An assertion of the reset line that is taken resets the link monitor (R171). -/
theorem resetLineAssert_move {t : State} (h : execResetLineAssert s = .next t) : LinkMove now s.link t.link := by
  simp only [execResetLineAssert, Host.Outcome.next.injEq] at h
  subst h
  repeat' split
  · exact .stay
  · exact .reset
  · exact .stay
  · exact .reset

theorem resetLineDeassert_link : (copyPump (takeLevels (startTimers s))).link = s.link := by
  simp [takeLevels, startTimers]

/-- What a row can make of the link monitor. -/
theorem exec_move {i : Instr} {t : State} (h : exec i s = .next t) : LinkMove s.now s.link t.link := by
  cases i <;> cases h
  case powerOn => exact .reset
  case resetLineAssert => exact resetLineAssert_move rfl
  case resetLineDeassert => exact .of_ite fun _ => .of_same resetLineDeassert_link
  case oscillatorPeriod => exact .of_same onePeriod_link
  case rollover => exact .of_ite fun _ => .of_same onePeriod_link
  case portReadComplete => exact .of_same portReadDone_link
  case portWriteComplete => exact .of_same portWriteDone_link
  case descriptorReadJudged => exact .of_same descriptorDone_link
  case rmwReadComplete => exact .of_same rmwReadDone_link
  case rmwWriteComplete => exact .of_same rmwWriteDone_link
  case internalPartialReadComplete => exact .of_same writeBackReadDone_link
  case internalWriteComplete => exact .of_same internalWriteDone_link
  case queryFrameWriteComplete => exact .of_same queryFrameDone_link
  case testFrameWriteComplete => exact .of_same testLineDone_link
  case reportEntryWriteComplete => exact .of_same reportWriteDone_link
  case snapshotLineWriteComplete => exact .of_same snapshotWriteDone_link
  case scrubReadComplete => exact .of_same scrubReadDone_link
  case scrubWritebackComplete => exact .of_same scrubWriteDone_link
  case copyReadComplete => exact .of_same copyReadDone_link
  case copyWriteComplete => exact .of_same copyWriteDone_link
  case marchReadComplete => exact .of_same marchReadDone_link
  case marchWriteComplete => exact .of_same marchWriteDone_link
  case statusTimerExpiry => exact .of_ite fun _ => .of_linkTaken .stale
  case restoreHoldExpiry => exact .of_ite fun hd => .of_linkTaken (.restored hd.2)
  case upshiftHoldExpiry => exact .of_ite fun hd => .of_linkTaken (.upshifted hd.2)
  case flightTimeout | exchangeTimeout | lossTimeout =>
    split
    · exact .of_ite fun _ => .of_same (by simp)
    · exact .stay
  case lineRequestTaken | arbiterGrant | lockStationArrival | responseReturned | reportTimerExpiry =>
    exact .of_same (by simp)
  case pulseEnd | todMessageEnd | refillTimerExpiry | ageTimerExpiry | queryTimerExpiry | blockTimerExpiry |
      synthLockExpiry | scrubTimerExpiry | sendTimerExpiry | retryTimerExpiry =>
    exact .of_ite fun _ => .of_same (by simp)
  all_goals exact classifyWhen_move _ _

theorem step_move {t : State} (h : step s = .next t) : LinkMove s.now s.link t.link := by
  unfold step at h
  split at h
  · cases h
    exact .stay
  · have hm := exec_move h
    simpa using hm

/-- Settles O7: every step makes of the monitor one of its moves, and every move keeps its laws. -/
theorem linkLawKept : Obligations.LinkLawKept := by
  unfold Obligations.LinkLawKept
  intro s t hp hl h
  exact linkOk_iff.mpr ((step_move h).keeps (linkOk_iff.mp ⟨hp, hl⟩))

end StepMoves
end Sys2Proof.Machine

namespace Sys2Proof.Machine

/-! ### The requests of an event that makes notices beside its reports (R36, R97, R156) -/

section Courses

/-- A request's work is a notice of one of the classes `N`. -/
def NoticeOf (N : Cls → Prop) (j : Job) : Prop := ∃ c d, N c ∧ j = .notice c d

/-- A request's work is a report entry. -/
def IsEntry (j : Job) : Prop := ∃ d, j = .reportEntry d

/-- From `s` to `t` notices of the classes `N` come and go, and other requests come whose work is of a sort `J`; what
comes has a new number. -/
structure Turnover (N : Cls → Prop) (J : Job → Prop) (s t : State) : Prop where
  numbers : s.path.nextId ≤ t.path.nextId
  reqs : ∃ (stays : Req → Bool) (l : List Req), t.path.reqs = s.path.reqs.filter stays ++ l ∧
    (∀ q, stays q = false → NoticeOf N q.job) ∧ ∀ q ∈ l, s.path.nextId ≤ q.id ∧ (J q.job ∨ NoticeOf N q.job)

/-- From `s` to `t` an event has made `n` reports, its requests have turned over, and the windows and the time counter
read as before. -/
structure Course (N : Cls → Prop) (J : Job → Prop) (s t : State) (n : Nat) : Prop extends Turnover N J s t where
  taken : ReportsTaken s t n
  windows : t.windows = s.windows
  time : timeNow t = timeNow s

variable {N M : Cls → Prop} {J K : Job → Prop} {s t u : State} {k m n : Nat}

theorem NoticeOf.mono (h : ∀ c, N c → M c) {j : Job} (hj : NoticeOf N j) : NoticeOf M j := by
  obtain ⟨c, d, hc, rfl⟩ := hj
  exact ⟨c, d, h c hc, rfl⟩

theorem Turnover.mono (h : Turnover N J s t) (hN : ∀ c, N c → M c) (hJ : ∀ j, J j → K j) : Turnover M K s t := by
  obtain ⟨hid, stays, l, hl, hgo, hnew⟩ := h
  exact ⟨hid, stays, l, hl, fun q hq => (hgo q hq).mono hN, fun q hq => ⟨(hnew q hq).1,
    (hnew q hq).2.imp (hJ _) (NoticeOf.mono hN)⟩⟩

theorem Turnover.of_path (h : t.path = s.path) : Turnover N J s t :=
  ⟨by rw [h], fun _ => true, [], by simp [h], by simp, by simp⟩

theorem Turnover.trans (h : Turnover N J s t) (h2 : Turnover N J t u) : Turnover N J s u := by
  obtain ⟨hid, stays, l, hl, hgo, hnew⟩ := h
  obtain ⟨hid2, stays2, l2, hl2, hgo2, hnew2⟩ := h2
  refine ⟨hid.trans hid2, fun q => stays2 q && stays q, l.filter stays2 ++ l2, ?_, fun q hq => ?_, fun q hq => ?_⟩
  · rw [hl2, hl, List.filter_append, List.filter_filter, List.append_assoc]
  · rcases Bool.and_eq_false_iff.mp hq with hq | hq
    · exact hgo2 q hq
    · exact hgo q hq
  · rcases List.mem_append.mp hq with hq | hq
    · exact hnew q (List.mem_of_mem_filter hq)
    · exact ⟨hid.trans (hnew2 q hq).1, (hnew2 q hq).2⟩

/-- A request that is no notice of the classes stays. -/
theorem Turnover.kept (h : Turnover N J s t) {q : Req} (hq : q ∈ s.path.reqs) (hn : ¬NoticeOf N q.job) :
    q ∈ t.path.reqs := by
  obtain ⟨-, stays, l, hl, hgo, -⟩ := h
  rw [hl]
  refine List.mem_append_left _ (List.mem_filter.mpr ⟨hq, ?_⟩)
  by_contra hc
  exact hn (hgo q (Bool.eq_false_iff.mpr hc))

/-- What has come bears a new number. -/
theorem Turnover.new (h : Turnover N J s t) {q : Req} (hq : q ∈ t.path.reqs) :
    q ∈ s.path.reqs ∨ (s.path.nextId ≤ q.id ∧ (J q.job ∨ NoticeOf N q.job)) := by
  obtain ⟨-, stays, l, hl, -, hnew⟩ := h
  rw [hl, List.mem_append] at hq
  exact hq.imp List.mem_of_mem_filter (hnew q)

/-- The requests of a sort that neither comes nor goes stand. -/
theorem Turnover.filter (h : Turnover N J s t) {P : Req → Bool} (hN : ∀ q, NoticeOf N q.job → P q = false)
    (hJ : ∀ q, J q.job → P q = false) : t.path.reqs.filter P = s.path.reqs.filter P := by
  obtain ⟨-, stays, l, hl, hgo, hnew⟩ := h
  have hl0 : l.filter P = [] := List.filter_eq_nil_iff.mpr fun q hq => by
    simp [(hnew q hq).2.elim (hJ q) (hN q)]
  rw [hl, List.filter_append, hl0, List.append_nil, List.filter_filter]
  refine List.filter_congr fun q _ => ?_
  cases hs : stays q with
  | true => simp
  | false => simp [hN q (hgo q hs)]

/-- Reports taken one after another. -/
theorem ReportsTaken.trans (h : ReportsTaken s t m) (h2 : ReportsTaken t u n) : ReportsTaken s u (m + n) := by
  obtain ⟨hs, ha, hd⟩ := h
  obtain ⟨hs2, ha2, hd2⟩ := h2
  refine ⟨by rw [hs2, hs, BitVec.ofNat_add, BitVec.add_assoc], fun g hg hr => ⟨fun hu => ?_, fun room hc hroom hle => ?_⟩,
    fun hall => ?_⟩
  · obtain ⟨hring, hdrop⟩ := (ha g hg hr).1 (by omega)
    obtain ⟨hring2, hdrop2⟩ := (ha2 _ hring hr).1 (by simp only [unread] at *; omega)
    exact ⟨by rw [hring2, Nat.add_assoc], hdrop2.trans hdrop⟩
  · by_cases hm : room ≤ m
    · obtain ⟨hring, hdrop⟩ := (ha g hg hr).2 room hc hroom hm
      obtain ⟨hring2, hdrop2⟩ := (ha2 _ hring hr).2 0 (by dsimp only; omega) (by simp only [unread] at *; omega) (by omega)
      exact ⟨hring2, by rw [hdrop2, hdrop, satAdd_add]; congr 1; omega⟩
    · obtain ⟨hring, hdrop⟩ := (ha g hg hr).1 (by omega)
      obtain ⟨hring2, hdrop2⟩ := (ha2 _ hring hr).2 (room - m) (by dsimp only; omega)
        (by simp only [unread] at *; omega) (by omega)
      refine ⟨?_, by rw [hdrop2, hdrop]; congr 1; omega⟩
      rw [hring2, Nat.add_assoc, Nat.add_sub_cancel' (by omega)]
  · obtain ⟨hring, hdrop⟩ := hd hall
    obtain ⟨hring2, hdrop2⟩ := hd2 (by rwa [hring])
    exact ⟨hring2.trans hring, by rw [hdrop2, hdrop, satAdd_add]⟩

theorem Course.mono (h : Course N J s t n) (hN : ∀ c, N c → M c) (hJ : ∀ j, J j → K j) : Course M K s t n :=
  ⟨h.toTurnover.mono hN hJ, h.taken, h.windows, h.time⟩

theorem Course.trans (h : Course N J s t m) (h2 : Course N J t u n) : Course N J s u (m + n) :=
  ⟨h.toTurnover.trans h2.toTurnover, h.taken.trans h2.taken, h2.windows.trans h.windows, h2.time.trans h.time⟩

theorem Course.quiet (ht : Turnover N J s t) (h1 : t.rep = s.rep) (h2 : t.windows = s.windows)
    (h3 : timeNow t = timeNow s) : Course N J s t 0 := ⟨ht, reportsTaken_none h1, h2, h3⟩

/-- An operation outside the requests, the report unit, the windows and the time counter. -/
theorem Course.of_same (h1 : t.path = s.path) (h2 : t.rep = s.rep) (h3 : t.windows = s.windows)
    (h4 : timeNow t = timeNow s) : Course N J s t 0 := .quiet (.of_path h1) h2 h3 h4

theorem Course.refl (s : State) : Course N J s s 0 := .of_same rfl rfl rfl rfl

theorem reportAt_turnover (time : Stamp) (code : Nat) (body : List FieldSpec) (s : State) :
    Turnover N IsEntry s (reportAt time code body s) := by
  simp only [reportAt]
  repeat' split
  · exact ⟨by simp [makeReq, addReq], fun _ => true, [_], by simp [makeReq, addReq]; rfl, by simp, by simp [IsEntry]⟩
  all_goals exact .of_path rfl

theorem Reporting.turnover (h : Reporting s t n) : Turnover N IsEntry s t := by
  induction h with
  | start => exact .of_path rfl
  | silent _ _ hp _ _ ih => exact ih.trans (.of_path hp)
  | report time code body _ ih => exact ih.trans (reportAt_turnover time code body _)

/-- Reports alone. -/
theorem Reporting.course (h : Reporting s t n) : Course N IsEntry s t n := ⟨h.turnover, h.taken, h.windows, h.timeNow⟩

theorem TakesAtMost.course {f : State → State} (h : TakesAtMost n f) (s : State) :
    ∃ k ≤ n, Course N IsEntry s (f s) k := by
  obtain ⟨k, hk, hr⟩ := h s
  exact ⟨k, hk, hr.course⟩

/-- An entry that is made stays among the requests. -/
theorem Turnover.keeps (h : Turnover N J t u) {g : Ring} {time : Stamp} {code : Nat} {body : List FieldSpec}
    (hr : ReportAt s t g k time code body) : ReportAt s u g k time code body := by
  intro w hw
  obtain ⟨q, hq, hline, hstage, hjob⟩ := hr w hw
  refine ⟨q, h.kept hq ?_, hline, hstage, hjob⟩
  rintro ⟨c, d, -, hn⟩
  exact absurd (hjob.symm.trans hn) (by simp)

/-- A report among those of an event stays among them. -/
theorem Turnover.among (h : Turnover N J t u) {time : Stamp} {code : Nat} {body : List FieldSpec}
    (hr : ReportAmong s t n time code body) : ReportAmong s u n time code body := by
  intro hp g hg hrel hu
  obtain ⟨k, hk, hm⟩ := hr hp g hg hrel hu
  exact ⟨k, hk, h.keeps hm⟩

/-- The next report of an event is made where the ring has room for it behind the others. -/
theorem Course.made (h : Course N J s t k) {g : Ring} (hg : s.rep.ring = some g) (hr : g.releasing = false)
    (hu : unread g + k < g.size - 1) (time : Stamp) (code : Nat) (body : List FieldSpec) :
    ReportAt s (reportAt time code body t) g k time code body :=
  reportAt_behind h.taken (windowOfKind_congr h.windows _) hg hr hu

/-- A report among those of an event, timed at the event. -/
theorem Course.among_now (h : Course N J s t k) (hk : k ≤ n) {code : Nat} {body : List FieldSpec}
    (h2 : Turnover M K (report code body t) u) : ReportAmong s u n (timeNow s) code body := by
  intro _ g hg hr hu
  rw [← h.time]
  exact ⟨k, hk, h2.keeps (h.made hg hr (by omega) _ _ _)⟩

/-- A report of the rest of an event, behind those made before. -/
theorem Course.behind (h : Course N J s t k) {time : Stamp} {code : Nat} {body : List FieldSpec}
    (hr : ReportAmong t u n time code body) (hp : pathLaw t) : ReportAmong s u (k + n) time code body := by
  intro _ g hg hrel hu
  obtain ⟨hring, -⟩ := (h.taken.2.1 g hg hrel).1 (by omega)
  obtain ⟨j, hj, hm⟩ := hr hp _ hring hrel (by simp only [unread] at *; omega)
  refine ⟨k + j, by omega, fun w hw => ?_⟩
  obtain ⟨q, hq, hline, hstage, hjob⟩ := hm w ((windowOfKind_congr h.windows _).trans hw)
  refine ⟨q, hq, by rw [hline, Nat.add_assoc], hstage, ?_⟩
  rw [hjob, h.taken.1, Nat.add_assoc, BitVec.ofNat_add, BitVec.add_assoc]

/-- Requests of the internal requester that come. -/
theorem makeReq_turnover {line : Nat} {job : Job} (h : J job ∨ NoticeOf N job) (s : State) :
    Turnover N J s (makeReq line job s) :=
  ⟨by simp [makeReq, addReq], fun _ => true, [_], by simp [makeReq, addReq]; rfl, by simp, by simpa using h⟩

theorem dropReqs_turnover {gone : Req → Bool} (h : ∀ q, gone q = true → NoticeOf N q.job) (s : State) :
    Turnover N J s (dropReqs gone s) :=
  ⟨Nat.le_refl _, fun q => !gone q, [], by simp [dropReqs], fun q hq => h q (by simpa using hq), by simp⟩

end Courses

/-! ### Notices that wait for their grant (R36) -/

section Notices

variable {c x : Cls} {s t : State}

/-- The notices of a class that wait for their grant. -/
def waitingNotices (s : State) (c : Cls) : List Req := s.path.reqs.filter (isWaitingNotice c)

theorem isWaitingNotice_job {q : Req} (h : isWaitingNotice c q = true) : ∃ d, q.job = .notice c d := by
  unfold isWaitingNotice at h
  split at h
  · simp at h
  · simp at h
  · rename_i hj _ _
    exact ⟨_, by rw [← beq_iff_eq.mp h]; exact hj⟩
  · simp at h

theorem isWaitingNotice_of_job {q : Req} (h : ∀ d, q.job ≠ .notice c d) : isWaitingNotice c q = false := by
  by_contra hc
  obtain ⟨d, hd⟩ := isWaitingNotice_job (Bool.not_eq_false _ ▸ hc)
  exact h d hd

theorem isWaitingNotice_new {id line : Nat} {d : Line} :
    isWaitingNotice x ⟨id, line, .forwarded, .notice c d⟩ = (c == x) := rfl

theorem any_waiting (s : State) (c : Cls) :
    s.path.reqs.any (isWaitingNotice c) = (waitingNotices s c).any fun _ => true := by
  simp [waitingNotices]

/-- The waiting notices of a class whose notices neither come nor go. -/
theorem Turnover.waiting {N : Cls → Prop} {J : Job → Prop} (h : Turnover N J s t) (hc : ¬N c)
    (hJ : ∀ d, ¬J (.notice c d)) : waitingNotices t c = waitingNotices s c := by
  refine h.filter (fun q hq => isWaitingNotice_of_job fun d hd => ?_) fun q hq => isWaitingNotice_of_job fun d hd => ?_
  · obtain ⟨x, e, hx, he⟩ := hq
    obtain ⟨rfl, -⟩ := Job.notice.inj (hd.symm.trans he)
    exact hc hx
  · exact hJ d (hd ▸ hq)

theorem writeNotice_turnover {J : Job → Prop} (c : Cls) (s : State) : Turnover (· = c) J s (writeNotice c s) := by
  have hnew : ∀ d, NoticeOf (· = c) (.notice c d) := fun d => ⟨c, d, rfl, rfl⟩
  have hgone : ∀ q, isWaitingNotice c q = true → NoticeOf (· = c) q.job := fun q hq =>
    ⟨c, (isWaitingNotice_job hq).imp fun _ hd => ⟨rfl, hd⟩⟩
  simp only [writeNotice]
  split
  · exact .of_path rfl
  · refine Turnover.trans ?_ (makeReq_turnover (.inr (hnew _)) _)
    split
    · exact Turnover.trans (Turnover.of_path (t := updCls c _ s) rfl)
        (Turnover.trans (dropReqs_turnover hgone _) (.of_path rfl))
    · exact .of_path rfl

theorem writeNotice_course {J : Job → Prop} (c : Cls) (s : State) : Course (· = c) J s (writeNotice c s) 0 :=
  .quiet (writeNotice_turnover c s) (by simp) (by simp) (by simp [timeNow])

/-- A notice with a window is the one that waits, in place of another (R36). -/
theorem writeNotice_placed {w : Window} (h : windowOfKind s .notice = some w) :
    waitingNotices (writeNotice c s) c = [⟨s.path.nextId, windowLine w (clsCode c), .forwarded,
      .notice c (noticeLine c (clsAt s c) (plannedOverhead s.link) s.now (timeNow s))⟩] ∧
    (writeNotice c s).adm.noticeDropped = s.adm.noticeDropped ∧
    (writeNotice c s).adm.noticeReplaced = if s.path.reqs.any (isWaitingNotice c) then
      satInc s.adm.noticeReplaced else s.adm.noticeReplaced := by
  simp only [writeNotice, h, updCls_frame]
  cases hw : s.path.reqs.any (isWaitingNotice c) with
  | true =>
    refine ⟨?_, ?_, ?_⟩
    · simp [waitingNotices, makeReq, addReq, dropReqs, List.filter_append, isWaitingNotice_new]
    · simp [updCls]
    · simp [updCls]
  | false =>
    refine ⟨?_, ?_, ?_⟩
    · have h0 : s.path.reqs.filter (isWaitingNotice c) = [] := by
        simpa [List.filter_eq_nil_iff] using hw
      simp [waitingNotices, makeReq, addReq, List.filter_append, isWaitingNotice_new, h0]
    · simp [updCls]
    · simp [updCls]

/-- A notice without a window is dropped (R36; log entry 51). -/
theorem writeNotice_unplaced (h : windowOfKind s .notice = none) :
    (writeNotice c s).adm.noticeDropped = satInc s.adm.noticeDropped ∧
    (writeNotice c s).adm.noticeReplaced = s.adm.noticeReplaced := by
  simp [writeNotice, h, updCls]

/-- An evaluation of congestion makes at most the notice of its class and the FAULT_CHANGE of CONGESTION (R36). -/
theorem evalCongestion_course (c : Cls) (s : State) : ∃ k ≤ 1, Course (· = c) IsEntry s (evalCongestion c s) k := by
  simp only [evalCongestion]
  split
  · exact ⟨0, by omega, .refl s⟩
  · obtain ⟨k, hk, h⟩ := (setLevel_takes .congestion _).course (N := (· = c)) _
    refine ⟨0 + 0 + k, by omega, Course.trans (Course.trans ?_ (writeNotice_course c _)) h⟩
    exact .of_same rfl rfl rfl rfl

end Notices
end Sys2Proof.Machine

namespace Sys2Proof.Machine

/-! ### Congestion, class by class (R34 to R36) -/

section Settling

variable {c : Cls} {s t u : State} {E F : Cls → Prop} {credit : Cls → Int}

/-- What an evaluation of congestion reads of a class beside its state (R34, R35). -/
def gauge (k : ClassState) : List HeldEntry × Nat × Nat × Nat := (k.held, k.highMark, k.lowMark, k.maxHoldAge)

theorem gauge_eq {j k : ClassState} (h : gauge j = gauge k) :
    j.held = k.held ∧ j.highMark = k.highMark ∧ j.lowMark = k.lowMark ∧ j.maxHoldAge = k.maxHoldAge := by
  simpa only [gauge, Prod.mk.injEq] using h

theorem gauge_of_settled {j k : ClassState} (h : settled j = settled k) : gauge j = gauge k := by
  obtain ⟨-, -, hh, -, -, -, -, -, -, -, hhi, hlo, hage⟩ := settled_fields h
  simp [gauge, hh, hhi, hlo, hage]

theorem congestedNext_congr {j k : ClassState} (h : gauge j = gauge k) (hc : j.congested = k.congested)
    (overhead now : Nat) : congestedNext j overhead now = congestedNext k overhead now := by
  obtain ⟨hh, hhi, hlo, hage⟩ := gauge_eq h
  cases j
  cases k
  subst hh hhi hlo hage hc
  rfl

/-- The content of a notice follows from what an evaluation reads, the state, the credit and the sequence (R36). -/
theorem noticeLine_congr {j k : ClassState} (h : gauge j = gauge k) (hc : j.congested = k.congested)
    (hcr : j.credit = k.credit) (hn : j.noticeSeq = k.noticeSeq) (overhead now : Nat) (time : Stamp) :
    noticeLine c j overhead now time = noticeLine c k overhead now time := by
  obtain ⟨hh, -, -, -⟩ := gauge_eq h
  simp only [noticeLine, heldBits, holdAge, hh, hc, hcr, hn]

/-- The classes whose congestion state differs. -/
def changedClasses (s t : State) : List Cls := allClasses.filter fun c => (clsAt t c).congested != (clsAt s c).congested

/-- What the evaluations of congestion read stands from `s` to `t`: the link, the times, the windows and the reset
line. -/
structure Still (s t : State) : Prop where
  link : t.link = s.link
  now : t.now = s.now
  time : timeNow t = timeNow s
  windows : t.windows = s.windows
  inReset : t.inReset = s.inReset

theorem Still.refl (s : State) : Still s s := ⟨rfl, rfl, rfl, rfl, rfl⟩

theorem Still.trans (h : Still s t) (h2 : Still t u) : Still s u :=
  ⟨h2.link.trans h.link, h2.now.trans h.now, h2.time.trans h.time, h2.windows.trans h.windows,
    h2.inReset.trans h.inReset⟩

/-- From `s` to `t` the classes `E` have been evaluated, each once, with the given credit in its notice, and the others
stand as far as an evaluation reads them. -/
structure Settles (E : Cls → Prop) (credit : Cls → Int) (s t : State) : Prop where
  idle : ∀ c, ¬E c → gauge (clsAt t c) = gauge (clsAt s c) ∧ (clsAt t c).congested = (clsAt s c).congested ∧
    waitingNotices t c = waitingNotices s c
  judged : ∀ c, E c → (clsAt t c).congested =
    congestedNext { clsAt t c with congested := (clsAt s c).congested } (plannedOverhead s.link) s.now
  calm : ∀ c, (clsAt t c).congested = (clsAt s c).congested → (clsAt t c).noticeSeq = (clsAt s c).noticeSeq ∧
    waitingNotices t c = waitingNotices s c
  told : ∀ c, (clsAt t c).congested ≠ (clsAt s c).congested → (clsAt t c).noticeSeq = (clsAt s c).noticeSeq + 1 ∧
    ∀ w, windowOfKind s .notice = some w → ∃ id, waitingNotices t c = [⟨id, windowLine w (clsCode c), .forwarded,
      .notice c (noticeLine c { clsAt t c with credit := credit c, noticeSeq := (clsAt s c).noticeSeq }
        (plannedOverhead s.link) s.now (timeNow s))⟩]
  dropped : t.adm.noticeDropped = if windowOfKind s .notice = none then
    satAdd s.adm.noticeDropped (changedClasses s t).length else s.adm.noticeDropped
  replaced : t.adm.noticeReplaced = if windowOfKind s .notice = none then s.adm.noticeReplaced else
    satAdd s.adm.noticeReplaced ((changedClasses s t).filter fun c => s.path.reqs.any (isWaitingNotice c)).length
  quiet : changedClasses s t = [] → t.fault.congestion = s.fault.congestion
  raised : changedClasses s t ≠ [] → s.inReset = false →
    (t.fault.congestion.raw = true ↔ ∃ c, (clsAt t c).congested = true)

theorem mem_allClasses (c : Cls) : c ∈ allClasses := by cases c <;> decide

theorem mem_changedClasses : c ∈ changedClasses s t ↔ (clsAt t c).congested ≠ (clsAt s c).congested := by
  simp [changedClasses, mem_allClasses]

theorem changedClasses_nil (h : ∀ c, (clsAt t c).congested = (clsAt s c).congested) : changedClasses s t = [] := by
  simp [changedClasses, h]

theorem anyCongested_iff : anyCongested s = true ↔ ∃ c, (clsAt s c).congested = true := by
  simp [anyCongested, mem_allClasses]

/-- An operation that no evaluation of congestion sees. -/
theorem Settles.of_idle (h : ∀ c, gauge (clsAt t c) = gauge (clsAt s c) ∧
      (clsAt t c).congested = (clsAt s c).congested ∧ (clsAt t c).noticeSeq = (clsAt s c).noticeSeq)
    (hw : ∀ c, waitingNotices t c = waitingNotices s c) (hd : t.adm.noticeDropped = s.adm.noticeDropped)
    (hr : t.adm.noticeReplaced = s.adm.noticeReplaced) (hf : t.fault.congestion = s.fault.congestion) :
    Settles (fun _ => False) credit s t := by
  have hn : changedClasses s t = [] := changedClasses_nil fun c => (h c).2.1
  refine ⟨fun c _ => ⟨(h c).1, (h c).2.1, hw c⟩, fun c hc => hc.elim, fun c _ => ⟨(h c).2.2, hw c⟩,
    fun c hc => absurd (h c).2.1 hc, ?_, ?_, fun _ => hf, fun hc => absurd hn hc⟩
  · simp [hn, hd, satAdd_zero]
  · simp [hn, hr, satAdd_zero]

/-- An operation outside the admission unit that leaves CONGESTION and the notices. -/
theorem Settles.of_adm (ha : t.adm = s.adm) (hw : ∀ c, waitingNotices t c = waitingNotices s c)
    (hf : t.fault.congestion = s.fault.congestion) : Settles (fun _ => False) credit s t :=
  .of_idle (fun c => by simp [clsAt_of_adm ha]) hw (by rw [ha]) (by rw [ha]) hf

theorem Settles.congr (h : Settles E credit s t) (he : ∀ c, E c ↔ F c) : Settles F credit s t := by
  obtain rfl : E = F := funext fun c => propext (he c)
  exact h

/-- Lengths of the parts of a list by two tests that exclude each other. -/
theorem length_filter_split {α : Type} {p q r : α → Bool} (l : List α) (h : ∀ x, p x = (q x || r x))
    (hx : ∀ x, q x = true → r x = false) : (l.filter p).length = (l.filter q).length + (l.filter r).length := by
  induction l with
  | nil => rfl
  | cons x xs ih =>
    cases hq : q x with
    | true => simp [h, hq, hx x hq, ih]; omega
    | false => cases hr : r x <;> simp [h, hq, hr, ih]; omega

/-- Evaluations of other classes after the first. -/
theorem Settles.trans (h : Settles E credit s t) (hs : Still s t) (h2 : Settles F credit t u)
    (hd : ∀ c, E c → ¬F c) : Settles (fun c => E c ∨ F c) credit s u := by
  have hwin : windowOfKind t .notice = windowOfKind s .notice := windowOfKind_congr hs.windows _
  have hE : ∀ c, E c → (clsAt u c).congested = (clsAt t c).congested := fun c hc => (h2.idle c (hd c hc)).2.1
  have hnE : ∀ c, ¬E c → (clsAt t c).congested = (clsAt s c).congested := fun c hc => (h.idle c hc).2.1
  have hsplit : ∀ c, ((clsAt u c).congested != (clsAt s c).congested) =
      (((clsAt t c).congested != (clsAt s c).congested) || ((clsAt u c).congested != (clsAt t c).congested)) := by
    intro c
    by_cases hc : E c
    · simp [hE c hc]
    · simp [hnE c hc]
  have hexcl : ∀ c, ((clsAt t c).congested != (clsAt s c).congested) = true →
      ((clsAt u c).congested != (clsAt t c).congested) = false := by
    intro c hc
    by_cases he : E c
    · simp [hE c he]
    · simp [hnE c he] at hc
  have hlen : (changedClasses s u).length = (changedClasses s t).length + (changedClasses t u).length :=
    length_filter_split _ hsplit hexcl
  have hany : ∀ c, (clsAt u c).congested ≠ (clsAt t c).congested →
      t.path.reqs.any (isWaitingNotice c) = s.path.reqs.any (isWaitingNotice c) := by
    intro c hc
    rw [any_waiting, any_waiting, (h.idle c fun he => hc (hE c he)).2.2]
  have hlen2 : ((changedClasses s u).filter fun c => s.path.reqs.any (isWaitingNotice c)).length =
      ((changedClasses s t).filter fun c => s.path.reqs.any (isWaitingNotice c)).length +
        ((changedClasses t u).filter fun c => t.path.reqs.any (isWaitingNotice c)).length := by
    rw [List.filter_congr (l := changedClasses t u) fun c hc => hany c (mem_changedClasses.mp hc)]
    simp only [changedClasses, List.filter_filter]
    refine length_filter_split _ (fun c => by rw [hsplit c, Bool.and_or_distrib_left]) fun c hc => ?_
    rw [Bool.and_eq_true] at hc
    rw [hexcl c hc.2, Bool.and_false]
  have hnil : changedClasses s u = [] ↔ changedClasses s t = [] ∧ changedClasses t u = [] := by
    simp only [← List.length_eq_zero_iff]; omega
  refine ⟨fun c hc => ?_, fun c hc => ?_, fun c hc => ?_, fun c hc => ?_, ?_, ?_, fun hn => ?_, fun hn hr => ?_⟩
  · simp only [not_or] at hc
    obtain ⟨h1, h2', h3⟩ := h.idle c hc.1
    obtain ⟨i1, i2, i3⟩ := h2.idle c hc.2
    exact ⟨i1.trans h1, i2.trans h2', i3.trans h3⟩
  · by_cases he : E c
    · obtain ⟨i1, i2, -⟩ := h2.idle c (hd c he)
      rw [i2, h.judged c he]
      exact congestedNext_congr (j := { clsAt t c with congested := (clsAt s c).congested })
        (k := { clsAt u c with congested := (clsAt s c).congested }) i1.symm rfl _ _
    · rw [h2.judged c (hc.resolve_left he), hs.link, hs.now, hnE c he]
  · by_cases he : E c
    · obtain ⟨i1, i2⟩ := h2.calm c (hE c he)
      obtain ⟨j1, j2⟩ := h.calm c ((hE c he).symm.trans hc)
      exact ⟨i1.trans j1, i2.trans j2⟩
    · obtain ⟨i1, i2⟩ := h2.calm c (hc.trans (hnE c he).symm)
      obtain ⟨j1, j2⟩ := h.calm c (hnE c he)
      exact ⟨i1.trans j1, i2.trans j2⟩
  · by_cases he : E c
    · obtain ⟨i1, i2, -⟩ := h2.idle c (hd c he)
      obtain ⟨i3, i4⟩ := h2.calm c i2
      obtain ⟨j1, j2⟩ := h.told c fun hx => hc (i2.trans hx)
      refine ⟨i3.trans j1, fun w hw => ?_⟩
      obtain ⟨id, hid⟩ := j2 w hw
      refine ⟨id, (i4.trans hid).trans ?_⟩
      rw [noticeLine_congr (j := { clsAt u c with credit := credit c, noticeSeq := (clsAt s c).noticeSeq })
        (k := { clsAt t c with credit := credit c, noticeSeq := (clsAt s c).noticeSeq }) i1 i2 rfl rfl]
    · obtain ⟨j1, j2⟩ := h2.told c fun hx => hc (hx.trans (hnE c he))
      obtain ⟨i1, -⟩ := h.calm c (hnE c he)
      refine ⟨by rw [j1, i1], fun w hw => ?_⟩
      obtain ⟨id, hid⟩ := j2 w (hwin.trans hw)
      exact ⟨id, by rw [hid, i1, hs.link, hs.now, hs.time]⟩
  · rw [h2.dropped, h.dropped, hwin]
    split
    · rw [satAdd_add, hlen]
    · rfl
  · rw [h2.replaced, h.replaced, hwin]
    split
    · rfl
    · rw [satAdd_add, hlen2]
  · obtain ⟨hn1, hn2⟩ := hnil.mp hn
    exact (h2.quiet hn2).trans (h.quiet hn1)
  · by_cases hn2 : changedClasses t u = []
    · rw [h2.quiet hn2, h.raised (fun hn1 => hn (hnil.mpr ⟨hn1, hn2⟩)) hr]
      refine exists_congr fun c => ?_
      have : (clsAt u c).congested = (clsAt t c).congested := by
        by_contra hx
        rw [← ne_eq, ← mem_changedClasses, hn2] at hx
        simp at hx
      rw [this]
    · exact h2.raised hn2 (hs.inReset.trans hr)

/-- An operation after the evaluations that no evaluation sees, whatever it does to the times. -/
theorem Settles.then (h : Settles E credit s t) (h2 : Settles (fun _ => False) credit t u)
    (hs : Still s t) : Settles E credit s u :=
  (h.trans hs h2 fun _ _ => id).congr fun _ => iff_of_eq (or_false _)

/-- An operation before the evaluations that no evaluation sees. -/
theorem Settles.after (h : Settles (fun _ => False) credit s t) (hs : Still s t) (h2 : Settles E credit t u) :
    Settles E credit s u := (h.trans hs h2 fun _ hc => hc.elim).congr fun _ => iff_of_eq (false_or _)

theorem setLevel_waiting (k : Cond) (b : Bool) (s : State) (c : Cls) :
    waitingNotices (setLevel k b s) c = waitingNotices s c := by
  obtain ⟨n, -, h⟩ := setLevel_takes k b s
  exact (h.turnover (N := fun _ => False)).waiting id (by simp [IsEntry])

theorem evalCongestion_still (c : Cls) (s : State) : Still s (evalCongestion c s) := by
  constructor <;> simp [timeNow]

theorem updCls_still (c : Cls) (f : ClassState → ClassState) (s : State) : Still s (updCls c f s) :=
  ⟨rfl, rfl, rfl, rfl, rfl⟩

theorem clsAt_updCls (c x : Cls) (f : ClassState → ClassState) (s : State) :
    clsAt (updCls c f s) x = if x = c then f (clsAt s x) else clsAt s x := by
  by_cases h : x = c
  · subst h; simp
  · simp [h]

/-- What an evaluation leaves where it changes the class's state: the notice, then the condition (R36). -/
theorem evalCongestion_changed {next : Bool} (hn : next = congestedNext (clsAt s c) (plannedOverhead s.link) s.now)
    (h : next ≠ (clsAt s c).congested) : evalCongestion c s =
      setLevel .congestion (anyCongested (writeNotice c (updCls c (fun k => { k with congested := next }) s)))
        (writeNotice c (updCls c (fun k => { k with congested := next }) s)) := by
  subst hn
  rw [evalCongestion]
  exact if_neg h

theorem evalCongestion_unchanged (h : congestedNext (clsAt s c) (plannedOverhead s.link) s.now =
    (clsAt s c).congested) : evalCongestion c s = s := if_pos h

/-- One evaluation. -/
theorem evalCongestion_settles (hc : credit c = (clsAt s c).credit) :
    Settles (· = c) credit s (evalCongestion c s) := by
  have hset := fun x => gauge_of_settled (evalCongestion_settled (c := c) (x := x) (s := s))
  have hnext := evalCongestion_congested (c := c) (s := s)
  have hjudge : (clsAt (evalCongestion c s) c).congested = congestedNext
      { clsAt (evalCongestion c s) c with congested := (clsAt s c).congested } (plannedOverhead s.link) s.now :=
    hnext.trans (congestedNext_congr (k := { clsAt (evalCongestion c s) c with congested := (clsAt s c).congested })
      (hset c).symm rfl _ _)
  by_cases h : congestedNext (clsAt s c) (plannedOverhead s.link) s.now = (clsAt s c).congested
  · rw [evalCongestion_unchanged h] at hjudge ⊢
    have hi : Settles (fun _ => False) credit s s := .of_adm rfl (fun _ => rfl) rfl
    refine ⟨fun x _ => ⟨rfl, rfl, rfl⟩, fun x hx => hx ▸ hjudge, hi.calm, hi.told, hi.dropped, hi.replaced, hi.quiet,
      hi.raised⟩
  · obtain ⟨next, hnx⟩ : ∃ b, b = congestedNext (clsAt s c) (plannedOverhead s.link) s.now := ⟨_, rfl⟩
    have hne : next ≠ (clsAt s c).congested := by rw [hnx]; exact h
    have heq := evalCongestion_changed hnx hne
    obtain ⟨v, hv⟩ : ∃ v, v = updCls c (fun k => { k with congested := next }) s := ⟨_, rfl⟩
    rw [← hv] at heq
    have hwin : windowOfKind v .notice = windowOfKind s .notice := windowOfKind_congr (by simp [hv]) _
    have hcls : ∀ x, clsAt (evalCongestion c s) x = if x = c then
        { clsAt s x with congested := next, noticeSeq := (clsAt s x).noticeSeq + 1 } else clsAt s x := by
      intro x
      rw [heq, clsAt_setLevel, clsAt_of_classes writeNotice_classes, clsAt_updCls, hv, clsAt_updCls]
      by_cases hx : x = c <;> simp [hx]
    have hwait : ∀ x, x ≠ c → waitingNotices (evalCongestion c s) x = waitingNotices s x := by
      intro x hx
      rw [heq, setLevel_waiting, (writeNotice_turnover (J := fun _ => False) c v).waiting hx (by simp), hv]
      rfl
    have hchg : changedClasses s (evalCongestion c s) = [c] := by
      have : ∀ x, ((clsAt (evalCongestion c s) x).congested != (clsAt s x).congested) = (x == c) := by
        intro x
        by_cases hx : x = c
        · subst hx; simp [hcls, hne]
        · simp [hcls, hx]
      simp only [changedClasses, this]
      cases c <;> rfl
    refine ⟨fun x hx => ?_, fun x hx => hx ▸ hjudge, fun x hx => ?_, fun x hx => ?_, ?_, ?_, fun hn => ?_,
      fun _ hr => ?_⟩
    · exact ⟨by simp [hcls, hx], by simp [hcls, hx], hwait x hx⟩
    · have hxc : x ≠ c := fun he => by subst he; simp [hcls, hne] at hx
      exact ⟨by simp [hcls, hxc], hwait x hxc⟩
    · have hxc : x = c := by
        by_contra hxc
        simp [hcls, hxc] at hx
      subst hxc
      refine ⟨by simp [hcls], fun w hw => ⟨v.path.nextId, ?_⟩⟩
      rw [heq, setLevel_waiting, (writeNotice_placed (c := x) (hwin.trans hw)).1, ← heq]
      have hline := noticeLine_congr (c := x) (j := clsAt v x)
        (k := { clsAt (evalCongestion x s) x with credit := credit x, noticeSeq := (clsAt s x).noticeSeq })
        (by simp [hcls, hv, gauge]) (by simp [hcls, hv]) (by simp [hv, hc]) (by simp [hv]) (plannedOverhead s.link)
        s.now (timeNow s)
      rw [← hline, hv]
      rfl
    · rw [heq, setLevel_frame.2.2.2.2.2.2.2.2.2.1, ← heq, hchg]
      split
      · rename_i hw
        rw [(writeNotice_unplaced (hwin.trans hw)).1, satInc_eq, hv]
        rfl
      · rename_i hw
        obtain ⟨w, hw⟩ := Option.ne_none_iff_exists'.mp hw
        rw [(writeNotice_placed (hwin.trans hw)).2.1, hv]
        rfl
    · rw [heq, setLevel_frame.2.2.2.2.2.2.2.2.2.1, ← heq, hchg]
      split
      · rename_i hw
        rw [(writeNotice_unplaced (hwin.trans hw)).2, hv]
        rfl
      · rename_i hw
        obtain ⟨w, hw⟩ := Option.ne_none_iff_exists'.mp hw
        have hp : v.path = s.path := by rw [hv]; rfl
        rw [(writeNotice_placed (hwin.trans hw)).2.2, hp]
        have ha : v.adm.noticeReplaced = s.adm.noticeReplaced := by rw [hv]; rfl
        cases hany : s.path.reqs.any (isWaitingNotice c) <;> simp [hany, ha, satInc_eq, satAdd_zero]
    · rw [hchg] at hn
      simp at hn
    · have hraw := setLevel_raw (c := .congestion) (b := anyCongested (writeNotice c v)) (s := writeNotice c v)
        (by simp [hv, hr])
      rw [← heq] at hraw
      rw [show (evalCongestion c s).fault.congestion.raw = anyCongested (writeNotice c v) from hraw, anyCongested_iff]
      refine exists_congr fun x => ?_
      rw [heq, clsAt_setLevel]

/-- A class changed, and then evaluated (R34). -/
theorem evalCongestion_updCls_settles {f : ClassState → ClassState} (hc : credit c = (f (clsAt s c)).credit)
    (hg : (f (clsAt s c)).congested = (clsAt s c).congested) (hn : (f (clsAt s c)).noticeSeq = (clsAt s c).noticeSeq) :
    Settles (· = c) credit s (evalCongestion c (updCls c f s)) := by
  have h := evalCongestion_settles (s := updCls c f s) (c := c) (credit := credit) (by simpa using hc)
  have hsame : ∀ x, (clsAt (updCls c f s) x).congested = (clsAt s x).congested ∧
      (clsAt (updCls c f s) x).noticeSeq = (clsAt s x).noticeSeq := by
    intro x
    rw [clsAt_updCls]
    split
    · rename_i hx; subst hx; exact ⟨hg, hn⟩
    · exact ⟨rfl, rfl⟩
  have hchg : changedClasses s (evalCongestion c (updCls c f s)) =
      changedClasses (updCls c f s) (evalCongestion c (updCls c f s)) := by
    simp [changedClasses, (hsame _).1]
  refine ⟨fun x hx => ?_, fun x hx => ?_, fun x hx => ?_, fun x hx => ?_, ?_, ?_, fun hx => ?_, fun hx hr => ?_⟩
  · obtain ⟨h1, h2, h3⟩ := h.idle x hx
    rw [updCls_other hx] at h1 h2
    exact ⟨h1, h2, h3⟩
  · have := h.judged x hx
    rw [(hsame x).1] at this
    exact this
  · obtain ⟨h1, h2⟩ := h.calm x (hx.trans (hsame x).1.symm)
    exact ⟨h1.trans (hsame x).2, h2⟩
  · obtain ⟨h1, h2⟩ := h.told x (by rw [(hsame x).1]; exact hx)
    rw [(hsame x).2] at h1 h2
    exact ⟨h1, h2⟩
  · rw [hchg]; exact h.dropped
  · rw [hchg]; exact h.replaced
  · exact h.quiet (hchg ▸ hx)
  · exact h.raised (hchg ▸ hx) hr

end Settling
end Sys2Proof.Machine

namespace Sys2Proof.Machine

section Settled

variable {c : Cls} {s t u : State} {E : Cls → Prop} {credit : Cls → Int}

theorem heldBits_eq_sum (k : ClassState) (overhead : Nat) :
    heldBits k overhead = (k.held.map fun h => (h.length + overhead) * 8).sum := by
  simp only [heldBits, airBits]
  exact List.sum_eq_foldl.symm

theorem tooOld_iff {k : ClassState} {now : Nat} :
    tooOld k now = true ↔ ∃ h rest, k.held = h :: rest ∧ ms k.maxHoldAge ≤ now - h.joined := by
  cases hk : k.held <;> simp [tooOld, holdAge, hk]

/-- The model's evaluation is that of R35. -/
theorem congestedNext_by (k : ClassState) (overhead now : Nat) :
    CongestedBy k overhead now (congestedNext k overhead now) := by
  rintro bits old rfl hold
  rw [← tooOld_iff] at hold
  rw [← heldBits_eq_sum, hold]
  refine ⟨fun hk => ?_, fun hk => ?_⟩
  · simp [congestedNext, hk]
  · simp [congestedNext, hk]

/-- The model's notice is that of R36. -/
theorem noticeLine_eq {k : ClassState} {overhead now bits age : Nat} {time : Stamp}
    (hb : bits = (k.held.map fun h => (h.length + overhead) * 8).sum) (h0 : k.held = [] → age = 0)
    (h1 : ∀ h rest, k.held = h :: rest → age = (now - h.joined) / 40000) : noticeLine c k overhead now time =
      buildLine ([⟨0, 1, clsCode c⟩, ⟨1, 1, if k.congested then 1 else 0⟩, ⟨2, 1, k.held.length⟩,
        ⟨4, 4, k.noticeSeq.toNat⟩, ⟨8, 4, narrow 4 bits⟩, ⟨12, 4, ofSigned 4 k.credit⟩,
        ⟨16, 4, narrow 4 age⟩] ++ stampFields 20 26 time) := by
  have hage : (holdAge k now).getD 0 / 40000 = age := by
    cases hk : k.held with
    | nil => simp [holdAge, hk, h0 hk]
    | cons h rest => simp [holdAge, hk, h1 h rest hk]
  rw [noticeLine, hage, heldBits_eq_sum, ← hb]
  rfl

/-- Congestion as the evaluations of an event leave it, where the rest of the event leaves the admission unit, the
condition and the waiting notices. -/
theorem Settles.settled (h : Settles E credit s t) (ha : u.adm = t.adm) (hf : u.fault.congestion = t.fault.congestion)
    (hw : pathLaw s → ∀ c, waitingNotices u c = waitingNotices t c) : CongestionSettled s u E credit := by
  have hcls : ∀ c, clsAt u c = clsAt t c := fun c => clsAt_of_adm ha
  refine ⟨fun c hc => ?_, fun c hc => ?_, fun c hc => ?_, fun c hc => ⟨?_, fun hp w hwin => ?_⟩, ?_⟩
  · rw [hcls, h.judged c hc]
    exact congestedNext_by _ _ _
  · rw [hcls]; exact (h.idle c hc).2.1
  · rw [hcls] at hc ⊢; exact (h.calm c hc).1
  · rw [hcls] at hc ⊢; exact (h.told c hc).1
  · rintro k bits age rfl hb h0 h1
    rw [hcls] at hc hb h0 h1 ⊢
    obtain ⟨id, hid⟩ := (h.told c hc).2 w hwin
    rw [← hw hp c] at hid
    have hmem : ∀ x, x ∈ u.path.reqs ∧ isWaitingNotice c x = true ↔ x ∈ waitingNotices u c :=
      fun x => List.mem_filter.symm
    rw [hid] at hmem
    simp only [List.mem_singleton] at hmem
    refine ⟨_, ((hmem _).mpr rfl).1, rfl, rfl, ?_, fun x hx hxw => (hmem x).mp ⟨hx, hxw⟩⟩
    rw [noticeLine_eq (k := { clsAt t c with credit := credit c, noticeSeq := (clsAt s c).noticeSeq }) hb h0 h1]
  · intro changed hch
    simp only [hcls] at hch ⊢
    change changed = changedClasses s t at hch
    subst hch
    refine ⟨fun hn => ?_, fun hn => ?_, fun hn => hf.trans (h.quiet hn), fun hn hr => ?_⟩
    · rw [ha, h.replaced, h.dropped, if_pos hn, if_pos hn]
      exact ⟨rfl, rfl⟩
    · rw [ha, h.replaced, h.dropped, if_neg hn, if_neg hn]
      exact ⟨rfl, rfl⟩
    · rw [hf]; exact h.raised hn hr

/-- A request of a port that goes on or is answered is no notice, before or after. -/
theorem waitingNotices_map {f : Req → Req} {g : State} (hpath : g.path.reqs = t.path.reqs.map f)
    (h : ∀ q ∈ t.path.reqs, f q = q ∨ (isWaitingNotice c q = false ∧ isWaitingNotice c (f q) = false)) :
    waitingNotices g c = waitingNotices t c := by
  rw [waitingNotices, waitingNotices, hpath]
  clear hpath
  revert h
  induction t.path.reqs with
  | nil => exact fun _ => rfl
  | cons q qs ih =>
    intro h
    have ih := ih fun x hx => h x (List.mem_cons_of_mem _ hx)
    rcases h q List.mem_cons_self with hq | ⟨h1, h2⟩
    · rw [List.map_cons, hq, List.filter_cons, List.filter_cons, ih]
    · rw [List.map_cons, List.filter_cons, List.filter_cons, h1, h2]
      simpa using ih

/-- By the numbering, a request that bears the number of a port's request is that request. -/
theorem Turnover.numbered {N : Cls → Prop} {J : Job → Prop} (h : Turnover N J s t) (hp : pathLaw s) {x q : Req}
    (hx : x ∈ s.path.reqs) (hq : q ∈ t.path.reqs) (hid : q.id = x.id) : q = x := by
  obtain ⟨-, -, -, -, hids, hlt, -⟩ := hp
  rcases h.new hq with hq | ⟨hn, -⟩
  · exact List.inj_on_of_nodup_map hids hq hx hid
  · have := hlt x hx
    omega

theorem isWaitingNotice_port {q : Req} (h : isAnyPortReq q = true) : isWaitingNotice c q = false :=
  isWaitingNotice_of_job fun d hd => by simp [isAnyPortReq, hd] at h

/-- The request of a port goes on, and the waiting notices stand. -/
theorem waitingNotices_setReq {N : Cls → Prop} {J : Job → Prop} {id : Nat} {p : Port} {r r' : LineRequest}
    {win : Option (Nat × Window)} {stamp : Option TakenStamp} {st : Stage} (h : Turnover N J s t) (hn : Next s p id r)
    (hp : pathLaw s) (c : Cls) : waitingNotices (setReq id (.port p r' win stamp) st t) c = waitingNotices t c := by
  obtain ⟨x, hx, hxid, hxp⟩ := hn.mem
  refine waitingNotices_map (f := fun q => if q.id = id then { q with job := .port p r' win stamp, stage := st } else q)
    rfl fun q hq => ?_
  by_cases hid : q.id = id
  · obtain rfl := h.numbered hp hx hq (hid.trans hxid.symm)
    right
    refine ⟨isWaitingNotice_of_job fun d hd => ?_, ?_⟩
    · rw [isPortReq, hd] at hxp
      simp at hxp
    · rw [if_pos hid]
      exact isWaitingNotice_of_job fun d => by simp
  · exact .inl (if_neg hid)

/-- Where a port's request goes on, the entries that the event has made stand among the requests. -/
theorem Turnover.setReq_keeps {N : Cls → Prop} {J : Job → Prop} {id n : Nat} {p : Port} {r : LineRequest} {job : Job}
    {st : Stage} (h : Turnover N J s t) (hn : Next s p id r) {g : Ring} {time : Stamp} {code : Nat}
    {body : List FieldSpec} (hp : pathLaw s) (hr : ReportAt s t g n time code body) :
    ReportAt s (setReq id job st t) g n time code body := by
  intro w hw
  obtain ⟨q, hq, hline, hstage, hjob⟩ := hr w hw
  obtain ⟨x, hx, hxid, hxp⟩ := hn.mem
  refine ⟨q, List.mem_map.mpr ⟨q, hq, if_neg fun hid => ?_⟩, hline, hstage, hjob⟩
  obtain rfl := h.numbered hp hx hq (hid.trans hxid.symm)
  rw [isPortReq, hjob] at hxp
  simp at hxp

end Settled

/-! ### Operations on one class, and on each class once -/

section ClassSteps

variable {c x : Cls} {s t : State} {now : Nat}

/-- What of a class follows from all but its congestion state and its notices. -/
theorem settled_inj {j k : ClassState} (h : settled j = settled k) (hc : j.congested = k.congested)
    (hn : j.noticeSeq = k.noticeSeq) : j = k := by
  cases j; cases k
  simp only [settled, ClassState.mk.injEq] at h
  simp_all

/-- An evaluation leaves the other classes. -/
theorem evalCongestion_other (h : x ≠ c) : clsAt (evalCongestion c s) x = clsAt s x := by
  have hs := evalCongestion_settles (c := c) (s := s) (credit := fun c => (clsAt s c).credit) rfl
  have hc := (hs.idle x h).2.1
  exact settled_inj evalCongestion_settled hc (hs.calm x hc).1

theorem updCls_course {N : Cls → Prop} {J : Job → Prop} (c : Cls) (f : ClassState → ClassState) (s : State) :
    Course N J s (updCls c f s) 0 := .of_same rfl rfl rfl rfl

/-- An operation on one class at an interval time: what the class becomes, whether it is evaluated (with the credit that
it has by then), and at most how many reports that makes. -/
structure ClassStep (now : Nat) (c : Cls) (op : State → State) (f : ClassState → ClassState)
    (E : ClassState → Prop) (n : Nat) : Prop where
  other : ∀ s x, s.now = now → x ≠ c → clsAt (op s) x = clsAt s x
  same : ∀ s, s.now = now → settled (clsAt (op s) c) = settled (f (clsAt s c))
  settles : ∀ s credit, s.now = now → credit c = (f (clsAt s c)).credit →
    Settles (fun x => x = c ∧ E (clsAt s x)) credit s (op s)
  still : ∀ s, s.now = now → Still s (op s)
  course : ∀ s, s.now = now → ∃ k ≤ n, Course (· = c) IsEntry s (op s) k

/-- The operation written otherwise. -/
theorem ClassStep.congr {op op' : State → State} {f : ClassState → ClassState} {E : ClassState → Prop} {n : Nat}
    (h : ClassStep now c op f E n) (heq : ∀ s, s.now = now → op' s = op s) : ClassStep now c op' f E n :=
  ⟨fun s x hs hx => heq s hs ▸ h.other s x hs hx, fun s hs => heq s hs ▸ h.same s hs,
    fun s credit hs hcr => heq s hs ▸ h.settles s credit hs hcr, fun s hs => heq s hs ▸ h.still s hs,
    fun s hs => heq s hs ▸ h.course s hs⟩

/-- An operation on each class once. -/
theorem classSteps_effect {op : Cls → State → State} {f : Cls → ClassState → ClassState}
    {E : Cls → ClassState → Prop} {n : Cls → Nat} (h : ∀ c, ClassStep now c (op c) (f c) (E c) (n c))
    {credit : Cls → Int} (cs : List Cls) (hcs : cs.Nodup) (hnow : s.now = now)
    (hcr : ∀ c ∈ cs, credit c = (f c (clsAt s c)).credit) :
    (∀ x, settled (clsAt (cs.foldl (fun t c => op c t) s) x) =
      settled (if x ∈ cs then f x (clsAt s x) else clsAt s x)) ∧
    Settles (fun x => x ∈ cs ∧ E x (clsAt s x)) credit s (cs.foldl (fun t c => op c t) s) ∧
    Still s (cs.foldl (fun t c => op c t) s) ∧
    ∃ k ≤ (cs.map n).sum, Course (fun _ => True) IsEntry s (cs.foldl (fun t c => op c t) s) k := by
  induction cs generalizing s with
  | nil => exact ⟨by simp, (Settles.of_adm rfl (fun _ => rfl) rfl).congr (by simp), .refl s, 0, by simp, .refl s⟩
  | cons c cs ih =>
    obtain ⟨hc, hcs⟩ := List.nodup_cons.mp hcs
    have hother : ∀ x, x ≠ c → clsAt (op c s) x = clsAt s x := fun x => (h c).other s x hnow
    have hmem : ∀ x ∈ cs, clsAt (op c s) x = clsAt s x := fun x hx => hother x fun he => hc (he ▸ hx)
    have hstill := (h c).still s hnow
    obtain ⟨h1, h2, h3, k, hk, h4⟩ := ih (s := op c s) hcs (hstill.now.trans hnow) fun x hx => by
      rw [hmem x hx]; exact hcr x (List.mem_cons_of_mem _ hx)
    have h5 := (h c).settles s credit hnow (hcr c List.mem_cons_self)
    obtain ⟨j, hj, h6⟩ := (h c).course s hnow
    rw [List.foldl_cons]
    refine ⟨fun x => ?_, (h5.trans hstill h2 ?_).congr fun x => ?_, hstill.trans h3, j + k, by simp; omega,
      (h6.mono (fun _ _ => trivial) fun _ h => h).trans h4⟩
    · rw [h1]
      by_cases hx : x ∈ cs
      · rw [if_pos hx, if_pos (List.mem_cons_of_mem _ hx), hmem x hx]
      · by_cases hxc : x = c
        · subst hxc
          rw [if_neg hx, if_pos List.mem_cons_self, (h x).same s hnow]
        · rw [if_neg hx, if_neg (by simp [hxc, hx]), hother x hxc]
    · rintro x ⟨rfl, -⟩ ⟨hx, -⟩
      exact hc hx
    · rw [List.mem_cons, or_and_right]
      refine or_congr (and_congr_right fun hx => by rw [hx]) (and_congr_right fun hx => by rw [hmem x hx])

theorem allClasses_nodup : allClasses.Nodup := by decide

/-- A class changed outside its congestion state and its notices, and then evaluated. -/
theorem ClassStep.evaluated {f : ClassState → ClassState} (hc : ∀ k, (f k).congested = k.congested)
    (hn : ∀ k, (f k).noticeSeq = k.noticeSeq) :
    ClassStep now c (fun s => evalCongestion c (updCls c f s)) f (fun _ => True) 1 := by
  refine ⟨fun s x _ hx => ?_, fun s _ => ?_, fun s credit _ hcr => ?_, fun s _ => ?_, fun s _ => ?_⟩
  · rw [evalCongestion_other hx, updCls_other hx]
  · rw [evalCongestion_settled, updCls_same]
  · exact (evalCongestion_updCls_settles hcr (hc _) (hn _)).congr fun x => by simp
  · exact (updCls_still c f s).trans (evalCongestion_still c _)
  · obtain ⟨k, hk, h⟩ := evalCongestion_course c (updCls c f s)
    exact ⟨0 + k, by omega, (updCls_course c f s).trans h⟩

/-- A class changed outside all that an evaluation reads. -/
theorem ClassStep.idle {f : ClassState → ClassState} (hg : ∀ k, gauge (f k) = gauge k)
    (hc : ∀ k, (f k).congested = k.congested) (hn : ∀ k, (f k).noticeSeq = k.noticeSeq) :
    ClassStep now c (updCls c f) f (fun _ => False) 0 := by
  refine ⟨fun s x _ hx => updCls_other hx, fun s _ => by rw [updCls_same], fun s credit _ _ => ?_,
    fun s _ => updCls_still c f s, fun s _ => ⟨0, by omega, .of_same rfl rfl rfl rfl⟩⟩
  have h : Settles (fun _ => False) credit s (updCls c f s) := by
    refine .of_idle (fun x => ?_) (fun _ => rfl) rfl rfl rfl
    rw [clsAt_updCls]
    split
    · exact ⟨hg _, hc _, hn _⟩
    · exact ⟨rfl, rfl, rfl⟩
  exact h.congr fun x => by simp

theorem ClassStep.stays : ClassStep now c (fun s => s) (fun k => k) (fun _ => False) 0 :=
  ⟨fun _ _ _ _ => rfl, fun _ _ => rfl, fun _ _ _ _ => (Settles.of_adm rfl (fun _ => rfl) rfl).congr (by simp),
    fun s _ => .refl s, fun s _ => ⟨0, by omega, .refl s⟩⟩

/-- A choice between two operations, by the class as it stands. -/
theorem ClassStep.ite {op op' : State → State} {f f' : ClassState → ClassState} {E E' : ClassState → Prop} {m n : Nat}
    {P : ClassState → Prop} [DecidablePred P] (h : ClassStep now c op f E m) (h' : ClassStep now c op' f' E' n) :
    ClassStep now c (fun s => if P (clsAt s c) then op s else op' s) (fun k => if P k then f k else f' k)
      (fun k => (P k ∧ E k) ∨ (¬P k ∧ E' k)) (max m n) := by
  refine ⟨fun s x hs hx => ?_, fun s hs => ?_, fun s credit hs hcr => ?_, fun s hs => ?_, fun s hs => ?_⟩
  · split
    · exact h.other s x hs hx
    · exact h'.other s x hs hx
  · split
    · exact h.same s hs
    · exact h'.same s hs
  · by_cases hp : P (clsAt s c)
    · simp only [if_pos hp] at hcr ⊢
      exact (h.settles s credit hs hcr).congr fun x => and_congr_right fun hx => by simp [hx, hp]
    · simp only [if_neg hp] at hcr ⊢
      exact (h'.settles s credit hs hcr).congr fun x => and_congr_right fun hx => by simp [hx, hp]
  · split
    · exact h.still s hs
    · exact h'.still s hs
  · split
    · obtain ⟨k, hk, hr⟩ := h.course s hs
      exact ⟨k, by omega, hr⟩
    · obtain ⟨k, hk, hr⟩ := h'.course s hs
      exact ⟨k, by omega, hr⟩

end ClassSteps

/-! ### Held lists (R22, R26, R31, R33, R34) -/

section Unlisting

variable {c x : Cls} {s t : State} {line now : Nat} {l : List HeldEntry} {credit : Cls → Int}

/-- A class with another held list, and its age timer as a new head sets it (R34). -/
def withHeld (l : List HeldEntry) (now : Nat) (k : ClassState) : ClassState :=
  if k.held.head?.map (·.line) = l.head?.map (·.line) then { k with held := l }
  else { k with held := l, ageTimer := ageTimerOf { k with held := l } now }

theorem setHeld_eq : setHeld c l s = evalCongestion c (updCls c (withHeld l s.now) s) := rfl

theorem withHeld_fields (l : List HeldEntry) (now : Nat) (k : ClassState) :
    withHeld l now k = { k with held := l, ageTimer := (withHeld l now k).ageTimer } := by
  unfold withHeld; split <;> rfl

theorem withHeld_rest (l : List HeldEntry) (now : Nat) (k : ClassState) : (withHeld l now k).held = l ∧
    (withHeld l now k).credit = k.credit ∧ (withHeld l now k).congested = k.congested ∧
    (withHeld l now k).noticeSeq = k.noticeSeq := by rw [withHeld_fields]; exact ⟨rfl, rfl, rfl, rfl⟩

/-- One class's age timer follows the head of its held list (R34). -/
def AgeFollows (now : Nat) (j k : ClassState) : Prop :=
  (k.held.head?.map (·.line) = j.held.head?.map (·.line) → k.ageTimer = j.ageTimer) ∧
    (k.held.head?.map (·.line) ≠ j.held.head?.map (·.line) → AgeTimerSet k now)

theorem ageTimerOf_set {k : ClassState} (h : k.ageTimer = ageTimerOf k now) : AgeTimerSet k now := by
  refine ⟨fun hk => ?_, fun x rest hk => ?_⟩ <;> rw [h] <;> simp [ageTimerOf, hk]

theorem AgeTimerSet.congr {j k : ClassState} (h : AgeTimerSet j now) (hh : k.held = j.held)
    (ha : k.ageTimer = j.ageTimer) (hm : k.maxHoldAge = j.maxHoldAge) : AgeTimerSet k now := by
  simpa only [AgeTimerSet, hh, ha, hm] using h

theorem AgeFollows.congr {j j' k k' : ClassState} (h : AgeFollows now j k) (hj : settled j' = settled j)
    (hk : settled k' = settled k) : AgeFollows now j' k' := by
  obtain ⟨-, -, hh, ha, -⟩ := settled_fields hj
  obtain ⟨-, -, hh', ha', -, -, -, -, -, -, -, -, hm'⟩ := settled_fields hk
  rw [AgeFollows, hh, ha, hh', ha']
  exact ⟨h.1, fun hne => (h.2 hne).congr hh' ha' hm'⟩

theorem ageFollows_refl (k : ClassState) : AgeFollows now k k := ⟨fun _ => rfl, fun h => absurd rfl h⟩

theorem withHeld_ageFollows (l : List HeldEntry) (k : ClassState) : AgeFollows now k (withHeld l now k) := by
  unfold withHeld
  split
  · exact ⟨fun _ => rfl, fun h => absurd (Eq.symm ‹_›) h⟩
  · exact ⟨fun h => absurd h.symm ‹_›, fun _ => ageTimerOf_set rfl⟩

theorem ageTimersFollow_iff : AgeTimersFollow s t ↔ ∀ c, AgeFollows s.now (clsAt s c) (clsAt t c) := Iff.rfl

/-- A change of a held list (R34). -/
theorem ClassStep.setHeld (l : ClassState → List HeldEntry) :
    ClassStep now c (fun s => setHeld c (l (clsAt s c)) s) (fun k => withHeld (l k) now k) (fun _ => True) 1 := by
  refine (ClassStep.evaluated (now := now) (c := c) (f := fun k => withHeld (l k) now k)
    (fun k => (withHeld_rest _ _ k).2.2.1) fun k => (withHeld_rest _ _ k).2.2.2).congr fun s hs => ?_
  rw [setHeld_eq, hs]
  rfl

/-- A class from whose list a line has gone. -/
def unlisted (line now : Nat) (k : ClassState) : ClassState :=
  if listed k line then withHeld (k.held.filter fun h => h.line != line) now k else k

theorem unlisted_fields (line now : Nat) (k : ClassState) : unlisted line now k = { k with
    held := k.held.filter fun h => h.line != line, ageTimer := (unlisted line now k).ageTimer } := by
  unfold unlisted
  split
  · exact withHeld_fields _ _ _
  · rename_i h
    have : k.held.filter (fun h => h.line != line) = k.held := by
      refine List.filter_eq_self.mpr fun e he => ?_
      simp only [listed, List.any_eq_true, not_exists, not_and, beq_iff_eq] at h
      simpa using h e he
    rw [this]

theorem unlisted_ageFollows (k : ClassState) : AgeFollows now k (unlisted line now k) := by
  unfold unlisted
  split
  · exact withHeld_ageFollows _ _
  · exact ageFollows_refl k

theorem ClassStep.unlistFrom (line : Nat) : ClassStep now c (unlistFrom c line) (unlisted line now)
    (fun k => listed k line = true) 1 := by
  have h := (ClassStep.setHeld (now := now) (c := c) fun k => k.held.filter fun h => h.line != line).ite
    (P := fun k => listed k line = true) ClassStep.stays
  refine ⟨h.other, h.same, fun s credit hs hcr => ?_, h.still, h.course⟩
  exact (h.settles s credit hs hcr).congr fun x => by simp

/-- What a line that leaves whatever list it is on leaves: the classes, their congestion, and at most five reports. -/
theorem unlist_effect (hc : ∀ c, credit c = (clsAt s c).credit) :
    (∀ x, settled (clsAt (unlist line s) x) = settled (unlisted line s.now (clsAt s x))) ∧
    Settles (fun x => listed (clsAt s x) line = true) credit s (unlist line s) ∧ Still s (unlist line s) ∧
    ∃ k ≤ 5, Course (fun _ => True) IsEntry s (unlist line s) k := by
  obtain ⟨h1, h2, h3, h4⟩ := classSteps_effect (credit := credit) (fun c => ClassStep.unlistFrom (c := c) line) allClasses
    allClasses_nodup rfl fun c _ => by rw [hc c, unlisted_fields]
  refine ⟨fun x => ?_, h2.congr fun x => by simp [mem_allClasses], h3, h4⟩
  have := h1 x
  rwa [if_pos (mem_allClasses x)] at this

theorem unlist_ageFollows : AgeTimersFollow s (unlist line s) := fun c =>
  (unlisted_ageFollows (clsAt s c)).congr rfl ((unlist_effect (credit := fun c => (clsAt s c).credit) fun _ => rfl).1 c)

end Unlisting
end Sys2Proof.Machine

namespace Sys2Proof.Machine

/-! ### What the engines that are told of a slot do to the requests and the conditions (R30, R71, R72, R146) -/

section EngineWorks

variable {s t u : State} {line : Nat}

/-- From `s` to `t` only report entries have come among the requests, and only TIMING_UNQUALIFIED and TEST_FAILED may
have changed of the conditions. -/
structure EngineWork (s t : State) : Prop where
  turnover : Turnover (fun _ => False) IsEntry s t
  conds : ∀ c, c ≠ .timingUnqualified → c ≠ .testFailed → condGet t.fault c = condGet s.fault c

theorem EngineWork.trans (h : EngineWork s t) (h2 : EngineWork t u) : EngineWork s u :=
  ⟨h.turnover.trans h2.turnover, fun c h3 h4 => (h2.conds c h3 h4).trans (h.conds c h3 h4)⟩

theorem EngineWork.of_same (h1 : t.path = s.path) (h2 : t.fault = s.fault) : EngineWork s t :=
  ⟨.of_path h1, fun _ _ _ => by rw [h2]⟩

theorem EngineWork.refl (s : State) : EngineWork s s := .of_same rfl rfl

theorem EngineWork.then_same (h : EngineWork s t) (h1 : u.path = t.path) (h2 : u.fault = t.fault) : EngineWork s u :=
  h.trans (.of_same h1 h2)

theorem EngineWork.since (h : EngineWork t u) (h1 : t.path = s.path) (h2 : t.fault = s.fault) : EngineWork s u :=
  (EngineWork.of_same h1 h2).trans h

theorem report_work (code : Nat) (body : List FieldSpec) (s : State) : EngineWork s (report code body s) :=
  ⟨reportAt_turnover _ _ _ _, fun _ _ _ => by simp⟩

theorem moveTiming_work (new : TimingState) (cause : Nat) (f : Transfer → Transfer) (s : State) :
    EngineWork s (moveTiming new cause f s) := by
  obtain ⟨k, -, h⟩ := moveTiming_takes new cause f s
  exact ⟨h.turnover, fun c hc _ => moveTiming_cond hc⟩

theorem phaseStep_work (theta : Int) (s : State) : EngineWork s (phaseStep theta s) := by
  simp only [phaseStep, afterTimeChange]
  exact (report_work _ _ _).since rfl rfl

theorem stepSelection_work (theta : Int) (s : State) : EngineWork s (stepSelection theta s) := by
  rw [stepSelection]
  exact (phaseStep_work _ _).since rfl rfl

theorem steer_work (theta : Int) (s : State) : EngineWork s (steer theta s) := by
  simp only [steer]
  split <;> exact .of_same rfl rfl

theorem acquireSelection_work (theta : Int) (s : State) : EngineWork s (acquireSelection theta s) := by
  simp only [acquireSelection]
  split
  · exact (stepSelection_work theta s).then_same rfl rfl
  · have hs := steer_work theta s
    split
    · split
      · exact (hs.then_same (u := pushFreq (steer theta s)) rfl rfl).trans (moveTiming_work _ _ _ _)
      · exact hs.then_same rfl rfl
    · exact hs.then_same rfl rfl

theorem trackSelection_work (theta : Int) (s : State) : EngineWork s (trackSelection theta s) := by
  simp only [trackSelection]
  split
  · exact (stepSelection_work theta s).trans (moveTiming_work _ _ _ _)
  · have hs : EngineWork s (pushFreq (steer theta s)) := (steer_work theta s).then_same rfl rfl
    split
    · exact hs.then_same rfl rfl
    · split
      · exact hs.trans (moveTiming_work _ _ _ _)
      · exact hs.then_same rfl rfl

theorem applySelection_work (theta : Int) (s : State) : EngineWork s (applySelection theta s) := by
  simp only [applySelection]
  split
  · exact acquireSelection_work theta s
  · exact acquireSelection_work theta s
  · exact trackSelection_work theta s
  · exact (moveTiming_work _ _ _ _).trans (acquireSelection_work theta _)

theorem joinBlock_work (x : Sample) (s : State) : EngineWork s (joinBlock x s) := by
  simp only [joinBlock]
  split
  · exact .of_same rfl rfl
  · split
    · exact (applySelection_work _ _).since rfl rfl
    · exact .refl s

theorem acceptSample_work (x : Sample) (s : State) : EngineWork s (acceptSample x s) := by
  simp only [acceptSample]
  refine EngineWork.trans ?_ (joinBlock_work x _)
  split
  · exact (moveTiming_work _ _ _ _).since rfl rfl
  · exact .of_same rfl rfl

theorem computeSample_work (a : Stamp) (b c : TakenStamp) (d : Stamp) (s : State) :
    EngineWork s (computeSample a b c d s) := by
  simp only [computeSample]
  split
  · exact .of_same rfl rfl
  split
  · exact .of_same rfl rfl
  split
  · exact .of_same rfl rfl
  split
  · exact .of_same rfl rfl
  split
  · exact .of_same rfl rfl
  · exact acceptSample_work _ s

theorem queryCompletion_work (o q : BitVec 16) (sent : Bool) (t : TakenStamp) (s : State) :
    EngineWork s (queryCompletion o q sent t s) := by
  simp only [queryCompletion]
  split
  · split
    · split <;> exact .of_same rfl rfl
    · split
      · split
        · exact (computeSample_work _ _ _ _ _).since rfl rfl
        · exact .of_same rfl rfl
      · exact .of_same rfl rfl
    all_goals exact .of_same rfl rfl
  · exact .of_same rfl rfl

theorem raiseCondition_takes (c : Cond) : TakesAtMost 1 (raiseCondition c) := fun s => changeCondition_takes _ _ _ s

theorem endLoop_takes : TakesAtMost 2 endLoop := by
  intro s
  simp only [endLoop]
  have h1 : Reporting s (reportLoopDone (s.updLoop fun l =>
      { l with state := .done, outcome := some (loopVerdict s.loop) })) (0 + 1) :=
    (Reporting.updLoop _ s).trans (.one _ _ _)
  split
  · exact ⟨0 + 1 + 0, by omega, h1.trans (.updLoop _ _)⟩
  · obtain ⟨k, hk, h2⟩ := raiseCondition_takes .testFailed _
    exact ⟨0 + 1 + 0 + k, by omega, (h1.trans (.updLoop _ _)).trans h2⟩

theorem loopCheckEnd_takes : TakesAtMost 2 loopCheckEnd := by
  intro s
  unfold loopCheckEnd
  split
  · exact endLoop_takes s
  · exact ⟨0, by omega, .start⟩

theorem endLoop_cond {c : Cond} (h : c ≠ .testFailed) : condGet (endLoop s).fault c = condGet s.fault c := by
  simp only [endLoop]
  split
  · simp [reportLoopDone]
  · rw [raiseCondition_other h]
    simp [reportLoopDone]

theorem loopCheckEnd_cond {c : Cond} (h : c ≠ .testFailed) : condGet (loopCheckEnd s).fault c = condGet s.fault c := by
  unfold loopCheckEnd
  split
  · exact endLoop_cond h
  · rfl

theorem loopDescriptorEvent_takes (slot : Nat) (q : BitVec 16) (f : DescriptorFate) :
    TakesAtMost 2 (loopDescriptorEvent slot q f) := by
  intro s
  simp only [loopDescriptorEvent]
  split
  · obtain ⟨k, hk, h⟩ := loopCheckEnd_takes (s.updLoop (applyFate _ f))
    exact ⟨0 + k, by omega, (Reporting.updLoop _ s).trans h⟩
  · exact ⟨0, by omega, .updLoop _ s⟩

theorem loopCheckEnd_work (s : State) : EngineWork s (loopCheckEnd s) := by
  obtain ⟨k, -, h⟩ := loopCheckEnd_takes s
  exact ⟨h.turnover, fun c _ hc => loopCheckEnd_cond hc⟩

theorem loopDescriptorEvent_work (slot : Nat) (q : BitVec 16) (f : DescriptorFate) (s : State) :
    EngineWork s (loopDescriptorEvent slot q f s) := by
  simp only [loopDescriptorEvent]
  split
  · exact (loopCheckEnd_work _).since rfl rfl
  · exact .of_same rfl rfl

theorem slotCompleted_work (line : Nat) (timing sent : Bool) (t : TakenStamp) (s : State) :
    EngineWork s (slotCompleted line timing sent t s) := by
  have horphan : ∀ u : State, EngineWork u
      (if timing then xferCount (fun c => { c with cOrphan := satInc c.cOrphan }) u else u) := by
    intro u
    split <;> exact .of_same rfl rfl
  simp only [slotCompleted]
  split
  · split
    · split
      · exact (queryCompletion_work _ _ _ _ _).since rfl rfl
      · exact .of_same rfl rfl
    · exact EngineWork.trans ((horphan (freeSlot _ s)).since rfl rfl) (loopDescriptorEvent_work _ _ _ _)
    · exact horphan s
  · exact horphan s

theorem slotRemoved_work (line : Nat) (s : State) : EngineWork s (slotRemoved line s) := .of_same (by simp) (by simp)

theorem queryLost_work (o q : BitVec 16) (s : State) : EngineWork s (queryLost o q s) := .of_same (by simp) (by simp)

theorem queryRejected_work (o q : BitVec 16) (s : State) : EngineWork s (queryRejected o q s) :=
  .of_same (by simp) (by simp)

theorem slotLost_work (line : Nat) (s : State) : EngineWork s (slotLost line s) := by
  simp only [slotLost]
  split
  · split
    · exact (queryLost_work _ _ _).since rfl rfl
    · exact (loopDescriptorEvent_work _ _ _ _).since rfl rfl
    · exact .refl s
  · exact .refl s

theorem slotRejected_work (line sequence : Nat) (s : State) : EngineWork s (slotRejected line sequence s) := by
  simp only [slotRejected]
  split
  · split
    · split
      · exact (queryRejected_work _ _ _).since rfl rfl
      · exact .of_same rfl rfl
    · split
      · exact (loopDescriptorEvent_work _ _ _ _).since rfl rfl
      · exact .of_same rfl rfl
    · exact .of_same rfl rfl
  · exact .of_same rfl rfl

theorem EngineWork.waiting (h : EngineWork s t) (c : Cls) : waitingNotices t c = waitingNotices s c :=
  h.turnover.waiting id (by simp [IsEntry])

/-- No evaluation of congestion sees what the engines do. -/
theorem EngineWork.settles {credit : Cls → Int} (h : EngineWork s t) (ha : t.adm = s.adm) :
    Settles (fun _ => False) credit s t := .of_adm ha h.waiting (h.conds .congestion (by simp) (by simp))

/-! The loss and the rejection of a slot's descriptor, case by case (R68, R72, R146). -/

variable {j : Nat} {o q : BitVec 16} {e : Exchange}

theorem queryLost_gone (h : findExchange s o q = none) :
    queryLost o q s = xferCount (fun c => { c with queryLost := satInc c.queryLost }) s := by simp only [queryLost, h]

theorem queryLost_found (h : findExchange s o q = some e) :
    queryLost o q s = xferCount (fun c => { c with queryLost := satInc c.queryLost }) (removeExchange o s) := by
  simp only [queryLost, h]

theorem slotLost_free (h : ∀ j, slotOfLine s line = some j → slotAt s j = .free) : slotLost line s = s := by
  simp only [slotLost]
  split
  · rw [h _ ‹_›]
  · rfl

theorem slotLost_query (hj : slotOfLine s line = some j) (hq : slotAt s j = .query o q) :
    slotLost line s = queryLost o q (freeSlot j s) := by simp only [slotLost, hj, hq]

theorem slotLost_test (hj : slotOfLine s line = some j) (hq : slotAt s j = .test q) :
    slotLost line s = loopDescriptorEvent j q .lost (freeSlot j s) := by simp only [slotLost, hj, hq]

/-- The flight timeout or the overwrite of a descriptor, by the slot of its line (R68, R72). -/
theorem slotLost_spec (line : Nat) (s : State) : SlotLost s (slotLost line s) line := by
  refine ⟨fun h => ?_, fun j slots hj hs => ⟨fun q hq => ?_, fun o q hq => ?_⟩⟩
  · rw [slotLost_free h]
    exact ⟨rfl, rfl⟩
  · subst hs
    rw [slotLost_test hj hq, loopDescriptorEvent_frame.2.2.2.2.2.2.2.2.2.2.2.1]
    rfl
  · subst hs
    rw [slotLost_query hj hq]
    refine ⟨by simp, fun hf => ?_, fun e hf => ?_⟩
    · rw [queryLost_gone (s := freeSlot j s) hf]
      rfl
    · rw [queryLost_found (s := freeSlot j s) hf]
      rfl

/-- The loss of a slot's descriptor reads and changes the transfer engine and the loopback engine alone. -/
theorem SlotLost.congr {s' t' : State} (h : SlotLost s t line) (hx : s'.xfer = s.xfer) (hl : s'.loop = s.loop)
    (hw : s'.windows = s.windows) (hx' : t'.xfer = t.xfer) (hl' : t'.loop = t.loop) : SlotLost s' t' line := by
  simpa only [SlotLost, slotOfLine, windowOfKind, windowEntry, slotAt, findExchange, hx, hl, hw, hx', hl'] using h

end EngineWorks

/-! ### The rows of completions and overwrites (R29, R33, R37) -/

section CompletionRows

variable {s t : State} {id i : Nat} {r : LineRequest} {w : Window} {p : Port}

theorem covers_not_empty {m : BitVec 64} {n : Nat} (h : covers m n = true) : maskEmpty m = false := by
  by_contra hc
  have hm : m = 0 := by simpa [maskEmpty] using hc
  simp [covers, hm] at h

theorem completion_sight {line : Nat} {m : BitVec 64} {d : Line} {x : Sighting} (h : sightWrite p w line m d = x)
    (hx : x = .txCompletion ∨ x = .rxCompletion) : covers m 0 = true := by
  by_contra hno
  have htx : isTxCompletion m d = false := by simp [isTxCompletion, coversReadyStatus, hno]
  have hrx : isRxCompletion m d = false := by simp [isRxCompletion, coversReadyStatus, hno]
  simp only [sightWrite, htx, hrx, Bool.false_eq_true, if_false] at h
  repeat' split at h
  all_goals
    subst h
    simp at hx

/-- A completion is a write that covers a byte. -/
theorem completion_write {x : Sighting} (h : ModemNext s id r x i w) (hx : x = .txCompletion ∨ x = .rxCompletion) :
    reqIsWrite r = true ∧ maskEmpty (reqMask r) = false := by
  obtain ⟨-, hs, -⟩ := h
  obtain ⟨_, _, -, hw, hsw⟩ := sight_accepted hs (by rcases hx with rfl | rfl <;> simp)
  exact ⟨hw, covers_not_empty (completion_sight hsw hx)⟩

/-- The row of a completion: its observation, and the write goes on with its stamp (R54, R96). -/
theorem completion_row {x : Sighting} {c : Instr} (h : ModemNext s id r x i w)
    (hc : exec c s = .next (classifyWhen (· == x) .modem s)) (hx : x = .txCompletion ∨ x = .rxCompletion) :
    exec c s = .next (setReq id (.port .modem r (some (i, w)) (observe x w r s).1) .forwarded (observe x w r s).2) := by
  obtain ⟨-, hm⟩ := completion_write h hx
  obtain ⟨hn, hs, hw⟩ := h
  rw [hc, observed_row hn hs hw (by simp) (by rcases hx with rfl | rfl <;> simp), accept_full hm]

theorem txCompletion_row (h : ModemNext s id r .txCompletion i w) : exec .txCompletion s = .next
    (setReq id (.port .modem r (some (i, w)) (txCompletion w (reqLine r) (seen r) s).1) .forwarded
      (txCompletion w (reqLine r) (seen r) s).2) := by
  have hrow := completion_row (c := .txCompletion) h rfl (.inl rfl)
  rwa [observe] at hrow

theorem rxCompletion_row (h : ModemNext s id r .rxCompletion i w) : exec .rxCompletion s = .next
    (setReq id (.port .modem r (some (i, w)) (rxCompletion (seen r) s).1) .forwarded
      (rxCompletion (seen r) s).2) := by
  have hrow := completion_row (c := .rxCompletion) h rfl (.inr rfl)
  rwa [observe] at hrow

/-- A port's request goes on from where its event has left the requests. -/
theorem Turnover.forwards {N : Cls → Prop} {J : Job → Prop} (h : Turnover N J s t) (hn : Next s p id r) (job : Job) :
    Forwarded (setReq id job .forwarded t) id job := by
  obtain ⟨x, hx, hid, hxp⟩ := hn.mem
  refine ⟨{ x with job := job, stage := .forwarded }, List.mem_map.mpr ⟨x, h.kept hx ?_, if_pos hid⟩, hid, rfl, rfl⟩
  rintro ⟨c, d, -, hj⟩
  simp [isPortReq, hj] at hxp

/-- A stamped completion goes on as R54 says, by its mask. -/
theorem GoesOnStamped.of_forwarded {c : TakenStamp} (h : Forwarded t id (.port .modem r (some (i, w)) (some c)))
    (hw : reqIsWrite r = true) (hn : maskEmpty (reqMask r) = false) : GoesOnStamped t id r i w c := by
  refine ⟨h, fun hm => ?_, fun hm => ⟨?_, rfl, rfl⟩⟩
  · simp [firstAccess, isJudgedRead, isPartialWrite, hw, hm, writtenData]
  · simp [firstAccess, isJudgedRead, isPartialWrite, hw, hm, hn]

end CompletionRows
end Sys2Proof.Machine

namespace Sys2Proof.Machine

/-! ### Completions for descriptor lines (R29 to R31) -/

section TxCompletions

variable {s t u v : State} {id i line : Nat} {r : LineRequest} {w : Window} {credit : Cls → Int} {e : FlightEntry}

theorem OnlyChanges.trans {l : List Block} (h : OnlyChanges l s t) (h2 : OnlyChanges l t u) : OnlyChanges l s u :=
  onlyChanges_iff.mpr ((onlyChanges_iff.mp h2).trans (onlyChanges_iff.mp h))

theorem OnlyChanges.mono {l l' : List Block} (h : OnlyChanges l s t) (hl : ∀ b ∈ l, b ∈ l') : OnlyChanges l' s t :=
  fun b hb => h b fun hm => hb (hl b hm)

theorem Still.of_changes {l : List Block} (h : OnlyChanges l s t)
    (hl : ∀ b ∈ [Block.link, .now, .time, .windows, .inReset], b ∉ l) : Still s t :=
  ⟨h .link (hl _ (by simp)), h .now (hl _ (by simp)), by
    rw [timeNow, show t.time = s.time from h .time (hl _ (by simp))]; rfl, h .windows (hl _ (by simp)),
    h .inReset (hl _ (by simp))⟩

theorem flightOf_none (h : inFlight s line = false) : flightOf s line = none := by
  rw [flightOf, List.find?_eq_none]
  simpa [inFlight] using h

theorem flightOf_some (h : flightOf s line = some e) : e ∈ s.adm.flight ∧ e.line = line ∧ inFlight s line = true := by
  have hm := List.mem_of_find?_eq_some h
  have hp := List.find?_some h
  refine ⟨hm, by simpa using hp, ?_⟩
  rw [inFlight, List.any_eq_true]
  exact ⟨e, hm, hp⟩

/-- A count changes nothing that an evaluation of congestion reads. -/
theorem countCls_settles (c : Cls) (f : ClassCounters → ClassCounters) :
    Settles (fun _ => False) credit s (countCls c f s) := by
  refine .of_idle (fun x => ?_) (fun _ => rfl) rfl rfl rfl
  rw [countCls, clsAt_updCls]
  split <;> exact ⟨rfl, rfl, rfl⟩

theorem countCls_still (c : Cls) (f : ClassCounters → ClassCounters) (s : State) : Still s (countCls c f s) :=
  updCls_still c _ s

theorem countCls_rest (c x : Cls) (f : ClassCounters → ClassCounters) (s : State) :
    (clsAt (countCls c f s) x).held = (clsAt s x).held ∧ (clsAt (countCls c f s) x).ageTimer = (clsAt s x).ageTimer ∧
    (clsAt (countCls c f s) x).credit = (clsAt s x).credit := by
  rw [countCls, clsAt_updCls]
  split <;> exact ⟨rfl, rfl, rfl⟩

/-- The age timers after an operation that leaves the lists and the timers. -/
theorem AgeTimersFollow.since (h : AgeTimersFollow v t) (hn : v.now = s.now)
    (hv : ∀ c, (clsAt v c).held = (clsAt s c).held ∧ (clsAt v c).ageTimer = (clsAt s c).ageTimer) :
    AgeTimersFollow s t := by
  intro c
  have := h c
  rwa [(hv c).1, (hv c).2, hn] at this

theorem AgeTimersFollow.adm (h : AgeTimersFollow s t) (ha : u.adm = t.adm) : AgeTimersFollow s u := by
  intro c
  rw [clsAt_of_adm ha]
  exact h c

/-- The requests that a line's leaving the lists leaves. -/
theorem unlist_turnover (line : Nat) (s : State) : Turnover (fun _ => True) IsEntry s (unlist line s) := by
  obtain ⟨-, -, -, k, -, h⟩ := unlist_effect (s := s) (line := line) (credit := fun c => (clsAt s c).credit) fun _ => rfl
  exact h.toTurnover

/-- From `s` to `u` a line has left the held lists (R31, R33): the lists, the age timers, the evaluations with the
credit as `u` shows it, and the requests. -/
structure LeftLists (s u : State) (line : Nat) : Prop where
  held : ∀ c, (clsAt u c).held = (clsAt s c).held.filter fun h => h.line != line
  ages : AgeTimersFollow s u
  settles : Settles (fun c => listed (clsAt s c) line = true) (fun c => (clsAt u c).credit) s u
  still : Still s u
  turnover : Turnover (fun _ => True) IsEntry s u

/-- A line leaves the lists behind an operation that no evaluation sees and that leaves the lists, the timers and the
requests. -/
theorem unlist_since (hv : Settles (fun _ => False) credit s v) (hs : Still s v)
    (hp : Turnover (fun _ => True) IsEntry s v)
    (hold : ∀ c, (clsAt v c).held = (clsAt s c).held ∧ (clsAt v c).ageTimer = (clsAt s c).ageTimer)
    (hcr : ∀ c, credit c = (clsAt v c).credit) : LeftLists s (unlist line v) line := by
  have hsame : (fun c => (clsAt (unlist line v) c).credit) = credit := funext fun c => by rw [unlist_rest.2.1, hcr]
  obtain ⟨-, h, hstill, -⟩ := unlist_effect (s := v) (line := line) hcr
  refine ⟨fun c => by rw [unlist_held, (hold c).1], unlist_ageFollows.since hs.now hold, ?_, hs.trans hstill,
    hp.trans (unlist_turnover _ _)⟩
  rw [hsame]
  exact (hv.after hs h).congr fun x => by rw [listed, listed, (hold x).1]

/-- Congestion where the port's request then goes on or is answered, behind the work of the engines that are told. -/
theorem LeftLists.settled {p : Port} {q : LineRequest} {win : Option (Nat × Window)} {stamp : Option TakenStamp}
    {st : Stage} (h : LeftLists s u line) (hw : EngineWork u t) (ha : t.adm = u.adm) (hn : Next s p id r) :
    CongestionSettled s (setReq id (.port p q win stamp) st t) (fun c => listed (clsAt s c) line = true)
      (fun c => (clsAt u c).credit) :=
  (h.settles.then (hw.settles ha) h.still).settled (t := t) rfl rfl
    (waitingNotices_setReq (h.turnover.trans (hw.turnover.mono (fun _ => False.elim) fun _ h => h)) hn)

theorem txCompletion_unmatched (d : Line) (h : inFlight s line = false) : txCompletion w line d s =
    (none, unlist line (countCls (windowClass w) (fun k => { k with unmatched := satInc k.unmatched }) s)) := by
  simp only [txCompletion, flightOf_none h]

/-- What an unmatched completion leaves: a count of the window's class, and the line off the lists. -/
theorem txCompletion_unmatched_spec (d : Line) (h : inFlight s line = false) : ∃ u,
    txCompletion w line d s = (none, u) ∧ LeftLists s u line ∧ u.adm.flight = s.adm.flight ∧
    (∀ c, (clsAt u c).credit = (clsAt s c).credit ∧ (clsAt u c).counters = if c = windowClass w then
      { (clsAt s c).counters with unmatched := satInc (clsAt s c).counters.unmatched } else (clsAt s c).counters) ∧
    OnlyChanges [.adm, .path, .march, .rep, .fault] s u := by
  refine ⟨_, txCompletion_unmatched d h, unlist_since (countCls_settles _ _) (countCls_still _ _ s) (.of_path rfl)
    (fun c => ?_) (fun _ => rfl), ?_, fun c => ⟨?_, ?_⟩, onlyChanges_iff.mpr (by simp)⟩
  · exact ⟨(countCls_rest ..).1, (countCls_rest ..).2.1⟩
  · exact (unlist_rest (x := .s)).2.2.2.2
  · rw [unlist_rest.2.1]
    exact (countCls_rest ..).2.2
  · rw [unlist_rest.2.2.2.1, countCls, clsAt_updCls]
    split <;> rfl

/-- Settles O31: the counter, then the line leaves the lists, and its write goes on as it came. -/
theorem unmatchedCompletionPasses : Obligations.UnmatchedCompletionPasses := by
  unfold Obligations.UnmatchedCompletionPasses
  intro s id r i w h hf
  obtain ⟨u, hu, hl, hflight, hcls, hframe⟩ := txCompletion_unmatched_spec (w := w) (seen r) hf
  have hrow := txCompletion_row h
  rw [hu] at hrow
  refine ⟨_, hrow, hl.turnover.forwards h.1 _, ?_, fun c hc => ?_, fun c => ⟨(hcls c).1, hl.held c⟩, hl.ages.adm rfl,
    hflight, hframe .time (by decide), hframe .xfer (by decide), hframe .loop (by decide),
    hframe.trans (onlyChanges_iff.mpr (by simp))⟩
  · exact (hcls _).2.trans (if_pos rfl)
  · exact (hcls c).2.trans (if_neg hc)

/-- What a matched completion leaves of the classes (R29). -/
theorem settleClass_rest (e : FlightEntry) (sent : Bool) (k : ClassState) : gauge (settleClass e sent k) = gauge k ∧
    (settleClass e sent k).congested = k.congested ∧ (settleClass e sent k).noticeSeq = k.noticeSeq ∧
    (settleClass e sent k).ageTimer = k.ageTimer := by
  unfold settleClass; split <;> exact ⟨rfl, rfl, rfl, rfl⟩

/-- The admission unit behind a matched completion, before the engine is told. -/
def completed (s : State) (line : Nat) (e : FlightEntry) (sent : Bool) : State :=
  unlist line (updCls e.cls (settleClass e sent) (removeFlight line s))

theorem completed_spec (s : State) (line : Nat) (e : FlightEntry) (sent : Bool) :
    LeftLists s (completed s line e sent) line ∧
    (completed s line e sent).adm.flight = s.adm.flight.filter (fun x => x.line != line) ∧
    (∀ c, (clsAt (completed s line e sent) c).credit =
        (if c = e.cls then settleClass e sent (clsAt s c) else clsAt s c).credit ∧
      (clsAt (completed s line e sent) c).counters =
        (if c = e.cls then settleClass e sent (clsAt s c) else clsAt s c).counters) ∧
    OnlyChanges [.adm, .path, .march, .rep, .fault] s (completed s line e sent) := by
  obtain ⟨v, hv⟩ : ∃ v, v = updCls e.cls (settleClass e sent) (removeFlight line s) := ⟨_, rfl⟩
  have hcls : ∀ c, clsAt v c = if c = e.cls then settleClass e sent (clsAt s c) else clsAt s c := fun c => by
    rw [hv, clsAt_updCls]; rfl
  have hrest : ∀ c, gauge (clsAt v c) = gauge (clsAt s c) ∧ (clsAt v c).congested = (clsAt s c).congested ∧
      (clsAt v c).noticeSeq = (clsAt s c).noticeSeq ∧ (clsAt v c).ageTimer = (clsAt s c).ageTimer := fun c => by
    rw [hcls]
    split
    · exact settleClass_rest e sent _
    · exact ⟨rfl, rfl, rfl, rfl⟩
  rw [completed, ← hv]
  refine ⟨unlist_since (.of_idle (fun c => ⟨(hrest c).1, (hrest c).2.1, (hrest c).2.2.1⟩) (fun c => ?_) ?_ ?_ ?_)
    ?_ ?_ (fun c => ⟨(gauge_eq (hrest c).1).1, (hrest c).2.2.2⟩) fun _ => rfl, ?_, fun c => ⟨?_, ?_⟩,
    onlyChanges_iff.mpr (by simp [hv])⟩
  · rw [hv]; rfl
  · rw [hv]; rfl
  · rw [hv]; rfl
  · rw [hv]; rfl
  · rw [hv]; exact ⟨rfl, rfl, rfl, rfl, rfl⟩
  · exact .of_path (by rw [hv]; rfl)
  · rw [(unlist_rest (x := .s)).2.2.2.2, hv]; rfl
  · rw [unlist_rest.2.1, hcls]
  · rw [unlist_rest.2.2.2.1, hcls]

theorem txCompletion_matched (d : Line) (h : flightOf s line = some e) : txCompletion w line d s =
    if e.kind = 1 ∨ e.kind = 2 then
      (some (takeStamp (completed s line e (descStatus d == 1)) true d),
        slotCompleted line (e.kind == 1) (descStatus d == 1) (takeStamp (completed s line e (descStatus d == 1)) true d)
          (countStamp (takeStamp (completed s line e (descStatus d == 1)) true d)
            (completed s line e (descStatus d == 1))))
    else (none, slotRemoved line (completed s line e (descStatus d == 1))) := by
  simp only [txCompletion, h, completed]

/-- A stamp reads the link monitor and the time unit alone (R52). -/
theorem takeStamp_congr {tx : Bool} {d : Line} (hl : t.link = s.link) (ht : t.time = s.time) :
    takeStamp t tx d = takeStamp s tx d := by
  unfold takeStamp stampValue timeNow
  rw [hl, ht]

theorem slotOfLine_congr (h : t.windows = s.windows) : slotOfLine t line = slotOfLine s line := by
  simp only [slotOfLine, windowOfKind, windowEntry, h]

/-- A matched completion: the admission unit as `completed` leaves it, and what the engines then do (R29, R30). -/
theorem txCompletion_matched_spec (d : Line) (h : flightOf s line = some e) : ∃ u t,
    u = completed s line e (descStatus d == 1) ∧ EngineWork u t ∧ t.adm = u.adm ∧
    OnlyChanges [.path, .rep, .fault, .time, .xfer, .loop, .freeUses] u t ∧
    (e.kind = 1 ∨ e.kind = 2 → txCompletion w line d s = (some (takeStamp s true d), t)) ∧
    (e.kind ≠ 1 → e.kind ≠ 2 → txCompletion w line d s = (none, slotRemoved line u) ∧ t = slotRemoved line u) := by
  have hframe := (completed_spec s line e (descStatus d == 1)).2.2.2
  have hm := txCompletion_matched (w := w) d h
  generalize completed s line e (descStatus d == 1) = u at *
  have hstamp := takeStamp_congr (tx := true) (d := d) (hframe .link (by decide)) (hframe .time (by decide))
  rw [hstamp] at hm
  by_cases hk : e.kind = 1 ∨ e.kind = 2
  · rw [if_pos hk] at hm
    exact ⟨u, _, rfl, (slotCompleted_work _ _ _ _ _).since (by simp) (by simp), by simp,
      onlyChanges_iff.mpr (by simp), fun _ => hm, fun h1 h2 => absurd hk (by simp [h1, h2])⟩
  · rw [if_neg hk] at hm
    exact ⟨u, _, rfl, slotRemoved_work _ _, by simp, onlyChanges_iff.mpr (by simp), fun h => absurd h hk,
      fun _ _ => ⟨hm, rfl⟩⟩

/-- Settles O32: the admission unit settles the entry and the lists, and the engine that is told leaves it. -/
theorem matchedCompletionSettles : Obligations.MatchedCompletionSettles := by
  unfold Obligations.MatchedCompletionSettles
  refine ⟨fun s id r i w h hf => ?_, fun s id r i w e h he => ?_⟩
  · obtain ⟨u, hu, hl, -, hcls, -⟩ := txCompletion_unmatched_spec (w := w) (seen r) hf
    have hrow := txCompletion_row h
    rw [hu] at hrow
    have hcr : (fun c => (clsAt u c).credit) = fun c => (clsAt s c).credit := funext fun c => (hcls c).1
    exact ⟨_, hrow, hcr ▸ hl.settled (.refl u) rfl h.1⟩
  · obtain ⟨u, t, hu, hw, ha, hafter, hstamped, hdata⟩ := txCompletion_matched_spec (w := w) (seen r) he
    obtain ⟨hl, hflight, hcls, hframe⟩ := completed_spec s (reqLine r) e (descStatus (seen r) == 1)
    rw [← hu] at hl hflight hcls hframe
    have hrow := txCompletion_row h
    obtain ⟨p, hp⟩ : ∃ p, p = txCompletion w (reqLine r) (seen r) s := ⟨_, rfl⟩
    have hp2 : p.2 = t := by
      by_cases hk : e.kind = 1 ∨ e.kind = 2
      · rw [hp, hstamped hk]
      · obtain ⟨h1, h2⟩ := hdata (fun hx => hk (.inl hx)) fun hx => hk (.inr hx)
        rw [hp, h1, h2]
    rw [← hp, hp2] at hrow
    have hforward : Forwarded (setReq id (.port .modem r (some (i, w)) p.1) .forwarded t) id
        (.port .modem r (some (i, w)) p.1) :=
      (hl.turnover.trans (hw.turnover.mono (fun _ => False.elim) fun _ h => h)).forwards h.1 _
    have hsettled := hl.settled (q := r) (win := some (i, w)) (stamp := p.1) (st := .forwarded) hw ha h.1
    have hcredit : (fun c => (clsAt u c).credit) = fun c => (clsAt t c).credit :=
      funext fun c => by rw [clsAt_of_adm ha]
    rw [hcredit] at hsettled
    simp only [← clsAt_of_adm ha, ← ha] at hcls hflight
    have hheld := hl.held
    simp only [← clsAt_of_adm ha] at hheld
    refine ⟨_, hrow, hflight, hheld, (hl.ages.adm ha).adm rfl, hsettled, fun hst => ?_, fun hst => ?_, fun c hc => ?_,
      fun h1 h2 => ?_, fun hk => ?_, ?_⟩
    · have := hcls e.cls
      simp only [if_true, settleClass, hst, beq_self_eq_true] at this
      exact this
    · have := hcls e.cls
      simp only [if_true, settleClass, hst, burstBits] at this
      simp at this
      exact this
    · have := hcls c
      rwa [if_neg hc] at this
    · obtain ⟨hpd, htd⟩ := hdata h1 h2
      have hx := hframe .xfer (by decide)
      have hslot : t.xfer = (slotRemoved (reqLine r) u).xfer := by rw [htd]
      rw [slotRemoved_xfer, slotOfLine_congr (hframe .windows (by decide)), hx] at hslot
      rw [hp, hpd] at hforward ⊢
      refine ⟨hforward, ?_, ?_, fun hj => ?_, fun j hj => ?_⟩
      · exact (show t.time = u.time by rw [htd]; simp).trans (hframe .time (by decide))
      · exact (show t.loop = u.loop by rw [htd]; simp).trans (hframe .loop (by decide))
      · rwa [hj] at hslot
      · rwa [hj] at hslot
    · have hstamp : p.1 = some (takeStamp s true (seen r)) := by rw [hp, hstamped hk]
      obtain ⟨hw1, hw2⟩ := completion_write h (.inl rfl)
      rw [hstamp] at hforward ⊢
      exact .of_forwarded hforward hw1 hw2
    · exact (hframe.mono (by decide)).trans ((hafter.mono (by decide)).trans (onlyChanges_iff.mpr (by simp)))

end TxCompletions
end Sys2Proof.Machine

namespace Sys2Proof.Machine

/-! ### A port's request goes on or is answered (R90, R95) -/

section PortRequests

variable {s t u : State} {id : Nat} {p : Port} {r r' : LineRequest} {win : Option (Nat × Window)}
  {stamp : Option TakenStamp} {st : Stage} {c : Cls}

/-- A request of the march engine. -/
def IsMarch (j : Job) : Prop := ∃ d, j = .march d

theorem marchPump_turnover {N : Cls → Prop} (s : State) : Turnover N IsMarch s (marchPump s) := by
  simp only [marchPump]
  split
  · exact .of_path rfl
  · exact makeReq_turnover (.inl ⟨_, rfl⟩) s

theorem marchPump_waiting (s : State) (c : Cls) : waitingNotices (marchPump s) c = waitingNotices s c :=
  (marchPump_turnover (N := fun _ => False) s).waiting id (by simp [IsMarch])

/-- An accepted request goes on or is answered, which changes its job and its stage. -/
theorem accept_reqs : ∃ st, accept id p r win stamp s = setReq id (.port p r win stamp) st s ∨
    accept id p r win stamp s = marchPump (leaveDrain id (setReq id (.port p r win stamp) st s)) := by
  simp only [accept]
  split
  · refine ⟨.answered (okayWrite r), .inr ?_⟩
    simp only [answer, setStage, setReq, State.updPath, List.map_map]
    congr 4
    refine List.map_congr_left fun q _ => ?_
    by_cases h : q.id = id <;> simp [h]
  · exact ⟨_, .inl rfl⟩

theorem accept_waiting {N : Cls → Prop} {J : Job → Prop} (h : Turnover N J s t) (hn : Next s p id r) (hp : pathLaw s)
    (c : Cls) : waitingNotices (accept id p r' win stamp t) c = waitingNotices t c := by
  obtain ⟨st, ha | ha⟩ := accept_reqs (id := id) (p := p) (r := r') (win := win) (stamp := stamp) (s := t)
  · rw [ha, waitingNotices_setReq h hn hp]
  · rw [ha, marchPump_waiting]
    exact waitingNotices_setReq h hn hp c

end PortRequests

/-! ### Overwrites (R33) -/

section Overwrites

variable {s : State} {line : Nat} {e : FlightEntry}

/-- The state behind the removal of an overwritten entry and the loss of its slot. -/
def overwritten (line : Nat) (s : State) : State :=
  match flightOf s line with
  | some e => slotLost line (countCls e.cls (fun k => { k with overwritten := satInc k.overwritten }) (removeFlight line s))
  | none => s

theorem overwrite_eq (line : Nat) (mask : BitVec 64) (d : Line) (s : State) : overwrite line mask d s =
    if clearsReady mask d then unlist line (overwritten line s) else overwritten line s := rfl

/-- What the removal and the loss leave (R33, R68): the entry is gone and counts, and nothing that an evaluation of
congestion reads has changed. -/
theorem overwritten_spec (line : Nat) (s : State) : ∃ v, v = overwritten line s ∧
    Settles (fun _ => False) (fun c => (clsAt s c).credit) s v ∧ Turnover (fun _ => True) IsEntry s v ∧
    v.adm.flight = s.adm.flight.filter (fun x => x.line != line) ∧
    (∀ c, settled (clsAt v c) = settled { clsAt s c with counters := (clsAt v c).counters }) ∧
    (∀ e, flightOf s line = some e → (clsAt v e.cls).counters = { (clsAt s e.cls).counters with
      overwritten := satInc (clsAt s e.cls).counters.overwritten }) ∧
    (inFlight s line = true → SlotLost s v line) ∧ (inFlight s line = false → v = s) ∧
    OnlyChanges [.adm, .path, .rep, .fault, .xfer, .loop] s v := by
  refine ⟨_, rfl, ?_⟩
  cases he : flightOf s line with
  | none =>
    have hno : inFlight s line = false := by
      by_contra h
      rw [flightOf, List.find?_eq_none] at he
      simp only [inFlight, Bool.not_eq_false, List.any_eq_true] at h
      obtain ⟨e, hm, hl⟩ := h
      exact he e hm hl
    have hv : overwritten line s = s := by simp only [overwritten, he]
    rw [hv]
    refine ⟨.of_adm rfl (fun _ => rfl) rfl, .of_path rfl, ?_, fun _ => rfl, by simp, fun h => ?_, fun _ => rfl,
      fun b _ => by cases b <;> rfl⟩
    · refine (List.filter_eq_self.mpr fun e hm => ?_).symm
      simp only [inFlight, List.any_eq_false] at hno
      simpa using hno e hm
    · simp [hno] at h
  | some e =>
    obtain ⟨v, hv⟩ : ∃ v, v = countCls e.cls (fun k => { k with overwritten := satInc k.overwritten })
      (removeFlight line s) := ⟨_, rfl⟩
    have hov : overwritten line s = slotLost line v := by simp only [overwritten, he, hv]
    have hcls : ∀ c, clsAt v c = if c = e.cls then { clsAt s c with counters := { (clsAt s c).counters with
        overwritten := satInc (clsAt s c).counters.overwritten } } else clsAt s c := fun c => by
      rw [hv, countCls, clsAt_updCls]; rfl
    have hw := slotLost_work line v
    have ha : (slotLost line v).adm = v.adm := slotLost_frame.2.2.2.2.2.2.2.2.2.1
    have hlost := slotLost_spec line v
    have hframe : OnlyChanges [.xfer, .loop, .rep, .path, .fault] v (slotLost line v) := onlyChanges_iff.mpr (by simp)
    rw [hov]
    generalize slotLost line v = u at *
    have hidle : Settles (fun _ => False) (fun c => (clsAt s c).credit) s v := by
      refine .of_idle (fun c => ?_) (fun _ => by rw [hv]; rfl) (by rw [hv]; rfl) (by rw [hv]; rfl) (by rw [hv]; rfl)
      rw [hcls]
      split <;> exact ⟨rfl, rfl, rfl⟩
    refine ⟨hidle.then (hw.settles ha) (by rw [hv]; exact ⟨rfl, rfl, rfl, rfl, rfl⟩),
      (Turnover.of_path (by rw [hv]; rfl)).trans (hw.turnover.mono (fun _ => False.elim) fun _ h => h), ?_,
      fun c => ?_, fun e' he' => ?_, fun _ => ?_, fun h => ?_, ?_⟩
    · rw [ha, hv]; rfl
    · rw [clsAt_of_adm ha, hcls]
      split <;> rfl
    · obtain rfl := Option.some.inj he'
      rw [clsAt_of_adm ha, hcls, if_pos rfl]
    · refine hlost.congr ?_ ?_ ?_ rfl rfl <;> rw [hv] <;> rfl
    · rw [(flightOf_some he).2.2] at h
      simp at h
    · exact (onlyChanges_iff.mpr (by simp [hv])).trans (hframe.mono (by decide))

/-- What an overwrite leaves, whether or not the line leaves the lists too (R33, R34). -/
theorem overwrite_spec (line : Nat) (mask : BitVec 64) (d : Line) (s : State) : ∃ v u, v = overwritten line s ∧
    u = overwrite line mask d s ∧ Turnover (fun _ => True) IsEntry s u ∧ u.adm.flight = v.adm.flight ∧
    (∀ c, (clsAt u c).credit = (clsAt v c).credit ∧ (clsAt u c).counters = (clsAt v c).counters ∧
      (clsAt u c).held = if clearsReady mask d then (clsAt s c).held.filter fun h => h.line != line
        else (clsAt s c).held) ∧ AgeTimersFollow s u ∧
    Settles (fun c => clearsReady mask d = true ∧ listed (clsAt s c) line = true) (fun c => (clsAt s c).credit) s u ∧
    OnlyChanges [.adm, .path, .march, .rep, .fault] v u := by
  obtain ⟨v, hv, hset, hturn, -, hfields, -, -, -, hframe⟩ := overwritten_spec line s
  have hold : ∀ c, (clsAt v c).held = (clsAt s c).held ∧ (clsAt v c).ageTimer = (clsAt s c).ageTimer ∧
      (clsAt v c).credit = (clsAt s c).credit := fun c => by
    obtain ⟨-, hcr, hh, ha, -⟩ := settled_fields (hfields c)
    exact ⟨hh, ha, hcr⟩
  have hstill : Still s v := .of_changes hframe (by decide)
  refine ⟨v, _, hv, rfl, ?_⟩
  rw [overwrite_eq, ← hv]
  cases hc : clearsReady mask d with
  | true =>
    have hl := unlist_since (line := line) hset hstill hturn (fun c => ⟨(hold c).1, (hold c).2.1⟩)
      fun c => (hold c).2.2.symm
    have hrest := fun c => unlist_rest (x := c) (line := line) (s := v)
    have hcr : (fun c => (clsAt (unlist line v) c).credit) = fun c => (clsAt s c).credit :=
      funext fun c => (hrest c).2.1.trans (hold c).2.2
    refine ⟨hl.turnover, (hrest .s).2.2.2.2, fun c => ⟨(hrest c).2.1, (hrest c).2.2.2.1, hl.held c⟩, hl.ages,
      hcr ▸ hl.settles.congr fun c => by simp, onlyChanges_iff.mpr (by simp)⟩
  | false =>
    refine ⟨hturn, rfl, fun c => ⟨rfl, rfl, (hold c).1⟩, fun c => ?_, hset.congr fun c => by simp,
      fun b _ => by cases b <;> rfl⟩
    exact ⟨fun _ => (hold c).2.1, fun h => absurd (congrArg (fun l => l.head?.map (·.line)) (hold c).1) h⟩

/-- Settles O34: the entry and its slot, then the line leaves the lists where the write clears ready. -/
theorem overwriteRemovesEntry : Obligations.OverwriteRemovesEntry := by
  unfold Obligations.OverwriteRemovesEntry
  intro s p id r hn hx
  obtain ⟨i, w, hw, -, -⟩ := sight_accepted hx (by simp)
  have hrow : exec (.descriptorOverwrite p) s =
      .next (accept id p r (some (i, w)) none (overwrite (reqLine r) (reqMask r) (seen r) s)) := by
    rw [show exec (.descriptorOverwrite p) s = .next (classifyWhen (· == .overwrite) p s) from rfl,
      observed_row hn hx hw (by simp) (by simp)]
    rfl
  obtain ⟨v', u, hv', hu, hturn, hflight, hcls, hages, hset, hframe'⟩ :=
    overwrite_spec (reqLine r) (reqMask r) (seen r) s
  obtain ⟨v, hv, -, -, hremoved, hfields, hcount, hlost, hsame, hframe⟩ := overwritten_spec (reqLine r) s
  obtain rfl : v' = v := hv'.trans hv.symm
  have hxfer : u.xfer = v'.xfer := hframe' .xfer (by decide)
  have hloop : u.loop = v'.loop := hframe' .loop (by decide)
  rw [← hu] at hrow
  have hwait := accept_waiting (r' := r) (win := some (i, w)) (stamp := none) hturn hn
  have hadm : (accept id p r (some (i, w)) none u).adm = u.adm := by simp
  have hxfer2 : (accept id p r (some (i, w)) none u).xfer = u.xfer := by simp
  have hloop2 : (accept id p r (some (i, w)) none u).loop = u.loop := by simp
  have hfault : (accept id p r (some (i, w)) none u).fault = u.fault := by simp
  have hlast : OnlyChanges [.path, .march] u (accept id p r (some (i, w)) none u) := onlyChanges_iff.mpr (by simp)
  generalize accept id p r (some (i, w)) none u = t at *
  refine ⟨t, hrow, ?_, fun c => ?_, fun e he => ?_, fun h => ?_, fun h => ⟨?_, ?_, fun c => ?_⟩, fun h c => ?_,
    fun h c => ?_, hages.adm hadm, hset.settled hadm (by rw [hfault]) hwait, ?_⟩
  · rw [hadm, hflight, hremoved]
  · rw [clsAt_of_adm hadm, (hcls c).1]
    exact (settled_fields (hfields c)).2.1
  · rw [clsAt_of_adm hadm, (hcls e.cls).2.1, hcount e he]
  · exact (hlost h).congr rfl rfl rfl (hxfer2.trans hxfer) (hloop2.trans hloop)
  · rw [hxfer2, hxfer, hsame h]
  · rw [hloop2, hloop, hsame h]
  · rw [clsAt_of_adm hadm, (hcls c).2.1, hsame h]
  · rw [clsAt_of_adm hadm, (hcls c).2.2, if_pos h]
  · rw [clsAt_of_adm hadm, (hcls c).2.2, if_neg (by simp [h])]
  · exact (hframe.mono (by decide)).trans ((hframe'.mono (by decide)).trans (hlast.mono (by decide)))

end Overwrites
end Sys2Proof.Machine

namespace Sys2Proof.Machine

/-! ### Receive accounting (R37, R38) -/

section RxCompletions

variable {s : State} {d : Line} {a : Nat} {b : TakenStamp}

theorem matchAnswer_work (o q : BitVec 16) (t : Stamp) (s : State) : EngineWork s (matchAnswer o q t s) := by
  simp only [matchAnswer]
  split
  · split
    · exact (computeSample_work _ _ _ _ _).since rfl rfl
    · exact .of_same rfl rfl
    · exact .of_same rfl rfl
  · exact .of_same rfl rfl

theorem routeTiming_work (a : Nat) (b : TakenStamp) (s : State) : EngineWork s (routeTiming a b s) := by
  simp only [routeTiming]
  split
  · split
    · simp only [enterOffer]
      repeat' split
      all_goals exact .of_same rfl rfl
    · exact (matchAnswer_work _ _ _ _).since rfl rfl
  · exact .of_same rfl rfl

theorem loopReturn_work (a : Nat) (b : TakenStamp) (s : State) : EngineWork s (loopReturn a b s) := by
  simp only [loopReturn]
  split
  · exact (loopCheckEnd_work _).since rfl rfl
  · exact .of_same rfl rfl

theorem clsOfCode_none : ∀ {n : Nat}, 4 < n → clsOfCode n = none
  | _ + 5, _ => rfl

/-! The counters of an RX completion, by the class that its descriptor names (R37). -/

theorem countRx_none (h : 4 < descClass d) :
    (countRx d s).adm = { s.adm with rxClassInvalid := satInc s.adm.rxClassInvalid } := by
  simp only [countRx, clsOfCode_none h]
  rfl

theorem countRx_received {c : Cls} (h : clsOfCode (descClass d) = some c) (hs : descStatus d = 3) :
    (clsAt (countRx d s) c).counters = { (clsAt s c).counters with
      rxFrames := satInc (clsAt s c).counters.rxFrames
      rxBytes := if 64 ≤ descLength d ∧ descLength d ≤ 9600
        then satAdd (clsAt s c).counters.rxBytes (descLength d) else (clsAt s c).counters.rxBytes } := by
  simp only [countRx, h, if_pos hs, countCls, updCls_same]

theorem countRx_errored {c : Cls} (h : clsOfCode (descClass d) = some c) (hs : descStatus d ≠ 3) :
    (clsAt (countRx d s) c).counters =
      { (clsAt s c).counters with rxErrored := satInc (clsAt s c).counters.rxErrored } := by
  simp only [countRx, h, if_neg hs, countCls, updCls_same]

/-- An RX completion: the counters, and, stamped or not, what the engines do with it (R37, R38). -/
theorem rxCompletion_spec (d : Line) (s : State) : ∃ stamp t, rxCompletion d s = (stamp, t) ∧
    EngineWork s t ∧ t.adm = (countRx d s).adm ∧
    (descStatus d = 3 → descKind d = 1 ∨ descKind d = 2 → stamp = some (takeStamp s false d)) ∧
    (descStatus d ≠ 3 ∨ (descKind d ≠ 1 ∧ descKind d ≠ 2) → stamp = none ∧ t = countRx d s) := by
  have hstamp : takeStamp (countRx d s) false d = takeStamp s false d := takeStamp_congr (by simp) (by simp)
  by_cases h : descStatus d = 3 ∧ (descKind d = 1 ∨ descKind d = 2)
  · refine ⟨_, _, by rw [rxCompletion, if_pos h], ?_, ?_, fun _ _ => by rw [hstamp], fun hn => absurd h ?_⟩
    · split
      · exact (routeTiming_work _ _ _).since (by simp) (by simp)
      · exact (loopReturn_work _ _ _).since (by simp) (by simp)
    · split <;> simp
    · rcases hn with hn | ⟨h1, h2⟩
      · exact fun h => hn h.1
      · exact fun h => h.2.elim h1 h2
  · exact ⟨none, _, by rw [rxCompletion, if_neg h], .of_same (by simp) (by simp), rfl,
      fun h1 h2 => absurd ⟨h1, h2⟩ h, fun _ => ⟨rfl, rfl⟩⟩

/-- Settles O35: the counters of the descriptor's class, and the stamp that the engines are handed. -/
theorem rxCompletionCounts : Obligations.RxCompletionCounts := by
  unfold Obligations.RxCompletionCounts
  intro s id r i w h
  obtain ⟨stamp, t, hp, hw, hadm, hstamped, hplain⟩ := rxCompletion_spec (seen r) s
  have hframe : OnlyChanges [.adm, .time, .xfer, .rep, .path, .fault, .freeUses, .loop] s t :=
    onlyChanges_iff.mpr (by simpa [hp] using rxCompletion_erase (a := seen r) (s := s) (List.Subset.refl _))
  have hrow := rxCompletion_row h
  rw [hp] at hrow
  have hforward : Forwarded (setReq id (.port .modem r (some (i, w)) stamp) .forwarded t) id
      (.port .modem r (some (i, w)) stamp) := hw.turnover.forwards h.1 _
  have hlast : OnlyChanges [.path] t (setReq id (.port .modem r (some (i, w)) stamp) .forwarded t) :=
    onlyChanges_iff.mpr (by simp)
  have hcls : ∀ c, clsAt (setReq id (.port .modem r (some (i, w)) stamp) .forwarded t) c = clsAt (countRx (seen r) s) c :=
    fun c => clsAt_of_adm hadm
  refine ⟨_, hrow, fun c hc hst => ?_, fun c hc hst => ?_, fun hc => ?_, fun ⟨hst, hk⟩ => ?_, fun hn => ?_, ?_⟩
  · rw [hcls, countRx_received hc hst]
  · rw [hcls, countRx_errored hc (by omega)]
  · exact hadm.trans (countRx_none hc)
  · rw [hstamped hst hk] at hforward ⊢
    obtain ⟨hw1, hw2⟩ := completion_write h (.inr rfl)
    exact .of_forwarded hforward hw1 hw2
  · obtain ⟨hnone, ht⟩ := hplain (hn.imp_left fun h => by omega)
    rw [hnone] at hforward hlast ⊢
    refine ⟨hforward, ?_⟩
    have hc : OnlyChanges [.adm] s t := onlyChanges_iff.mpr (by rw [ht]; simp)
    exact (hc.mono (by decide)).trans (hlast.mono (by decide))
  · exact (hframe.mono (by decide)).trans (hlast.mono (by decide))

end RxCompletions
end Sys2Proof.Machine

namespace Sys2Proof.Machine

/-! ### The timers of the admission unit (R19, R20, R32, R34) -/

section AdmissionTimers

variable {s t : State} {c x : Cls} {d now : Nat} {e : FlightEntry}

/-- A class evaluated as it stands. -/
theorem ClassStep.judged : ClassStep now c (evalCongestion c) (fun k => k) (fun _ => True) 1 :=
  ⟨fun _ _ _ hx => evalCongestion_other hx, fun _ _ => evalCongestion_settled,
    fun _ _ _ hcr => (evalCongestion_settles hcr).congr fun _ => by simp, fun s _ => evalCongestion_still c s,
    fun s _ => evalCongestion_course c s⟩

/-- What the evaluation of every class leaves of the timers and of the in-flight table. -/
theorem evalAll_flight (cs : List Cls) (s : State) :
    (cs.foldl (fun t c => evalCongestion c t) s).adm.flight = s.adm.flight ∧
    (cs.foldl (fun t c => evalCongestion c t) s).adm.refillTimer = s.adm.refillTimer := by
  induction cs generalizing s with
  | nil => exact ⟨rfl, rfl⟩
  | cons c cs ih =>
    rw [List.foldl_cons, (ih _).1, (ih _).2, evalCongestion_flight.1, evalCongestion_flight.2.1]
    exact ⟨rfl, rfl⟩

theorem evalAll_frame (cs : List Cls) (s : State) :
    OnlyChanges [.adm, .path, .march, .rep, .fault] s (cs.foldl (fun t c => evalCongestion c t) s) := by
  induction cs generalizing s with
  | nil => exact fun b _ => by cases b <;> rfl
  | cons c cs ih => exact OnlyChanges.trans (onlyChanges_iff.mpr (by simp)) (ih _)

/-- The classes as a refill gives their grants (R20). -/
theorem clsAt_refill (s : State) (c : Cls) :
    clsAt (refill s) c = { clsAt s c with credit := refilledCredit s c } := by
  have hfold : ∀ (cs : List Cls) (t : State), cs.Nodup → clsAt (cs.foldl (fun t c =>
      updCls c (fun k => { k with credit := refilledCredit s c }) t) t) c =
      if c ∈ cs then { clsAt t c with credit := refilledCredit s c } else clsAt t c := by
    intro cs
    induction cs with
    | nil => intro t _; simp
    | cons x xs ih =>
      intro t hn
      obtain ⟨hx, hn⟩ := List.nodup_cons.mp hn
      rw [List.foldl_cons, ih _ hn, clsAt_updCls]
      by_cases hcx : c = x
      · subst hcx; simp [hx]
      · simp [hcx]
  rw [refill, hfold _ _ allClasses_nodup, if_pos (mem_allClasses c)]

theorem refill_rest (s : State) : (refill s).adm.flight = s.adm.flight ∧
    (refill s).adm.refillTimer = s.adm.refillTimer ∧ (refill s).adm.noticeDropped = s.adm.noticeDropped ∧
    (refill s).adm.noticeReplaced = s.adm.noticeReplaced := ⟨rfl, rfl, rfl, rfl⟩

/-- The credit of R20, from the grants and the sums that it names. -/
theorem refilledCredit_eq {share grant : Cls → Nat} {R W : Nat}
    (hshare : ∀ c, share c = if c = .s ∧ s.xfer.state ≠ .track then (clsAt s c).recoveryShare else (clsAt s c).share)
    (hgrant : ∀ c, grant c = if (clsAt s c).enabled then share c * capacity s.link / 1000 else 0)
    (hR : R = capacity s.link - (grant .s + grant .t0 + grant .t1 + grant .t2 + grant .t3))
    (hW : W = sumClasses (fun c => if backlogged (clsAt s c) then (clsAt s c).weight else 0)) :
    refilledCredit s c = if (clsAt s c).enabled then
      min ((clsAt s c).credit + grant c +
        (if backlogged (clsAt s c) ∧ W ≠ 0 then R * (clsAt s c).weight / W else 0 : Nat)) ((clsAt s c).burst * 1000)
      else (clsAt s c).credit := by
  have hg : grant = guaranteedGrant s := funext fun c => by rw [hgrant, hshare]; rfl
  have hRs : R = remainder s := by
    rw [hR, hg, remainder]
    simp [sumClasses, allClasses]
  rw [hg, hRs, hW]
  rfl

/-- The classes behind a refill and its timer, before the evaluations. -/
def refilled (s : State) : State :=
  (refill s).updAdm fun a => { a with refillTimer := a.refillTimer.map fun d => d + 40000 }

theorem refilled_blocks (s : State) : OnlyChanges [.adm] s (refilled s) := onlyChanges_iff.mpr (by simp [refilled])

theorem refilled_settles (credit : Cls → Int) (s : State) : Settles (fun _ => False) credit s (refilled s) := by
  obtain ⟨-, -, hd, hr⟩ := refill_rest s
  have hfault : (refilled s).fault.congestion = s.fault.congestion :=
    congrArg (·.congestion) (show (refilled s).fault = s.fault from refilled_blocks s .fault (by decide))
  refine .of_idle (fun x => ?_) (fun _ => ?_) hd hr hfault
  · rw [show clsAt (refilled s) x = clsAt (refill s) x from rfl, clsAt_refill]
    exact ⟨rfl, rfl, rfl⟩
  · rw [waitingNotices, show (refilled s).path = s.path from refilled_blocks s .path (by decide)]
    rfl

/-- The refill timer's expiry (R19, R20, R34 to R36). -/
theorem refillExpiry_spec (s : State) : ∃ v t, v = refilled s ∧ t = refillExpiry s ∧
    (∀ c, settled (clsAt t c) = settled (clsAt v c)) ∧ Settles (fun _ => True) (fun c => (clsAt t c).credit) s t ∧
    t.adm.flight = s.adm.flight ∧ t.adm.refillTimer = v.adm.refillTimer ∧
    OnlyChanges [.adm, .path, .march, .rep, .fault] s t := by
  refine ⟨_, _, rfl, rfl, ?_⟩
  have hquiet := refilled_settles (fun c => (clsAt (refilled s) c).credit) s
  have hblocks := refilled_blocks s
  have hstill : Still s (refilled s) := .of_changes hblocks (by decide)
  have hflight : (refilled s).adm.flight = s.adm.flight := (refill_rest s).1
  have heq : refillExpiry s = allClasses.foldl (fun t c => evalCongestion c t) (refilled s) := rfl
  generalize refilled s = v at *
  obtain ⟨hcls, hset, -, -⟩ := classSteps_effect (fun c => ClassStep.judged (c := c)) (s := v)
    (credit := fun c => (clsAt v c).credit) allClasses allClasses_nodup rfl fun _ _ => rfl
  have hall := evalAll_flight allClasses v
  have hframe := evalAll_frame allClasses v
  rw [← heq] at hcls hset hall hframe
  generalize refillExpiry s = t at *
  have hcls : ∀ c, settled (clsAt t c) = settled (clsAt v c) := fun c => by
    rw [hcls c, if_pos (mem_allClasses c)]
  have hcredit : (fun c => (clsAt v c).credit) = fun c => (clsAt t c).credit :=
    funext fun c => (settled_fields (hcls c)).2.1.symm
  rw [← hcredit]
  exact ⟨hcls, (hquiet.after hstill hset).congr fun c => by simp [mem_allClasses], hall.1.trans hflight, hall.2,
    (hblocks.mono (by decide)).trans hframe⟩

theorem refillTimerExpiry_row (h : s.adm.refillTimer = some d) (hd : d ≤ s.now) :
    exec .refillTimerExpiry s = .next (refillExpiry s) := by
  have hdue : due s.adm.refillTimer s.now = true := by simp [due, h, hd]
  rw [show exec .refillTimerExpiry s = execRefillTimerExpiry s from rfl, execRefillTimerExpiry, if_pos hdue]

/-- The refill of an event (R19, R20), and the evaluations behind it. -/
theorem refill_expires {share grant : Cls → Nat} {R W : Nat} (h : s.adm.refillTimer = some d) (hd : d ≤ s.now)
    (hshare : ∀ c, share c = if c = .s ∧ s.xfer.state ≠ .track then (clsAt s c).recoveryShare else (clsAt s c).share)
    (hgrant : ∀ c, grant c = if (clsAt s c).enabled then share c * capacity s.link / 1000 else 0)
    (hR : R = capacity s.link - (grant .s + grant .t0 + grant .t1 + grant .t2 + grant .t3))
    (hW : W = sumClasses (fun c => if backlogged (clsAt s c) then (clsAt s c).weight else 0)) : ∃ t,
      exec .refillTimerExpiry s = .next t ∧ t.adm.refillTimer = some (d + ms 1) ∧
      (∀ c, (clsAt t c).held = (clsAt s c).held ∧ (clsAt t c).credit =
        if (clsAt s c).enabled then
          min ((clsAt s c).credit + grant c +
            (if backlogged (clsAt s c) ∧ W ≠ 0 then R * (clsAt s c).weight / W else 0 : Nat)) ((clsAt s c).burst * 1000)
        else (clsAt s c).credit) ∧
      (∀ c, (clsAt t c).ageTimer = (clsAt s c).ageTimer) ∧
      CongestionSettled s t (fun _ => True) (fun c => (clsAt t c).credit) ∧
      t.adm.flight = s.adm.flight ∧ OnlyChanges [.adm, .path, .march, .rep, .fault] s t := by
  have hrow := refillTimerExpiry_row h hd
  obtain ⟨v, t, hv, ht, hcls, hset, hflight, htimer, hframe⟩ := refillExpiry_spec s
  have hvc : ∀ c, clsAt v c = { clsAt s c with credit := refilledCredit s c } := fun c => by
    rw [hv, ← clsAt_refill]; rfl
  rw [← ht] at hrow
  refine ⟨t, hrow, ?_, fun c => ?_, fun c => ?_, hset.settled rfl rfl fun _ _ => rfl, hflight, hframe⟩
  · rw [htimer, hv, show (refilled s).adm.refillTimer = (refill s).adm.refillTimer.map fun d => d + 40000 from rfl,
      (refill_rest s).2.1, h]
    rfl
  · obtain ⟨-, hcr, hh, -⟩ := settled_fields (hcls c)
    rw [hh, hcr, hvc]
    exact ⟨rfl, refilledCredit_eq hshare hgrant hR hW⟩
  · obtain ⟨-, -, -, ha, -⟩ := settled_fields (hcls c)
    rw [ha, hvc]

theorem ageExpiry_step (c : Cls) : ClassStep now c (ageExpiry c) (fun k => { k with ageTimer := none }) (fun _ => True) 1 :=
  .evaluated (fun _ => rfl) fun _ => rfl

/-- The age timer's expiry (R34 to R36). -/
theorem age_expires (h : due (clsAt s c).ageTimer s.now = true) : ∃ t, exec (.ageTimerExpiry c) s = .next t ∧
    (clsAt t c).ageTimer = none ∧ (∀ x, x ≠ c → (clsAt t x).ageTimer = (clsAt s x).ageTimer) ∧
    CongestionSettled s t (fun x => x = c) (fun x => (clsAt s x).credit) ∧
    (∀ x, (clsAt t x).held = (clsAt s x).held ∧ (clsAt t x).credit = (clsAt s x).credit) ∧
    OnlyChanges [.adm, .path, .march, .rep, .fault] s t := by
  have hrow : exec (.ageTimerExpiry c) s = .next (ageExpiry c s) := by
    rw [show exec (.ageTimerExpiry c) s = execAgeTimerExpiry c s from rfl, execAgeTimerExpiry, if_pos h]
  have hframe : OnlyChanges [.adm, .path, .march, .fault, .rep] s (ageExpiry c s) :=
    onlyChanges_iff.mpr (by simp [ageExpiry])
  obtain ⟨hother, hsame, hset, -, -⟩ := ageExpiry_step (now := s.now) c
  obtain ⟨-, hcr, hh, ha, -⟩ := settled_fields (hsame s rfl)
  refine ⟨_, hrow, ha, fun x hx => by rw [hother s x rfl hx], ?_, fun x => ?_, hframe.mono (by decide)⟩
  · exact ((hset s (fun x => (clsAt s x).credit) rfl rfl).congr fun x => by simp).settled rfl rfl fun _ _ => rfl
  · by_cases hx : x = c
    · subst hx; exact ⟨hh, hcr⟩
    · rw [hother s x rfl hx]; exact ⟨rfl, rfl⟩

/-- A flight timeout (R32, R68, R72): the entry, its count, its report, and the slot that loses it. -/
theorem flight_expires {line : BitVec 30} (he : flightOf s line.toNat = some e) (hx : e.expiry ≤ s.now) : ∃ t,
    exec (.flightTimeout line) s = .next t ∧ t.adm.flight = s.adm.flight.filter (fun x => x.line != line.toNat) ∧
    (clsAt t e.cls).counters = { (clsAt s e.cls).counters with lost := satInc (clsAt s e.cls).counters.lost } ∧
    (∀ c, c ≠ e.cls → (clsAt t c).counters = (clsAt s c).counters) ∧ SlotLost s t line.toNat ∧
    (∀ c, (clsAt t c).credit = (clsAt s c).credit ∧ (clsAt t c).held = (clsAt s c).held) ∧
    ReportAmong s t 0 (timeNow s) 0x05 ([⟨16, 8, lineAddress line.toNat⟩, ⟨24, 1, clsCode e.cls⟩, ⟨25, 1, e.kind⟩,
      ⟨26, 2, e.length⟩, ⟨28, 4, e.debit⟩] ++ stampFields 32 40 e.admitTime ++ [⟨44, 2, e.epoch.toNat⟩]) ∧
    OnlyChanges [.adm, .path, .rep, .xfer, .loop, .fault] s t := by
  obtain ⟨-, hline, -⟩ := flightOf_some he
  obtain ⟨v, hv⟩ : ∃ v, v = countCls e.cls (fun k => { k with lost := satInc k.lost }) (removeFlight e.line s) := ⟨_, rfl⟩
  have hrow : exec (.flightTimeout line) s = .next (slotLost e.line (report 0x05 (flightTimeoutBody e) v)) := by
    rw [show exec (.flightTimeout line) s = execFlightTimeout line s from rfl, execFlightTimeout, he]
    simp only [if_pos hx, flightExpiry, hv]
  have hcls : ∀ c, clsAt v c = if c = e.cls then { clsAt s c with counters := { (clsAt s c).counters with
      lost := satInc (clsAt s c).counters.lost } } else clsAt s c := fun c => by
    rw [hv, countCls, clsAt_updCls]; rfl
  have hflight : v.adm.flight = s.adm.flight.filter fun x => x.line != e.line := by rw [hv]; rfl
  have hblocks : OnlyChanges [.adm] s v := onlyChanges_iff.mpr (by simp [hv])
  have hcourse : Course (fun _ => False) IsEntry s v 0 := by rw [hv]; exact .of_same rfl rfl rfl rfl
  obtain ⟨u, hu⟩ : ∃ u, u = report 0x05 (flightTimeoutBody e) v := ⟨_, rfl⟩
  have hreport : OnlyChanges [.path, .rep] v u := onlyChanges_iff.mpr (by simp [hu])
  have hlost := slotLost_spec e.line u
  have hframe : OnlyChanges [.xfer, .loop, .rep, .path, .fault] u (slotLost e.line u) := onlyChanges_iff.mpr (by simp)
  have hturn : Turnover (fun _ => False) IsEntry (report 0x05 (flightTimeoutBody e) v) (slotLost e.line u) := by
    rw [← hu]
    exact (slotLost_work e.line u).turnover
  have hamong := hcourse.among_now (Nat.le_refl 0) hturn
  rw [← hu] at hrow
  rw [hline] at hrow hflight hlost hframe hturn hamong
  have hadm : (slotLost line.toNat u).adm = v.adm :=
    (hframe .adm (by decide)).trans (hreport .adm (by decide))
  generalize slotLost line.toNat u = t at *
  have hbody : flightTimeoutBody e = [⟨16, 8, lineAddress line.toNat⟩, ⟨24, 1, clsCode e.cls⟩, ⟨25, 1, e.kind⟩,
      ⟨26, 2, e.length⟩, ⟨28, 4, e.debit⟩] ++ stampFields 32 40 e.admitTime ++ [⟨44, 2, e.epoch.toNat⟩] := by
    rw [flightTimeoutBody, hline]
  refine ⟨t, hrow, hadm ▸ hflight, ?_, fun c hc => ?_, hlost.congr ?_ ?_ ?_ rfl rfl, fun c => ?_, hbody ▸ hamong, ?_⟩
  · rw [clsAt_of_adm hadm, hcls, if_pos rfl]
  · rw [clsAt_of_adm hadm, hcls, if_neg hc]
  · exact ((hreport .xfer (by decide)).trans (hblocks .xfer (by decide))).symm
  · exact ((hreport .loop (by decide)).trans (hblocks .loop (by decide))).symm
  · exact ((hreport .windows (by decide)).trans (hblocks .windows (by decide))).symm
  · rw [clsAt_of_adm hadm, hcls]
    split <;> exact ⟨rfl, rfl⟩
  · exact (hblocks.mono (by decide)).trans ((hreport.mono (by decide)).trans (hframe.mono (by decide)))

/-- Settles O36: the refill, the age timer and the flight timeout, each by its own row. -/
theorem admissionTimersExpire : Obligations.AdmissionTimersExpire := by
  unfold Obligations.AdmissionTimersExpire
  exact ⟨fun _ _ _ _ _ _ => refill_expires, fun _ _ => age_expires, fun _ _ _ => flight_expires⟩

end AdmissionTimers
end Sys2Proof.Machine

namespace Sys2Proof.Machine

/-! ### The end of a record's event behind notices and reports (R36, R153, R154) -/

section RecordCourses

variable {N : Cls → Prop} {s x : State} {id n m : Nat} {r : LineRequest}

/-- A request for a report at a time is one that the report unit takes. -/
theorem reportAt_taken (time : Stamp) (code : Nat) (body : List FieldSpec) (s : State) :
    ReportsTaken s (reportAt time code body s) 1 := (Reporting.report time code body .start).taken

theorem recordResult_turnover (s x : State) (r : LineRequest) (o : RecordOutcome) :
    Turnover N IsEntry x (recordResult (timeNow s) (reqLine r) (seen r) o (countOutcome o x)) := by
  have h : Turnover N IsEntry x (countOutcome o x) := .of_path rfl
  exact h.trans (reportAt_turnover _ _ _ _)

/-- The result of a record follows the notices and the reports of its event. -/
theorem Course.recordEnd_result (h : Course N IsEntry s x n) (hn : Next s .site id r) (o : RecordOutcome) :
    ReportsTaken s (recordEnd s id r o x) (n + 1) ∧
      (pathLaw s → ∀ g, s.rep.ring = some g → g.releasing = false → unread g + n < g.size - 1 →
        ReportAt s (recordEnd s id r o x) g n (timeNow s) 0x01 (resultBody r (outcomeCode o))) := by
  have hcount : Course N IsEntry x (countOutcome o x) 0 := .of_same rfl rfl rfl rfl
  have hc : Course N IsEntry s (countOutcome o x) n := h.trans hcount
  refine ⟨(hc.taken.trans (reportAt_taken _ _ _ _)).silent rfl, fun hp g hg hrel hu => ?_⟩
  exact (h.toTurnover.trans (recordResult_turnover s x r o)).setReq_keeps hn hp (hc.made hg hrel hu _ _ _)

theorem Course.recordDone (h : Course N IsEntry s x n) (hn : Next s .site id r) (hm : n ≤ m) (hd : x.dec = s.dec) :
    RecordDone s (recordEnd s id r .applied x) m r := by
  refine ⟨?_, n, hm, h.recordEnd_result hn .applied⟩
  simp [RecordApplied, recordEnd, countOutcome, hd]

/-- A report that a record's event has made stands at its end. -/
theorem Turnover.recordEnd_among (h : Turnover N IsEntry s x) (hn : Next s .site id r) {time : Stamp} {code : Nat}
    {body : List FieldSpec} (hr : ReportAmong s x n time code body) (o : RecordOutcome) :
    ReportAmong s (recordEnd s id r o x) n time code body := by
  intro hp g hg hrel hu
  obtain ⟨k, hk, hm⟩ := (recordResult_turnover (N := N) s x r o).among hr hp g hg hrel hu
  exact ⟨k, hk, (h.trans (recordResult_turnover s x r o)).setReq_keeps hn hp hm⟩

/-- Congestion at the end of a record's event. -/
theorem Settles.recordEnd {E : Cls → Prop} {credit : Cls → Int} (h : Settles E credit s x)
    (ht : Turnover N IsEntry s x) (hn : Next s .site id r) (o : RecordOutcome) :
    CongestionSettled s (recordEnd s id r o x) E credit := by
  refine h.settled (by simp [Machine.recordEnd]) (by simp [Machine.recordEnd]) fun hp c => ?_
  rw [Machine.recordEnd, waitingNotices_setReq (ht.trans (recordResult_turnover s x r o)) hn hp]
  exact (recordResult_turnover (N := fun _ => False) s x r o).waiting (fun h => h) (by simp [IsEntry])

theorem clsAt_recordEnd {o : RecordOutcome} (c : Cls) : clsAt (recordEnd s id r o x) c = clsAt x c :=
  clsAt_of_adm (by simp [recordEnd])

end RecordCourses

/-! ### The CLASS record (R39, R40) -/

section ClassRecord

variable {s : State} {id a : Nat} {r : LineRequest} {d : Line} {c : Cls}

theorem classRecord_applies (h : RecordNext s id r 0x03 a) (hc : classCheck s (seen r) = .applied) :
    exec .classRecord s = .next (recordEnd s id r .applied (applyClass (seen r) s)) := by
  show Host.Outcome.next (classifyWhen _ .site s) = _
  rw [record_applies h rfl (by decide) fun _ => by simp [examineKind, checked, hc]; rfl]

theorem classRecord_refuses {o : RecordOutcome} (h : RecordNext s id r 0x03 a) (ho : o ≠ .applied)
    (hc : classCheck s (seen r) = o) : RecordRefused .classRecord s r (outcomeCode o) (countOutcome o s).dec :=
  record_refuses h rfl rfl ho fun _ => by simp [examineKind, checked, hc, ho]

theorem recordClass_of (h : clsOfCode (field d 4 1) = some c) : recordClass d = c := by simp [recordClass, h]

theorem clsOfCode_le {n : Nat} (h : clsOfCode n = some c) : n ≤ 4 := by
  by_contra hn
  simp [clsOfCode_none (by omega : 4 < n)] at h

theorem classCheck_range (h : 4 < field d 4 1 ∨ 1000 < field d 8 2 ∨ (field d 4 1 = 0 ∧ 1000 < field d 10 2) ∨
    field d 12 2 = 0 ∨ field d 14 2 = 0 ∨ field d 14 2 ≤ field d 16 2 ∨ field d 18 2 = 0 ∨ 10000 < field d 18 2) :
    classCheck s d = .range := by
  unfold classCheck
  by_cases h4 : 4 < field d 4 1
  · rw [if_pos h4]
  · rw [if_neg h4, if_pos]
    rcases h with h | h | ⟨h0, h⟩ | h
    · exact absurd h h4
    · exact .inl h
    · exact .inr (.inl ⟨recordClass_of (by rw [h0]; rfl), h⟩)
    · exact .inr (.inr h)

/-- Within the ranges of R17 only the sums of the shares can refuse a CLASS record (R39). -/
theorem classCheck_inRange {share : Cls → Nat} {recovery : Nat} (hc : clsOfCode (field d 4 1) = some c)
    (h8 : field d 8 2 ≤ 1000) (h10 : c = .s → field d 10 2 ≤ 1000) (h12 : 1 ≤ field d 12 2) (h14 : 1 ≤ field d 14 2)
    (h16 : field d 16 2 < field d 14 2) (h18 : 1 ≤ field d 18 2) (h18' : field d 18 2 ≤ 10000)
    (hs : ∀ x, share x = if x = c then field d 8 2 else (clsAt s x).share)
    (hr : recovery = if c = .s then field d 10 2 else (clsAt s .s).recoveryShare) : classCheck s d =
      if 1000 < sumClasses share then .conflict
      else if 1000 < sumClasses (fun x => if x = .s then recovery else share x) then .conflict
      else .applied := by
  have hrc := recordClass_of hc
  have hshare : shareWith s d = share := funext fun x => by rw [hs, shareWith, hrc]
  have hrec : recoveryWith s d = recovery := by rw [hr, recoveryWith, hrc]
  have hle := clsOfCode_le hc
  rw [classCheck, hshare, hrec, hrc, if_neg (by omega), if_neg]
  rintro (h | ⟨h, h'⟩ | h | h | h | h | h)
  · omega
  · exact absurd (h10 h) (by omega)
  all_goals omega

/-- The application of a CLASS record to its class (R39, R40). -/
theorem applyClass_step (now : Nat) (h : recordClass d = c) :
    ClassStep now c (applyClass d) (classEntry d now) (fun _ => True) 1 := by
  refine (ClassStep.evaluated (f := classEntry d now) (fun _ => rfl) fun _ => rfl).congr fun s hs => ?_
  rw [applyClass, h, hs]

theorem classEntry_ages (d : Line) (now : Nat) (k : ClassState) : AgeTimerSet (classEntry d now k) now :=
  ageTimerOf_set rfl

/-- What a CLASS record leaves of its class (R39). -/
theorem classEntry_keeps (d : Line) (now : Nat) (k : ClassState) : (classEntry d now k).enabled = k.enabled ∧
    (classEntry d now k).held = k.held ∧ (classEntry d now k).counters = k.counters ∧
    (classEntry d now k).credit = min k.credit (field d 12 2 * 1000) := by simp [classEntry]

theorem classEntry_byClass (d : Line) (now : Nat) (k : ClassState) :
    (classEntry d now k).recoveryShare = (if recordClass d = .s then field d 10 2 else 0) ∧
    (classEntry d now k).needsTiming = if recordClass d = .s then false else flagField d 5 := by simp [classEntry]

theorem applyClass_flight (d : Line) (s : State) : (applyClass d s).adm.flight = s.adm.flight := by
  rw [applyClass, evalCongestion_flight.1]
  rfl

/-- A CLASS record in the ranges of R17, whose shares add up (R39, R40). -/
theorem classRecord_sets (h : RecordNext s id r 0x03 a) (hc : clsOfCode a = some c)
    (hok : classCheck s (seen r) = .applied) :
      ∃ t, exec .classRecord s = .next t ∧
        settled (clsAt t c) = settled (classEntry (seen r) s.now (clsAt s c)) ∧
        CongestionSettled s t (fun x => x = c) (fun x => (clsAt t x).credit) ∧
        (∀ x, x ≠ c → clsAt t x = clsAt s x) ∧ t.adm.flight = s.adm.flight ∧ RecordDone s t 1 r ∧
        OnlyChanges [.adm, .path, .march, .rep, .fault, .dec] s t := by
  have hrow := classRecord_applies h hok
  have hrc : recordClass (seen r) = c := recordClass_of (by rw [h.action, hc])
  obtain ⟨hother, hsame, hset, -, hcourse⟩ := applyClass_step s.now hrc
  have hframe : OnlyChanges [.adm, .path, .march, .fault, .rep] s (applyClass (seen r) s) :=
    onlyChanges_iff.mpr (by simp)
  have hflight := applyClass_flight (seen r) s
  obtain ⟨k, hk, hcourse⟩ := hcourse s rfl
  have hsame := hsame s rfl
  have hother := fun x hx => hother s x rfl hx
  have hset := hset s (fun x => (clsAt (applyClass (seen r) s) x).credit) rfl (settled_fields hsame).2.1
  generalize applyClass (seen r) s = x at *
  have hcls := fun y => clsAt_recordEnd (s := s) (id := id) (r := r) (o := .applied) (x := x) y
  have hsettled := (hset.congr (F := fun y => y = c) fun _ => by simp).recordEnd hcourse.toTurnover h.1 .applied
  refine ⟨_, hrow, (congrArg settled (hcls c)).trans hsame, ?_, fun y hy => (hcls y).trans (hother y hy), ?_,
    hcourse.recordDone h.1 hk (hframe .dec (by decide)), ?_⟩
  · rwa [show (fun y => (clsAt (recordEnd s id r .applied x) y).credit) = fun y => (clsAt x y).credit from
      funext fun y => by rw [hcls]]
  · rw [← hflight]
    simp [recordEnd]
  · exact (recordEnd_changes hframe (by decide) (by decide) .applied).mono (by decide)

end ClassRecord

/-! ### The ADMIT record (R41, R42) -/

section AdmitRecord

variable {s t : State} {id a now m n : Nat} {r : LineRequest} {d : Line} {c : Cls} {op g : State → State}
  {f : ClassState → ClassState} {E F : ClassState → Prop}

theorem admitRecord_applies (h : RecordNext s id r 0x04 a) (hc : admitCheck s (seen r) = .applied) :
    exec .admitRecord s = .next (recordEnd s id r .applied (applyAdmit (seen r) s)) := by
  show Host.Outcome.next (classifyWhen _ .site s) = _
  rw [record_applies h rfl (by decide) fun _ => by simp [examineKind, checked, hc]; rfl]

theorem admitRecord_refuses {o : RecordOutcome} (h : RecordNext s id r 0x04 a) (ho : o ≠ .applied)
    (hc : admitCheck s (seen r) = o) : RecordRefused .admitRecord s r (outcomeCode o) (countOutcome o s).dec :=
  record_refuses h rfl rfl ho fun _ => by simp [examineKind, checked, hc, ho]

theorem admitCheck_range (h : (∃ c, 2 < admitAction d c) ∨ 1000 < field d 10 2) : admitCheck s d = .range := by
  rw [admitCheck, if_pos]
  exact h.imp_left fun ⟨c, hc⟩ => List.any_eq_true.mpr ⟨c, mem_allClasses c, by simpa using hc⟩

/-- Within the ranges of R41 only the fence can refuse an ADMIT record. -/
theorem admitCheck_inRange (h1 : ∀ c, admitAction d c ≤ 2) (h2 : field d 10 2 ≤ 1000) : 
    (admitCheck s d = .busy ↔
      ∃ c, admitAction d c = 1 ∧ (clsAt s c).enabled = false ∧ classFenced s c = true) ∧
    (admitCheck s d = .busy ∨ admitCheck s d = .applied) := by
  have hno : ¬((allClasses.any fun c => decide (2 < admitAction d c)) = true ∨ 1000 < field d 10 2) := by
    rintro (h | h)
    · obtain ⟨c, -, hc⟩ := List.any_eq_true.mp h
      have := h1 c
      simp only [decide_eq_true_eq] at hc
      omega
    · omega
  rw [admitCheck, if_neg hno]
  have hany : (allClasses.any fun c => admitAction d c == 1 && !(clsAt s c).enabled && classFenced s c) = true ↔
      ∃ c, admitAction d c = 1 ∧ (clsAt s c).enabled = false ∧ classFenced s c = true := by
    simp [mem_allClasses, and_assoc]
  rw [← hany]
  split <;> simp_all

theorem updCls_updCls (c : Cls) (f g : ClassState → ClassState) (s : State) :
    updCls c f (updCls c g s) = updCls c (fun k => f (g k)) s := by
  cases c <;> rfl

/-- An operation on a class, then one that leaves the admission unit and makes reports. -/
theorem ClassStep.andThen (h : ClassStep now c op f E n) (ha : ∀ s, (g s).adm = s.adm) (hs : ∀ s, Still s (g s))
    (hf : ∀ s, (g s).fault = s.fault) (hg : TakesAtMost m g) : ClassStep now c (fun s => g (op s)) f E (n + m) := by
  have hcourse : ∀ s, ∃ k ≤ m, Course (fun _ => False) IsEntry s (g s) k := fun s => hg.course s
  refine ⟨fun s x hn hx => ?_, fun s hn => ?_, fun s credit hn hcr => ?_,
    fun s hn => (h.still s hn).trans (hs _), fun s hn => ?_⟩
  · rw [clsAt_of_adm (ha _), h.other s x hn hx]
  · rw [clsAt_of_adm (ha _), h.same s hn]
  · obtain ⟨k, -, hk⟩ := hcourse (op s)
    exact (h.settles s credit hn hcr).then
      (.of_adm (ha _) (fun _ => hk.waiting (fun h => h) (by simp [IsEntry])) (by rw [hf])) (h.still s hn)
  · obtain ⟨j, hj, h1⟩ := h.course s hn
    obtain ⟨k, hk, h2⟩ := hcourse (op s)
    exact ⟨j + k, by omega, h1.trans (h2.mono (fun _ => False.elim) fun _ h => h)⟩

theorem ClassStep.weaken (h : ClassStep now c op f E m) (hm : m ≤ n) (he : ∀ k, E k ↔ F k) :
    ClassStep now c op f F n :=
  ⟨h.other, h.same, fun s credit hn hcr => (h.settles s credit hn hcr).congr fun _ => and_congr_right fun _ => he _,
    h.still, fun s hn => (h.course s hn).imp fun _ hk => ⟨hk.1.trans hm, hk.2⟩⟩

/-- A class once it is disabled (R42). -/
def disabledClass (now : Nat) (k : ClassState) : ClassState := withHeld [] now { k with enabled := false, credit := 0 }

/-- The list of a class that is disabled is emptied (R42). -/
theorem emptyList_step : ClassStep now c
    (fun s => setHeld c [] (updCls c (fun k => { k with enabled := false, credit := 0 }) s)) (disabledClass now)
    (fun _ => True) 1 := by
  refine (ClassStep.evaluated (now := now) (c := c) (f := disabledClass now)
    (fun k => (withHeld_rest _ _ _).2.2.1) fun k => (withHeld_rest _ _ _).2.2.2).congr ?_
  rintro s rfl
  rw [setHeld_eq, updCls_updCls]
  rfl

/-- Class S's session goes with it (R42, R150). -/
theorem abortLoop_then (h : ClassStep now c op f E m) :
    ClassStep now c (fun s => abortLoop .cls (op s)) f E (m + 1) :=
  h.andThen (fun _ => by simp) (fun _ => .of_changes (l := [.loop, .rep, .path]) (onlyChanges_iff.mpr (by simp))
    (by decide)) (fun _ => by simp) (abortLoop_takes .cls)

theorem disableClass_step : ClassStep now c (disableClass c) (disabledClass now) (fun _ => True)
    (if c = .s then 2 else 1) := by
  by_cases hc : c = .s
  · rw [if_pos hc]
    exact (abortLoop_then emptyList_step).congr fun s _ => by rw [disableClass, if_pos hc]
  · rw [if_neg hc]
    exact emptyList_step.congr fun s _ => by rw [disableClass, if_neg hc]

/-- A class as an action of an ADMIT record leaves it (R41, R42). -/
def admitted (action now : Nat) (k : ClassState) : ClassState :=
  if action = 1 ∧ k.enabled = false then { k with enabled := true, credit := 0 }
  else if action = 2 ∧ k.enabled = true then disabledClass now k
  else k

theorem admitClass_step (d : Line) (c : Cls) : ClassStep now c (admitClass d c) (admitted (admitAction d c) now)
    (fun k => admitAction d c = 2 ∧ k.enabled = true) (if c = .s then 2 else 1) := by
  have henable : ClassStep now c (updCls c fun k => { k with enabled := true, credit := 0 }) _ _ 0 :=
    .idle (fun _ => rfl) (fun _ => rfl) fun _ => rfl
  refine (henable.ite (P := fun k => admitAction d c = 1 ∧ k.enabled = false)
    (disableClass_step.ite (P := fun k => admitAction d c = 2 ∧ k.enabled = true) .stays)).weaken ?_ fun k => ?_
  · split <;> decide
  · by_cases h2 : admitAction d c = 2 <;> simp [h2]

theorem admitted_counters (action now : Nat) (k : ClassState) : (admitted action now k).counters = k.counters := by
  unfold admitted disabledClass
  repeat' split
  · rfl
  · rw [withHeld_fields]
  · rfl

theorem admitted_ageFollows (action : Nat) (k : ClassState) : AgeFollows now k (admitted action now k) := by
  unfold admitted disabledClass
  repeat' split
  · exact ageFollows_refl k
  · exact withHeld_ageFollows (now := now) [] { k with enabled := false, credit := 0 }
  · exact ageFollows_refl k

theorem admitClass_flight (d : Line) (c : Cls) (s : State) : (admitClass d c s).adm.flight = s.adm.flight ∧
    (admitClass d c s).adm.flightTimeout = s.adm.flightTimeout := by
  simp only [admitClass, disableClass]
  repeat' split
  all_goals simp [setHeld, evalCongestion_flight, updCls]

theorem admitClasses_flight (d : Line) (cs : List Cls) (s : State) :
    (cs.foldl (fun t c => admitClass d c t) s).adm.flight = s.adm.flight ∧
    (cs.foldl (fun t c => admitClass d c t) s).adm.flightTimeout = s.adm.flightTimeout := by
  induction cs generalizing s with
  | nil => exact ⟨rfl, rfl⟩
  | cons c cs ih =>
    rw [List.foldl_cons, (ih _).1, (ih _).2]
    exact admitClass_flight d c s

/-- Only class S takes a session with it. -/
theorem admitClasses_loop (d : Line) {cs : List Cls} (h : Cls.s ∉ cs) (s : State) :
    (cs.foldl (fun t c => admitClass d c t) s).loop = s.loop := by
  induction cs generalizing s with
  | nil => rfl
  | cons c cs ih =>
    simp only [List.mem_cons, not_or] at h
    obtain ⟨hc, hcs⟩ := h
    rw [List.foldl_cons, ih hcs, admitClass, disableClass]
    repeat' split
    · rfl
    · exact absurd ‹_› (Ne.symm hc)
    · simp
    · rfl

/-- The flight timeout of an ADMIT record (R41). -/
theorem applyAdmit_eq (d : Line) (s : State) : (applyAdmit d s).adm = { (allClasses.foldl (fun t c => admitClass d c t) s).adm with
      flightTimeout := if field d 10 2 = 0 then s.adm.flightTimeout else field d 10 2 } ∧
    OnlyChanges [.adm] (allClasses.foldl (fun t c => admitClass d c t) s) (applyAdmit d s) := by
  have h := (admitClasses_flight d allClasses s).2
  rw [applyAdmit]
  generalize allClasses.foldl (fun t c => admitClass d c t) s = u at *
  split
  · exact ⟨by rw [← h], fun b _ => by cases b <;> rfl⟩
  · exact ⟨rfl, onlyChanges_iff.mpr (by simp)⟩

/-! The fields of a class behind its action (R41, R42). -/

theorem admitted_none (now : Nat) (k : ClassState) : admitted 0 now k = k := by simp [admitted]

theorem admitted_enable (now : Nat) (k : ClassState) : (admitted 1 now k).enabled = true ∧
    (admitted 1 now k).held = k.held ∧ (admitted 1 now k).credit = if k.enabled then k.credit else 0 := by
  cases h : k.enabled <;> simp [admitted, h]

theorem admitted_disable (now : Nat) (k : ClassState) : (admitted 2 now k).enabled = false ∧
    (k.enabled = true → (admitted 2 now k).credit = 0 ∧ (admitted 2 now k).held = []) := by
  cases h : k.enabled
  · simp [admitted, h]
  · rw [admitted, if_neg (by simp), if_pos ⟨rfl, h⟩, disabledClass, withHeld_fields]
    exact ⟨rfl, fun _ => ⟨rfl, rfl⟩⟩

/-- What the actions of an ADMIT record leave of the classes and of congestion, and at most how many reports they make
(R41, R42, R34 to R36). -/
theorem applyAdmit_spec (d : Line) (s : State) : ∃ t, t = applyAdmit d s ∧
    (∀ c, settled (clsAt t c) = settled (admitted (admitAction d c) s.now (clsAt s c))) ∧
    Settles (fun c => admitAction d c = 2 ∧ (clsAt s c).enabled = true) (fun c => (clsAt t c).credit) s t ∧
    (∃ k ≤ 6, Course (fun _ => True) IsEntry s t k) ∧ t.adm.flight = s.adm.flight ∧
    t.adm.flightTimeout = (if field d 10 2 = 0 then s.adm.flightTimeout else field d 10 2) ∧
    OnlyChanges [.adm, .path, .march, .fault, .rep, .loop] s t := by
  obtain ⟨hcls, hset, hstill, k, hk, hcourse⟩ := classSteps_effect
    (credit := fun c => (admitted (admitAction d c) s.now (clsAt s c)).credit) (fun c => admitClass_step (now := s.now) d c)
    allClasses allClasses_nodup rfl fun _ _ => rfl
  obtain ⟨hadm, hblocks⟩ := applyAdmit_eq d s
  have hflight := (admitClasses_flight d allClasses s).1
  have hframe : OnlyChanges [.adm, .path, .march, .fault, .rep, .loop] s (applyAdmit d s) := onlyChanges_iff.mpr (by simp)
  generalize applyAdmit d s = t at *
  generalize allClasses.foldl (fun t c => admitClass d c t) s = u at *
  have hsame : ∀ c, clsAt t c = clsAt u c := fun c => by simp only [clsAt, hadm]
  have hcls : ∀ c, settled (clsAt t c) = settled (admitted (admitAction d c) s.now (clsAt s c)) := fun c => by
    rw [hsame, hcls, if_pos (mem_allClasses c)]
  have hlast : Settles (fun _ => False) (fun c => (clsAt t c).credit) u t := by
    refine .of_idle (fun c => by rw [hsame]; exact ⟨rfl, rfl, rfl⟩) (fun c => ?_) (by rw [hadm]) (by rw [hadm]) ?_
    · rw [waitingNotices, show t.path = u.path from hblocks .path (by decide)]; rfl
    · rw [show t.fault = u.fault from hblocks .fault (by decide)]
  have hcredit : (fun c => (admitted (admitAction d c) s.now (clsAt s c)).credit) = fun c => (clsAt t c).credit :=
    funext fun c => (settled_fields (hcls c)).2.1.symm
  rw [hcredit] at hset
  have hcourse2 : Course (fun _ => True) IsEntry u t 0 :=
    .of_same (hblocks .path (by decide)) (hblocks .rep (by decide)) (hblocks .windows (by decide))
      (by rw [timeNow, show t.time = u.time from hblocks .time (by decide)]; rfl)
  exact ⟨t, rfl, hcls, (hset.then hlast hstill).congr fun c => by simp [mem_allClasses],
    ⟨k + 0, by simpa [allClasses] using hk, hcourse.trans hcourse2⟩, by rw [hadm]; exact hflight, by rw [hadm], hframe⟩

theorem admitClasses_turnover (d : Line) {cs : List Cls} (h : cs.Nodup) (s : State) :
    Turnover (fun _ => True) IsEntry s (cs.foldl (fun t c => admitClass d c t) s) := by
  obtain ⟨-, -, -, k, -, hc⟩ := classSteps_effect (credit := fun c => (admitted (admitAction d c) s.now (clsAt s c)).credit)
    (fun c => admitClass_step (now := s.now) d c) cs h rfl fun _ _ => rfl
  exact hc.toTurnover

/-- What becomes of a loopback session (R42, R150): class S comes first, and takes an active one with it. -/
theorem applyAdmit_loop (d : Line) (s : State) : (applyAdmit d s).loop = (admitClass d .s s).loop ∧
    Turnover (fun _ => True) IsEntry (admitClass d .s s) (applyAdmit d s) := by
  have hloop := admitClasses_loop d (cs := [.t0, .t1, .t2, .t3]) (by decide) (admitClass d .s s)
  have hturn := admitClasses_turnover d (cs := [.t0, .t1, .t2, .t3]) (by decide) (admitClass d .s s)
  have hall : allClasses.foldl (fun t c => admitClass d c t) s =
      [Cls.t0, .t1, .t2, .t3].foldl (fun t c => admitClass d c t) (admitClass d .s s) := rfl
  obtain ⟨-, hblocks⟩ := applyAdmit_eq d s
  rw [hall] at hblocks
  exact ⟨(hblocks .loop (by decide)).trans hloop, hturn.trans (.of_path (hblocks .path (by decide)))⟩

theorem applyAdmit_spares (h : admitAction d .s ≠ 2 ∨ (clsAt s .s).enabled = false ∨ loopActive s.loop = false) :
    (applyAdmit d s).loop = s.loop := by
  rw [(applyAdmit_loop d s).1, admitClass]
  split
  · rfl
  · split
    · rename_i h2
      obtain ⟨hact, hen⟩ := h2
      have hidle : loopActive s.loop = false := by
        rcases h with h | h | h
        · exact absurd hact h
        · simp [hen] at h
        · exact h
      rw [disableClass, if_pos rfl, abortLoop_idle (by simpa using hidle)]
      simp
    · rfl

theorem applyAdmit_aborts (h2 : admitAction d .s = 2) (hen : (clsAt s .s).enabled = true)
    (hl : loopActive s.loop = true) : SessionAborted s (applyAdmit d s) 1 .cls := by
  obtain ⟨hloop, hturn⟩ := applyAdmit_loop d s
  obtain ⟨-, -, -, -, hcourse⟩ := emptyList_step (now := s.now) (c := .s)
  obtain ⟨k, hk, hcourse⟩ := hcourse s rfl
  have hclass : admitClass d .s s =
      abortLoop .cls (setHeld .s [] (updCls .s (fun k => { k with enabled := false, credit := 0 }) s)) := by
    rw [admitClass, if_neg (by simp [h2]), if_pos ⟨h2, hen⟩, disableClass, if_pos rfl]
  have hsame : (setHeld .s [] (updCls .s (fun k => { k with enabled := false, credit := 0 }) s)).loop = s.loop := by simp
  rw [hclass] at hloop hturn
  generalize setHeld .s [] (updCls .s (fun k => { k with enabled := false, credit := 0 }) s) = x at *
  have hlx : loopActive x.loop = true := by rwa [hsame]
  have hx : (abortLoop .cls x).loop = abortedLoop .cls s.loop := by rw [abortLoop_loop hlx, hsame]
  obtain ⟨v, hv, hreport⟩ := abortLoop_reported (cause := .cls) hlx
  have hbody : (applyAdmit d s).loop = abortedLoop .cls s.loop := hloop.trans hx
  refine ⟨hbody, ?_⟩
  rw [hbody, ← hsame]
  have hto : Course (fun c => c = .s) IsEntry s v (k + 0) := hcourse.trans hv.course
  exact hto.among_now hk ((hreport.turnover (N := fun _ => True)).trans hturn)

/-- An ADMIT record in the ranges of R41, no class of which meets the fence (R41, R42). -/
theorem admitRecord_admits {action : Cls → Nat} (h : RecordNext s id r 0x04 a)
    (hact : ∀ c, action c = field (seen r) (4 + clsCode c) 1) (hok : admitCheck s (seen r) = .applied) :
      ∃ t, exec .admitRecord s = .next t ∧
        (∀ c, settled (clsAt t c) = settled (admitted (action c) s.now (clsAt s c))) ∧
        t.adm.flight = s.adm.flight ∧
        t.adm.flightTimeout = (if field (seen r) 10 2 = 0 then s.adm.flightTimeout else field (seen r) 10 2) ∧
        AgeTimersFollow s t ∧ CongestionSettled s t (fun c => action c = 2 ∧ (clsAt s c).enabled = true)
          (fun c => (clsAt t c).credit) ∧
        (action .s = 2 → (clsAt s .s).enabled = true → loopActive s.loop = true → SessionAborted s t 1 .cls) ∧
        (action .s ≠ 2 ∨ (clsAt s .s).enabled = false ∨ loopActive s.loop = false → t.loop = s.loop) ∧
        RecordDone s t 6 r ∧
        OnlyChanges [.adm, .loop, .path, .march, .rep, .fault, .dec] s t := by
  obtain rfl : action = admitAction (seen r) := funext fun c => hact c
  have hrow := admitRecord_applies h hok
  have haborts := applyAdmit_aborts (s := s) (d := seen r)
  have hspares := applyAdmit_spares (s := s) (d := seen r)
  obtain ⟨x, hx, hcls, hset, ⟨k, hk, hcourse⟩, hflight, htimeout, hframe⟩ := applyAdmit_spec (seen r) s
  rw [← hx] at hrow haborts hspares
  have hcx := fun y => clsAt_recordEnd (s := s) (id := id) (r := r) (o := .applied) (x := x) y
  have hadm : (recordEnd s id r .applied x).adm = x.adm := by simp [recordEnd]
  have hloop : (recordEnd s id r .applied x).loop = x.loop := by simp [recordEnd]
  refine ⟨_, hrow, fun c => (congrArg settled (hcx c)).trans (hcls c), by rw [hadm, hflight], by rw [hadm, htimeout],
    fun c => ?_, ?_, fun h2 hen hl => ?_, fun hn => hloop.trans (hspares hn),
    hcourse.recordDone h.1 hk (hframe .dec (by decide)), ?_⟩
  · exact (admitted_ageFollows (now := s.now) (admitAction (seen r) c) (clsAt s c)).congr rfl
      ((congrArg settled (hcx c)).trans (hcls c))
  · rw [show (fun y => (clsAt (recordEnd s id r .applied x) y).credit) = fun y => (clsAt x y).credit from
      funext fun y => by rw [hcx]]
    exact hset.recordEnd hcourse.toTurnover h.1 .applied
  · obtain ⟨ha, hr⟩ := haborts h2 hen hl
    refine ⟨hloop.trans ha, ?_⟩
    rw [hloop]
    exact hcourse.toTurnover.recordEnd_among h.1 hr .applied
  · exact (recordEnd_changes hframe (by decide) (by decide) .applied).mono (by decide)

end AdmitRecord

/-- Settles O54: the CLASS and the ADMIT record, each by its checks. -/
theorem admissionRecords : Obligations.AdmissionRecords := by
  unfold Obligations.AdmissionRecords
  refine ⟨fun s id r a d c share recovery h hd hc h8 h10 h12 h14 h16 h18 h18' hs hr => ?_, fun s id r a d h hd hbad => ?_,
    fun s id r a d action h hd hact => ?_⟩
  · subst hd
    have hcheck := classCheck_inRange (by rw [h.action]; exact hc) h8 h10 h12 h14 h16 h18 h18' hs hr
    refine ⟨fun h1 h2 => ?_, fun h1 => ?_⟩
    · rw [if_neg (by omega), if_neg (by omega)] at hcheck
      obtain ⟨t, hrow, hset, hcong, hother, hflight, hdone, hframe⟩ := classRecord_sets h hc hcheck
      have hrc : recordClass (seen r) = c := recordClass_of (by rw [h.action, hc])
      have hage := classEntry_ages (seen r) s.now (clsAt s c)
      obtain ⟨k1, k2, k3, k4⟩ := classEntry_keeps (seen r) s.now (clsAt s c)
      obtain ⟨hen, hcr, hh, hat, hburst, hweight, hshare, hrec, hcount, hneeds, hhi, hlo, hmax⟩ := settled_fields hset
      refine ⟨t, hrow, hshare, hweight, hburst, hhi, hlo, hmax, fun h0 => ?_, fun h0 => ?_, hcr.trans k4, hen.trans k1,
        hh.trans k2, hcount.trans k3, hage.congr hh hat hmax, hcong, hother, hflight, hdone, hframe⟩
      · exact hrec.trans ((classEntry_byClass ..).1.trans (by rw [hrc, if_pos h0]))
      · exact hneeds.trans ((classEntry_byClass ..).2.trans (by rw [hrc, if_neg h0]))
    · refine classRecord_refuses (o := .conflict) h (by decide) ?_
      rw [hcheck]
      split
      · rfl
      · rw [if_pos (h1.resolve_left ‹_›)]
  · subst hd
    exact classRecord_refuses (o := .range) h (by decide) (classCheck_range (by rwa [h.action]))
  · subst hd
    refine ⟨fun hbad => ?_, fun h1 h2 h3 => ?_, fun h1 h2 c hc hen hf => ?_⟩
    · exact admitRecord_refuses (o := .range) h (by decide) (admitCheck_range (by simpa only [admitAction, ← hact] using hbad))
    · have hle : ∀ c, admitAction (seen r) c ≤ 2 := fun c => (hact c).symm.trans_le (h1 c)
      obtain ⟨hbusy, hor⟩ := admitCheck_inRange (s := s) hle h2
      have hok := hor.resolve_left fun hb => by
        obtain ⟨c, hc, hen, hf⟩ := hbusy.mp hb
        rcases h3 c ((hact c).trans hc) with h | h
        · simp [hen] at h
        · simp [hf] at h
      obtain ⟨t, hrow, hcls, hrest⟩ := admitRecord_admits h hact hok
      refine ⟨t, hrow, fun c hc => ?_, fun c hc => ?_, fun c hc hen => ?_, fun c hc hen => ?_, fun c => ?_, hrest⟩
      all_goals
        obtain ⟨hen', hcr, hh, -, -, -, -, -, hcount, -⟩ := settled_fields (hcls c)
      · rw [hc, admitted_none] at hen' hcr hh
        exact ⟨hen', hcr, hh⟩
      · obtain ⟨h1, h2, h3⟩ := admitted_enable s.now (clsAt s c)
        rw [hc] at hen' hcr hh
        exact ⟨hen'.trans h1, hh.trans h2, hcr.trans h3⟩
      · obtain ⟨h1, h2⟩ := admitted_disable s.now (clsAt s c)
        rw [hc] at hen' hcr hh
        exact ⟨hen'.trans h1, hcr.trans (h2 hen).1, hh.trans (h2 hen).2⟩
      · rw [hc] at hen'
        exact hen'.trans (admitted_disable s.now (clsAt s c)).1
      · exact hcount.trans (admitted_counters ..)
    · have hle : ∀ c, admitAction (seen r) c ≤ 2 := fun c => (hact c).symm.trans_le (h1 c)
      exact admitRecord_refuses (o := .busy) h (by decide)
        ((admitCheck_inRange hle h2).1.mpr ⟨c, (hact c).symm.trans hc, hen, hf⟩)

end Sys2Proof.Machine

namespace Sys2Proof.Machine

/-! ### An access of a port request ends (R90, R107) -/

section PortAnswers

variable {N : Cls → Prop} {J : Job → Prop} {s t u x : State} {a : Access} {r : LineRequest} {y : Response}
  {f : LineFlips} {m n : Nat}

/-- The reports that an event has made so far stand at a later point of it. -/
def ReportsStay (s x t : State) : Prop := pathLaw s → ∀ (g : Ring) (k : Nat) (time : Stamp) (code : Nat)
  (body : List FieldSpec), ReportAt s x g k time code body → ReportAt s t g k time code body

theorem ReportsStay.among (h : ReportsStay s x t) {time : Stamp} {code : Nat} {body : List FieldSpec}
    (hr : ReportAmong s x n time code body) : ReportAmong s t n time code body := by
  intro hp g hg hrel hu
  obtain ⟨k, hk, hm⟩ := hr hp g hg hrel hu
  exact ⟨k, hk, h hp g k _ _ _ hm⟩

theorem ReportAmong.mono {time : Stamp} {code : Nat} {body : List FieldSpec} (hr : ReportAmong s t m time code body)
    (h : m ≤ n) : ReportAmong s t n time code body := by
  intro hp g hg hrel hu
  obtain ⟨k, hk, hm⟩ := hr hp g hg hrel (by omega)
  exact ⟨k, hk.trans h, hm⟩

theorem Turnover.of_reqs (h1 : t.path.reqs = s.path.reqs) (h2 : t.path.nextId = s.path.nextId) : Turnover N J s t :=
  ⟨by rw [h2], fun _ => true, [], by simp [h1], by simp, by simp⟩

/-- The request of an access whose port still holds it. -/
theorem portRequestOf_mem (h : portRequestOf s a = some r) : a.live = true ∧ ∃ q ∈ s.path.reqs, q.id = a.id ∧
    findReq s a.id = some q ∧ ∃ p w st, q.job = .port p r w st := by
  unfold portRequestOf at h
  split at h
  · rename_i hl
    split at h
    · rename_i q hq
      split at h
      · rename_i hj
        obtain rfl := Option.some.inj h
        exact ⟨hl, q, List.mem_of_find?_eq_some hq, by simpa using List.find?_some hq, hq, _, _, _, hj⟩
      · simp at h
    · simp at h
  · simp at h

/-- The access of a standing request leaves the memory port, and the requests stand. -/
theorem popRead_path (h : Completes s a) (hl : a.live = true) :
    (popRead f a s).path = { s.path with memPort := s.path.memPort.drop 1 } ∧ (popRead f a s).march = s.march := by
  rw [popRead, popHead_live h hl]
  exact ⟨rfl, rfl⟩

/-- What an answer leaves of the requests: the answered one, and at the end one of the march test (R90, R130). -/
theorem answer_reqs (id : Nat) (y : Response) (t : State) : ∃ l, (answer id y t).path.reqs =
    (t.path.reqs.map fun q => if q.id = id then { q with stage := .answered y } else q) ++ l ∧
    ∀ q ∈ l, IsMarch q.job := by
  obtain ⟨-, stays, l, hl, hgo, hnew⟩ := marchPump_turnover (N := fun _ => False) (leaveDrain id (setStage id (.answered y) t))
  have hall : ∀ q, stays q = true := fun q => by
    by_contra hq
    obtain ⟨c, d, hc, -⟩ := hgo q (Bool.eq_false_iff.mpr hq)
    exact hc
  refine ⟨l, ?_, fun q hq => (hnew q hq).2.resolve_right fun ⟨_, _, hc, _⟩ => hc⟩
  rw [answer, hl, List.filter_eq_self.mpr fun q _ => hall q]
  rfl

/-- A port's request stands where only notices have gone. -/
theorem Turnover.holds (h : Turnover N J s t) (hr : portRequestOf s a = some r) : ∃ q ∈ s.path.reqs, q.id = a.id ∧
    q ∈ t.path.reqs ∧ isAnyPortReq q = true := by
  obtain ⟨-, q, hq, hid, -, p, w, st, hj⟩ := portRequestOf_mem hr
  refine ⟨q, hq, hid, h.kept hq ?_, by simp [isAnyPortReq, hj]⟩
  rintro ⟨c, d, -, hn⟩
  exact absurd (hj.symm.trans hn) (by simp)

theorem Turnover.answered (h : Turnover N J s t) (hr : portRequestOf s a = some r) : Answered (answer a.id y t) a.id y := by
  obtain ⟨q, -, hid, hq, -⟩ := h.holds hr
  obtain ⟨l, hl, -⟩ := answer_reqs a.id y t
  exact ⟨{ q with stage := .answered y },
    by rw [hl]; exact List.mem_append_left _ (List.mem_map.mpr ⟨q, hq, if_pos hid⟩), hid, rfl⟩

/-- A request of the internal requester stands where a port's request is answered. -/
theorem Turnover.answer_keeps (h : Turnover N J s t) (hr : portRequestOf s a = some r) (hp : pathLaw s) {q : Req}
    (hq : q ∈ t.path.reqs) (hj : isAnyPortReq q = false) : q ∈ (answer a.id y t).path.reqs := by
  obtain ⟨q', hq', hid', -, hport⟩ := h.holds hr
  obtain ⟨l, hl, -⟩ := answer_reqs a.id y t
  rw [hl]
  refine List.mem_append_left _ (List.mem_map.mpr ⟨q, hq, if_neg fun hid => ?_⟩)
  obtain rfl := h.numbered hp hq' hq (hid.trans hid'.symm)
  simp [hj] at hport

/-- The requests of the internal requester that stand where a port's request has been answered: those before it, and
one of the march test. -/
theorem Turnover.answer_new (h : Turnover N J s t) (hr : portRequestOf s a = some r) (hp : pathLaw s) {q : Req}
    (hq : q ∈ (answer a.id y t).path.reqs) (hj : isAnyPortReq q = false) : q ∈ t.path.reqs ∨ IsMarch q.job := by
  obtain ⟨q', hq', hid', -, hport⟩ := h.holds hr
  obtain ⟨l, hl, hmarch⟩ := answer_reqs a.id y t
  rw [hl, List.mem_append] at hq
  refine hq.imp (fun hq => ?_) (hmarch q)
  obtain ⟨z, hz, rfl⟩ := List.mem_map.mp hq
  split at hj
  · rename_i hid
    obtain rfl := h.numbered hp hq' hz (hid.trans hid'.symm)
    simp [isAnyPortReq] at hj hport
    simp [hport] at hj
  · rw [if_neg ‹_›]; exact hz

theorem Turnover.answer_reports (h : Turnover N J s t) (hr : portRequestOf s a = some r) :
    ReportsStay s t (answer a.id y t) := by
  intro hp g k time code body hat w hw
  obtain ⟨q, hq, hline, hstage, hjob⟩ := hat w hw
  exact ⟨q, h.answer_keeps hr hp hq (by simp [isAnyPortReq, hjob]), hline, hstage, hjob⟩

theorem Turnover.stay (h : Turnover N J x t) : ReportsStay s x t := fun _ _ _ _ _ _ hr => h.keeps hr

theorem ReportsStay.trans (h : ReportsStay s x t) (h2 : ReportsStay s t u) : ReportsStay s x u :=
  fun hp g k _ _ _ hr => h2 hp g k _ _ _ (h hp g k _ _ _ hr)

theorem Turnover.answer_waiting (h : Turnover N J s t) (hr : portRequestOf s a = some r) (hp : pathLaw s) (c : Cls) :
    waitingNotices (answer a.id y t) c = waitingNotices t c := by
  obtain ⟨q', hq', hid', -, hport⟩ := h.holds hr
  rw [answer, marchPump_waiting]
  refine waitingNotices_map (f := fun q => if q.id = a.id then { q with stage := .answered y } else q) rfl fun q hq => ?_
  by_cases hid : q.id = a.id
  · obtain rfl := h.numbered hp hq' hq (hid.trans hid'.symm)
    rw [if_pos hid]
    exact .inr ⟨isWaitingNotice_port hport, isWaitingNotice_port (by simpa [isAnyPortReq] using hport)⟩
  · exact .inl (if_neg hid)

/-- The flipped bits of a line that has been read, where the rest of the event leaves them (R108). -/
theorem popRead_flipsKept (ht : t.flips = (popRead f a s).flips) (hd : dramLaw s) : FlipsKept s t a.memLine f := by
  rw [popRead_flips] at ht
  refine ⟨fun w x hx => ?_, fun k hk => by rw [ht, flipsRead_write_other hk]⟩
  rw [ht, flipsRead_write_same hd.2, flipsMet, standingFlips]
  simp [hx]

end PortAnswers

/-! ### The event and the report that have no order (R110, R121, R156) -/

section Raises

variable {N : Cls → Prop} {J : Job → Prop} {s t u v x : State} {c : Cond} {n k cause : Nat}

/-- The body of a FAULT_CHANGE, as the statements spell it (R170). -/
theorem faultBody_eq (c : Cond) (a b : Condition) (cause : Nat) (line : Bool) :
    [⟨16, 1, condIndex c⟩, ⟨17, 1, flagPair a⟩, ⟨18, 1, flagPair b⟩,
      ⟨19, 1, faultModeCode b.mode + 16 * flagByte b.longRetry⟩, ⟨20, 1, cause⟩, ⟨21, 1, flagByte line⟩,
      ⟨24, 4, b.occurrences.toNat⟩] = [(⟨16, 1, condIndex c⟩ : FieldSpec),
      ⟨17, 1, (if a.raw then 1 else 0) + if a.latched then 2 else 0⟩,
      ⟨18, 1, (if b.raw then 1 else 0) + if b.latched then 2 else 0⟩,
      ⟨19, 1, faultModeCode b.mode + if b.longRetry then 16 else 0⟩, ⟨20, 1, cause⟩,
      ⟨21, 1, if line then 1 else 0⟩, ⟨24, 4, b.occurrences.toNat⟩] := by
  have hpair : ∀ d : Condition, flagPair d = (if d.raw then 1 else 0) + if d.latched then 2 else 0 := fun d => by
    cases h1 : d.raw <;> cases h2 : d.latched <;> simp [flagPair, flagByte, h1, h2]
  have hlong : 16 * flagByte b.longRetry = if b.longRetry then 16 else 0 := by cases b.longRetry <;> rfl
  rw [hpair, hpair, hlong]
  rfl

/-- A change of a condition has its FAULT_CHANGE (R170), behind the reports made before it. -/
theorem changeCondition_reported {d : Condition} (h : Course N IsEntry s v k) (hk : k ≤ n)
    (hc : condGet v.fault c = condGet s.fault c) (hx : ReportsStay s (changeCondition c d cause v) t)
    (hf : t.fault = (changeCondition c d cause v).fault) : FaultReported s t n c cause := by
  rintro a b rfl rfl hne hmode
  obtain ⟨w, hw⟩ : ∃ w, w = evalFaultLine (v.updFault fun u => condSet u c d) := ⟨_, rfl⟩
  have hcc : changeCondition c d cause v = reportFault c (condGet s.fault c) cause w := by rw [changeCondition, hc, hw]
  have hfw : t.fault = w.fault := by rw [hf, hcc]; simp
  have hcw : Course N IsEntry s w k := by
    have : Course N IsEntry v w 0 := by rw [hw]; exact .of_same rfl rfl rfl rfl
    exact h.trans this
  rw [hfw] at hne hmode ⊢
  rw [hcc, reportFault, if_neg] at hx
  · have := hx.among (hcw.among_now hk (.of_path (N := N) (J := IsEntry) rfl))
    rw [faultBody_eq] at this
    exact this
  · rintro (⟨h1, h2⟩ | h1)
    · exact hne.elim (fun h => h h1) fun h => h h2
    · exact hmode h1

end Raises
end Sys2Proof.Machine

namespace Sys2Proof.Machine

/-! ### The outcome of a read (R109 to R111, R116, R121) -/

section Outcomes

variable {N : Cls → Prop} {s t u v x : State} {c : Cond} {k line page n : Nat} {source : IntegritySource} {a : Access}

/-- Work that the outcome of a read makes: report entries, and the copy engine's next line. -/
def IsUnit (j : Job) : Prop := IsEntry j ∨ j = .copyLine

/-- An event condition raised beside a report, in either order (R110, R121, R156). -/
theorem raised_reported {code : Nat} {body : List FieldSpec} (hx : x = unordered [raiseCondition c, report code body] v)
    (h : Course N IsEntry s v 0) (hc : condGet v.fault c = condGet s.fault c) :
    (∃ k ≤ 2, Course N IsEntry s x k) ∧ ReportAmong s x 1 (timeNow s) code body ∧
    (∀ t, ReportsStay s x t → t.fault = x.fault → FaultReported s t 1 c 3) ∧
    (condGet x.fault c).raw = true ∧ (condGet x.fault c).occurrences = satInc (condGet s.fault c).occurrences ∧
    ∀ e, e ≠ c → condGet x.fault e = condGet v.fault e := by
  obtain ⟨w, hw⟩ : ∃ w, w = v.setFreeUses (v.freeUses + 1) := ⟨_, rfl⟩
  have hcw : Course N IsEntry s w 0 := by
    have : Course N IsEntry v w 0 := by rw [hw]; exact .of_same rfl rfl rfl rfl
    exact h.trans this
  have hf : w.fault = v.fault := by rw [hw]; rfl
  rcases unordered_pair (f := raiseCondition c) (g := report code body) (s := v) with he | he
  · rw [← hw] at he
    have hxe := hx.trans he
    obtain ⟨j, hj, hr⟩ := (raiseCondition_takes c).course (N := N) w
    have hrep : Turnover N IsEntry (raiseCondition c w) x := hxe ▸ reportAt_turnover _ _ _ _
    have hrep1 : Course N IsEntry (raiseCondition c w) x 1 := hxe ▸ (Reporting.one _ _ _).course
    have hfx : x.fault = (raiseCondition c w).fault := by rw [hxe]; simp
    obtain ⟨h1, -, h3⟩ := raiseCondition_same (c := c) (s := w)
    refine ⟨⟨0 + j + 1, by omega, (hcw.trans hr).trans hrep1⟩, ?_, fun t ht hft => ?_, ?_, ?_, fun e hne => ?_⟩
    · rw [hxe]
      exact (hcw.trans hr).among_now (by omega) (.of_path (N := N) (J := IsEntry) rfl)
    · exact changeCondition_reported hcw (by omega) (by rw [hf, hc]) (hrep.stay.trans ht) (hft.trans hfx)
    · rw [hfx, h1]
    · rw [hfx, h3, hf, hc]
    · rw [hfx, raiseCondition_other hne, hf]
  · rw [← hw] at he
    have hxe := hx.trans he
    obtain ⟨j, hj, hr⟩ := (raiseCondition_takes c).course (N := N) (report code body w)
    rw [← hxe] at hr
    have hrep1 : Course N IsEntry w (report code body w) 1 := (Reporting.one _ _ _).course
    have hfr : (report code body w).fault = v.fault := by simp [hf]
    obtain ⟨h1, -, h3⟩ := raiseCondition_same (c := c) (s := report code body w)
    refine ⟨⟨0 + 1 + j, by omega, (hcw.trans hrep1).trans hr⟩, hcw.among_now (by omega) hr.toTurnover,
      fun t ht hft => ?_, ?_, ?_, fun e hne => ?_⟩
    · rw [hxe] at ht hft
      exact changeCondition_reported (hcw.trans hrep1) (by omega) (by rw [hfr, hc]) ht hft
    · rw [hxe, h1]
    · rw [hxe, h3, hfr, hc]
    · rw [hxe, raiseCondition_other hne, hfr]

/-! The requests and the reports of an outcome. -/

theorem copyPump_course (s : State) : Course N IsUnit s (copyPump s) 0 := by
  refine .quiet ?_ (by simp) (by simp) (by simp [timeNow])
  have hset : ∀ e, Turnover N IsUnit s (setRemap e s) := fun _ => .of_path rfl
  simp only [copyPump]
  repeat' split
  · exact .of_path rfl
  · exact makeReq_turnover (.inl (.inr rfl)) s
  · exact (hset _).trans (makeReq_turnover (.inl (.inr rfl)) _)
  · exact .of_path rfl

theorem integ_course {f : Integrity → Integrity} (s : State) : Course N IsEntry s (s.updInteg f) 0 :=
  .of_same rfl rfl rfl rfl

theorem Course.units (h : Course N IsEntry s t n) : Course N IsUnit s t n := h.mono (fun _ h => h) fun _ => .inl

/-- A remap request that the pool can serve (R121). -/
theorem remapRequest_served {p : Nat} {src : RemapSource} (h1 : remapHas u page = false) (h2 : poolPage u = some p)
    (hc : Course N IsEntry s u 0) (hx : x = remapRequest page src u) :
    (∃ k ≤ 2, Course N IsUnit s x k) ∧
    ReportAmong s x 0 (timeNow s) 0x0A (remapBody ⟨page, p, .waiting, src, 0, timeNow u⟩) := by
  have he : x = copyPump (report 0x0A (remapBody ⟨page, p, .waiting, src, 0, timeNow u⟩)
      (u.updInteg fun v => { v with remaps := v.remaps ++ [⟨page, p, .waiting, src, 0, timeNow u⟩] })) := by
    rw [hx, remapRequest, if_neg (by simp [h1]), h2]
  have hv := hc.trans (integ_course (N := N) (f := fun v =>
    { v with remaps := v.remaps ++ [⟨page, p, .waiting, src, 0, timeNow u⟩] }) u)
  generalize (u.updInteg fun v => { v with remaps := v.remaps ++ [⟨page, p, .waiting, src, 0, timeNow u⟩] }) = v at he hv
  obtain ⟨w, hw⟩ : ∃ w, w = report 0x0A (remapBody ⟨page, p, .waiting, src, 0, timeNow u⟩) v := ⟨_, rfl⟩
  have hrep : Course N IsEntry v w 1 := hw ▸ (Reporting.one _ _ _).course
  have hpump := copyPump_course (N := N) w
  rw [he, ← hw]
  refine ⟨⟨0 + 0 + 1 + 0, by omega, (hv.trans hrep).units.trans hpump⟩, ?_⟩
  rw [hw] at hpump ⊢
  exact hv.among_now (Nat.le_refl 0) hpump.toTurnover

/-- A remap request that finds the pool empty (R121). -/
theorem remapRequest_exhausted {src : RemapSource} (h1 : remapHas u page = false) (h2 : poolPage u = none)
    (hc : Course N IsEntry s u 0) (hf : condGet u.fault .remapExhausted = condGet s.fault .remapExhausted)
    (hx : x = remapRequest page src u) :
    (∃ k ≤ 2, Course N IsEntry s x k) ∧
    ReportAmong s x 1 (timeNow s) 0x0B [⟨16, 8, pageAddress page⟩, ⟨32, 1, remapSourceCode src⟩] ∧
    x.fault.remapExhausted.raw = true ∧ ∀ e, e ≠ .remapExhausted → condGet x.fault e = condGet u.fault e := by
  have he : x = unordered [raiseCondition .remapExhausted,
      report 0x0B [⟨16, 8, pageAddress page⟩, ⟨32, 1, remapSourceCode src⟩]]
      (integCount (fun c => { c with remapExhausted := satInc c.remapExhausted }) u) := by
    rw [hx, remapRequest, if_neg (by simp [h1]), h2]
    rfl
  obtain ⟨h1, h2, -, h3, -, h4⟩ := raised_reported he (hc.trans (integ_course u)) hf
  exact ⟨h1, h2, h3, h4⟩

/-- What a remap request leaves of the integrity unit, whatever becomes of it (R121). -/
theorem remapRequest_shape (page : Nat) (src : RemapSource) (u : State) : ∃ l dup exh,
    (remapRequest page src u).integ = { u.integ with
      remaps := l, counters := { u.integ.counters with remapDuplicate := dup, remapExhausted := exh } } := by
  obtain ⟨h1, h2, h3⟩ := remapRequest_integ (page := page) (source := src) (s := u) rfl
  cases hh : remapHas u page with
  | true => exact ⟨_, _, _, h1 hh⟩
  | false =>
    cases hp : poolPage u with
    | none => exact ⟨_, _, _, h2 hh hp⟩
    | some p => exact ⟨_, _, _, (h3 p hh hp).1⟩

theorem suspectReached_shape (e : Suspect) (u : State) : ∃ l dup exh,
    (suspectReached e u).integ = { u.integ with
      remaps := l, counters := { u.integ.counters with remapDuplicate := dup, remapExhausted := exh } } := by
  unfold suspectReached
  split
  · exact remapRequest_shape _ _ _
  · exact ⟨u.integ.remaps, u.integ.counters.remapDuplicate, u.integ.counters.remapExhausted, by simp⟩

/-- A page that reaches the threshold makes at most two reports, and leaves every condition but REMAP_EXHAUSTED. -/
theorem suspectReached_course {e : Suspect} (hc : Course N IsEntry s u 0)
    (hf : condGet u.fault .remapExhausted = condGet s.fault .remapExhausted) :
    (∃ k ≤ 2, Course N IsUnit s (suspectReached e u) k) ∧
    ∀ c, c ≠ .remapExhausted → condGet (suspectReached e u).fault c = condGet u.fault c := by
  unfold suspectReached
  split
  · cases hh : remapHas u e.page with
    | true =>
      have he : remapRequest e.page .copy u =
          integCount (fun c => { c with remapDuplicate := satInc c.remapDuplicate }) u := by
        rw [remapRequest, if_pos hh]
      rw [he]
      exact ⟨⟨0 + 0, by omega, (hc.trans (integ_course u)).units⟩, fun _ _ => rfl⟩
    | false =>
      cases hp : poolPage u with
      | none =>
        obtain ⟨⟨k, hk, h1⟩, -, -, h2⟩ := remapRequest_exhausted hh hp hc hf rfl
        exact ⟨⟨k, hk, h1.units⟩, h2⟩
      | some p =>
        refine ⟨(remapRequest_served hh hp hc rfl).1, fun c _ => ?_⟩
        rw [remapRequest, if_neg (by simp [hh]), hp]
        simp
  · refine ⟨⟨0 + 1, by omega, (hc.trans (Reporting.one _ _ _).course).units⟩, fun c _ => by simp⟩

/-- The first report of a page at the threshold, where it is not remapped (R116). -/
theorem suspectReached_told {e : Suspect} (hc : Course N IsEntry s u 0)
    (h : u.integ.autoRemap = false ∨ inSpare u e.page = true) : ReportAmong s (suspectReached e u) 0 (timeNow s) 0x09
      [⟨16, 8, pageAddress e.page⟩, ⟨24, 1, e.count⟩, ⟨32, 8, narrow 8 e.first⟩] := by
  rw [suspectReached, if_neg (by rcases h with h | h <;> simp [h])]
  exact hc.among_now (Nat.le_refl 0) (.of_path (N := N) (J := IsEntry) rfl)

/-- The page's entry behind one more outcome, from the entry that the list had (R116). -/
theorem bumped_entry {l : List Suspect} {known : Option Suspect} {now : Nat}
    (hk : known = l.find? fun x => x.page = page) (hs : ∀ e, known = some e → n = e.count + 1)
    (hn : known = none → n = 1) : ∃ e, (bumpSuspects l page now).find? (fun x => x.page = page) = some e ∧
      e.page = page ∧ e.count = n ∧ (∀ w, known = some w → e.first = w.first) ∧ (known = none → e.first = now) ∧
      (suspectReplaces l page = true ↔ known = none ∧ 8 ≤ l.length) := by
  obtain ⟨h1, h2⟩ := bumpSuspects_spec (l := l) (page := page) (now := now)
  cases hf : l.find? fun x => x.page = page with
  | some w =>
    obtain ⟨-, hb, -, hr⟩ := h1 w hf
    obtain rfl := hk.trans hf
    have hp : w.page = page := by simpa using List.find?_some hf
    exact ⟨_, hb, hp, (hs w rfl).symm, fun x hx => by rw [Option.some.inj hx], by simp, by simp [hr]⟩
  | none =>
    obtain ⟨hb, hr1, hr2⟩ := h2 hf
    obtain rfl := hk.trans hf
    refine ⟨_, hb, rfl, (hn rfl).symm, by simp, fun _ => rfl, ?_⟩
    by_cases h8 : l.length < 8
    · simp [(hr1 h8).2.2]; omega
    · simp [(hr2 (by omega)).1]; omega

/-- Behind one more outcome the list holds no new entry of another page (R116). -/
theorem bumped_old {l : List Suspect} {now : Nat} {x : Suspect} (hx : x ∈ bumpSuspects l page now) (hp : x.page ≠ page) :
    x ∈ l := by
  obtain ⟨h1, h2⟩ := bumpSuspects_spec (l := l) (page := page) (now := now)
  cases hf : l.find? fun x => x.page = page with
  | some w =>
    have hm : x ∈ (bumpSuspects l page now).filter fun x => x.page != page := List.mem_filter.mpr ⟨hx, by simpa using hp⟩
    rw [(h1 w hf).2.2.1] at hm
    exact List.mem_of_mem_filter hm
  | none =>
    obtain ⟨-, h3, h4⟩ := h2 hf
    by_cases h8 : l.length < 8
    · rw [(h3 h8).1, List.mem_append, List.mem_singleton] at hx
      exact hx.resolve_right fun he => hp (by rw [he])
    · obtain ⟨-, w, -, -, hb⟩ := h4 (by omega)
      rw [hb, List.mem_append, List.mem_singleton] at hx
      exact List.mem_of_mem_filter (hx.resolve_right fun he => hp (by rw [he]))

/-- What R116 reads of the integrity unit stands from `s` to `u`, and no report is made. -/
structure CountsFrom (s u : State) : Prop where
  course : Course (fun _ => False) IsEntry s u 0
  now : u.now = s.now
  exhaustedCond : u.fault.remapExhausted = s.fault.remapExhausted
  suspects : u.integ.suspects = s.integ.suspects
  threshold : u.integ.suspectThreshold = s.integ.suspectThreshold
  auto : u.integ.autoRemap = s.integ.autoRemap
  remaps : u.integ.remaps = s.integ.remaps
  replaced : u.integ.counters.suspectReplaced = s.integ.counters.suspectReplaced
  duplicate : u.integ.counters.remapDuplicate = s.integ.counters.remapDuplicate
  exhausted : u.integ.counters.remapExhausted = s.integ.counters.remapExhausted

/-- Below the threshold (R116). -/
theorem suspectCounted_below {known : Option Suspect} (hu : CountsFrom s u)
    (ht : t.integ = (suspectCount line u).integ) (hn : n < s.integ.suspectThreshold) :
    SuspectCounted s t (pageOf line) n known := by
  intro hk hs hnone
  obtain ⟨e, he, -, hcount, -, -, hrep⟩ := bumped_entry (now := s.now) hk hs hnone
  have hi := suspectCount_below (t := suspectCount line u) rfl (by rw [hu.suspects, hu.now]; exact he)
    (by rw [hcount, hu.threshold]; exact hn)
  rw [← ht, hu.suspects, hu.now, hu.replaced] at hi
  have hr : t.integ.remaps = s.integ.remaps ∧ t.integ.counters.remapDuplicate = s.integ.counters.remapDuplicate ∧
      t.integ.counters.remapExhausted = s.integ.counters.remapExhausted := by
    rw [hi]
    exact ⟨hu.remaps, hu.duplicate, hu.exhausted⟩
  have hl : t.integ.suspects = bumpSuspects s.integ.suspects (pageOf line) s.now := by rw [hi]
  have hc : t.integ.counters.suspectReplaced = if suspectReplaces s.integ.suspects (pageOf line) then
      satInc s.integ.counters.suspectReplaced else s.integ.counters.suspectReplaced := by rw [hi]
  obtain ⟨hb1, hb2⟩ := bumpSuspects_spec (l := s.integ.suspects) (page := pageOf line) (now := s.now)
  refine ⟨fun h => ?_, fun h => ?_, fun _ => hr, fun _ => ⟨fun w hw => ?_, fun h h8 => ?_, fun h h8 => ?_⟩,
    fun h => absurd hn (Nat.not_lt.mpr h)⟩
  · rw [hc, if_pos (hrep.mpr h)]
  · rw [hc, if_neg fun hx => h.elim (fun h => h (hrep.mp hx).1) fun h => by have := (hrep.mp hx).2; omega]
  · rw [hl, (hb1 w (hk.symm.trans hw)).1]
  · rw [hl, ((hb2 (hk.symm.trans h)).2.1 h8).1]
  · obtain ⟨-, w, hw, hmin, hbump⟩ := (hb2 (hk.symm.trans h)).2.2 h8
    exact ⟨w, hw, hmin, by rw [hl, hbump]⟩

/-- At the threshold (R116, R121). -/
theorem suspectCounted_reached {known : Option Suspect} (hu : CountsFrom s u)
    (ht : t.integ = (suspectCount line u).integ)
    (hf : t.fault.remapExhausted = (suspectCount line u).fault.remapExhausted)
    (hr : ReportsStay s (suspectCount line u) t) (hn : s.integ.suspectThreshold ≤ n) :
    SuspectCounted s t (pageOf line) n known := by
  intro hk hs hnone
  obtain ⟨e, he, hpage, hcount, hfirst, hnow, hrep⟩ := bumped_entry (now := s.now) hk hs hnone
  obtain ⟨v, hx, hblocks, hv⟩ := suspectCount_reached (t := suspectCount line u) rfl
    (by rw [hu.suspects, hu.now]; exact he) (by rw [hcount, hu.threshold]; exact hn)
  rw [hx] at ht hf hr
  rw [hu.suspects, hu.now, hu.replaced] at hv
  have hcv : Course (fun _ => False) IsEntry s v 0 := by
    have : Course (fun _ => False) IsEntry u v 0 := .of_same (hblocks .path (by decide)) (hblocks .rep (by decide))
      (hblocks .windows (by decide)) (by rw [timeNow, show v.time = u.time from hblocks .time (by decide)]; rfl)
    exact hu.course.trans this
  have hspare : inSpare v e.page = inSpare s (pageOf line) := by
    rw [hpage]; simp only [inSpare, windowOfKind, windowEntry, hcv.windows]
  have hauto : v.integ.autoRemap = s.integ.autoRemap := by rw [hv]; exact hu.auto
  have hremaps : v.integ.remaps = s.integ.remaps := by rw [hv]; exact hu.remaps
  have hhas : remapHas v e.page = remapHas s (pageOf line) := by rw [remapHas, hremaps, hpage]; rfl
  have hpool : poolPage v = poolPage s := by simp only [poolPage, windowOfKind, windowEntry, hcv.windows, hremaps]
  have hdup : v.integ.counters.remapDuplicate = s.integ.counters.remapDuplicate := by rw [hv]; exact hu.duplicate
  have hexh : v.integ.counters.remapExhausted = s.integ.counters.remapExhausted := by rw [hv]; exact hu.exhausted
  have hcond : condGet v.fault .remapExhausted = condGet s.fault .remapExhausted :=
    (congrArg (condGet · .remapExhausted) (show v.fault = u.fault from hblocks .fault (by decide))).trans hu.exhaustedCond
  obtain ⟨lr, dup, exh, hshape⟩ := suspectReached_shape e v
  have hl : t.integ.suspects = (bumpSuspects s.integ.suspects (pageOf line) s.now).filter fun x => x.page != pageOf line := by
    rw [ht, hshape, hv]
  have hc : t.integ.counters.suspectReplaced = if suspectReplaces s.integ.suspects (pageOf line) then
      satInc s.integ.counters.suspectReplaced else s.integ.counters.suspectReplaced := by rw [ht, hshape, hv]
  obtain ⟨hkeep, hgo⟩ := suspectReached_integ (e := e) (s := v) rfl
  rw [hauto, hspare] at hkeep hgo
  obtain ⟨hb1, hb2⟩ := bumpSuspects_spec (l := s.integ.suspects) (page := pageOf line) (now := s.now)
  refine ⟨fun h => ?_, fun h => ?_, fun h => ?_, fun h => absurd h (Nat.not_lt.mpr hn), fun _ => ⟨fun x hx => ?_,
    fun w hw => ?_, fun h h8 => ?_, fun h first hf1 hf2 => ?_, fun h1 h2 => ?_⟩⟩
  · rw [hc, if_pos (hrep.mpr h)]
  · rw [hc, if_neg fun hx => h.elim (fun h => h (hrep.mp hx).1) fun h => by have := (hrep.mp hx).2; omega]
  · rw [ht, hkeep (h.resolve_left (Nat.not_lt.mpr hn))]
    exact ⟨hremaps, hdup, hexh⟩
  · rw [hl] at hx
    obtain ⟨hxb, hxp⟩ := List.mem_filter.mp hx
    have hxp : x.page ≠ pageOf line := by simpa using hxp
    exact ⟨hxp, bumped_old hxb hxp⟩
  · rw [hl, (hb1 w (hk.symm.trans hw)).2.2.1]
  · rw [hl, ((hb2 (hk.symm.trans h)).2.1 h8).2.1]
  · have htold := hr.among (suspectReached_told hcv (by rw [hauto, hspare]; exact h))
    have hfe : e.first = first := by
      cases known with
      | none => rw [hnow rfl, hf2 rfl]
      | some w => rw [hfirst w rfl, hf1 w rfl]
    rwa [hpage, hcount, hfe] at htold
  · have heq := hgo h1 h2
    rw [heq] at ht hf hr
    obtain ⟨i1, i2, i3⟩ := remapRequest_integ (page := e.page) (source := .copy) (s := v) rfl
    rw [← ht, hhas] at i1
    rw [← ht, hhas, hpool] at i2
    rw [← ht] at i3
    refine ⟨fun hh => ?_, fun p hh hp => ?_, fun hh hp => ?_⟩
    · rw [i1 hh]
      exact ⟨hremaps, by rw [← hdup], hexh⟩
    · obtain ⟨hshape, hfailed, w, hw, hw1, hw2, hw3, hw4⟩ := i3 p (hhas.trans hh) (hpool.trans hp)
      refine ⟨by rw [hfailed, hremaps, hpage], ⟨w, hw, hw1.trans hpage, hw2, hw3, hw4.trans hcv.time⟩, ?_, ?_, ?_⟩
      · rw [hshape, hdup]
      · rw [hshape, hexh]
      · have htold := hr.among (remapRequest_served (hhas.trans hh) (hpool.trans hp) hcv rfl).2
        rw [hpage] at htold
        exact htold
    · obtain ⟨-, htold, hraw, -⟩ := remapRequest_exhausted (src := .copy) (hhas.trans hh) (hpool.trans hp) hcv hcond rfl
      have htold := hr.among htold
      rw [hpage] at htold
      rw [i2 hh hp]
      exact ⟨hremaps, hdup, by rw [← hexh], hf ▸ hraw, htold⟩

/-- A CORRECTED outcome is taken against its page (R116). -/
theorem suspectCount_counted {known : Option Suspect} (hu : CountsFrom s u)
    (ht : t.integ = (suspectCount line u).integ)
    (hf : t.fault.remapExhausted = (suspectCount line u).fault.remapExhausted)
    (hr : ReportsStay s (suspectCount line u) t) : SuspectCounted s t (pageOf line) n known :=
  (Nat.lt_or_ge n s.integ.suspectThreshold).elim (suspectCounted_below hu ht) (suspectCounted_reached hu ht hf hr)

/-- A CORRECTED outcome of a page is a change of the list, and at the threshold what R116 does with the page. -/
theorem suspectCount_cases (line : Nat) (u : State) : ∃ v, OnlyChanges [.integ] u v ∧
    (∃ l c, v.integ = { u.integ with suspects := l, counters := { u.integ.counters with suspectReplaced := c } }) ∧
    (suspectCount line u = v ∨ ∃ e, suspectCount line u = suspectReached e v) := by
  obtain ⟨w, hw⟩ : ∃ w, w = if suspectReplaces u.integ.suspects (pageOf line) then
      integCount (fun c => { c with suspectReplaced := satInc c.suspectReplaced }) u else u := ⟨_, rfl⟩
  have hb : ∀ f, OnlyChanges [.integ] u (w.updInteg f) := fun f => onlyChanges_iff.mpr (by rw [hw]; split <;> simp)
  have hi : ∀ l, ∃ l' c, (w.updInteg fun i => { i with suspects := l }).integ =
      { u.integ with suspects := l', counters := { u.integ.counters with suspectReplaced := c } } := fun l => by
    rw [hw]
    split
    · exact ⟨l, _, rfl⟩
    · exact ⟨l, u.integ.counters.suspectReplaced, rfl⟩
  simp only [suspectCount, ← hw]
  split
  · split
    · exact ⟨_, hb _, hi _, .inr ⟨_, rfl⟩⟩
    · exact ⟨_, hb _, hi _, .inl rfl⟩
  · exact ⟨_, hb _, hi _, .inl rfl⟩

theorem Course.integ_only (h : OnlyChanges [.integ] u v) : Course N IsEntry u v 0 :=
  .of_same (h .path (by decide)) (h .rep (by decide)) (h .windows (by decide))
    (by rw [timeNow, show v.time = u.time from h .time (by decide)]; rfl)

theorem suspectCount_effect (hc : Course N IsEntry s u 0)
    (hf : condGet u.fault .remapExhausted = condGet s.fault .remapExhausted) :
    (∃ k ≤ 2, Course N IsUnit s (suspectCount line u) k) ∧
    (∀ c, c ≠ .remapExhausted → condGet (suspectCount line u).fault c = condGet u.fault c) ∧
    ∃ sl rep l dup exh, (suspectCount line u).integ = { u.integ with
      suspects := sl, remaps := l
      counters := { u.integ.counters with suspectReplaced := rep, remapDuplicate := dup, remapExhausted := exh } } := by
  obtain ⟨v, hb, ⟨sl, c, hi⟩, he | ⟨e, he⟩⟩ := suspectCount_cases line u
  · have hv := hc.trans (Course.integ_only (N := N) hb)
    rw [he]
    refine ⟨⟨0 + 0, by omega, hv.units⟩, fun k _ => ?_, sl, c, u.integ.remaps, u.integ.counters.remapDuplicate,
      u.integ.counters.remapExhausted, hi⟩
    rw [show v.fault = u.fault from hb .fault (by decide)]
  · have hfv : v.fault = u.fault := hb .fault (by decide)
    have hv := hc.trans (Course.integ_only (N := N) hb)
    obtain ⟨h1, h2⟩ := suspectReached_course (e := e) hv (by rw [hfv, hf])
    obtain ⟨l, dup, exh, h3⟩ := suspectReached_shape e v
    rw [he]
    exact ⟨h1, fun k hk => (h2 k hk).trans (by rw [hfv]), sl, c, l, dup, exh, by rw [h3, hi]⟩

/-- The rest of an event leaves what the outcome of a read has done. -/
structure Leaves (s x t : State) : Prop where
  integ : t.integ = x.integ
  uncorrectableCond : t.fault.memUncorrectable = x.fault.memUncorrectable
  exhaustedCond : t.fault.remapExhausted = x.fault.remapExhausted
  reports : ReportsStay s x t

/-- The outcome of a read, taken after operations outside the units that it concerns. -/
structure TakesFrom (s u : State) : Prop where
  course : Course (fun _ => False) IsEntry s u 0
  blocks : OnlyChanges [.path, .march, .flips] s u

theorem takeOutcome_clean {o : EccObs} (h : lineOutcome o = .clean) (l m : Nat) :
    takeOutcome source l m o u = u := by simp only [takeOutcome, h]

theorem takeOutcome_corrected {o : EccObs} (h : lineOutcome o = .corrected) (l m : Nat) :
    takeOutcome source l m o u = corrected source l m u := by simp only [takeOutcome, h]

theorem takeOutcome_uncorrectable {o : EccObs} (h : lineOutcome o = .uncorrectable) (l m : Nat) :
    takeOutcome source l m o u = uncorrectable source l m u := by simp only [takeOutcome, h]

/-- A CLEAN outcome leaves the integrity unit (R109). -/
theorem outcome_clean (hi : t.integ = s.integ) (hf : t.fault.memUncorrectable = s.fault.memUncorrectable) :
    OutcomeTaken s t source a .clean ∧ ScrubKept s t ∧ RemapsKept s t .clean := by
  rw [OutcomeTaken, ScrubKept, RemapsKept, hi, hf]
  exact ⟨⟨⟨rfl, rfl, rfl⟩, by simp, fun _ => ⟨rfl, rfl, rfl, rfl, rfl, rfl⟩, by simp, fun _ => ⟨rfl, rfl, rfl, rfl, rfl⟩⟩,
    ⟨rfl, rfl, rfl, rfl⟩, fun _ => rfl, rfl⟩

/-- The state behind the count and the capture of a CORRECTED outcome (R109). -/
theorem corrected_counts (hu : TakesFrom s u) (l m : Nat) : ∃ v, corrected source l m u = suspectCount l v ∧
    CountsFrom s v ∧ v.integ = { s.integ with
      counters := { s.integ.counters with corrected := satInc s.integ.counters.corrected }
      lastCorrected := some ⟨l, m, source, timeNow s⟩ } ∧ v.fault = s.fault := by
  obtain ⟨v, he, hb, hi⟩ := corrected_eq (source := source) (line := l) (memLine := m) (s := u)
  have hui : u.integ = s.integ := hu.blocks .integ (by decide)
  have hfv : v.fault = s.fault := (hb .fault (by decide)).trans (hu.blocks .fault (by decide))
  rw [hui, hu.course.time] at hi
  refine ⟨v, he, ⟨hu.course.trans (Course.integ_only hb), (hb .now (by decide)).trans (hu.blocks .now (by decide)),
    by rw [hfv], ?_, ?_, ?_, ?_, ?_, ?_, ?_⟩, hi, hfv⟩ <;> rw [hi]

/-- A CORRECTED outcome (R109, R116). -/
theorem outcome_corrected (hu : TakesFrom s u) (h : Leaves s (corrected source a.line a.memLine u) t) :
    OutcomeTaken s t source a .corrected ∧ ScrubKept s t ∧ RemapsKept s t .corrected := by
  obtain ⟨v, he, hv, hi, hf⟩ := corrected_counts (source := source) hu a.line a.memLine
  rw [he] at h
  have hexh : condGet v.fault .remapExhausted = condGet s.fault .remapExhausted := by rw [hf]
  obtain ⟨-, hconds, sl, rep, l, dup, exh, hshape⟩ := suspectCount_effect (line := a.line) hv.course hexh
  have hmem : t.fault.memUncorrectable = s.fault.memUncorrectable :=
    h.uncorrectableCond.trans ((hconds .memUncorrectable (by decide)).trans (by rw [hf]; rfl))
  have ht := h.integ.trans hshape
  rw [hi] at ht
  refine ⟨⟨?_, fun _ => ⟨?_, ?_, fun n known => ?_⟩, by simp, by simp, fun _ => ?_⟩, ?_, by simp, ?_⟩
  · rw [ht]; exact ⟨rfl, rfl, rfl⟩
  · rw [ht]
  · rw [ht]
  · exact suspectCount_counted hv h.integ h.exhaustedCond h.reports
  · rw [ht]; exact ⟨rfl, rfl, rfl, rfl, hmem⟩
  · rw [ScrubKept, ht]; exact ⟨rfl, rfl, rfl, rfl⟩
  · rw [ht]

/-- The event and the report of an UNCORRECTABLE outcome of a line that is not marked (R110, R111). -/
theorem uncorrectable_news (hm : isMarked u line = false) (m : Nat) : ∃ v, OnlyChanges [.integ] u v ∧
    uncorrectable source line m u = unordered [raiseCondition .memUncorrectable,
      report 0x08 [⟨16, 1, sourceCode source⟩, ⟨17, 1, if u.integ.marked.length < 64 then 0 else 2⟩,
        ⟨24, 8, lineAddress line⟩, ⟨32, 8, lineAddress m⟩]] v := by
  simp only [uncorrectable, hm, uncorrectableNews]
  by_cases h : u.integ.marked.length < 64
  · simp only [h, if_true]
    exact ⟨_, onlyChanges_iff.mpr (by simp), rfl⟩
  · simp only [h, if_false]
    exact ⟨_, onlyChanges_iff.mpr (by simp), rfl⟩

theorem uncorrectable_reported (hu : TakesFrom s u) (hm : isMarked s a.line = false)
    (hx : x = uncorrectable source a.line a.memLine u) : (∃ k ≤ 2, Course (fun _ => False) IsEntry s x k) ∧
    (∀ c, c ≠ .memUncorrectable → condGet x.fault c = condGet s.fault c) ∧
    ∀ t, ReportsStay s x t → t.fault = x.fault → UncorrectableReported s t source a := by
  have hui : u.integ = s.integ := hu.blocks .integ (by decide)
  obtain ⟨v, hb, he⟩ := uncorrectable_news (source := source) (u := u) (line := a.line)
    (by rw [isMarked, hui]; exact hm) a.memLine
  have hfv : v.fault = s.fault := (hb .fault (by decide)).trans (hu.blocks .fault (by decide))
  rw [hui] at he
  obtain ⟨h1, h2, h3, h4, h5, h6⟩ := raised_reported (hx.trans he) (hu.course.trans (Course.integ_only hb)) (by rw [hfv])
  refine ⟨h1, fun c hc => (h6 c hc).trans (by rw [hfv]), fun t hr hf => ⟨?_, ?_, h3 t hr hf, hr.among h2⟩⟩
  · rw [hf]; exact h4
  · rw [hf]; exact h5

/-- An UNCORRECTABLE outcome of a line that is not marked (R109 to R111). -/
theorem outcome_uncorrectable (hu : TakesFrom s u) (hm : isMarked s a.line = false)
    (h : Leaves s (uncorrectable source a.line a.memLine u) t)
    (hf : t.fault = (uncorrectable source a.line a.memLine u).fault) :
    OutcomeTaken s t source a .uncorrectable ∧ ScrubKept s t ∧ RemapsKept s t .uncorrectable := by
  obtain ⟨-, -, hr⟩ := uncorrectable_reported hu hm (source := source) rfl
  have ht := h.integ.trans (uncorrectable_integ rfl)
  have hnot : a.line ∉ s.integ.marked := by simpa [isMarked] using hm
  rw [hu.blocks .integ (by decide), hu.course.time] at ht
  refine ⟨⟨?_, by simp, fun _ => ?_, fun _ => ⟨?_, fun c hc => ?_, fun hc => ?_, fun hc => absurd hc hnot,
    fun _ => ⟨hr t h.reports hf, fun h64 => ?_, fun h64 => ?_⟩⟩, by simp⟩, ?_, fun _ => ?_, ?_⟩
  · rw [ht]; exact ⟨rfl, rfl, rfl⟩
  · rw [ht]; exact ⟨rfl, rfl, rfl, rfl, rfl, rfl⟩
  · rw [ht]
  · rw [ht]; simp only [hc]
  · rw [ht]; simp only [hc]
  · rw [ht]; simp [hnot, h64, Nat.not_le.mpr h64]
  · rw [ht]; simp [hnot, h64, Nat.not_lt.mpr h64]
  · rw [ScrubKept, ht]; exact ⟨rfl, rfl, rfl, rfl⟩
  · rw [ht]
  · rw [ht]

/-- What the outcome of a read of a line that is not marked does beside the integrity unit: at most two reports, with
requests for them and for the copy engine, and it leaves CONGESTION. -/
theorem takeOutcome_effect {o : EccObs} (hu : TakesFrom s u) (hm : isMarked s a.line = false)
    (hx : x = takeOutcome source a.line a.memLine o u) : (∃ k ≤ 2, Course (fun _ => False) IsUnit s x k) ∧
    x.fault.congestion = s.fault.congestion ∧ OnlyChanges [.path, .march, .flips, .integ, .rep, .fault, .freeUses] s x := by
  have hblocks : OnlyChanges [.path, .march, .flips, .integ, .rep, .fault, .freeUses] s x := by
    have : OnlyChanges [.integ, .fault, .rep, .path, .freeUses] u x := onlyChanges_iff.mpr (by rw [hx]; simp)
    exact (hu.blocks.mono (by decide)).trans (this.mono (by decide))
  cases ho : lineOutcome o with
  | clean =>
    rw [takeOutcome_clean ho] at hx
    subst hx
    exact ⟨⟨0, by omega, hu.course.units⟩, by rw [show x.fault = s.fault from hu.blocks .fault (by decide)], hblocks⟩
  | corrected =>
    rw [takeOutcome_corrected ho] at hx
    obtain ⟨v, he, hv, -, hf⟩ := corrected_counts (source := source) hu a.line a.memLine
    obtain ⟨h1, h2, -⟩ := suspectCount_effect (line := a.line) hv.course (by rw [hf])
    rw [← he, ← hx] at h1 h2
    exact ⟨h1, (h2 .congestion (by decide)).trans (by rw [hf]; rfl), hblocks⟩
  | uncorrectable =>
    rw [takeOutcome_uncorrectable ho] at hx
    obtain ⟨⟨k, hk, h1⟩, h2, -⟩ := uncorrectable_reported hu hm hx
    exact ⟨⟨k, hk, h1.units⟩, h2 .congestion (by decide), hblocks⟩

/-- The outcome of a read that passes, as the rest of its event leaves it (R109, R116). -/
theorem outcome_passes {o : EccObs} (hu : TakesFrom s u) (ho : lineOutcome o ≠ .uncorrectable)
    (h : Leaves s (takeOutcome source a.line a.memLine o u) t) :
    OutcomeTaken s t source a (lineOutcome o) ∧ ScrubKept s t ∧ RemapsKept s t (lineOutcome o) ∧
      (lineOutcome o = .clean → t.integ = s.integ) := by
  cases hk : lineOutcome o with
  | clean =>
    rw [takeOutcome_clean hk] at h
    have hi : t.integ = s.integ := h.integ.trans (hu.blocks .integ (by decide))
    obtain ⟨h1, h2, h3⟩ := outcome_clean (source := source) (a := a) hi (h.uncorrectableCond.trans
      (by rw [show u.fault = s.fault from hu.blocks .fault (by decide)]))
    exact ⟨h1, h2, h3, fun _ => hi⟩
  | corrected =>
    rw [takeOutcome_corrected hk] at h
    obtain ⟨h1, h2, h3⟩ := outcome_corrected hu h
    exact ⟨h1, h2, h3, by simp⟩
  | uncorrectable => exact absurd hk ho

end Outcomes
end Sys2Proof.Machine

namespace Sys2Proof.Machine

/-! ### The end of a session on an event that settles an entry (R146, R150) -/

section SessionEnds

variable {N : Cls → Prop} {J : Job → Prop} {s v t : State} {k : Nat} {e : Outstanding}

theorem Turnover.since (h : Turnover N J v t) (hp : v.path = s.path) : Turnover N J s t :=
  (Turnover.of_path hp).trans h

/-- The session that ends normally (R150). -/
theorem endLoop_loop (s : State) : (endLoop s).loop = { s.loop with
    state := .done, outcome := some (loopVerdict s.loop)
    passed := if loopVerdict s.loop = .pass then satInc s.loop.passed else s.loop.passed
    failed := if loopVerdict s.loop = .pass then s.loop.failed else satInc s.loop.failed } := by
  simp only [endLoop]
  split <;> simp [reportLoopDone]

theorem endLoop_failed (h : loopVerdict s.loop ≠ .pass) : (endLoop s).fault.testFailed.raw = true := by
  rw [endLoop, if_neg h]
  exact (raiseCondition_same (c := .testFailed)).1

/-- The report of a session that ends normally: its first (R150). -/
theorem endLoop_reported (h : Course N J s v k) {n : Nat} (hk : k ≤ n) :
    ReportAmong s (endLoop v) n (timeNow s) 0x0F (loopDoneBody (endLoop v).loop) := by
  obtain ⟨w, hw⟩ : ∃ w, w = v.updLoop fun l => { l with state := .done, outcome := some (loopVerdict v.loop) } := ⟨_, rfl⟩
  have hcw : Course N J s w k := by
    have : Course N J v w 0 := by rw [hw]; exact .of_same rfl rfl rfl rfl
    exact h.trans this
  have hbody : loopDoneBody (endLoop v).loop = loopDoneBody w.loop := by rw [endLoop_loop, hw]; rfl
  have hturn : Turnover N IsEntry (report 0x0F (loopDoneBody w.loop) w) (endLoop v) := by
    simp only [endLoop, reportLoopDone, ← hw]
    split
    · exact .of_path rfl
    · obtain ⟨j, -, hr⟩ := raiseCondition_takes .testFailed ((report 0x0F (loopDoneBody w.loop) w).updLoop fun l =>
        { l with failed := satInc l.failed })
      exact hr.turnover.since rfl
  rw [hbody]
  exact hcw.among_now hk hturn

theorem loopVerdict_pass {l : Loopback} : loopVerdict l = .pass ↔
    notReturned l.counts ≤ l.params.maxLost ∧ erroredLines l.counts ≤ l.params.maxErrored := by
  simp only [loopVerdict]
  split <;> simp_all

/-- A change of the outstanding list that leaves the session's state and its totals (R146). -/
structure EntrySettled (l m : Loopback) : Prop where
  state : m.state = l.state
  outcome : m.outcome = l.outcome
  passed : m.passed = l.passed
  failed : m.failed = l.failed
  params : m.params = l.params

theorem applyFate_settled (e : Outstanding) (f : DescriptorFate) (l : Loopback) : EntrySettled l (applyFate e f l) := by
  unfold applyFate
  split <;> exact ⟨rfl, rfl, rfl, rfl, rfl⟩

/-- A session behind an event that settles an entry: it ends where it drains and no entry is left (R150). -/
theorem loopCheckEnd_session (hl : EntrySettled s.loop v.loop) (h : Course N J s v k) (hk : k ≤ 8)
    (ht : t.loop = (loopCheckEnd v).loop) (hf : t.fault.testFailed = (loopCheckEnd v).fault.testFailed)
    (hr : ReportsStay s (loopCheckEnd v) t) : SessionSettles s t ∧ t.loop.trips = v.loop.trips ∧
      t.loop.counts = v.loop.counts ∧ t.loop.outstanding = v.loop.outstanding := by
  by_cases hend : v.loop.state = .draining ∧ v.loop.outstanding = []
  · have he : loopCheckEnd v = endLoop v := if_pos hend
    rw [he] at ht hf hr
    have htl := ht.trans (endLoop_loop v)
    refine ⟨⟨fun hn => ?_, fun _ _ => ⟨by rw [htl], ?_, fun hp => ?_, fun hp => ?_⟩⟩, by rw [htl], by rw [htl], by rw [htl]⟩
    · rw [htl] at hn
      exact hn.elim (fun h => absurd (hl.state.symm.trans hend.1) h) fun h => absurd hend.2 h
    · rw [ht]
      exact hr.among (endLoop_reported h hk)
    · rw [htl] at hp ⊢
      have hpass : loopVerdict v.loop = .pass := loopVerdict_pass.mpr (by rw [hl.params]; exact hp)
      rw [if_pos hpass, if_pos hpass]
      exact ⟨by rw [hpass], by rw [hl.passed], hl.failed⟩
    · rw [htl] at hp ⊢
      have hfail : loopVerdict v.loop ≠ .pass := fun hpass => by
        obtain ⟨h1, h2⟩ := loopVerdict_pass.mp hpass
        rw [hl.params] at h1 h2
        exact hp.elim (fun h => absurd h1 (Nat.not_le.mpr h)) fun h => absurd h2 (Nat.not_le.mpr h)
      have hv : loopVerdict v.loop = .fail := if_neg fun h => hfail (loopVerdict_pass.mpr h)
      rw [if_neg hfail, if_neg hfail]
      exact ⟨by rw [hv], by rw [hl.failed], hl.passed, by rw [hf]; exact endLoop_failed hfail⟩
  · have he : loopCheckEnd v = v := if_neg hend
    rw [he] at ht
    refine ⟨⟨fun _ => by rw [ht]; exact ⟨hl.state, hl.outcome, hl.passed, hl.failed⟩, fun h1 h2 => ?_⟩, by rw [ht],
      by rw [ht], by rw [ht]⟩
    rw [ht] at h2
    exact absurd ⟨hl.state.trans h1, h2⟩ hend

end SessionEnds

/-! ### The rejection of a slot's descriptor (R68, R72, R146) -/

section SlotRejections

variable {N : Cls → Prop} {J : Job → Prop} {s v t z : State} {line sequence j k : Nat} {o q : BitVec 16}

theorem queryRejected_gone (h : findExchange s o q = none) :
    queryRejected o q s = xferCount (fun c => { c with queryRejected := satInc c.queryRejected }) s := by
  simp only [queryRejected, h]

theorem queryRejected_found {e : Exchange} (h : findExchange s o q = some e) : queryRejected o q s =
    xferCount (fun c => { c with queryRejected := satInc c.queryRejected }) (setExchange (reoffer e) s) := by
  simp only [queryRejected, h]

theorem slotRejected_orphan (h : ∀ j, slotOfLine s line = some j → slotAt s j = .free ∨
      (∃ o q, slotAt s j = .query o q ∧ sequence ≠ q.toNat) ∨ ∃ q, slotAt s j = .test q ∧ sequence ≠ q.toNat) :
    slotRejected line sequence s = xferCount (fun c => { c with rejectOrphan := satInc c.rejectOrphan }) s := by
  simp only [slotRejected]
  split
  · rename_i j hj
    rcases h j hj with h | ⟨o, q, h, hq⟩ | ⟨q, h, hq⟩
    · rw [h]
    · rw [h]; exact if_neg hq
    · rw [h]; exact if_neg hq
  · rfl

theorem slotRejected_query (hj : slotOfLine s line = some j) (hq : slotAt s j = .query o q) (hs : sequence = q.toNat) :
    slotRejected line sequence s = queryRejected o q (freeSlot j s) := by
  simp only [slotRejected, hj, hq, if_pos hs]

theorem slotRejected_test (hj : slotOfLine s line = some j) (hq : slotAt s j = .test q) (hs : sequence = q.toNat) :
    slotRejected line sequence s = loopDescriptorEvent j q .notSent (freeSlot j s) := by
  simp only [slotRejected, hj, hq, if_pos hs]

/-- A test frame's entry whose descriptor is rejected (R146, R150). -/
theorem loopDescriptorEvent_rejected {slot : Nat} (h : Course N J s v k) (hk : k ≤ 8) (hv : v.loop = s.loop)
    (hl : t.loop = (loopDescriptorEvent slot q .notSent v).loop)
    (hf : t.fault.testFailed = (loopDescriptorEvent slot q .notSent v).fault.testFailed)
    (hr : ReportsStay s (loopDescriptorEvent slot q .notSent v) t) :
    (outstandingOf s.loop slot q = none → t.loop = { s.loop with sendOrphan := satInc s.loop.sendOrphan }) ∧
    ∀ e, outstandingOf s.loop slot q = some e → SessionSettles s t ∧
      (e.state = .posted → t.loop.trips = s.loop.trips ∧
        t.loop.counts = { s.loop.counts with unsent := satInc s.loop.counts.unsent } ∧
        t.loop.outstanding = s.loop.outstanding.filter fun x => x.frameSeq != q) ∧
      ∀ u, e.state = .returnedEarly u → t.loop.counts = s.loop.counts ∧
        t.loop.trips = { s.loop.trips with skipped := satInc s.loop.trips.skipped } ∧
        t.loop.outstanding = s.loop.outstanding.filter fun x => x.frameSeq != q := by
  refine ⟨fun hn => ?_, fun e he => ?_⟩
  · rw [hl, loopDescriptorEvent, hv, hn]
    simp [hv]
  · have heq : loopDescriptorEvent slot q .notSent v = loopCheckEnd (v.updLoop (applyFate e .notSent)) := by
      simp only [loopDescriptorEvent, hv, he]
    have hseq : e.frameSeq = q := by
      have := List.find?_some he
      simp at this
      exact this.1
    rw [heq] at hl hf hr
    have hcw : Course N J s (v.updLoop (applyFate e .notSent)) k := by
      have : Course N J v (v.updLoop (applyFate e .notSent)) 0 := .of_same rfl rfl rfl rfl
      exact h.trans this
    have hloop : (v.updLoop (applyFate e .notSent)).loop = applyFate e .notSent s.loop := by rw [← hv]; rfl
    obtain ⟨h1, h2, h3, h4⟩ := loopCheckEnd_session (by rw [hloop]; exact applyFate_settled e _ _) hcw hk hl hf hr
    rw [hloop] at h2 h3 h4
    refine ⟨h1, fun hp => ?_, fun u hu => ?_⟩
    · rw [h2, h3, h4, ← hseq]
      simp only [applyFate, hp]
      exact ⟨rfl, rfl, rfl⟩
    · rw [h2, h3, h4, ← hseq]
      simp only [applyFate, hu]
      exact ⟨rfl, rfl, rfl⟩

/-- What the rejection of a slot descriptor does, behind at most eight reports of its event (R68, R72, R146). -/
theorem slotRejected_spec (h : Course N J s v k) (hk : k ≤ 8) (hx : v.xfer = s.xfer) (hl : v.loop = s.loop)
    (hz : z = slotRejected line sequence v) (htx : t.xfer = z.xfer) (htl : t.loop = z.loop)
    (hf : t.fault.testFailed = z.fault.testFailed) (hr : ReportsStay s z t) : SlotRejected s t line sequence := by
  have hslot : slotOfLine v line = slotOfLine s line := slotOfLine_congr h.windows
  have hat : ∀ j, slotAt v j = slotAt s j := fun j => by simp only [slotAt, hx]
  have hfind : ∀ j o q, findExchange (freeSlot j v) o q = findExchange s o q := fun j o q => by
    simp only [findExchange, freeSlot, State.updXfer_xfer, hx]
  rintro orphan rfl
  have horphan : (∀ j, slotOfLine v line = some j → slotAt v j = .free ∨
      (∃ o q, slotAt v j = .query o q ∧ sequence ≠ q.toNat) ∨ ∃ q, slotAt v j = .test q ∧ sequence ≠ q.toNat) →
      t.xfer = { s.xfer with counters := { s.xfer.counters with
        rejectOrphan := satInc s.xfer.counters.rejectOrphan } } ∧ t.loop = s.loop := fun ho => by
    rw [htx, htl, hz, slotRejected_orphan ho]
    exact ⟨by rw [← hx]; rfl, hl⟩
  refine ⟨fun hfree => horphan fun j hj => .inl ((hat j).trans (hfree j (hslot.symm.trans hj))),
    fun j slots hj hs => ⟨fun o q hq => ?_, fun q hq => ?_⟩⟩
  · have hjv := hslot.trans hj
    have hqv := (hat j).trans hq
    have hother : sequence ≠ q.toNat → t.xfer = _ ∧ t.loop = s.loop := fun hne => horphan fun i hi => by
      obtain rfl := Option.some.inj (hjv.symm.trans hi)
      exact .inr (.inl ⟨o, q, hqv, hne⟩)
    by_cases hseq : sequence = q.toNat
    · have he := hz.trans (slotRejected_query hjv hqv hseq)
      refine ⟨?_, fun hne => absurd hseq hne, fun _ => ⟨fun hn => ?_, fun e hn => ?_⟩⟩
      · rw [htl, he]
        simp [hl]
      · rw [htx, he, queryRejected_gone ((hfind j o q).trans hn), hs, ← hx]
        rfl
      · rw [htx, he, queryRejected_found ((hfind j o q).trans hn), hs, ← hx]
        rfl
    · exact ⟨(hother hseq).2, fun hne => (hother hne).1, fun h => absurd h hseq⟩
  · have hjv := hslot.trans hj
    have hqv := (hat j).trans hq
    by_cases hseq : sequence = q.toNat
    · have he := hz.trans (slotRejected_test hjv hqv hseq)
      rw [he] at htx htl hf hr
      have hcw : Course N J s (freeSlot j v) k := by
        have : Course N J v (freeSlot j v) 0 := .of_same rfl rfl rfl rfl
        exact h.trans this
      obtain ⟨h1, h2⟩ := loopDescriptorEvent_rejected hcw hk hl htl hf hr
      refine ⟨fun hne => absurd hseq hne, fun _ => ⟨?_, h1, h2⟩⟩
      rw [htx, loopDescriptorEvent_frame.2.2.2.2.2.2.2.2.2.2.2.1, hs, ← hx]
      rfl
    · exact ⟨fun hne => horphan fun i hi => by
        obtain rfl := Option.some.inj (hjv.symm.trans hi)
        exact .inr (.inr ⟨q, hqv, hne⟩), fun h => absurd h hseq⟩

end SlotRejections
end Sys2Proof.Machine

namespace Sys2Proof.Machine

/-! ### Operations of the admission unit that no evaluation of congestion sees -/

section QuietWork

variable {s t u : State} {c : Cls} {e : Cond} {line : Nat}

/-- An operation that leaves what an evaluation reads, the lists, the age timers, the credits and the in-flight table,
and whose requests are no notices. -/
structure Quiet (s t : State) : Prop where
  still : Still s t
  settles : ∀ credit, Settles (fun _ => False) credit s t
  classes : ∀ c, (clsAt t c).held = (clsAt s c).held ∧ (clsAt t c).ageTimer = (clsAt s c).ageTimer ∧
    (clsAt t c).credit = (clsAt s c).credit
  flight : t.adm.flight = s.adm.flight

theorem Quiet.trans (h : Quiet s t) (h2 : Quiet t u) : Quiet s u :=
  ⟨h.still.trans h2.still, fun credit => (h.settles credit).then (h2.settles credit) h.still, fun c =>
    ⟨(h2.classes c).1.trans (h.classes c).1, (h2.classes c).2.1.trans (h.classes c).2.1,
      (h2.classes c).2.2.trans (h.classes c).2.2⟩, h2.flight.trans h.flight⟩

theorem Quiet.refl (s : State) : Quiet s s :=
  ⟨.refl s, fun _ => .of_adm rfl (fun _ => rfl) rfl, fun _ => ⟨rfl, rfl, rfl⟩, rfl⟩

/-- An operation outside the admission unit. -/
theorem Quiet.of_adm (ha : t.adm = s.adm) (hs : Still s t) (hw : ∀ c, waitingNotices t c = waitingNotices s c)
    (hf : t.fault.congestion = s.fault.congestion) : Quiet s t :=
  ⟨hs, fun _ => .of_adm ha hw hf, fun c => by rw [clsAt_of_adm ha]; exact ⟨rfl, rfl, rfl⟩, by rw [ha]⟩

theorem EngineWork.quiet (h : EngineWork s t) (ha : t.adm = s.adm) (hs : Still s t) : Quiet s t :=
  .of_adm ha hs h.waiting (h.conds .congestion (by decide) (by decide))

theorem countCls_quiet (c : Cls) (f : ClassCounters → ClassCounters) (s : State) : Quiet s (countCls c f s) :=
  ⟨countCls_still c f s, fun _ => countCls_settles c f, fun x => countCls_rest c x f s, rfl⟩

theorem evalCongestion_cond (h : e ≠ .congestion) : condGet (evalCongestion c s).fault e = condGet s.fault e := by
  simp only [evalCongestion]
  split
  · rfl
  · rw [setLevel_other h]
    simp

theorem setHeld_cond {l : List HeldEntry} (h : e ≠ .congestion) :
    condGet (setHeld c l s).fault e = condGet s.fault e := by
  rw [setHeld_eq, evalCongestion_cond h]
  rfl

theorem unlist_cond (h : e ≠ .congestion) : condGet (unlist line s).fault e = condGet s.fault e := by
  have hfold : ∀ (cs : List Cls) (s : State),
      condGet (cs.foldl (fun t c => unlistFrom c line t) s).fault e = condGet s.fault e := by
    intro cs
    induction cs with
    | nil => exact fun _ => rfl
    | cons c cs ih =>
      intro s
      rw [List.foldl_cons, ih, unlistFrom]
      split
      · exact setHeld_cond h
      · rfl
  exact hfold allClasses s

/-- A change of one held list (R34 to R36). -/
theorem setHeld_effect {credit : Cls → Int} {l : List HeldEntry} (hc : credit c = (clsAt s c).credit) :
    (∀ x, settled (clsAt (setHeld c l s) x) = settled (if x = c then withHeld l s.now (clsAt s x) else clsAt s x)) ∧
    Settles (· = c) credit s (setHeld c l s) ∧ Still s (setHeld c l s) ∧
    ∃ k ≤ 1, Course (· = c) IsEntry s (setHeld c l s) k := by
  obtain ⟨h1, h2, h3, h4, h5⟩ := ClassStep.setHeld (now := s.now) (c := c) fun _ => l
  refine ⟨fun x => ?_, (h3 s credit rfl (hc.trans (withHeld_rest _ _ _).2.1.symm)).congr fun x => by simp, h4 s rfl, h5 s rfl⟩
  by_cases hx : x = c
  · subst hx; rw [if_pos rfl]; exact h2 s rfl
  · rw [if_neg hx, h1 s x rfl hx]

end QuietWork

/-! ### Judgement of a descriptor read (R21 to R28) -/

section Judgements

variable {N : Cls → Prop} {J : Job → Prop} {s t u x z : State} {c : Cls} {i line k reason : Nat} {w : Window} {d : Line}

/-- Work that a judgement makes beside notices: report entries, and a write-back. -/
def IsJudged (j : Job) : Prop := IsEntry j ∨ j = .writeBack

theorem Turnover.judged (h : Turnover N IsEntry s t) : Turnover (fun _ => True) IsJudged s t :=
  h.mono (fun _ _ => trivial) fun _ => .inl

theorem writeBacksHeld_eq (s : State) : writeBacksHeld s = (s.path.reqs.filter fun q => q.job == .writeBack).length := by
  unfold writeBacksHeld
  refine congrArg List.length (List.filter_congr fun q _ => ?_)
  obtain ⟨_, _, _, j⟩ := q
  cases j <;> rfl

/-- The write-backs are among neither the notices, nor the report entries, nor the copy engine's lines. -/
theorem writeBacks_stand (h : Turnover N IsUnit s t) :
    t.path.reqs.filter (fun q => q.job == .writeBack) = s.path.reqs.filter fun q => q.job == .writeBack := by
  refine h.filter (fun q hq => ?_) fun q hq => ?_
  · obtain ⟨c, d, -, hj⟩ := hq
    simp [hj]
  · rcases hq with ⟨d, hj⟩ | hj <;> simp [hj]

theorem queueWriteBack_room (h : writeBacksHeld s < 16) : queueWriteBack line s = makeReq line .writeBack s := if_pos h

theorem queueWriteBack_full (h : 16 ≤ writeBacksHeld s) :
    queueWriteBack line s = s.updAdm fun a => { a with writebackDropped := satInc a.writebackDropped } :=
  if_neg (by omega)

theorem queueWriteBack_course (line : Nat) (s : State) : Course N IsJudged s (queueWriteBack line s) 0 := by
  refine .quiet ?_ (by simp) (by simp) (by simp [timeNow])
  by_cases h : writeBacksHeld s < 16
  · rw [queueWriteBack_room h]
    exact makeReq_turnover (.inl (.inr rfl)) s
  · rw [queueWriteBack_full (by omega)]
    exact .of_path rfl

theorem clsAt_queueWriteBack (line : Nat) (s : State) (c : Cls) : clsAt (queueWriteBack line s) c = clsAt s c := by
  by_cases h : writeBacksHeld s < 16
  · rw [queueWriteBack_room h]; rfl
  · rw [queueWriteBack_full (by omega)]; rfl

theorem queueWriteBack_quiet (line : Nat) (s : State) : Quiet s (queueWriteBack line s) := by
  have hb : OnlyChanges [.path, .adm] s (queueWriteBack line s) := onlyChanges_iff.mpr (by simp)
  have hw : ∀ c, waitingNotices (queueWriteBack line s) c = waitingNotices s c := fun c =>
    (queueWriteBack_course (N := fun _ => False) line s).waiting (fun h => h) (by simp [IsJudged, IsEntry])
  have hadm : (queueWriteBack line s).adm.flight = s.adm.flight ∧
      (queueWriteBack line s).adm.noticeDropped = s.adm.noticeDropped ∧
      (queueWriteBack line s).adm.noticeReplaced = s.adm.noticeReplaced := by
    by_cases h : writeBacksHeld s < 16
    · rw [queueWriteBack_room h]; exact ⟨rfl, rfl, rfl⟩
    · rw [queueWriteBack_full (by omega)]; exact ⟨rfl, rfl, rfl⟩
  refine ⟨.of_changes hb (by decide), fun _ => .of_idle (fun c => ?_) hw hadm.2.1 hadm.2.2
    (by rw [show (queueWriteBack line s).fault = s.fault from hb .fault (by decide)]), fun c => ?_, hadm.1⟩ <;>
  · rw [clsAt_queueWriteBack]; exact ⟨rfl, rfl, rfl⟩

/-! A rejection step by step (R23). -/

/-- The state in which ADMIT_REJECT is made. -/
def rejectFrom (line : Nat) (s : State) : State := queueWriteBack line (unlist line s)

/-- The state behind ADMIT_REJECT and the count, before the engine is told. -/
def rejectedBy (i : Nat) (w : Window) (line : Nat) (d : Line) (reason : Nat) (s : State) : State :=
  countCls (windowClass w) (fun k => { k with rejected := satInc k.rejected })
    (report 0x04 (admitRejectBody line i d reason) (rejectFrom line s))

theorem reject_eq : reject i w line d reason s = if w.kind == .partTx then
    slotRejected line (descSequence d) (rejectedBy i w line d reason s) else rejectedBy i w line d reason s := rfl

/-- What a rejection does up to the engine that is told: the line off the lists, one report behind those of the
unlisting, and the count. -/
theorem rejectedBy_spec (i : Nat) (w : Window) (line : Nat) (d : Line) (reason : Nat) (s : State) :
    ∃ v, v = unlist line s ∧ Quiet v (rejectedBy i w line d reason s) ∧
    (∃ k ≤ 5, Course (fun _ => True) IsJudged s (rejectFrom line s) k) ∧
    (∃ k ≤ 6, Course (fun _ => True) IsJudged s (rejectedBy i w line d reason s) k) ∧
    Course (fun _ => False) IsEntry (report 0x04 (admitRejectBody line i d reason) (rejectFrom line s))
      (rejectedBy i w line d reason s) 0 ∧
    (∀ c, (clsAt (rejectedBy i w line d reason s) c).counters = if c = windowClass w then
      { (clsAt s c).counters with rejected := satInc (clsAt s c).counters.rejected } else (clsAt s c).counters) ∧
    (rejectedBy i w line d reason s).adm.writebackDropped = (rejectFrom line s).adm.writebackDropped ∧
    (∀ e, condGet (rejectedBy i w line d reason s).fault e = condGet (unlist line s).fault e) ∧
    OnlyChanges [.adm, .path, .march, .fault, .rep] s (rejectedBy i w line d reason s) := by
  refine ⟨_, rfl, ?_⟩
  have hrest := fun c => (unlist_rest (x := c) (line := line) (s := s)).2.2.2.1
  obtain ⟨-, -, -, k, hk, hc⟩ := unlist_effect (line := line) (s := s) (credit := fun c => (clsAt s c).credit) fun _ => rfl
  have hblocks : OnlyChanges [.adm, .path, .march, .fault, .rep] s (unlist line s) := onlyChanges_iff.mpr (by simp)
  rw [rejectedBy, rejectFrom]
  generalize unlist line s = v at *
  have hq := queueWriteBack_quiet line v
  have hqc := queueWriteBack_course (N := fun _ => True) line v
  have hcls := clsAt_queueWriteBack line v
  have hqb : OnlyChanges [.adm, .path] v (queueWriteBack line v) := onlyChanges_iff.mpr (by simp)
  generalize queueWriteBack line v = b at *
  obtain ⟨r, hr⟩ : ∃ r, r = report 0x04 (admitRejectBody line i d reason) b := ⟨_, rfl⟩
  have hrb : OnlyChanges [.path, .rep] b r := onlyChanges_iff.mpr (by simp [hr])
  have hradm : r.adm = b.adm := hrb .adm (by decide)
  have hrq : Quiet b r := (show EngineWork b r from hr ▸ report_work _ _ _).quiet hradm (.of_changes hrb (by decide))
  have hrc : Course (fun _ => True) IsEntry b r 1 := hr ▸ (Reporting.one _ _ _).course
  rw [← hr]
  have hcount := countCls_quiet (windowClass w) (fun k => { k with rejected := satInc k.rejected }) r
  have hcc : ∀ {N}, Course N IsEntry r (countCls (windowClass w) (fun k => { k with rejected := satInc k.rejected }) r) 0 :=
    .of_same rfl rfl rfl rfl
  have hb1 : Course (fun _ => True) IsJudged s b (k + 0) := (hc.mono (fun _ _ => trivial) fun _ => .inl).trans hqc
  refine ⟨hq.trans (hrq.trans hcount), ⟨k + 0, by omega, hb1⟩,
    ⟨k + 0 + 1 + 0, by omega, (hb1.trans (hrc.mono (fun _ h => h) fun _ => .inl)).trans
      (hcc.mono (fun _ h => h) fun _ => .inl)⟩, hcc, fun c => ?_, congrArg (·.writebackDropped) hradm, fun e => ?_, ?_⟩
  · rw [countCls, clsAt_updCls, clsAt_of_adm hradm, hcls]
    split <;> rw [hrest]
  · rw [show (countCls (windowClass w) (fun k => { k with rejected := satInc k.rejected }) r).fault = r.fault from rfl,
      show r.fault = b.fault from hrb .fault (by decide), show b.fault = v.fault from hqb .fault (by decide)]
  · exact hblocks.trans ((hqb.mono (by decide)).trans ((hrb.mono (by decide)).trans (onlyChanges_iff.mpr (by simp))))

/-- What every judgement leaves: requests of the admission unit alone, the conditions of other units, and the age timers
behind the heads of the lists (R34). -/
structure Judges (x z : State) : Prop where
  turnover : Turnover (fun _ => True) IsJudged x z
  conds : ∀ e, e ≠ .congestion → e ≠ .timingUnqualified → e ≠ .testFailed → condGet z.fault e = condGet x.fault e
  ages : AgeTimersFollow x z

theorem AgeTimersFollow.quiet (h : AgeTimersFollow s t) (hq : Quiet t u) : AgeTimersFollow s u := by
  intro c
  obtain ⟨hh, ha, -⟩ := hq.classes c
  obtain ⟨hg, -⟩ := (hq.settles fun _ => 0).idle c fun h => h
  obtain ⟨h1, h2⟩ := h c
  rw [hh, ha]
  exact ⟨h1, fun hn => (h2 hn).congr hh ha (gauge_eq hg).2.2.2⟩

theorem AgeTimersFollow.refl (s : State) : AgeTimersFollow s s := fun _ => ⟨fun _ => rfl, fun h => absurd rfl h⟩

theorem Judges.refl (x : State) : Judges x x := ⟨.of_path rfl, fun _ _ _ _ => rfl, .refl x⟩

theorem unlist_judges (line : Nat) (x : State) : Judges x (unlist line x) :=
  ⟨(unlist_turnover line x).mono (fun _ _ => trivial) fun _ => .inl, fun _ h _ _ => unlist_cond h, unlist_ageFollows⟩

/-- What an engine that is told does behind a judgement. -/
theorem Judges.told (h : Judges x u) (hw : EngineWork u z) (ha : z.adm = u.adm) : Judges x z :=
  ⟨h.turnover.trans hw.turnover.judged, fun e h1 h2 h3 => (hw.conds e h2 h3).trans (h.conds e h1 h2 h3), h.ages.adm ha⟩

theorem rejectedBy_judges (i : Nat) (w : Window) (line : Nat) (d : Line) (reason : Nat) (x : State) :
    Judges x (rejectedBy i w line d reason x) := by
  obtain ⟨v, rfl, hq, -, ⟨k, -, hc⟩, -, -, -, hconds, -⟩ := rejectedBy_spec i w line d reason x
  exact ⟨hc.toTurnover, fun e h _ _ => (hconds e).trans (unlist_cond h), unlist_ageFollows.quiet hq⟩

theorem reject_judges (i : Nat) (w : Window) (line : Nat) (d : Line) (reason : Nat) (x : State) :
    Judges x (reject i w line d reason x) := by
  rw [reject_eq]
  split
  · exact (rejectedBy_judges i w line d reason x).told (slotRejected_work _ _ _) (by simp)
  · exact rejectedBy_judges i w line d reason x

/-! A held read, by its class and its list (R25, R26). -/

/-- The state behind the count of a held read. -/
def heldCounted (c : Cls) (s : State) : State := countCls c (fun k => { k with heldReads := satInc k.heldReads }) s

theorem hold_unlisted (h : (clsAt s c).enabled = false ∨
      (listed (clsAt s c) line = false ∧ 16 ≤ (clsAt s c).held.length)) : hold c line d s =
    countCls c (fun k => { k with heldUnlisted := satInc k.heldUnlisted }) (heldCounted c s) := by
  rcases h with h | ⟨h1, h2⟩
  · simp [hold, h, heldCounted]
  · simp only [hold, h1, Nat.not_lt.mpr h2, heldCounted]
    simp

theorem hold_updates (h1 : (clsAt s c).enabled = true) (h2 : listed (clsAt s c) line = true) : hold c line d s =
    setHeld c ((clsAt s c).held.map fun h => if h.line = line then { h with length := descLength d } else h)
      (heldCounted c s) := by
  simp [hold, h1, h2, heldCounted]

theorem hold_joins (h1 : (clsAt s c).enabled = true) (h2 : listed (clsAt s c) line = false)
    (h3 : (clsAt s c).held.length < 16) : hold c line d s =
    setHeld c ((clsAt s c).held ++ [⟨line, descLength d, s.now⟩]) (heldCounted c s) := by
  simp [hold, h1, h2, h3, heldCounted]

theorem heldCounted_spec (c : Cls) (s : State) : Quiet s (heldCounted c s) ∧ (heldCounted c s).now = s.now ∧
    (∀ x, clsAt (heldCounted c s) x = if x = c then { clsAt s c with counters := { (clsAt s c).counters with
      heldReads := satInc (clsAt s c).counters.heldReads } } else clsAt s x) ∧
    (heldCounted c s).fault = s.fault ∧ (heldCounted c s).path = s.path := by
  refine ⟨countCls_quiet _ _ _, rfl, fun x => ?_, rfl, rfl⟩
  rw [heldCounted, countCls, clsAt_updCls]
  by_cases h : x = c
  · subst h; simp
  · simp [h]

/-- A held read that changes its class's list (R26, R34 to R36). -/
theorem holdList_spec (l : List HeldEntry) (c : Cls) (s : State) :
    ∃ z, z = setHeld c l (heldCounted c s) ∧ Judges s z ∧
    Settles (· = c) (fun x => (clsAt s x).credit) s z ∧ (clsAt z c).held = l ∧
    (∀ x, (clsAt z x).credit = (clsAt s x).credit) ∧ z.adm.flight = s.adm.flight ∧
    (clsAt z c).counters = { (clsAt s c).counters with heldReads := satInc (clsAt s c).counters.heldReads } := by
  obtain ⟨hq, hnow, hcls, hf, hp⟩ := heldCounted_spec c s
  refine ⟨_, rfl, ?_⟩
  generalize heldCounted c s = v at *
  have hflight := (setHeld_flight (c := c) (l := l) (s := v)).1
  have hconds := fun (e : Cond) (h : e ≠ .congestion) => setHeld_cond (c := c) (l := l) (s := v) h
  obtain ⟨h1, h2, h3, k, -, h4⟩ := setHeld_effect (c := c) (s := v) (l := l) (credit := fun x => (clsAt s x).credit)
    (hq.classes c).2.2.symm
  generalize setHeld c l v = z at *
  have hsame : settled (clsAt z c) = settled (withHeld l v.now (clsAt v c)) := by rw [h1, if_pos rfl]
  have hvc : clsAt v c = { clsAt s c with counters := { (clsAt s c).counters with
      heldReads := satInc (clsAt s c).counters.heldReads } } := by rw [hcls, if_pos rfl]
  refine ⟨⟨?_, fun e h _ _ => (hconds e h).trans (by rw [hf]), fun x => ?_⟩,
    ((hq.settles _).after hq.still h2), ?_, fun x => ?_, hflight.trans hq.flight, ?_⟩
  · exact ((Turnover.of_path hp).trans h4.toTurnover).mono (fun _ _ => trivial) fun _ => .inl
  · by_cases hx : x = c
    · subst hx
      have := (withHeld_ageFollows (now := v.now) l (clsAt v x)).congr rfl hsame
      rw [hvc, hnow] at this
      exact this
    · have := h1 x
      rw [if_neg hx, hcls, if_neg hx] at this
      exact (ageFollows_refl (clsAt s x)).congr rfl this
  · rw [(settled_fields hsame).2.2.1]
    exact (withHeld_rest _ _ _).1
  · rw [(settled_fields (h1 x)).2.1]
    split
    · rw [(withHeld_rest _ _ _).2.1]
      exact (hq.classes x).2.2
    · exact (hq.classes x).2.2
  · rw [(settled_fields hsame).2.2.2.2.2.2.2.2.1, withHeld_fields, hvc]

/-- A held read that its class does not list (R26). -/
theorem holdUnlisted_spec (c : Cls) (s : State) :
    ∃ z, z = countCls c (fun k => { k with heldUnlisted := satInc k.heldUnlisted }) (heldCounted c s) ∧ Judges s z ∧
    Quiet s z ∧ (clsAt z c).counters = { (clsAt s c).counters with
      heldReads := satInc (clsAt s c).counters.heldReads
      heldUnlisted := satInc (clsAt s c).counters.heldUnlisted } := by
  obtain ⟨hq, -, hcls, hf, hp⟩ := heldCounted_spec c s
  have hq2 := hq.trans (countCls_quiet c (fun k => { k with heldUnlisted := satInc k.heldUnlisted }) _)
  refine ⟨_, rfl, ⟨.of_path hp, fun e _ _ _ => congrArg (condGet · e) hf, (AgeTimersFollow.refl s).quiet hq2⟩, hq2, ?_⟩
  rw [countCls, updCls_same, hcls, if_pos rfl]

/-! An admitted read (R27, R28). -/

/-- A class's credit after a debit (R27). -/
def debited (debit : Nat) (k : ClassState) : ClassState :=
  { k with credit := max (k.credit - (debit : Int)) (-Config.maxFrameBits) }

/-- The debit and the entry of an admission, whose amounts the state `s` of the judgement gives (R27, R28). -/
def entered (c : Cls) (line : Nat) (d : Line) (s v : State) : State :=
  (updCls c (debited (admissionDebit s c d)) v).updAdm fun a => { a with flight := a.flight ++ [flightEntry s c line d] }

theorem admitDescriptor_eq : admitDescriptor c line d s =
    countCls c (fun k => { k with admitted := satInc k.admitted }) (entered c line d s (unlist line s)) := rfl

theorem clsAt_entered (c x : Cls) (line : Nat) (d : Line) (s v : State) : clsAt (entered c line d s v) x =
    if x = c then debited (admissionDebit s c d) (clsAt v x) else clsAt v x := clsAt_updCls c x _ v

theorem entered_rest (c : Cls) (line : Nat) (d : Line) (s v : State) :
    (entered c line d s v).adm.flight = v.adm.flight ++ [flightEntry s c line d] ∧
    (entered c line d s v).path = v.path ∧ (entered c line d s v).fault = v.fault ∧ Still v (entered c line d s v) ∧
    Settles (fun _ => False) credit v (entered c line d s v) := by
  refine ⟨rfl, rfl, rfl, ⟨rfl, rfl, rfl, rfl, rfl⟩, .of_idle (fun x => ?_) (fun _ => rfl) rfl rfl rfl⟩
  rw [clsAt_entered]
  split <;> exact ⟨rfl, rfl, rfl⟩

theorem admitDescriptor_spec (c : Cls) (line : Nat) (d : Line) (s : State) : ∃ z, z = admitDescriptor c line d s ∧
    Judges s z ∧ Settles (fun x => listed (clsAt s x) line = true) (fun x => (clsAt s x).credit) s z ∧
    z.adm.flight = s.adm.flight ++ [flightEntry s c line d] ∧
    (∀ x, (clsAt z x).held = (clsAt s x).held.filter fun h => h.line != line) ∧
    (clsAt z c).credit = max ((clsAt s c).credit - (admissionDebit s c d : Int)) (-Config.maxFrameBits) ∧
    (clsAt z c).counters = { (clsAt s c).counters with admitted := satInc (clsAt s c).counters.admitted } ∧
    ∀ x, x ≠ c → (clsAt z x).credit = (clsAt s x).credit := by
  have hheld := fun x => unlist_held (x := x) (line := line) (s := s)
  have hrest := fun x => unlist_rest (x := x) (line := line) (s := s)
  have hages := unlist_ageFollows (line := line) (s := s)
  have hconds := fun (e : Cond) (h : e ≠ .congestion) => unlist_cond (line := line) (s := s) h
  obtain ⟨-, hset, hstill, k, -, hcourse⟩ := unlist_effect (line := line) (s := s) (credit := fun x => (clsAt s x).credit)
    fun _ => rfl
  refine ⟨_, rfl, ?_⟩
  rw [admitDescriptor_eq]
  generalize unlist line s = v at *
  have huc := fun x => clsAt_entered c x line d s v
  obtain ⟨huf, hp, hf, hs, hidle⟩ := entered_rest (credit := fun x => (clsAt s x).credit) c line d s v
  generalize entered c line d s v = u at *
  have hq := countCls_quiet c (fun k => { k with admitted := satInc k.admitted }) u
  have hcounts := countCls_same (c := c) (f := fun k => { k with admitted := satInc k.admitted }) (s := u)
  have hpath : (countCls c (fun k => { k with admitted := satInc k.admitted }) u).path = u.path := rfl
  have hfault : (countCls c (fun k => { k with admitted := satInc k.admitted }) u).fault = u.fault := rfl
  generalize countCls c (fun k => { k with admitted := satInc k.admitted }) u = z at *
  have hkeep : ∀ x, (clsAt u x).held = (clsAt v x).held ∧ (clsAt u x).ageTimer = (clsAt v x).ageTimer ∧
      (clsAt u x).counters = (clsAt v x).counters ∧ (clsAt u x).maxHoldAge = (clsAt v x).maxHoldAge := fun x => by
    rw [huc]; split <;> exact ⟨rfl, rfl, rfl, rfl⟩
  refine ⟨⟨?_, fun e he _ _ => ?_, AgeTimersFollow.quiet (fun x => ?_) hq⟩, ?_, ?_, fun x => ?_, ?_, ?_, fun x hx => ?_⟩
  · exact (hcourse.toTurnover.mono (fun _ _ => trivial) fun _ => .inl).trans (.of_path (hpath.trans hp))
  · rw [hfault, hf, hconds e he]
  · obtain ⟨hh, ha, -, hm⟩ := hkeep x
    rw [hh, ha]
    exact ⟨(hages x).1, fun hn => ((hages x).2 hn).congr hh ha hm⟩
  · exact (hset.then hidle hstill).then (hq.settles _) (hstill.trans hs)
  · rw [hq.flight, huf, (hrest .s).2.2.2.2]
  · rw [(hq.classes x).1, (hkeep x).1, hheld]
  · rw [(hq.classes c).2.2, huc, if_pos rfl, debited, (hrest c).2.1]
  · rw [hcounts, (hkeep c).2.2.1, (hrest c).2.2.2.1]
  · rw [(hq.classes x).2.2, huc, if_neg hx, (hrest x).2.1]

end Judgements
end Sys2Proof.Machine

namespace Sys2Proof.Machine

/-! ### What a judgement decides on (R22 to R25) -/

section Decisions

variable {s x : State} {w : Window} {d : Line} {line first lines : Nat} {short alien strange outside timing : Prop}
  {reason : Option Nat}

theorem windowEntry_lt {i : Nat} {b : Window} (h : windowEntry s i = some b) : i < 16 := by
  by_contra hi
  simp [windowEntry, hi] at h

/-- The buffer test, as R23 says it. -/
theorem bufferOk_false_iff (hf : first = descBuffer d / 64) (hl : lines = (descLength d + 63) / 64) :
    bufferOk s w d = false ↔ descBuffer d % 64 ≠ 0 ∨
      (w.kind = .partTx ∧ (first < windowLine w 64 ∨ windowLine w (64 * 17) < first + lines)) ∨
      (w.kind ≠ .partTx ∧ ∀ j b, windowEntry s j = some b → b.kind = .buffer → b.cls = w.cls →
        first < windowLine b 0 ∨ windowLine b (64 * b.size) < first + lines) := by
  subst hf hl
  by_cases hal : descBuffer d % 64 = 0
  · by_cases hk : w.kind = .partTx
    · simp [bufferOk, hal, hk, imp_iff_not_or]
    · simp only [bufferOk, hal, hk, ne_eq, not_true_eq_false, false_or, false_and, not_false_eq_true, true_and, beq_iff_eq,
        if_false, decide_true, Bool.true_and, List.any_eq_false, List.mem_range]
      refine ⟨fun h j b hb hkind hcls => ?_, fun h j _ => ?_⟩
      · have := h j (windowEntry_lt hb)
        simp [hb, hkind, hcls, linesIn, imp_iff_not_or] at this
        exact this
      · cases hb : windowEntry s j with
        | none => simp
        | some b =>
          have := h j b hb
          by_cases hkind : b.kind = .buffer <;> by_cases hcls : b.cls = w.cls <;> simp [linesIn, hkind, hcls] at this ⊢
          omega
  · simp [bufferOk, hal]

theorem kindOk_false_iff : kindOk w d = false ↔ (w.kind = .partTx ∧ descKind d ≠ 1 ∧ descKind d ≠ 2) ∨
    (w.kind ≠ .partTx ∧ descKind d ≠ 0) := by
  by_cases h : w.kind = .partTx <;> simp [kindOk, h]

/-- Of the reasons of R23 the first that holds counts. -/
theorem rejectReason_first (hw : x.windows = s.windows) (h1 : short ↔ descLength d < 64 ∨ 9600 < descLength d)
    (h2 : alien ↔ descClass d ≠ clsCode (windowClass w)) (h3 : strange ↔ kindOk w d = false)
    (h4 : outside ↔ bufferOk s w d = false) (r1 : short → reason = some 1) (r2 : ¬short → alien → reason = some 2)
    (r3 : ¬short → ¬alien → strange → reason = some 3) (r4 : ¬short → ¬alien → ¬strange → outside → reason = some 4)
    (r5 : ¬short → ¬alien → ¬strange → ¬outside → reason = none) : rejectReason x w d = reason := by
  have hb : bufferOk x w d = bufferOk s w d := by simp only [bufferOk, windowEntry, hw]
  rw [rejectReason, hb]
  by_cases c1 : short
  · rw [if_pos (h1.mp c1), r1 c1]
  rw [if_neg (mt h1.mpr c1)]
  by_cases c2 : alien
  · rw [if_pos (h2.mp c2), r2 c1 c2]
  rw [if_neg (mt h2.mpr c2)]
  by_cases c3 : strange
  · rw [if_pos (h3.mp c3), r3 c1 c2 c3]
  rw [if_neg (mt h3.mpr c3)]
  by_cases c4 : outside
  · rw [if_pos (h4.mp c4), r4 c1 c2 c3 c4]
  · rw [if_neg (mt h4.mpr c4), r5 c1 c2 c3 c4]

/-- The tests of R24 and R25. -/
theorem mustHold_false_iff (ht : timing ↔ w.kind = .partTx ∧ descKind d = 1) : mustHold s w line d = false ↔
    ((timing ∧ isDown s.link.state = false) ∨ (¬timing ∧ (clsAt s (windowClass w)).enabled = true ∧
      carriesTraffic s.link.state = true ∧ (windowClass w = .s ∨ (clsAt s (windowClass w)).needsTiming = false ∨
        qualifiedState s.xfer.state = true))) ∧
    s.adm.flight.length < 64 ∧ (∀ h rest, (clsAt s (windowClass w)).held = h :: rest → h.line = line) ∧
    (1 ≤ (clsAt s (windowClass w)).credit ∨ timing) := by
  have htb : timing ↔ isTimingDescriptor w d = true := by rw [ht]; simp [isTimingDescriptor]
  have hadm : admissible s w d = true ↔ (timing ∧ isDown s.link.state = false) ∨ (¬timing ∧
      (clsAt s (windowClass w)).enabled = true ∧ carriesTraffic s.link.state = true ∧ (windowClass w = .s ∨
        (clsAt s (windowClass w)).needsTiming = false ∨ qualifiedState s.xfer.state = true)) := by
    by_cases h : isTimingDescriptor w d = true
    · simp [admissible, h, htb]
    · simp [admissible, h, htb, and_assoc, or_assoc]
  have hhead : behindHead (clsAt s (windowClass w)) line = false ↔
      ∀ h rest, (clsAt s (windowClass w)).held = h :: rest → h.line = line := by
    unfold behindHead
    cases (clsAt s (windowClass w)).held <;> simp
  rw [← hadm, ← hhead]
  simp only [mustHold, htb, Bool.or_eq_false_iff, Bool.not_eq_false', Bool.and_eq_false_iff, decide_eq_false_iff_not]
  constructor
  · rintro ⟨⟨⟨h1, h2⟩, h3⟩, h4⟩
    exact ⟨h1, by omega, h3, h4.imp (by omega) (by simp)⟩
  · rintro ⟨h1, h2, h3, h4⟩
    exact ⟨⟨⟨h1, by omega⟩, h3⟩, h4.imp (by omega) (by simp)⟩

theorem mustHold_congr (ha : x.adm = s.adm) (hl : x.link = s.link) (hx : x.xfer = s.xfer) :
    mustHold x w line d = mustHold s w line d := by
  rw [mustHold, mustHold, admissible, admissible, clsAt_of_adm ha, ha, hl, hx]

theorem flightEntry_congr (ha : x.adm = s.adm) (hl : x.link = s.link) (hn : x.now = s.now) (ht : x.time = s.time) (c : Cls) :
    flightEntry x c line d = flightEntry s c line d := by
  rw [flightEntry, flightEntry, admissionDebit, admissionDebit, clsAt_of_adm ha, timeNow, timeNow, ha, hl, hn, ht]

/-! The five outcomes of a judgement (R22 to R27). -/

theorem judge_unready {i : Nat} (h : descReady d = false) : judge i w line d s = (d, unlist line s) := by
  rw [judge, if_pos h]

theorem judge_inFlight {i : Nat} (h : descReady d = true) (hf : inFlight s line = true) : judge i w line d s = (d, s) := by
  rw [judge, if_neg (by simp [h]), if_pos hf]

theorem judge_rejects {i code : Nat} (h : descReady d = true) (hf : inFlight s line = false)
    (hr : rejectReason s w d = some code) : judge i w line d s = (readyCleared d, reject i w line d code s) := by
  rw [judge, if_neg (by simp [h]), if_neg (by simp [hf]), hr]

theorem judge_holds {i : Nat} (h : descReady d = true) (hf : inFlight s line = false) (hr : rejectReason s w d = none)
    (hm : mustHold s w line d = true) : judge i w line d s = (readyCleared d, hold (windowClass w) line d s) := by
  rw [judge, if_neg (by simp [h]), if_neg (by simp [hf]), hr]
  simp only [hm, if_true]

theorem judge_admits {i : Nat} (h : descReady d = true) (hf : inFlight s line = false) (hr : rejectReason s w d = none)
    (hm : mustHold s w line d = false) : judge i w line d s = (d, admitDescriptor (windowClass w) line d s) := by
  rw [judge, if_neg (by simp [h]), if_neg (by simp [hf]), hr]
  simp [hm]

theorem hold_judges (c : Cls) (line : Nat) (d : Line) (s : State) : Judges s (hold c line d s) := by
  by_cases h1 : (clsAt s c).enabled = true
  · cases h2 : listed (clsAt s c) line with
    | true =>
      rw [hold_updates h1 h2]
      obtain ⟨z, rfl, h, -⟩ := holdList_spec _ c s
      exact h
    | false =>
      by_cases h3 : (clsAt s c).held.length < 16
      · rw [hold_joins h1 h2 h3]
        obtain ⟨z, rfl, h, -⟩ := holdList_spec _ c s
        exact h
      · rw [hold_unlisted (.inr ⟨h2, by omega⟩)]
        obtain ⟨z, rfl, h, -⟩ := holdUnlisted_spec c s
        exact h
  · rw [hold_unlisted (.inl (by simpa using h1))]
    obtain ⟨z, rfl, h, -⟩ := holdUnlisted_spec c s
    exact h

theorem judge_judges (i : Nat) (w : Window) (line : Nat) (d : Line) (s : State) : Judges s (judge i w line d s).2 := by
  rw [judge]
  repeat' split
  all_goals dsimp only
  · exact unlist_judges line s
  · exact .refl s
  · exact reject_judges ..
  · exact hold_judges ..
  · obtain ⟨z, rfl, h, -⟩ := admitDescriptor_spec (windowClass w) line d s
    exact h

end Decisions
end Sys2Proof.Machine

namespace Sys2Proof.Machine

/-! ### A descriptor read that is judged (R21 to R28, R107) -/

section JudgedReads

variable {s x z t u : State} {a : Access} {r : LineRequest} {f : LineFlips} {o : EccObs} {y : Line} {i : Nat} {w : Window}
  {d : Line}

/-- What the requests of a judged read are: those of the outcome, and those of the judgement. -/
def IsDescriptorWork (j : Job) : Prop := IsUnit j ∨ IsJudged j

/-- What the judgement makes of the delivered data, by the window of the read's classification (R21). -/
def delivering (s : State) (a : Access) (d : Line) (t : State) : Line × State :=
  match windowOfAccess s a with
  | some (i, w) => judge i w a.line d t
  | none => (d, t)

theorem delivering_window (h : windowOfAccess s a = some (i, w)) : delivering s a = judge i w a.line := by
  funext d t
  simp only [delivering, h]

theorem exec_judged (h : Completes s a) (hk : a.kind = .descriptorRead) : exec (.descriptorReadJudged f) s =
    .next (completeRead .modem a (lineRead f a s) (delivering s a) (popRead f a s)) := by
  have hdone : exec (.descriptorReadJudged f) s = .next (descriptorDone f s) := rfl
  rw [hdone, descriptorDone, show portHead s = some a from h]
  simp only [hk]
  rfl

/-- The state in which the outcome of a port's read is taken. -/
theorem popRead_takes (h : Completes s a) (hr : portRequestOf s a = some r) : TakesFrom s (popRead f a s) ∧
    portRequestOf (popRead f a s) a = some r ∧ stored (popRead f a s) a = stored s a := by
  obtain ⟨hpath, -⟩ := popRead_path (f := f) h (portRequestOf_mem hr).1
  refine ⟨⟨.quiet (.of_reqs (by rw [hpath]) (by rw [hpath])) (by simp) (by simp) (by simp [timeNow]),
    onlyChanges_iff.mpr (by simp)⟩, ?_, by simp [stored]⟩
  rw [← hr, portRequestOf, portRequestOf, findReq, findReq, hpath]

/-- What a judged read has come to where its request is answered: `x` behind the outcome of the read, `z` behind the
judgement, and `t` behind the answer. -/
structure JudgedRead (s x z t : State) (a : Access) (y : Response) : Prop where
  outcome : ∃ k ≤ 2, Course (fun _ => False) IsUnit s x k
  congestion : x.fault.congestion = s.fault.congestion
  outcomeBlocks : OnlyChanges [.path, .march, .flips, .integ, .rep, .fault, .freeUses] s x
  judges : Judges x z
  blocks : OnlyChanges [.path, .march, .flips, .integ, .rep, .fault, .freeUses, .adm, .xfer, .loop] s t
  answered : Answered t a.id y
  answerBlocks : OnlyChanges [.path, .march] z t
  waiting : pathLaw s → ∀ c, waitingNotices t c = waitingNotices z c
  keeps : pathLaw s → ∀ q, isAnyPortReq q = false → q ∈ z.path.reqs → q ∈ t.path.reqs
  brings : pathLaw s → ∀ q, isAnyPortReq q = false → q ∈ t.path.reqs → q ∈ z.path.reqs ∨ IsMarch q.job
  stay : ReportsStay s z t

theorem judgedRead (hu : TakesFrom s u) (hm : isMarked s a.line = false) (hr : portRequestOf s a = some r)
    (hx : x = takeOutcome (.port .modem) a.line a.memLine o u) (hz : z = (judge i w a.line d x).2) {y : Response} :
    JudgedRead s x z (answer a.id y z) a y := by
  obtain ⟨⟨k, hk, hc⟩, hcong, hob⟩ := takeOutcome_effect hu hm hx
  have hj : Judges x z := hz ▸ judge_judges i w a.line d x
  have hjb : OnlyChanges [.adm, .path, .march, .fault, .rep, .xfer, .loop] x z := onlyChanges_iff.mpr (by rw [hz]; simp)
  have hab : OnlyChanges [.path, .march] z (answer a.id y z) := onlyChanges_iff.mpr (by simp)
  have hturn : Turnover (fun _ => True) IsDescriptorWork s z :=
    (hc.toTurnover.mono (fun _ _ => trivial) fun _ => .inl).trans (hj.turnover.mono (fun _ h => h) fun _ => .inr)
  exact ⟨⟨k, hk, hc⟩, hcong, hob, hj, (hob.mono (by decide)).trans ((hjb.mono (by decide)).trans (hab.mono (by decide))),
    hturn.answered hr, hab, fun hp c => hturn.answer_waiting hr hp c, fun hp q hq h => hturn.answer_keeps hr hp h hq,
    fun hp q hq h => hturn.answer_new hr hp h hq, hturn.answer_reports hr⟩

variable {y : Response}

theorem JudgedRead.adm (h : JudgedRead s x z t a y) : x.adm = s.adm := h.outcomeBlocks .adm (by decide)

theorem JudgedRead.classes (h : JudgedRead s x z t a y) (c : Cls) :
    clsAt x c = clsAt s c ∧ clsAt t c = clsAt z c :=
  ⟨clsAt_of_adm h.adm, clsAt_of_adm (h.answerBlocks .adm (by decide))⟩

theorem JudgedRead.leaves (h : JudgedRead s x z t a y) (hi : z.integ = x.integ) : Leaves s x t := by
  have hf : t.fault = z.fault := h.answerBlocks .fault (by decide)
  refine ⟨(h.answerBlocks .integ (by decide)).trans hi, ?_, ?_, h.judges.turnover.stay.trans h.stay⟩ <;> rw [hf]
  · exact h.judges.conds .memUncorrectable (by decide) (by decide) (by decide)
  · exact h.judges.conds .remapExhausted (by decide) (by decide) (by decide)

theorem JudgedRead.ages (h : JudgedRead s x z t a y) : AgeTimersFollow s t := by
  intro c
  have := h.judges.ages c
  rw [(h.classes c).1, h.outcomeBlocks .now (by decide)] at this
  rw [(h.classes c).2]
  exact this

/-- The evaluations of a judgement are those of its event. -/
theorem JudgedRead.settled (h : JudgedRead s x z t a y) {E F : Cls → Prop}
    (hs : Settles F (fun c => (clsAt x c).credit) x z) (hE : ∀ c, F c ↔ E c) :
    CongestionSettled s t E fun c => (clsAt s c).credit := by
  have hb := h.outcomeBlocks
  have hcredit : (fun c => (clsAt x c).credit) = fun c => (clsAt s c).credit :=
    funext fun c => by rw [(h.classes c).1]
  obtain ⟨k, -, hc⟩ := h.outcome
  have hidle : Settles (fun _ => False) (fun c => (clsAt s c).credit) s x :=
    .of_adm h.adm (fun c => hc.waiting (fun h => h) (by simp [IsUnit, IsEntry])) h.congestion
  rw [hcredit] at hs
  exact (hidle.after (.of_changes hb (by decide)) (hs.congr hE)).settled (h.answerBlocks .adm (by decide))
    (by rw [show t.fault = z.fault from h.answerBlocks .fault (by decide)]) h.waiting

/-! The branches of a port's read that completes (R98, R110, R112). -/

theorem completeRead_marked {p : Port} {deliver : Line → State → Line × State} (hr : portRequestOf u a = some r)
    (hm : isMarked u a.line = true) :
    completeRead p a o deliver u = answer a.id (errorResponse r) (countMarkedRead u) := by
  rw [completeRead, hr]
  simp only [hm, if_true]

theorem completeRead_lost {p : Port} {deliver : Line → State → Line × State} (hr : portRequestOf u a = some r)
    (hm : isMarked u a.line = false) (ho : lineOutcome o = .uncorrectable) : completeRead p a o deliver u =
    answer a.id (errorResponse r) (takeOutcome (.port p) a.line a.memLine o u) := by
  rw [completeRead, hr]
  simp [hm, ho]

theorem completeRead_passes {p : Port} {deliver : Line → State → Line × State} {y : Line × State}
    (hr : portRequestOf u a = some r) (hm : isMarked u a.line = false) (ho : lineOutcome o ≠ .uncorrectable)
    (hy : y = deliver (deliveredLine o (stored u a)) (takeOutcome (.port p) a.line a.memLine o u)) :
    completeRead p a o deliver u = answer a.id (okayRead r y.1) y.2 := by
  subst hy
  rw [completeRead, hr]
  simp [hm, ho]

/-- A descriptor read that is answered ERROR (R98, R112). -/
theorem descriptorRead_refused (h : Completes s a) (ho : o = lineRead f a s) (hk : a.kind = .descriptorRead)
    (hr : portRequestOf s a = some r) (hbad : isMarked s a.line = true ∨ lineOutcome o = .uncorrectable) : ∃ t,
    exec (.descriptorReadJudged f) s = .next t ∧ (dramLaw s → FlipsKept s t a.memLine f) ∧
      Answered t a.id (errorResponse r) ∧
    (isMarked s a.line = true → t.integ = { s.integ with
      counters := { s.integ.counters with markedReads := satInc s.integ.counters.markedReads } }) ∧
    (isMarked s a.line = false → OutcomeTaken s t (.port .modem) a .uncorrectable ∧ ScrubKept s t ∧
      RemapsKept s t .uncorrectable) ∧
    OnlyChanges [.path, .march, .flips, .integ, .rep, .fault, .freeUses] s t := by
  obtain ⟨hu, hru, -⟩ := popRead_takes (f := f) h hr
  have hmu : isMarked (popRead f a s) a.line = isMarked s a.line := by simp [isMarked]
  rw [exec_judged h hk, ← ho]
  cases hm : isMarked s a.line with
  | true =>
    rw [completeRead_marked hru (hmu.trans hm)]
    refine ⟨_, rfl, popRead_flipsKept (by simp), ?_, fun _ => by simp [countMarkedRead, integCount], by simp,
      onlyChanges_iff.mpr (by simp)⟩
    have : Turnover (fun _ => False) IsEntry (popRead f a s) (countMarkedRead (popRead f a s)) := .of_path rfl
    exact (hu.course.toTurnover.trans this).answered hr
  | false =>
    have hlost := hbad.resolve_left (by simp [hm])
    rw [completeRead_lost hru (hmu.trans hm) hlost]
    obtain ⟨⟨k, -, hc⟩, -, hblocks⟩ := takeOutcome_effect (source := .port .modem) hu hm rfl
    rw [takeOutcome_uncorrectable hlost] at *
    refine ⟨_, rfl, popRead_flipsKept (by simp), hc.toTurnover.answered hr, by simp, fun _ =>
      outcome_uncorrectable hu hm ⟨by simp, by simp, by simp, hc.toTurnover.answer_reports hr⟩ (by simp), ?_⟩
    exact hblocks.trans (onlyChanges_iff.mpr (by simp))

/-- A descriptor read that is judged. -/
theorem descriptorRead_judged (h : Completes s a) (ho : o = lineRead f a s) (hk : a.kind = .descriptorRead)
    (hr : portRequestOf s a = some r) (hw : windowOfAccess s a = some (i, w)) (hm : isMarked s a.line = false)
    (hgood : lineOutcome o ≠ .uncorrectable) (hd : d = deliveredLine o (dramRead s.dram a.memLine)) : ∃ x t,
    exec (.descriptorReadJudged f) s = .next t ∧
    JudgedRead s x (judge i w a.line d x).2 t a (okayRead r (judge i w a.line d x).1) ∧
    (dramLaw s → FlipsKept s t a.memLine f) ∧
    OutcomeTaken s t (.port .modem) a (lineOutcome o) ∧ ScrubKept s t ∧ RemapsKept s t (lineOutcome o) ∧
    (lineOutcome o = .clean → t.integ = s.integ) := by
  obtain ⟨hu, hru, hstored⟩ := popRead_takes (f := f) h hr
  have hmu : isMarked (popRead f a s) a.line = false := by simpa [isMarked] using hm
  have hdu : deliveredLine o (stored (popRead f a s) a) = d := by rw [hstored, hd]; rfl
  obtain ⟨x, hx⟩ : ∃ x, x = takeOutcome (.port .modem) a.line a.memLine o (popRead f a s) := ⟨_, rfl⟩
  have hj := judgedRead (i := i) (w := w) (d := d) hu hm hr hx rfl (y := okayRead r (judge i w a.line d x).1)
  refine ⟨x, _, ?_, hj, popRead_flipsKept (by simp [hx]), outcome_passes hu hgood (hx ▸ hj.leaves (by simp))⟩
  rw [exec_judged h hk, ← ho, delivering_window hw, completeRead_passes hru hmu hgood (by rw [hdu, ← hx])]

end JudgedReads
end Sys2Proof.Machine

namespace Sys2Proof.Machine

/-! ### The outcomes of a judgement, as its event leaves them (R22 to R28) -/

section JudgementOutcomes

variable {s x z t u : State} {a : Access} {y : Response} {i code : Nat} {w : Window} {d : Line} {c : Cls}

/-- What the requests of the write-backs are behind a judged read, against those before it. -/
theorem JudgedRead.writeBacks (h : JudgedRead s x z t a y) :
    x.path.reqs.filter (fun q => q.job == .writeBack) = s.path.reqs.filter fun q => q.job == .writeBack := by
  obtain ⟨k, -, hc⟩ := h.outcome
  exact writeBacks_stand hc.toTurnover

/-- A descriptor that is not ready (R22). -/
theorem JudgedRead.unready (h : JudgedRead s x (unlist a.line x) t a y) : t.adm.flight = s.adm.flight ∧
    CongestionSettled s t (fun c => listed (clsAt s c) a.line = true) (fun c => (clsAt s c).credit) ∧
    ∀ c, (clsAt t c).credit = (clsAt s c).credit ∧ (clsAt t c).counters = (clsAt s c).counters ∧
      (clsAt t c).held = (clsAt s c).held.filter fun h => h.line != a.line := by
  obtain ⟨-, hset, -⟩ := unlist_effect (line := a.line) (s := x) (credit := fun c => (clsAt x c).credit) fun _ => rfl
  have hrest := fun c => unlist_rest (x := c) (line := a.line) (s := x)
  have hheld := fun c => unlist_held (x := c) (line := a.line) (s := x)
  generalize unlist a.line x = z at *
  refine ⟨?_, h.settled hset fun c => by rw [(h.classes c).1], fun c => ?_⟩
  · rw [show t.adm = z.adm from h.answerBlocks .adm (by decide), (hrest .s).2.2.2.2, h.adm]
  · rw [(h.classes c).2, (hrest c).2.1, (hrest c).2.2.2.1, hheld, (h.classes c).1]
    exact ⟨rfl, rfl, rfl⟩

/-- The classes that a held read evaluates: its own, where its list changes (R34). -/
def JoinsList (s : State) (c : Cls) (line : Nat) (x : Cls) : Prop :=
  x = c ∧ (clsAt s c).enabled = true ∧ (listed (clsAt s c) line = true ∨ (clsAt s c).held.length < 16)

/-- A held read that changes its class's list (R26). -/
theorem JudgedRead.holds_list {l : List HeldEntry} (h : JudgedRead s x (hold c a.line d x) t a y)
    (hl : hold c a.line d x = setHeld c l (heldCounted c x)) (hj : JoinsList s c a.line c) :
    CongestionSettled s t (JoinsList s c a.line) (fun x => (clsAt s x).credit) ∧ t.adm.flight = s.adm.flight ∧
    (∀ x, (clsAt t x).credit = (clsAt s x).credit) ∧ (clsAt t c).held = l ∧
    (clsAt t c).counters = { (clsAt s c).counters with heldReads := satInc (clsAt s c).counters.heldReads } := by
  obtain ⟨z, hz, -, hset, hheld, hcredit, hflight, hcount⟩ := holdList_spec l c x
  rw [hl, ← hz] at h
  have hadm : t.adm = z.adm := h.answerBlocks .adm (by decide)
  refine ⟨h.settled hset fun e => ⟨fun he => ⟨he, hj.2⟩, fun he => he.1⟩, by rw [hadm, hflight, h.adm], fun e => ?_, ?_, ?_⟩
  · rw [(h.classes e).2, hcredit, (h.classes e).1]
  · rw [(h.classes c).2, hheld]
  · rw [(h.classes c).2, hcount, (h.classes c).1]

/-- A held read that its class does not list (R25, R26). -/
theorem JudgedRead.holds_unlisted (h : JudgedRead s x (hold c a.line d x) t a y)
    (hn : (clsAt s c).enabled = false ∨ (listed (clsAt s c) a.line = false ∧ 16 ≤ (clsAt s c).held.length)) :
    CongestionSettled s t (JoinsList s c a.line) (fun x => (clsAt s x).credit) ∧ t.adm.flight = s.adm.flight ∧
    (∀ x, (clsAt t x).credit = (clsAt s x).credit) ∧ (clsAt t c).held = (clsAt s c).held ∧
    (clsAt t c).counters = { (clsAt s c).counters with
      heldReads := satInc (clsAt s c).counters.heldReads
      heldUnlisted := satInc (clsAt s c).counters.heldUnlisted } := by
  obtain ⟨z, hz, -, hq, hcount⟩ := holdUnlisted_spec c x
  rw [hold_unlisted (by rw [(h.classes c).1]; exact hn), ← hz] at h
  have hadm : t.adm = z.adm := h.answerBlocks .adm (by decide)
  have hno : ∀ e, ¬JoinsList s c a.line e := by
    rintro e ⟨-, h1, h2⟩
    rcases hn with hn | ⟨hn, hlen⟩
    · simp [h1] at hn
    · exact h2.elim (by simp [hn]) (Nat.not_lt.mpr hlen)
  refine ⟨h.settled (hq.settles _) fun e => ⟨False.elim, hno e⟩, by rw [hadm, hq.flight, h.adm], fun e => ?_, ?_, ?_⟩
  · rw [(h.classes e).2, (hq.classes e).2.2, (h.classes e).1]
  · rw [(h.classes c).2, (hq.classes c).1, (h.classes c).1]
  · rw [(h.classes c).2, hcount, (h.classes c).1]

/-- A descriptor that is held, as its class and list take it (R25, R26). -/
theorem JudgedRead.holds (h : JudgedRead s x (hold c a.line d x) t a y) :
    CongestionSettled s t (JoinsList s c a.line) (fun x => (clsAt s x).credit) ∧
    t.adm.flight = s.adm.flight ∧ (∀ x, (clsAt t x).credit = (clsAt s x).credit) ∧
    (clsAt t c).counters.heldReads = satInc (clsAt s c).counters.heldReads ∧
    ((clsAt s c).enabled = true → listed (clsAt s c) a.line = true →
      (clsAt t c).held = (clsAt s c).held.map (fun h => if h.line = a.line
        then { h with length := descLength d } else h) ∧
      (clsAt t c).counters.heldUnlisted = (clsAt s c).counters.heldUnlisted) ∧
    ((clsAt s c).enabled = true → listed (clsAt s c) a.line = false → (clsAt s c).held.length < 16 →
      (clsAt t c).held = (clsAt s c).held ++ [⟨a.line, descLength d, s.now⟩]) ∧
    ((clsAt s c).enabled = false ∨ (listed (clsAt s c) a.line = false ∧ 16 ≤ (clsAt s c).held.length) →
      (clsAt t c).held = (clsAt s c).held ∧
      (clsAt t c).counters.heldUnlisted = satInc (clsAt s c).counters.heldUnlisted) := by
  have hc := (h.classes c).1
  have hnow : x.now = s.now := h.outcomeBlocks .now (by decide)
  by_cases hn : (clsAt s c).enabled = false ∨ (listed (clsAt s c) a.line = false ∧ 16 ≤ (clsAt s c).held.length)
  · obtain ⟨k1, k2, k3, k4, k5⟩ := h.holds_unlisted hn
    refine ⟨k1, k2, k3, by rw [k5], fun h1 h2 => ?_, fun h1 h2 h3 => ?_, fun _ => ⟨k4, by rw [k5]⟩⟩
    · simp [h1, h2] at hn
    · simp [h1] at hn
      omega
  have h1 : (clsAt s c).enabled = true := by simpa using fun h => hn (.inl h)
  cases h2 : listed (clsAt s c) a.line with
  | true =>
    obtain ⟨k1, k2, k3, k4, k5⟩ := h.holds_list (hold_updates (by rw [hc, h1]) (by rw [hc, h2])) ⟨rfl, h1, .inl h2⟩
    exact ⟨k1, k2, k3, by rw [k5], fun _ _ => ⟨by rw [k4, hc], by rw [k5]⟩, by simp, by simp [h1]⟩
  | false =>
    have h3 : (clsAt s c).held.length < 16 := by by_contra h3; exact hn (.inr ⟨h2, by omega⟩)
    obtain ⟨k1, k2, k3, k4, k5⟩ := h.holds_list (hold_joins (by rw [hc, h1]) (by rw [hc, h2]) (by rw [hc]; exact h3))
      ⟨rfl, h1, .inr h3⟩
    refine ⟨k1, k2, k3, by rw [k5], by simp, fun _ _ _ => by rw [k4, hc, hnow], fun hx => absurd hx ?_⟩
    simp [h1, h3]

/-- A descriptor that is admitted (R27, R28). -/
theorem JudgedRead.admits (h : JudgedRead s x (admitDescriptor c a.line d x) t a y) :
    CongestionSettled s t (fun x => listed (clsAt s x) a.line = true) (fun x => (clsAt s x).credit) ∧
    t.adm.flight = s.adm.flight ++ [flightEntry s c a.line d] ∧
    (clsAt t c).credit = max ((clsAt s c).credit - (admissionDebit s c d : Int)) (-Config.maxFrameBits) ∧
    (clsAt t c).counters = { (clsAt s c).counters with admitted := satInc (clsAt s c).counters.admitted } ∧
    (∀ x, (clsAt t x).held = (clsAt s x).held.filter fun h => h.line != a.line) ∧
    ∀ x, x ≠ c → (clsAt t x).credit = (clsAt s x).credit := by
  obtain ⟨z, hz, -, hset, hflight, hheld, hcredit, hcount, hother⟩ := admitDescriptor_spec c a.line d x
  rw [← hz] at h
  have hadm : t.adm = z.adm := h.answerBlocks .adm (by decide)
  have hb := h.outcomeBlocks
  have he : flightEntry x c a.line d = flightEntry s c a.line d :=
    flightEntry_congr h.adm (hb .link (by decide)) (hb .now (by decide)) (hb .time (by decide)) c
  have hdebit : admissionDebit x c d = admissionDebit s c d := congrArg (·.debit) he
  refine ⟨h.settled hset fun e => by rw [(h.classes e).1], by rw [hadm, hflight, h.adm, he], ?_, ?_, fun e => ?_,
    fun e hne => ?_⟩
  · rw [(h.classes c).2, hcredit, (h.classes c).1, hdebit]
  · rw [(h.classes c).2, hcount, (h.classes c).1]
  · rw [(h.classes e).2, hheld, (h.classes e).1]
  · rw [(h.classes e).2, hother e hne, (h.classes e).1]

/-! A rejection (R23). -/

theorem evalCongestion_writebackDropped (c : Cls) (s : State) :
    (evalCongestion c s).adm.writebackDropped = s.adm.writebackDropped := by
  simp only [evalCongestion]
  split
  · rfl
  · simp only [setLevel_frame, writeNotice]
    repeat' split
    all_goals rfl

theorem unlist_writebackDropped (line : Nat) (s : State) :
    (unlist line s).adm.writebackDropped = s.adm.writebackDropped := by
  have hfold : ∀ (cs : List Cls) (s : State),
      (cs.foldl (fun t c => unlistFrom c line t) s).adm.writebackDropped = s.adm.writebackDropped := by
    intro cs
    induction cs with
    | nil => exact fun _ => rfl
    | cons c cs ih =>
      intro s
      rw [List.foldl_cons, ih, unlistFrom]
      split
      · rw [setHeld_eq, evalCongestion_writebackDropped]
        rfl
      · rfl
  exact hfold allClasses s

/-- The engine that is told of a rejection, by the window's kind (R23). -/
theorem reject_told (i : Nat) (w : Window) (line : Nat) (d : Line) (reason : Nat) (s : State) :
    EngineWork (rejectedBy i w line d reason s) (reject i w line d reason s) ∧
    OnlyChanges [.xfer, .loop, .fault, .path, .rep] (rejectedBy i w line d reason s) (reject i w line d reason s) := by
  rw [reject_eq]
  split
  · exact ⟨slotRejected_work _ _ _, onlyChanges_iff.mpr (by simp)⟩
  · exact ⟨.refl _, onlyChanges_iff.mpr rfl⟩

/-- The lists, the credits and the congestion behind a rejection (R23, R34 to R36). -/
theorem reject_settles (i : Nat) (w : Window) (line : Nat) (d : Line) (reason : Nat) (s : State) :
    ∃ z, z = reject i w line d reason s ∧
    Settles (fun x => listed (clsAt s x) line = true) (fun x => (clsAt s x).credit) s z ∧
    z.adm.flight = s.adm.flight ∧ z.adm.writebackDropped = (rejectFrom line s).adm.writebackDropped ∧
    (∀ x, (clsAt z x).credit = (clsAt s x).credit) ∧
    (∀ x, (clsAt z x).held = (clsAt s x).held.filter fun h => h.line != line) ∧
    (clsAt z (windowClass w)).counters = { (clsAt s (windowClass w)).counters with
      rejected := satInc (clsAt s (windowClass w)).counters.rejected } := by
  obtain ⟨v, hv, hq, -, -, -, hcount, hdrop, -, -⟩ := rejectedBy_spec i w line d reason s
  obtain ⟨hw, hb⟩ := reject_told i w line d reason s
  obtain ⟨-, hset, hstill, -⟩ := unlist_effect (line := line) (s := s) (credit := fun c => (clsAt s c).credit) fun _ => rfl
  have hrest := fun c => unlist_rest (x := c) (line := line) (s := s)
  have hheld := fun c => unlist_held (x := c) (line := line) (s := s)
  refine ⟨_, rfl, ?_⟩
  rw [← hv] at hset hstill hrest hheld
  generalize rejectedBy i w line d reason s = b at *
  generalize reject i w line d reason s = z at *
  have ha : z.adm = b.adm := hb .adm (by decide)
  have hcls : ∀ c, clsAt z c = clsAt b c := fun c => clsAt_of_adm ha
  have htold := hw.quiet ha (.of_changes hb (by decide))
  refine ⟨(hset.then (hq.settles _) hstill).then (htold.settles _) (hstill.trans hq.still), ?_, by rw [ha, hdrop],
    fun c => ?_, fun c => ?_, ?_⟩
  · rw [ha, hq.flight, (hrest .s).2.2.2.2]
  · rw [hcls, (hq.classes c).2.2, (hrest c).2.1]
  · rw [hcls, (hq.classes c).1, hheld]
  · rw [hcls, hcount, if_pos rfl]

/-- The write-back of a rejection is made where fewer than 16 are held, and otherwise dropped (R23). -/
theorem rejectFrom_writeBack (line n : Nat) (s : State)
    (hn : n = (s.path.reqs.filter fun q => q.job == .writeBack).length) :
    (n < 16 → (rejectFrom line s).adm.writebackDropped = s.adm.writebackDropped ∧
      ∃ q ∈ (rejectFrom line s).path.reqs, s.path.nextId ≤ q.id ∧ q.line = line ∧ q.stage = .forwarded ∧
        q.job = .writeBack) ∧
    (16 ≤ n → (rejectFrom line s).adm.writebackDropped = satInc s.adm.writebackDropped ∧
      ∀ q ∈ (rejectFrom line s).path.reqs, q.job = .writeBack → q ∈ s.path.reqs) := by
  have hturn := unlist_turnover line s
  have hsame := writeBacks_stand (hturn.mono (fun _ h => h) fun _ => .inl)
  have hheld : writeBacksHeld (unlist line s) = n := by rw [writeBacksHeld_eq, hsame, hn]
  have hdrop := unlist_writebackDropped line s
  rw [rejectFrom]
  generalize unlist line s = v at *
  refine ⟨fun h => ?_, fun h => ?_⟩
  · rw [queueWriteBack_room (by omega)]
    exact ⟨hdrop, ⟨v.path.nextId, line, .forwarded, .writeBack⟩, by simp [makeReq, addReq], hturn.numbers, rfl, rfl, rfl⟩
  · rw [queueWriteBack_full (by omega)]
    refine ⟨congrArg satInc hdrop, fun q hq hj => ?_⟩
    have hmem : q ∈ v.path.reqs.filter fun q => q.job == .writeBack := List.mem_filter.mpr ⟨hq, by simp [hj]⟩
    rw [hsame] at hmem
    exact List.mem_of_mem_filter hmem

theorem notice_ne_writeBack {N : Cls → Prop} {q : Req} (hj : q.job = .writeBack) : ¬NoticeOf N q.job := by
  rintro ⟨c, e, -, h⟩
  simp [hj] at h

/-- The write-back of a rejection, as its event leaves it. -/
theorem JudgedRead.writeBack {n : Nat} (h : JudgedRead s x (reject i w a.line d code x) t a y) (hp : pathLaw s)
    (hn : n = (s.path.reqs.filter fun q => q.job == .writeBack).length) :
    (n < 16 → t.adm.writebackDropped = s.adm.writebackDropped ∧ ∃ q ∈ t.path.reqs, s.path.nextId ≤ q.id ∧
      q.line = a.line ∧ q.stage = .forwarded ∧ q.job = .writeBack) ∧
    (16 ≤ n → t.adm.writebackDropped = satInc s.adm.writebackDropped ∧
      ∀ q ∈ t.path.reqs, q.job = .writeBack → q ∈ s.path.reqs) := by
  obtain ⟨hroom, hfull⟩ := rejectFrom_writeBack a.line n x (by rw [h.writeBacks]; exact hn)
  obtain ⟨v, -, -, -, -, hrest, -⟩ := rejectedBy_spec i w a.line d code x
  have hrep : Turnover (fun _ => False) IsEntry (rejectFrom a.line x) (reject i w a.line d code x) :=
    (reportAt_turnover _ _ _ _).mono (fun _ h => h) (fun _ h => h) |>.trans
      (hrest.toTurnover.trans (reject_told i w a.line d code x).1.turnover)
  obtain ⟨z, hz, -, -, hdrop, -⟩ := reject_settles i w a.line d code x
  rw [← hz] at h hrep
  obtain ⟨k, -, hc⟩ := h.outcome
  have ht : t.adm.writebackDropped = z.adm.writebackDropped := by rw [show t.adm = z.adm from h.answerBlocks .adm (by decide)]
  rw [ht, hdrop, ← h.adm]
  refine ⟨fun hlt => ?_, fun hge => ?_⟩
  · obtain ⟨h1, q, hq, hid, hline, hstage, hj⟩ := hroom hlt
    exact ⟨h1, q, h.keeps hp q (by simp [isAnyPortReq, hj]) (hrep.kept hq (notice_ne_writeBack hj)),
      hc.numbers.trans hid, hline, hstage, hj⟩
  · obtain ⟨h1, hold⟩ := hfull hge
    refine ⟨h1, fun q hq hj => ?_⟩
    have hqz : q ∈ z.path.reqs := (h.brings hp q (by simp [isAnyPortReq, hj]) hq).resolve_right (by simp [hj, IsMarch])
    have hqr : q ∈ (rejectFrom a.line x).path.reqs := (hrep.new hqz).resolve_right fun ⟨_, hnew⟩ =>
      hnew.elim (by simp [hj, IsEntry]) (notice_ne_writeBack hj)
    have hmem : q ∈ x.path.reqs.filter fun q => q.job == .writeBack :=
      List.mem_filter.mpr ⟨hold q hqr hj, by simp [hj]⟩
    rw [h.writeBacks] at hmem
    exact List.mem_of_mem_filter hmem

/-- ADMIT_REJECT follows the reports of the outcome and of the unlisting, and the engine is told behind it (R23, R68, R72,
R146). -/
theorem JudgedRead.rejectTold (h : JudgedRead s x (reject i w a.line d code x) t a y) :
    ReportAmong s t 7 (timeNow s) 0x04 (admitRejectBody a.line i d code) ∧
    (w.kind = .partTx → SlotRejected s t a.line (descSequence d)) ∧
    (w.kind ≠ .partTx → t.xfer = s.xfer ∧ t.loop = s.loop) := by
  obtain ⟨v, -, -, ⟨m, hm, hfrom⟩, ⟨n, hn, hby⟩, hrest, -, -, -, hb⟩ := rejectedBy_spec i w a.line d code x
  obtain ⟨k, hk, hc⟩ := h.outcome
  have hc : Course (fun _ => True) IsDescriptorWork s x k := hc.mono (fun _ _ => trivial) fun _ => .inl
  have hturn : Turnover (fun _ => False) IsEntry (report 0x04 (admitRejectBody a.line i d code) (rejectFrom a.line x))
      (reject i w a.line d code x) := hrest.toTurnover.trans (reject_told i w a.line d code x).1.turnover
  have hob := h.outcomeBlocks
  have hab := h.answerBlocks
  refine ⟨h.stay.among ((hc.trans (hfrom.mono (fun _ h => h) fun _ => .inr)).among_now (by omega) hturn), ?_⟩
  have hcourse := hc.trans (hby.mono (fun _ h => h) fun _ => .inr)
  have hz := reject_eq (i := i) (w := w) (line := a.line) (d := d) (reason := code) (s := x)
  have hstay := h.stay
  clear h hturn hrest
  generalize rejectedBy i w a.line d code x = b at *
  generalize reject i w a.line d code x = z at *
  have hxfer : b.xfer = s.xfer := (hb .xfer (by decide)).trans (hob .xfer (by decide))
  have hloop : b.loop = s.loop := (hb .loop (by decide)).trans (hob .loop (by decide))
  have htx : t.xfer = z.xfer := hab .xfer (by decide)
  have htl : t.loop = z.loop := hab .loop (by decide)
  have htf : t.fault.testFailed = z.fault.testFailed := by rw [show t.fault = z.fault from hab .fault (by decide)]
  refine ⟨fun hw => ?_, fun hw => ?_⟩
  · rw [if_pos (by simp [hw])] at hz
    exact slotRejected_spec hcourse (by omega) hxfer hloop hz htx htl htf hstay
  · rw [if_neg (by simp [hw])] at hz
    subst hz
    exact ⟨htx.trans hxfer, htl.trans hloop⟩

/-- The admission unit behind a rejection. -/
theorem JudgedRead.rejects (h : JudgedRead s x (reject i w a.line d code x) t a y) (hc : c = windowClass w) :
    t.adm.flight = s.adm.flight ∧
    CongestionSettled s t (fun x => listed (clsAt s x) a.line = true) (fun x => (clsAt s x).credit) ∧
    (∀ x, (clsAt t x).credit = (clsAt s x).credit) ∧
    (∀ x, (clsAt t x).held = (clsAt s x).held.filter fun h => h.line != a.line) ∧
    (clsAt t c).counters = { (clsAt s c).counters with rejected := satInc (clsAt s c).counters.rejected } := by
  subst hc
  obtain ⟨z, hz, hset, hflight, -, hcredit, hheld, hcount⟩ := reject_settles i w a.line d code x
  rw [← hz] at h
  refine ⟨?_, h.settled hset fun e => by rw [(h.classes e).1], fun e => ?_, fun e => ?_, ?_⟩
  · rw [show t.adm = z.adm from h.answerBlocks .adm (by decide), hflight, h.adm]
  · rw [(h.classes e).2, hcredit, (h.classes e).1]
  · rw [(h.classes e).2, hheld, (h.classes e).1]
  · rw [(h.classes _).2, hcount, (h.classes _).1]

end JudgementOutcomes
end Sys2Proof.Machine

namespace Sys2Proof.Machine

/-- Settles O46: a read that is answered ERROR is its own case; otherwise the state behind the read's outcome agrees with
the one before in all that a judgement looks at, and each of the five outcomes of the judgement has its lemma. -/
theorem descriptorJudged : Obligations.DescriptorJudged := by
  unfold Obligations.DescriptorJudged
  refine ⟨fun s a f o r h ho hk hr hbad => descriptorRead_refused h ho hk hr hbad, ?_⟩
  intro s a f o r i w d c short alien strange outside timing admits first lines debit reason h ho hk hr hw hm hgood hd hc
    h1 h2 h3 hf hl h4 r1 r2 r3 r4 r5 ht hadmits hdebit
  obtain ⟨x, t, hexec, hj, hflips, hout, hscrub, hremaps, hclean⟩ := descriptorRead_judged h ho hk hr hw hm hgood hd
  have hob := hj.outcomeBlocks
  have hwin : x.windows = s.windows := hob .windows (by decide)
  have hreason : rejectReason x w d = reason := rejectReason_first hwin h1 (by rw [h2, hc])
    (by rw [h3, kindOk_false_iff]) (by rw [h4, bufferOk_false_iff hf hl]) r1 r2 r3 r4 r5
  have hfly : inFlight x a.line = inFlight s a.line := by rw [inFlight, hj.adm]; rfl
  have hmust : mustHold x w a.line d = false ↔ admits := by
    rw [mustHold_congr hj.adm (hob .link (by decide)) (hob .xfer (by decide)), mustHold_false_iff ht, hadmits, hc]
  refine ⟨t, hexec, hflips, hj.blocks, hj.ages, hout, hscrub, hremaps, hclean, fun hn => ?_, fun hrd hin => ?_,
    fun hrd hin => ⟨fun code hcode => ?_, fun hnone hno => ?_, fun hnone hyes => ?_⟩⟩
  · simp only [judge_unready hn] at hj
    exact ⟨hj.answered, hj.unready⟩
  · simp only [judge_inFlight hrd (hfly.trans hin)] at hj
    refine ⟨hj.answered, (hj.answerBlocks .adm (by decide)).trans hj.adm, ?_⟩
    rw [show t.fault = x.fault from hj.answerBlocks .fault (by decide), hj.congestion]
  · simp only [judge_rejects hrd (hfly.trans hin) (hreason.trans hcode)] at hj
    obtain ⟨hflight, hset, hcredit, hheld, hcount⟩ := hj.rejects hc
    exact ⟨hj.answered, hflight, hset, hcredit, hheld, hcount, fun n hp hn => hj.writeBack hp hn, hj.rejectTold⟩
  · simp only [judge_holds hrd (hfly.trans hin) (hreason.trans hnone) (by simpa using mt hmust.mp hno), ← hc] at hj
    exact ⟨hj.answered, hj.holds⟩
  · simp only [judge_admits hrd (hfly.trans hin) (hreason.trans hnone) (hmust.mpr hyes), ← hc] at hj
    obtain ⟨hset, hflight, hcredit, hcount, hheld, hother⟩ := hj.admits
    have hd : admissionDebit s c d = debit := hdebit.symm
    rw [hd] at hcredit
    rw [flightEntry, hd] at hflight
    exact ⟨hj.answered, hset, hflight, hcredit, hcount, hheld, hother⟩

end Sys2Proof.Machine

namespace Sys2Proof.Machine

/-! ### What keeps the laws of the admission unit (R17, R18, R26, R28, R42) -/

section AdmissionKeeps

variable {s t u : State} {c : Cls} {line : Nat} {j k : ClassState}

/-- From `s` to `t` the laws of the admission unit are kept, no line has come into the in-flight table, and a line in it
stays a descriptor line of the window table. -/
structure AdmKeeps (s t : State) : Prop where
  law : admissionLaw s → admissionLaw t
  flight : t.adm.flight ⊆ s.adm.flight
  windows : ∀ e ∈ t.adm.flight, InDescriptorWindow s e.line → InDescriptorWindow t e.line

theorem AdmKeeps.trans (h : AdmKeeps s t) (h2 : AdmKeeps t u) : AdmKeeps s u :=
  ⟨h2.law ∘ h.law, fun _ he => h.flight (h2.flight he), fun e he hw => h2.windows e he (h.windows e (h2.flight he) hw)⟩

theorem admissionLaw_congr (h : t.adm = s.adm) : admissionLaw t ↔ admissionLaw s := by
  simp only [admissionLaw, clsAt_of_adm h, h]

theorem inDescriptorWindow_congr (h : t.windows = s.windows) : InDescriptorWindow t line ↔ InDescriptorWindow s line := by
  simp only [InDescriptorWindow, windowEntry, h]

/-- An operation outside the admission unit and the window table. -/
theorem AdmKeeps.of_same (ha : t.adm = s.adm) (hw : t.windows = s.windows) : AdmKeeps s t :=
  ⟨(admissionLaw_congr ha).mpr, by rw [ha]; exact List.Subset.refl _, fun _ _ => (inDescriptorWindow_congr hw).mpr⟩

theorem AdmKeeps.refl (s : State) : AdmKeeps s s := .of_same rfl rfl

theorem AdmKeeps.of_ite {p : Prop} [Decidable p] (h : p → AdmKeeps s t) : AdmKeeps s (if p then t else s) := by
  split
  · exact h ‹_›
  · exact .refl s

theorem AdmKeeps.foldl {β : Type} {f : State → β → State} (h : ∀ t b, AdmKeeps t (f t b)) :
    ∀ (l : List β) (s : State), AdmKeeps s (l.foldl f s)
  | [], s => .refl s
  | b :: l, s => (h s b).trans (.foldl h l (f s b))

/-- The law of a class does not speak of its congestion, its notices, its counters or its timer. -/
theorem classLaw_congr (h1 : k.credit = j.credit) (h2 : k.burst = j.burst) (h3 : k.enabled = j.enabled)
    (h4 : k.held = j.held) (h5 : k.lowMark = j.lowMark) (h6 : k.highMark = j.highMark) : classLaw k ↔ classLaw j := by
  rw [classLaw, classLaw, h1, h2, h3, h4, h5, h6]

/-- A change of the classes that keeps each one's law and share, and lists no line in flight anew, with at most a loss
of entries of the in-flight table. -/
theorem AdmKeeps.of_classes (hc : ∀ c, classLaw (clsAt s c) → classLaw (clsAt t c))
    (hs : ∀ c, (clsAt t c).share = (clsAt s c).share ∧ (clsAt t c).recoveryShare = (clsAt s c).recoveryShare)
    (hl : ∀ e ∈ s.adm.flight, ∀ c, listed (clsAt t c) e.line = true → listed (clsAt s c) e.line = true)
    (hf : t.adm.flight.Sublist s.adm.flight) (hw : t.windows = s.windows) : AdmKeeps s t := by
  refine ⟨?_, hf.subset, fun _ _ => (inDescriptorWindow_congr hw).mpr⟩
  rintro ⟨h1, h2, h3, h4, h5, h6, h7⟩
  refine ⟨fun c => hc c (h1 c), fun c hne => (hs c).2.trans (h2 c hne), ?_, ?_, hf.length_le.trans h5,
    (hf.map _).nodup h6, fun e he c => ?_⟩
  · simpa only [fun c => (hs c).1] using h3
  · simpa only [fun c => (hs c).1, fun c => (hs c).2] using h4
  · have hno := h7 e (hf.subset he) c
    exact Bool.eq_false_iff.mpr fun hx => Bool.eq_false_iff.mp hno (hl e (hf.subset he) c hx)

/-- A change of one class. -/
theorem updCls_keeps {f : ClassState → ClassState} (hc : classLaw (clsAt s c) → classLaw (f (clsAt s c)))
    (hs : (f (clsAt s c)).share = (clsAt s c).share ∧ (f (clsAt s c)).recoveryShare = (clsAt s c).recoveryShare)
    (hl : ∀ e ∈ s.adm.flight, listed (f (clsAt s c)) e.line = true → listed (clsAt s c) e.line = true) :
    AdmKeeps s (updCls c f s) := by
  refine .of_classes (fun x => ?_) (fun x => ?_) (fun e he x => ?_) (List.Sublist.refl _) rfl <;> rw [clsAt_updCls] <;>
    split
  · subst_vars; exact hc
  · exact id
  · subst_vars; exact hs
  · exact ⟨rfl, rfl⟩
  · subst_vars; exact hl e he
  · exact id

theorem countCls_keeps (c : Cls) (f : ClassCounters → ClassCounters) (s : State) : AdmKeeps s (countCls c f s) :=
  updCls_keeps (classLaw_congr rfl rfl rfl rfl rfl rfl).mpr ⟨rfl, rfl⟩ fun _ _ => id

theorem evalCongestion_keeps (c : Cls) (s : State) : AdmKeeps s (evalCongestion c s) := by
  have h := fun x => settled_fields (evalCongestion_settled (c := c) (x := x) (s := s))
  refine .of_classes (fun x => ?_) (fun x => ?_) (fun e _ x => ?_) (by rw [evalCongestion_flight.1]) (by simp) <;>
    obtain ⟨he, hcr, hh, -, hb, -, hs, hr, -, -, hhi, hlo, -⟩ := h x
  · exact (classLaw_congr hcr hb he hh hlo hhi).mpr
  · exact ⟨hs, hr⟩
  · rw [listed, listed, hh]
    exact id

/-- A change of a held list within its bounds, which lists no line in flight anew. -/
theorem setHeld_keeps {l : List HeldEntry} (hc : classLaw (clsAt s c) →
      l.length ≤ 16 ∧ (l.map (·.line)).Nodup ∧ ((clsAt s c).enabled = false → l = []))
    (hl : ∀ e ∈ s.adm.flight, (l.any fun h => h.line == e.line) = true → listed (clsAt s c) e.line = true) :
    AdmKeeps s (setHeld c l s) := by
  rw [setHeld_eq]
  refine AdmKeeps.trans (updCls_keeps (fun h => ?_) ?_ fun e he => ?_) (evalCongestion_keeps _ _) <;> rw [withHeld_fields]
  · obtain ⟨h1, h2, h3⟩ := hc h
    obtain ⟨hcr, hdis, -, -, hm⟩ := h
    exact ⟨hcr, fun hn => ⟨(hdis hn).1, h3 hn⟩, h1, h2, hm⟩
  · exact ⟨rfl, rfl⟩
  · exact hl e he

/-- A held list that loses entries. -/
theorem setHeld_keeps_sublist {l : List HeldEntry} (h : l.Sublist (clsAt s c).held) : AdmKeeps s (setHeld c l s) := by
  refine setHeld_keeps (fun ⟨_, hdis, hlen, hnd, _⟩ => ⟨h.length_le.trans hlen, (h.map _).nodup hnd, fun hn => ?_⟩)
    fun e _ he => ?_
  · exact List.eq_nil_of_length_eq_zero (Nat.le_zero.mp (by simpa [(hdis hn).2] using h.length_le))
  · obtain ⟨x, hx, hxe⟩ := List.any_eq_true.mp he
    exact List.any_eq_true.mpr ⟨x, h.subset hx, hxe⟩

theorem unlist_keeps (line : Nat) (s : State) : AdmKeeps s (unlist line s) := by
  refine .foldl (fun t c => ?_) _ _
  rw [unlistFrom]
  exact .of_ite fun _ => setHeld_keeps_sublist List.filter_sublist

/-! The refill, the timers, the completions and the overwrites. -/

/-- A credit with a grant stays within its bounds (R18, R20). -/
theorem classLaw_granted {g : Int} (h : classLaw k) (hg : 0 ≤ g) (he : k.enabled = true) :
    classLaw { k with credit := min (k.credit + g) (burstBits k) } := by
  obtain ⟨⟨h1, h2⟩, -, h3, h4, h5⟩ := h
  refine ⟨⟨?_, ?_⟩, fun hn => by simp [he] at hn, h3, h4, h5⟩ <;> simp only [burstBits] <;> omega

theorem refill_keeps (s : State) : AdmKeeps s (refill s) := by
  have hfold : ∀ (l : List Cls) (t : State), (∀ c, (clsAt t c).enabled = (clsAt s c).enabled ∧
      (c ∈ l → clsAt t c = clsAt s c)) → l.Nodup →
      AdmKeeps t (l.foldl (fun t c => updCls c (fun k => { k with credit := refilledCredit s c }) t) t) := by
    intro l
    induction l with
    | nil => exact fun t _ _ => .refl t
    | cons c l ih =>
      intro t ht hnd
      obtain ⟨hc, hnd⟩ := List.nodup_cons.mp hnd
      rw [List.foldl_cons]
      have heq := (ht c).2 (by simp)
      refine AdmKeeps.trans (updCls_keeps (fun h => ?_) ⟨rfl, rfl⟩ fun _ _ => id) (ih _ (fun x => ?_) hnd)
      · rw [heq] at h ⊢
        simp only [refilledCredit]
        split
        · rw [Int.add_assoc]
          exact classLaw_granted h (by positivity) ‹_›
        · exact h
      · rw [clsAt_updCls]
        split
        · subst_vars
          exact ⟨(ht _).1, fun hx => absurd hx hc⟩
        · exact ⟨(ht x).1, fun hx => (ht x).2 (List.mem_cons_of_mem _ hx)⟩
  exact hfold allClasses s (fun c => ⟨rfl, fun _ => rfl⟩) (by decide)

theorem refillExpiry_keeps (s : State) : AdmKeeps s (refillExpiry s) := by
  refine AdmKeeps.trans ((refill_keeps s).trans ?_) (.foldl (fun t c => evalCongestion_keeps c t) _ _)
  generalize refill s = v
  exact .of_classes (fun _ => id) (fun _ => ⟨rfl, rfl⟩) (fun _ _ _ => id) (List.Sublist.refl _) rfl

theorem ageExpiry_keeps (c : Cls) (s : State) : AdmKeeps s (evalCongestion c (updCls c (fun k => { k with ageTimer := none }) s)) :=
  AdmKeeps.trans (updCls_keeps (classLaw_congr rfl rfl rfl rfl rfl rfl).mpr ⟨rfl, rfl⟩ fun _ _ => id)
    (evalCongestion_keeps _ _)

/-- Fields of the admission unit beside the classes and the in-flight table. -/
theorem AdmKeeps.of_updAdm {f : Admission → Admission} (h1 : (f s.adm).classes = s.adm.classes)
    (h2 : (f s.adm).flight.Sublist s.adm.flight) : AdmKeeps s (s.updAdm f) := by
  have hcls : ∀ c, clsAt (s.updAdm f) c = clsAt s c := fun c => clsAt_of_classes h1
  exact .of_classes (fun c => by rw [hcls]; exact id) (fun c => by rw [hcls]; exact ⟨rfl, rfl⟩)
    (fun e _ c => by rw [hcls]; exact id) h2 rfl

theorem removeFlight_keeps (line : Nat) (s : State) : AdmKeeps s (removeFlight line s) :=
  .of_updAdm rfl List.filter_sublist

theorem report_keeps (code : Nat) (body : List FieldSpec) (s : State) : AdmKeeps s (report code body s) :=
  .of_same (by simp) (by simp)

theorem slotLost_keeps (line : Nat) (s : State) : AdmKeeps s (slotLost line s) := .of_same (by simp) (by simp)

theorem flightExpiry_keeps (e : FlightEntry) (s : State) : AdmKeeps s (flightExpiry e s) := by
  rw [flightExpiry]
  exact (removeFlight_keeps _ s).trans ((countCls_keeps _ _ _).trans ((report_keeps _ _ _).trans (slotLost_keeps _ _)))

/-- A completion settles its class: a refund, up to the burst (R29). -/
theorem settleClass_law {e : FlightEntry} {sent : Bool} (h : classLaw k) : classLaw (settleClass e sent k) := by
  cases sent with
  | true => exact h
  | false =>
    cases he : k.enabled with
    | true =>
      have hg := classLaw_granted h (Int.natCast_nonneg e.debit) he
      rw [settleClass, if_neg (by simp), if_pos he]
      exact hg
    | false =>
      rw [settleClass, if_neg (by simp), if_neg (by simp [he])]
      exact h

theorem updCls_settle_keeps (e : FlightEntry) (sent : Bool) (s : State) :
    AdmKeeps s (updCls e.cls (settleClass e sent) s) := by
  refine updCls_keeps settleClass_law ?_ fun _ _ => ?_ <;> cases sent
  · exact ⟨rfl, rfl⟩
  · exact ⟨rfl, rfl⟩
  · exact id
  · exact id

theorem completed_keeps (line : Nat) (e : FlightEntry) (sent : Bool) (s : State) :
    AdmKeeps s (completed s line e sent) :=
  (removeFlight_keeps line s).trans ((updCls_settle_keeps e sent _).trans (unlist_keeps line _))

theorem txCompletion_keeps (w : Window) (line : Nat) (d : Line) (s : State) : AdmKeeps s (txCompletion w line d s).2 := by
  cases hf : flightOf s line with
  | none =>
    simp only [txCompletion, hf]
    exact (countCls_keeps _ _ s).trans (unlist_keeps _ _)
  | some e =>
    rw [txCompletion_matched d hf]
    have h := completed_keeps line e (descStatus d == 1) s
    generalize completed s line e (descStatus d == 1) = u at *
    split <;> exact h.trans (.of_same (by simp) (by simp))

/-- The in-flight table behind a write by the site or the radio (R33). -/
theorem overwrite_keeps (line : Nat) (mask : BitVec 64) (d : Line) (s : State) : AdmKeeps s (overwrite line mask d s) := by
  have hgone : ∀ e : FlightEntry, AdmKeeps s (slotLost line (countCls e.cls (fun k =>
      { k with overwritten := satInc k.overwritten }) (removeFlight line s))) := fun e =>
    (removeFlight_keeps _ s).trans ((countCls_keeps _ _ _).trans (slotLost_keeps _ _))
  have hclear : ∀ v, AdmKeeps s v → AdmKeeps s (if clearsReady mask d then unlist line v else v) := fun v hv =>
    hv.trans (.of_ite fun _ => unlist_keeps line v)
  unfold overwrite
  split
  · exact hclear _ (hgone _)
  · exact hclear _ (.refl s)

theorem countRx_keeps (d : Line) (s : State) : AdmKeeps s (countRx d s) := by
  unfold countRx
  split
  · exact .of_updAdm rfl (List.Sublist.refl _)
  · split <;> exact countCls_keeps _ _ s

theorem rxCompletion_keeps (d : Line) (s : State) : AdmKeeps s (rxCompletion d s).2 := by
  refine (countRx_keeps d s).trans ?_
  simp only [rxCompletion]
  split
  · refine .of_same ?_ ?_ <;> simp only <;> split <;> simp
  · exact .refl _

/-! The records (R39 to R43, R99 to R101). -/

/-- A check that refuses has been passed by a record that is applied. -/
theorem refusal_passed {p : Prop} [Decidable p] {o x : RecordOutcome} (h : (if p then o else x) = .applied)
    (ho : o ≠ .applied) : ¬p ∧ x = .applied := by
  split at h
  · exact absurd h ho
  · exact ⟨‹_›, h⟩

/-- An accepted CLASS record has its marks in order, and its shares leave the sums at 1,000 at most (R39). -/
theorem classCheck_applied {d : Line} (h : classCheck s d = .applied) : field d 16 2 < field d 14 2 ∧
    sumClasses (shareWith s d) ≤ 1000 ∧
    sumClasses (fun c => if c = .s then recoveryWith s d else shareWith s d c) ≤ 1000 := by
  unfold classCheck at h
  obtain ⟨-, h⟩ := refusal_passed h (by simp)
  obtain ⟨hrange, h⟩ := refusal_passed h (by simp)
  obtain ⟨hsum, h⟩ := refusal_passed h (by simp)
  obtain ⟨hsumr, -⟩ := refusal_passed h (by simp)
  exact ⟨by omega, by omega, by omega⟩

/-- The entry that an accepted CLASS record leaves (R40). -/
theorem classEntry_law {d : Line} {now : Nat} (h : classLaw k) (hm : field d 16 2 < field d 14 2) :
    classLaw (classEntry d now k) := by
  obtain ⟨⟨h1, h2⟩, hdis, hlen, hnd, -⟩ := h
  refine ⟨⟨?_, ?_⟩, fun hn => ⟨?_, (hdis hn).2⟩, hlen, hnd, hm⟩ <;> simp only [classEntry]
  · omega
  · omega
  · rw [(hdis hn).1]
    omega

theorem classRecord_keeps {d : Line} (h : classCheck s d = .applied) :
    AdmKeeps s (updCls (recordClass d) (classEntry d s.now) s) := by
  obtain ⟨hm, hsum, hsumr⟩ := classCheck_applied h
  refine ⟨fun ⟨h1, h2, _, _, h5, h6, h7⟩ => ?_, List.Subset.refl _, fun _ _ => (inDescriptorWindow_congr rfl).mpr⟩
  have hshare : ∀ c, (clsAt (updCls (recordClass d) (classEntry d s.now) s) c).share = shareWith s d c := fun c => by
    rw [clsAt_updCls, shareWith]
    split <;> rfl
  have hrecovery : (clsAt (updCls (recordClass d) (classEntry d s.now) s) .s).recoveryShare = recoveryWith s d := by
    rw [clsAt_updCls, recoveryWith]
    by_cases hs : recordClass d = .s
    · rw [if_pos hs.symm, if_pos hs]
      simp [classEntry, hs]
    · rw [if_neg (Ne.symm hs), if_neg hs]
  refine ⟨fun c => ?_, fun c hc => ?_, ?_, ?_, h5, h6, fun e he c => ?_⟩
  · rw [clsAt_updCls]
    split
    · exact classEntry_law (h1 c) hm
    · exact h1 c
  · rw [clsAt_updCls]
    split
    · subst_vars
      simp [classEntry, hc]
    · exact h2 c hc
  · rwa [funext hshare]
  · refine le_of_eq_of_le (congrArg sumClasses (funext fun c => ?_)) hsumr
    split
    · subst_vars; exact hrecovery
    · exact hshare c
  · have := h7 e he c
    rw [clsAt_updCls]
    split <;> exact this

theorem applyClass_keeps {d : Line} (h : classCheck s d = .applied) : AdmKeeps s (applyClass d s) := by
  rw [applyClass]
  exact (classRecord_keeps h).trans (evalCongestion_keeps _ _)

/-- A class that is disabled loses its credit and its list together (R42). -/
theorem emptied_keeps (c : Cls) (s : State) : AdmKeeps s
    (updCls c (withHeld [] s.now) (updCls c (fun k => { k with enabled := false, credit := 0 }) s)) := by
  have hcls : ∀ x, clsAt (updCls c (withHeld [] s.now) (updCls c (fun k => { k with enabled := false, credit := 0 }) s)) x =
      if x = c then withHeld [] s.now { clsAt s x with enabled := false, credit := 0 } else clsAt s x := fun x => by
    rw [clsAt_updCls, clsAt_updCls]
    split <;> rfl
  refine .of_classes (fun x h => ?_) (fun x => ?_) (fun e _ x => ?_) (List.Sublist.refl _) rfl <;> rw [hcls] <;> split
  · obtain ⟨-, -, -, -, hm⟩ := h
    rw [withHeld_fields]
    refine ⟨⟨by simp, ?_⟩, fun _ => ⟨rfl, rfl⟩, by simp, by simp, hm⟩
    simp only
    omega
  · exact h
  · rw [withHeld_fields]
    exact ⟨rfl, rfl⟩
  · exact ⟨rfl, rfl⟩
  · rw [withHeld_fields]
    simp [listed]
  · exact id

theorem disableClass_keeps (c : Cls) (s : State) : AdmKeeps s (disableClass c s) := by
  rw [disableClass, setHeld_eq]
  exact ((emptied_keeps c s).trans (evalCongestion_keeps c _)).trans (.of_ite fun _ => .of_same (by simp) (by simp))

/-- Credit 0 lies within the bounds of every class (R18). -/
theorem classLaw_enabled (h : classLaw k) : classLaw { k with enabled := true, credit := 0 } := by
  obtain ⟨-, -, hlaw⟩ := h
  refine ⟨⟨by simp, ?_⟩, by simp, hlaw⟩
  simp only
  omega

theorem admitClass_keeps (d : Line) (c : Cls) (s : State) : AdmKeeps s (admitClass d c s) := by
  rw [admitClass]
  split
  · exact updCls_keeps classLaw_enabled ⟨rfl, rfl⟩ fun _ _ => id
  · exact .of_ite fun _ => disableClass_keeps c s

theorem applyAdmit_keeps (d : Line) (s : State) : AdmKeeps s (applyAdmit d s) := by
  have h : AdmKeeps s (allClasses.foldl (fun t c => admitClass d c t) s) := .foldl (fun t c => admitClass_keeps d c t) _ _
  rw [applyAdmit]
  generalize allClasses.foldl (fun t c => admitClass d c t) s = v at *
  split
  · exact h
  · exact h.trans (.of_updAdm rfl (List.Sublist.refl _))

theorem clearAdmission_keeps (s : State) : AdmKeeps s (clearAdmission s) :=
  AdmKeeps.trans (.foldl (fun t c => countCls_keeps c _ t) _ _) (.of_updAdm rfl (List.Sublist.refl _))

/-- A window that an accepted WINDOW record replaces has no line in flight (R100). -/
theorem windowCheck_applied {d : Line} {e : FlightEntry} {w : Window} (h : windowCheck s d = .applied)
    (hn : windowContent d ≠ windowEntry s (field d 4 1)) (he : e ∈ s.adm.flight)
    (hw : windowEntry s (field d 4 1) = some w) (hc : windowCovers w e.line = true) :
    isDescriptorLine w e.line = false := by
  have hbusy : windowBusy s (field d 4 1) (windowContent d) = false := by
    unfold windowCheck at h
    obtain ⟨-, h⟩ := refusal_passed h (by simp)
    obtain ⟨-, h⟩ := refusal_passed h (by simp)
    rw [if_neg hn] at h
    simpa using (refusal_passed h (by simp)).1
  have huse : linesInUse s w = true := by
    simp only [linesInUse, Bool.or_eq_true, List.any_eq_true]
    exact .inl ⟨e, he, hc⟩
  simp only [windowBusy, hw, replaceBusy, huse, Bool.or_eq_false_iff, Bool.and_true] at hbusy
  obtain ⟨⟨⟨⟨hkind, -⟩, -⟩, -⟩, -⟩ := hbusy
  simp at hkind
  simp [isDescriptorLine, hkind]

theorem applyWindow_keeps {d : Line} (h : windowCheck s d = .applied) : AdmKeeps s (applyWindow d s) := by
  by_cases hn : windowContent d = windowEntry s (field d 4 1)
  · simp only [applyWindow, hn, if_true]
    exact .refl s
  obtain ⟨v, hv⟩ : ∃ v, v = s.updWindows fun t => t.setIfInBounds (field d 4 1) (windowContent d) := ⟨_, rfl⟩
  have ha : v.adm = s.adm := by rw [hv]; rfl
  have hkeep : AdmKeeps s v := by
    refine ⟨(admissionLaw_congr ha).mpr, by rw [ha]; exact List.Subset.refl _, fun e he ⟨j, w, hj, hc, hl⟩ => ?_⟩
    rw [ha] at he
    refine ⟨j, w, ?_, hc, hl⟩
    by_cases hi : field d 4 1 = j
    · subst hi
      simp [windowCheck_applied h hn he hj hc] at hl
    · rw [hv]
      simpa [windowEntry, Vector.getElem?_setIfInBounds, hi] using hj
  refine hkeep.trans ?_
  simp only [applyWindow, hn, if_false, ← hv]
  split
  · exact .of_ite fun _ => .of_same (by simp) (by simp)
  · exact .refl v

end AdmissionKeeps
end Sys2Proof.Machine

namespace Sys2Proof.Machine

/-! ### The judgement keeps the laws of the admission unit (R25 to R28) -/

section JudgementKeeps

variable {s t u x : State} {a : Access} {c : Cls} {i line : Nat} {w : Window} {d : Line}

theorem queueWriteBack_keeps (line : Nat) (s : State) : AdmKeeps s (queueWriteBack line s) := by
  by_cases h : writeBacksHeld s < 16
  · rw [queueWriteBack_room h]
    exact .of_same rfl rfl
  · rw [queueWriteBack_full (by omega)]
    exact .of_updAdm rfl (List.Sublist.refl _)

theorem reject_keeps (i : Nat) (w : Window) (line : Nat) (d : Line) (code : Nat) (s : State) :
    AdmKeeps s (reject i w line d code s) := by
  have hfrom : AdmKeeps s (rejectFrom line s) := by
    rw [rejectFrom]
    exact (unlist_keeps line s).trans (queueWriteBack_keeps line _)
  have h : AdmKeeps s (rejectedBy i w line d code s) := by
    rw [rejectedBy]
    generalize rejectFrom line s = v at *
    exact hfrom.trans ((report_keeps _ _ _).trans (countCls_keeps _ _ _))
  rw [reject_eq]
  generalize rejectedBy i w line d code s = v at *
  exact h.trans (.of_ite fun _ => .of_same (by simp) (by simp))

/-- A held read lists its line with its class, unless the line is in flight (R26). -/
theorem hold_keeps (hf : inFlight s line = false) : AdmKeeps s (hold c line d s) := by
  have hcount : AdmKeeps s (heldCounted c s) := countCls_keeps _ _ s
  have hv : clsAt (heldCounted c s) c = { clsAt s c with counters := { (clsAt s c).counters with
      heldReads := satInc (clsAt s c).counters.heldReads } } := countCls_same
  by_cases hn : (clsAt s c).enabled = false ∨ (listed (clsAt s c) line = false ∧ 16 ≤ (clsAt s c).held.length)
  · rw [hold_unlisted hn]
    exact hcount.trans (countCls_keeps _ _ _)
  have h1 : (clsAt s c).enabled = true := by simpa using fun h => hn (.inl h)
  cases h2 : listed (clsAt s c) line with
  | true =>
    rw [hold_updates h1 h2]
    have hlines : (((clsAt s c).held.map fun h => if h.line = line then { h with length := descLength d } else h).map
        (·.line)) = (clsAt s c).held.map (·.line) := by
      rw [List.map_map]
      refine List.map_congr_left fun h _ => ?_
      simp only [Function.comp]
      split <;> rfl
    refine hcount.trans (setHeld_keeps ?_ fun e _ he => ?_) <;> rw [hv]
    · rintro ⟨-, -, hlen, hnd, -⟩
      refine ⟨by simpa using hlen, by rw [hlines]; exact hnd, fun h => by simp [h1] at h⟩
    · have hany : ∀ l : List HeldEntry, (l.any fun h => h.line == e.line) = (l.map (·.line)).any (· == e.line) := fun l => by
        rw [List.any_map]; rfl
      rw [hany, hlines, ← hany] at he
      exact he
  | false =>
    have h3 : (clsAt s c).held.length < 16 := by by_contra h3; exact hn (.inr ⟨h2, by omega⟩)
    rw [hold_joins h1 h2 h3]
    refine hcount.trans (setHeld_keeps ?_ fun e hin he => ?_) <;> rw [hv]
    · rintro ⟨-, -, hlen, hnd, -⟩
      refine ⟨by simpa using h3, ?_, fun h => by simp [h1] at h⟩
      rw [List.map_append, List.nodup_append]
      refine ⟨hnd, by simp, fun x hx y hy hxy => ?_⟩
      obtain ⟨h, hh, rfl⟩ := List.mem_map.mp hx
      obtain rfl : y = line := by simpa using hy
      exact Bool.eq_false_iff.mp h2 (List.any_eq_true.mpr ⟨h, hh, by simp [hxy]⟩)
    · rw [List.any_append, Bool.or_eq_true] at he
      refine he.resolve_right fun hx => ?_
      have hline : line = e.line := by simpa using hx
      exact Bool.eq_false_iff.mp hf (List.any_eq_true.mpr ⟨e, hin, by simp [hline]⟩)

/-- A class's credit after an admission stays within its bounds (R18, R27). -/
theorem classLaw_debited (c : Cls) (d : Line) (h : classLaw (clsAt s c)) :
    classLaw (debited (admissionDebit s c d) (clsAt s c)) := by
  obtain ⟨⟨h1, h2⟩, hdis, hlen, hnd, hm⟩ := h
  refine ⟨⟨?_, ?_⟩, fun hn => ⟨?_, (hdis hn).2⟩, hlen, hnd, hm⟩ <;> simp only [debited, Config.maxFrameBits]
  · omega
  · omega
  · have : (clsAt s c).enabled = false := hn
    simp [admissionDebit, this, (hdis this).1]

/-- An admission adds the read's line, which is neither in flight nor listed any more (R28). -/
theorem admitDescriptor_law (hf : inFlight s line = false) (hlen : s.adm.flight.length < 64) (h : admissionLaw s) :
    admissionLaw (admitDescriptor c line d s) := by
  have hlaw := (unlist_keeps line s).law h
  have hheld := fun x => unlist_held (x := x) (line := line) (s := s)
  obtain ⟨hen, -, -, -, hflight⟩ := unlist_rest (x := c) (line := line) (s := s)
  have hlink : (unlist line s).link = s.link := by simp
  rw [admitDescriptor_eq]
  generalize unlist line s = v at *
  refine (countCls_keeps c _ _).law ?_
  have hdebit : admissionDebit s c d = admissionDebit v c d := by rw [admissionDebit, admissionDebit, hen, hlink]
  have hcls := fun x => clsAt_entered c x line d s v
  have hfl := (entered_rest (credit := fun _ => 0) c line d s v).1
  generalize entered c line d s v = u at *
  rw [hdebit] at hcls
  rw [hflight] at hfl
  obtain ⟨h1, h2, h3, h4, -, h6, h7⟩ := hlaw
  rw [hflight] at h6 h7
  have hshare : ∀ x, (clsAt u x).share = (clsAt v x).share ∧ (clsAt u x).recoveryShare = (clsAt v x).recoveryShare ∧
      (clsAt u x).held = (clsAt v x).held := fun x => by rw [hcls]; split <;> exact ⟨rfl, rfl, rfl⟩
  refine ⟨fun x => ?_, fun x hx => (hshare x).2.1.trans (h2 x hx), ?_, ?_, ?_, ?_, fun e he x => ?_⟩
  · rw [hcls]
    split
    · subst_vars; exact classLaw_debited x d (h1 x)
    · exact h1 x
  · simpa only [fun x => (hshare x).1] using h3
  · simpa only [fun x => (hshare x).1, fun x => (hshare x).2.1] using h4
  · rw [hfl]
    simpa using hlen
  · rw [hfl, List.map_append, List.nodup_append]
    refine ⟨h6, by simp, fun y hy z hz hyz => ?_⟩
    obtain ⟨e, he, rfl⟩ := List.mem_map.mp hy
    obtain rfl : z = line := by simpa [flightEntry] using hz
    exact Bool.eq_false_iff.mp hf (List.any_eq_true.mpr ⟨e, he, by simp [hyz]⟩)
  · rw [listed, (hshare x).2.2, ← listed]
    rw [hfl, List.mem_append, List.mem_singleton] at he
    rcases he with he | rfl
    · exact h7 e he x
    · simp [listed, hheld, flightEntry]

/-- What a judgement can do to the in-flight table. -/
structure EntersAtMost (line : Nat) (c : Cls) (s t : State) : Prop where
  law : admissionLaw s → admissionLaw t
  flight : ∀ e ∈ t.adm.flight, e ∈ s.adm.flight ∨ (e.line = line ∧ e.cls = c)
  windows : t.windows = s.windows

theorem AdmKeeps.enters (h : AdmKeeps s t) (hw : t.windows = s.windows) : EntersAtMost line c s t :=
  ⟨h.law, fun _ he => .inl (h.flight he), hw⟩

theorem unlist_enters : EntersAtMost line c s (unlist line s) := (unlist_keeps line s).enters (by simp)

theorem reject_enters {code : Nat} : EntersAtMost line c s (reject i w line d code s) :=
  (reject_keeps i w line d code s).enters (by simp)

theorem hold_enters (h : inFlight s line = false) : EntersAtMost line c s (hold c line d s) :=
  (hold_keeps h).enters (by simp)

theorem admitDescriptor_enters (hf : inFlight s line = false) (hlen : s.adm.flight.length < 64) :
    EntersAtMost line c s (admitDescriptor c line d s) := by
  refine ⟨admitDescriptor_law hf hlen, fun e he => ?_, by simp⟩
  obtain ⟨z, hz, -, -, hflight, -⟩ := admitDescriptor_spec c line d s
  rw [← hz, hflight, List.mem_append, List.mem_singleton] at he
  exact he.imp id fun he => by rw [he]; exact ⟨rfl, rfl⟩

theorem judge_enters (i : Nat) (w : Window) (line : Nat) (d : Line) (s : State) :
    EntersAtMost line (windowClass w) s (judge i w line d s).2 := by
  by_cases hr : descReady d = false
  · simp only [judge_unready hr]
    exact unlist_enters
  have hr : descReady d = true := by simpa using hr
  cases hf : inFlight s line with
  | true =>
    simp only [judge_inFlight hr hf]
    exact (AdmKeeps.refl s).enters rfl
  | false =>
    cases hc : rejectReason s w d with
    | some code =>
      simp only [judge_rejects hr hf hc]
      exact reject_enters
    | none =>
      cases hm : mustHold s w line d with
      | true =>
        simp only [judge_holds hr hf hc hm]
        exact hold_enters hf
      | false =>
        simp only [judge_admits hr hf hc hm]
        exact admitDescriptor_enters hf ((mustHold_false_iff Iff.rfl).mp hm).2.1

end JudgementKeeps
end Sys2Proof.Machine

namespace Sys2Proof.Machine

/-! ### What a row can do to the admission unit and to the window table -/

/-! The memory port's rows, but the judgement's, leave both. -/

section MemoryRowsSpare

variable {s : State} {f : LineFlips}

/-- The admission unit and the window table stand. -/
structure AdmStays (s t : State) : Prop where
  adm : t.adm = s.adm
  windows : t.windows = s.windows

theorem AdmStays.keeps {t : State} (h : AdmStays s t) : AdmKeeps s t := .of_same h.adm h.windows

theorem AdmStays.refl (s : State) : AdmStays s s := ⟨rfl, rfl⟩

theorem AdmStays.trans {t u : State} (h : AdmStays s t) (h2 : AdmStays t u) : AdmStays s u :=
  ⟨h2.adm.trans h.adm, h2.windows.trans h.windows⟩

theorem ownWrite_stays {a : Access} {d : Line} {next : State → State} (h : ∀ t, AdmStays t (next t)) :
    AdmStays s (ownWrite a d next s) := by
  have ha := fun t => (h t).adm
  have hw := fun t => (h t).windows
  constructor <;> simp only [ownWrite] <;> split <;> simp [ha, hw]

/-- A read's completion leaves them where its delivery does. -/
theorem completeRead_stays {p : Port} {a : Access} {o : EccObs} {deliver : Line → State → Line × State}
    (h : ∀ d t, AdmStays t (deliver d t).2) : AdmStays s (completeRead p a o deliver s) := by
  have ha := fun d t => (h d t).adm
  have hw := fun d t => (h d t).windows
  constructor <;> simp only [completeRead] <;> repeat' split
  all_goals simp [ha, hw]

theorem makeDescriptor_stays {slot kind length sequence buffer : Nat} :
    AdmStays s (makeDescriptor slot kind length sequence buffer s) := by
  constructor <;> simp only [makeDescriptor] <;> split <;> simp

theorem popRead_stays {a : Access} : AdmStays s (popRead f a s) := ⟨by simp, by simp⟩

theorem portReadDone_stays : AdmStays s (portReadDone f s) := by
  simp only [portReadDone]
  repeat' split
  · exact popRead_stays.trans (completeRead_stays fun _ t => .refl t)
  all_goals exact .refl s

theorem portWriteDone_stays : AdmStays s (portWriteDone s) := by
  constructor <;> simp only [portWriteDone] <;> repeat' split
  all_goals simp

theorem rmwReadDone_stays : AdmStays s (rmwReadDone f s) := by
  constructor <;> simp only [rmwReadDone] <;> repeat' split
  all_goals simp

theorem rmwWriteDone_stays : AdmStays s (rmwWriteDone s) := by
  constructor <;> simp only [rmwWriteDone] <;> repeat' split
  all_goals simp

theorem writeBackReadDone_stays : AdmStays s (writeBackReadDone f s) := by
  constructor <;> simp only [writeBackReadDone] <;> repeat' split
  all_goals simp

theorem internalWriteDone_stays : AdmStays s (internalWriteDone s) := by
  simp only [internalWriteDone]
  repeat' split
  · exact ownWrite_stays .refl
  · exact ownWrite_stays .refl
  all_goals exact ⟨by simp, by simp⟩

theorem queryFrameDone_stays : AdmStays s (queryFrameDone s) := by
  simp only [queryFrameDone]
  repeat' split
  · exact ownWrite_stays fun _ => makeDescriptor_stays
  · exact ownWrite_stays .refl
  · exact ownWrite_stays .refl
  all_goals exact .refl s

theorem testLineDone_stays : AdmStays s (testLineDone s) := by
  simp only [testLineDone]
  repeat' split
  · refine ownWrite_stays fun t => ?_
    split
    · exact .refl t
    · exact makeDescriptor_stays
  · exact ownWrite_stays .refl
  · exact ownWrite_stays .refl
  all_goals exact .refl s

theorem reportWriteDone_stays : AdmStays s (reportWriteDone s) := by
  simp only [reportWriteDone]
  repeat' split
  · exact ownWrite_stays fun _ => ⟨by simp, by simp⟩
  all_goals exact .refl s

theorem snapshotWriteDone_stays : AdmStays s (snapshotWriteDone s) := by
  simp only [snapshotWriteDone]
  repeat' split
  · exact ownWrite_stays fun _ => ⟨by simp, by simp⟩
  · exact ownWrite_stays .refl
  all_goals exact .refl s

theorem scrubReadDone_stays : AdmStays s (scrubReadDone f s) := by
  constructor <;> simp only [scrubReadDone] <;> repeat' split
  all_goals simp

theorem scrubWriteDone_stays : AdmStays s (scrubWriteDone s) := by
  constructor <;> simp only [scrubWriteDone] <;> repeat' split
  all_goals simp

theorem copyReadDone_stays : AdmStays s (copyReadDone f s) := by
  constructor <;> simp only [copyReadDone] <;> repeat' split
  all_goals simp

theorem copyWriteDone_stays : AdmStays s (copyWriteDone s) := by
  constructor <;> simp only [copyWriteDone] <;> repeat' split
  all_goals simp

theorem marchReadDone_stays : AdmStays s (marchReadDone f s) := by
  constructor <;> simp only [marchReadDone] <;> repeat' split
  all_goals simp

theorem marchWriteDone_stays : AdmStays s (marchWriteDone s) := by
  constructor <;> simp only [marchWriteDone] <;> repeat' split
  all_goals simp

/-! A judged read (R21, R27). -/

variable {a : Access} {t u : State}

/-- A read that does not pass leaves them; one that passes does so but for its delivery. -/
theorem completeRead_cases {o : EccObs} {p : Port} {deliver : Line → State → Line × State}
    (h : t = completeRead p a o deliver u) : AdmStays u t ∨
    ∃ d x, AdmStays u x ∧ AdmStays (deliver d x).2 t := by
  have hout : ∀ l m, AdmStays u (takeOutcome (.port p) l m o u) := fun l m => ⟨by simp, by simp⟩
  have hans : ∀ i y v, AdmStays v (answer i y v) := fun i y v => ⟨by simp, by simp⟩
  subst h
  simp only [completeRead]
  split
  · exact .inl ⟨by simp, by simp⟩
  split
  · exact .inl ⟨by simp, by simp⟩
  split
  · exact .inl ((hout _ _).trans (hans _ _ _))
  · exact .inr ⟨_, _, hout _ _, hans _ _ _⟩

/-- A line enters the in-flight table by the judgement of a read that was classified in a window (R21, R27). -/
theorem descriptorDone_enters (h : t = descriptorDone f s) : AdmStays s t ∨
    ∃ a i w, Completes s a ∧ a.kind = .descriptorRead ∧ windowOfAccess s a = some (i, w) ∧
      EntersAtMost a.line (windowClass w) s t := by
  cases hp : portHead s with
  | none =>
    simp only [descriptorDone, hp] at h
    exact .inl (h ▸ .refl s)
  | some a =>
    by_cases hk : a.kind = .descriptorRead
    · have ht : t = completeRead .modem a (lineRead f a s) (delivering s a) (popRead f a s) :=
        Host.Outcome.next.inj ((congrArg Host.Outcome.next h).trans (exec_judged hp hk))
      rcases completeRead_cases ht with hst | ⟨d, x, hx, hst⟩
      · exact .inl (popRead_stays.trans hst)
      have hx : AdmStays s x := popRead_stays.trans hx
      cases hw : windowOfAccess s a with
      | none =>
        simp only [delivering, hw] at hst
        exact .inl (hx.trans hst)
      | some v =>
        obtain ⟨i, w⟩ := v
        rw [delivering_window hw] at hst
        obtain ⟨hlaw, hflight, hwin⟩ := judge_enters i w a.line d x
        refine .inr ⟨a, i, w, hp, hk, hw, fun hs => ?_, ?_, ?_⟩
        · exact (admissionLaw_congr hst.adm).mpr (hlaw ((admissionLaw_congr hx.adm).mpr hs))
        · rw [hst.adm, ← hx.adm]
          exact hflight
        · rw [hst.windows, hwin, hx.windows]
    · simp only [descriptorDone, hp] at h
      exact .inl (h ▸ .refl s)

/-- The window of a descriptor read's classification is a TX_RING or PART_TX window (R95). -/
theorem descriptorRead_window {i : Nat} {w : Window} (hp : pathLaw s) (hc : Completes s a)
    (hk : a.kind = .descriptorRead) (hw : windowOfAccess s a = some (i, w)) :
    w.kind = .txRing ∨ w.kind = .partTx := by
  obtain ⟨-, -, -, -, -, -, -, hport⟩ := hp
  obtain ⟨-, -, hacc⟩ := hport a (List.mem_of_mem_head? hc)
  unfold windowOfAccess at hw
  split at hw
  · rename_i q hq
    obtain ⟨-, -, hkind⟩ := hacc q (List.mem_of_find?_eq_some hq) (by simpa using List.find?_some hq)
    split at hw
    · rename_i p r win st hj
      subst hw
      have hfirst : a.kind = firstAccess q.job := by
        rcases hkind with ⟨-, hkind⟩ | ⟨-, d, hkind⟩
        · exact hkind
        · rw [hj, hk] at hkind
          simp [secondAccess] at hkind
      have hjudged : isJudgedRead p r (some (i, w)) = true := by
        by_contra hno
        rw [hk, hj, firstAccess, if_neg hno] at hfirst
        repeat' split at hfirst
        all_goals simp at hfirst
      simp only [isJudgedRead, isDescriptorLine, Bool.and_eq_true, Bool.or_eq_true, beq_iff_eq] at hjudged
      exact hjudged.2.imp id And.left
    · simp at hw
  · simp at hw

end MemoryRowsSpare
end Sys2Proof.Machine

namespace Sys2Proof.Machine

/-! ### Every row but the judgement keeps the laws of the admission unit -/

section RowsKeep

variable {s t : State}

theorem AdmKeeps.checked {o : RecordOutcome} {f : State → State} (h : o = .applied → AdmKeeps s (f s)) :
    AdmKeeps s (checked o f s).2 := by
  unfold Machine.checked
  split
  · exact h ‹_›
  · exact .refl s

theorem whenBit_keeps {g n : Nat} {f : State → State} (h : AdmKeeps s (f s)) : AdmKeeps s (whenBit g n f s) := .of_ite fun _ => h

/-- Of the parts of a CLEAR record, the ADMISSION group's clears the unit's counters (R43, R163). -/
theorem applyClear_keeps (d : Line) (s : State) : AdmKeeps s (applyClear d s) := by
  have hecc : ∀ u, AdmKeeps u (clearEcc u) := fun u => .of_same (by simp) (by simp)
  have hports : ∀ u, AdmKeeps u (clearPorts u) := fun u => .of_same (by simp) (by simp)
  have hmarch : ∀ u, AdmKeeps u (clearLoop (clearMarch u)) := fun u => .of_same (by simp) (by simp)
  have hxfer : ∀ u, AdmKeeps u (xferCount (fun _ => Initial.transferCounters) u) := fun u => .of_same (by simp) (by simp)
  have hconds : ∀ f u, AdmKeeps u (changeConditions 5 f u) := fun f u => .of_same (by simp) (by simp)
  rw [applyClear]
  exact (whenBit_keeps (hecc s)).trans ((whenBit_keeps (hports _)).trans ((whenBit_keeps (clearAdmission_keeps _)).trans
    ((whenBit_keeps (hxfer _)).trans ((whenBit_keeps (hmarch _)).trans (hconds _ _)))))

/-- Of the records, WINDOW, CLASS, ADMIT and CLEAR change the admission unit or the window table. -/
theorem examineKind_keeps (kind : Nat) (d : Line) (s : State) : AdmKeeps s (examineKind kind d s).2 := by
  unfold examineKind
  split
  case h_1 => exact .checked applyWindow_keeps
  case h_3 => exact .checked applyClass_keeps
  case h_4 => exact .checked fun _ => applyAdmit_keeps d s
  case h_15 => exact .checked fun _ => applyClear_keeps d s
  case h_11 | h_12 | h_13 | h_16 | h_18 => exact .of_same (by simp) (by simp)
  all_goals exact .checked fun _ => .of_same (by simp) (by simp)

theorem examineRecord_keeps (line : Nat) (mask : BitVec 64) (d : Line) (s : State) :
    AdmKeeps s (examineRecord line mask d s) := by
  have hkind := examineKind_keeps (field d 1 1) d s
  have hfull : AdmKeeps s (examineFull line d s) := by
    rw [examineFull]
    generalize examineKind (field d 1 1) d s = x at *
    refine hkind.trans ?_
    repeat' split
    all_goals exact .of_same (by simp [passResult]) (by simp [passResult])
  simp only [examineRecord]
  repeat' split
  · exact .of_same (by simp) (by simp)
  · exact .of_same (by simp) (by simp)
  · exact hfull

/-- The observed writes (R96). -/
theorem observe_keeps (x : Sighting) (w : Window) (r : LineRequest) (s : State) : AdmKeeps s (observe x w r s).2 := by
  simp only [observe]
  split
  case h_3 => exact txCompletion_keeps _ _ _ s
  case h_4 =>
    dsimp only
    exact unlist_keeps _ s
  case h_5 => exact overwrite_keeps _ _ _ s
  case h_6 => exact rxCompletion_keeps _ s
  case h_9 | h_10 | h_11 => exact examineRecord_keeps _ _ _ s
  all_goals exact .of_same (by simp) (by simp)

theorem accept_keeps (id : Nat) (p : Port) (r : LineRequest) (win : Option (Nat × Window)) (stamp : Option TakenStamp)
    (s : State) : AdmKeeps s (accept id p r win stamp s) := .of_same (by simp) (by simp)

theorem classifyRequest_keeps (id : Nat) (p : Port) (r : LineRequest) (s : State) :
    AdmKeeps s (classifyRequest id p r s) := by
  simp only [classifyRequest]
  split
  case h_1 | h_2 | h_3 => exact .of_same (by simp) (by simp)
  all_goals
    split
    · exact .of_same (by simp) (by simp)
    · exact (observe_keeps _ _ r s).trans (accept_keeps ..)

theorem classifyWhen_keeps (sort : Sighting → Bool) (p : Port) (s : State) : AdmKeeps s (classifyWhen sort p s) := by
  unfold classifyWhen
  split
  · exact .of_ite fun _ => classifyRequest_keeps _ _ _ s
  · exact .refl s

/-- The admission unit as the reset line and POWER_ON leave it. -/
theorem initialAdmission_keeps (hc : t.adm.classes = Initial.adm.classes) (hf : t.adm.flight = []) : AdmKeeps s t := by
  have hcls : ∀ c, clsAt t c = classGet Initial.adm.classes c := fun c => by rw [clsAt, hc]
  refine ⟨fun _ => ?_, by simp [hf], by simp [hf]⟩
  rw [admissionLaw, hf]
  simp only [hcls]
  refine ⟨fun c => ?_, fun c _ => ?_, by decide, by decide, by simp, by simp, by simp⟩ <;>
    rw [show classGet Initial.adm.classes c = Initial.cls by cases c <;> rfl]
  · simp [classLaw, Initial.cls]
  · rfl

theorem resetLineAssert_keeps (h : execResetLineAssert s = .next t) : AdmKeeps s t := by
  simp only [execResetLineAssert, Host.Outcome.next.injEq] at h
  subst h
  repeat' split
  · exact .refl s
  · exact initialAdmission_keeps rfl rfl
  · exact .of_same rfl rfl
  · exact initialAdmission_keeps rfl rfl

theorem startTimers_keeps (s : State) : AdmKeeps s (startTimers s) := by
  have hcls : ∀ c, clsAt (startTimers s) c = clsAt s c := fun c => clsAt_of_classes rfl
  exact .of_classes (fun c => by rw [hcls]; exact id) (fun c => by rw [hcls]; exact ⟨rfl, rfl⟩)
    (fun e _ c => by rw [hcls]; exact id) (List.Sublist.refl _) rfl

theorem resetLineDeassert_keeps (s : State) : AdmKeeps s (copyPump (takeLevels (startTimers s))) := by
  refine (startTimers_keeps s).trans ?_
  generalize startTimers s = v
  exact .of_same (by simp [takeLevels]) (by simp [takeLevels])

theorem onePeriod_keeps (s : State) : AdmKeeps s (onePeriod s) := by
  refine .of_same ?_ ?_ <;> simp only [onePeriod] <;> split <;> simp [rolledOver]

/-- What a row but the judgement of a descriptor read does. -/
theorem exec_keeps {i : Instr} (hi : ∀ f, i ≠ .descriptorReadJudged f) (h : exec i s = .next t) : AdmKeeps s t := by
  cases i <;> cases h
  case powerOn => exact initialAdmission_keeps rfl rfl
  case resetLineAssert => exact resetLineAssert_keeps rfl
  case resetLineDeassert => exact .of_ite fun _ => resetLineDeassert_keeps s
  case oscillatorPeriod => exact onePeriod_keeps s
  case rollover => exact .of_ite fun _ => onePeriod_keeps s
  case portReadComplete => exact portReadDone_stays.keeps
  case portWriteComplete => exact portWriteDone_stays.keeps
  case descriptorReadJudged f => exact absurd rfl (hi f)
  case rmwReadComplete => exact rmwReadDone_stays.keeps
  case rmwWriteComplete => exact rmwWriteDone_stays.keeps
  case internalPartialReadComplete => exact writeBackReadDone_stays.keeps
  case internalWriteComplete => exact internalWriteDone_stays.keeps
  case queryFrameWriteComplete => exact queryFrameDone_stays.keeps
  case testFrameWriteComplete => exact testLineDone_stays.keeps
  case reportEntryWriteComplete => exact reportWriteDone_stays.keeps
  case snapshotLineWriteComplete => exact snapshotWriteDone_stays.keeps
  case scrubReadComplete => exact scrubReadDone_stays.keeps
  case scrubWritebackComplete => exact scrubWriteDone_stays.keeps
  case copyReadComplete => exact copyReadDone_stays.keeps
  case copyWriteComplete => exact copyWriteDone_stays.keeps
  case marchReadComplete => exact marchReadDone_stays.keeps
  case marchWriteComplete => exact marchWriteDone_stays.keeps
  case refillTimerExpiry => exact .of_ite fun _ => refillExpiry_keeps s
  case ageTimerExpiry c => exact .of_ite fun _ => ageExpiry_keeps c s
  case flightTimeout =>
    split
    · exact .of_ite fun _ => flightExpiry_keeps _ s
    · exact .refl s
  case exchangeTimeout | lossTimeout =>
    split
    · exact .of_ite fun _ => .of_same (by simp) (by simp)
    · exact .refl s
  case lineRequestTaken | arbiterGrant | lockStationArrival | responseReturned | reportTimerExpiry =>
    exact .of_same (by simp) (by simp)
  case statusTimerExpiry | restoreHoldExpiry | upshiftHoldExpiry | pulseEnd | todMessageEnd | queryTimerExpiry |
      blockTimerExpiry | synthLockExpiry | scrubTimerExpiry | sendTimerExpiry | retryTimerExpiry =>
    exact .of_ite fun _ => .of_same (by simp) (by simp)
  all_goals exact classifyWhen_keeps _ _ s

/-- What a step does: the laws stand, and a line that is new in flight has been judged. -/
def AdmissionStep (s t : State) : Prop :=
  admissionLaw t ∧ (∀ e ∈ t.adm.flight, inFlight s e.line = true → InDescriptorWindow s e.line → InDescriptorWindow t e.line) ∧
    ∀ e ∈ t.adm.flight, inFlight s e.line = false → ∃ a i w, Completes s a ∧ a.kind = .descriptorRead ∧
      a.line = e.line ∧ windowOfAccess s a = some (i, w) ∧ e.cls = windowClass w ∧
      (pathLaw s → w.kind = .txRing ∨ w.kind = .partTx)

theorem inFlight_of_mem {e : FlightEntry} (h : e ∈ s.adm.flight) : inFlight s e.line = true :=
  List.any_eq_true.mpr ⟨e, h, by simp⟩

theorem AdmKeeps.step (h : AdmKeeps s t) (hlaw : admissionLaw s) : AdmissionStep s t :=
  ⟨h.law hlaw, fun _ he _ => h.windows _ he,
    fun _ he hn => absurd (inFlight_of_mem (h.flight he)) (Bool.eq_false_iff.mp hn)⟩

/-- The judgement of a descriptor read. -/
theorem EntersAtMost.step {a : Access} {i : Nat} {w : Window} (h : EntersAtMost a.line (windowClass w) s t)
    (hlaw : admissionLaw s) (hc : Completes s a) (hk : a.kind = .descriptorRead) (hw : windowOfAccess s a = some (i, w)) :
    AdmissionStep s t := by
  refine ⟨h.law hlaw, fun _ _ _ => (inDescriptorWindow_congr h.windows).mpr, fun e he hn => ?_⟩
  rcases h.flight e he with hs | ⟨hline, hcls⟩
  · exact absurd (inFlight_of_mem hs) (Bool.eq_false_iff.mp hn)
  · exact ⟨a, i, w, hc, hk, hline.symm, hw, hcls, fun hp => descriptorRead_window hp hc hk hw⟩

theorem exec_admissionStep {i : Instr} (h : exec i s = .next t) (hlaw : admissionLaw s) : AdmissionStep s t := by
  by_cases hi : ∃ f, i = .descriptorReadJudged f
  · obtain ⟨f, rfl⟩ := hi
    have ht : t = descriptorDone f s := (Host.Outcome.next.inj h).symm
    rcases descriptorDone_enters ht with hs | ⟨a, i, w, hc, hk, hw, he⟩
    · exact hs.keeps.step hlaw
    · exact he.step hlaw hc hk hw
  · exact (exec_keeps (fun f hf => hi ⟨f, hf⟩) h).step hlaw

/-- Settles O5: every row keeps the laws, and only the judgement of a read brings a line into the table. -/
theorem admissionLawKept : Obligations.AdmissionLawKept := by
  unfold Obligations.AdmissionLawKept
  intro s t hlaw h
  unfold step at h
  split at h
  · cases h
    exact (AdmKeeps.refl s).step hlaw
  · rename_i i rest _
    exact exec_admissionStep (s := s.setPending rest) h hlaw

end RowsKeep
end Sys2Proof.Machine

namespace Sys2Proof.Machine

/-! ### What keeps the ranges of the clock (R44, R46, R77, R79, R80, R82) -/

section ClockKeeps

variable {s t u : State}

/-- From `s` to `t` the ranges of the clock are kept. -/
def ClockKeeps (s t : State) : Prop := clockLaw s → clockLaw t

theorem ClockKeeps.refl (s : State) : ClockKeeps s s := id

theorem ClockKeeps.trans (h : ClockKeeps s t) (h2 : ClockKeeps t u) : ClockKeeps s u := h2 ∘ h

/-- An operation outside the time unit and the time transfer engine. -/
theorem ClockKeeps.of_same (ht : t.time = s.time) (hx : t.xfer = s.xfer) : ClockKeeps s t := clockLaw_of_same ht hx

/-- An event of other blocks alone. -/
theorem ClockKeeps.of_changes {l : List Block} (h : OnlyChanges l s t) (ht : .time ∉ l) (hx : .xfer ∉ l) :
    ClockKeeps s t := .of_same (h .time ht) (h .xfer hx)

theorem ClockKeeps.of_ite {p : Prop} [Decidable p] (h : p → ClockKeeps s t) : ClockKeeps s (if p then t else s) := by
  split
  · exact h ‹_›
  · exact .refl s

/-- Consequences taken in any order (R175). -/
theorem unordered_clockKeeps {acts : List (State → State)} (h : ∀ f ∈ acts, ∀ t, ClockKeeps t (f t)) :
    ClockKeeps s (unordered acts s) := fun hs =>
  List.foldlRecOn (motive := clockLaw) _ _ (show clockLaw (s.setFreeUses _) from hs) fun t ht f hf =>
    h f (mem_permute.mp hf) t ht

/-! The slots of the part's transmit ring and the exchanges. -/

theorem queryLost_clockKeeps (o q : BitVec 16) (s : State) : ClockKeeps s (queryLost o q s) := by
  intro h
  rw [queryLost]
  split <;> exact h

theorem queryRejected_clockKeeps (o q : BitVec 16) (s : State) : ClockKeeps s (queryRejected o q s) := by
  intro h
  rw [queryRejected]
  split <;> exact h

theorem slotLost_clockKeeps (line : Nat) (s : State) : ClockKeeps s (slotLost line s) := by
  intro h
  rw [slotLost]
  repeat' split
  · exact queryLost_clockKeeps _ _ _ (freeSlot_clock h)
  · exact loopDescriptorEvent_clock (freeSlot_clock h)
  all_goals exact h

theorem slotRejected_clockKeeps (line sequence : Nat) (s : State) : ClockKeeps s (slotRejected line sequence s) := by
  intro h
  simp only [slotRejected]
  repeat' split
  · exact queryRejected_clockKeeps _ _ _ (freeSlot_clock h)
  · exact h
  · exact loopDescriptorEvent_clock (freeSlot_clock h)
  all_goals exact h

theorem slotRemoved_clockKeeps (line : Nat) (s : State) : ClockKeeps s (slotRemoved line s) := by
  intro h
  rw [slotRemoved]
  split <;> exact h

theorem resetSlots_clockKeeps (s : State) : ClockKeeps s (resetSlots s) := id

theorem trySend_clockKeeps (s : State) : ClockKeeps s (trySend s) := by
  have hframe : ∀ w j, ClockKeeps s (generateFrame w j s) := fun w j h => by
    have hs : clockLaw (postSlot j (.test (BitVec.ofNat 16 s.loop.nextSeq)) s) := h
    exact clockLaw_of_same (by simp [generateFrame]) (by simp [generateFrame]) hs
  simp only [trySend]
  repeat' split
  · exact .of_same rfl rfl
  · exact hframe _ _
  all_goals exact .of_same rfl rfl

theorem sendExpiry_clockKeeps (s : State) : ClockKeeps s (sendExpiry s) := fun h => trySend_clockKeeps _ h

/-! The link monitor's events, which the time transfer engine learns of (R11, R83). -/

theorem linkShown_clockKeeps (event : LinkMonitor → LinkWork) (again : Bool) (s : State) :
    ClockKeeps s (linkShown event again s) := by
  obtain ⟨hx, -, -⟩ := linkShown_frame (event := event) (again := again) (s := s)
  have ht : (linkShown event again s).time = (linkBegun event again s).time := by simp [linkShown]
  rw [linkBegun_time] at ht
  refine clockLaw_congr ?_ ?_ ?_ ?_ ?_ ?_ ?_ <;> simp only [ht, hx]

theorem linkTaken_clockKeeps (event : LinkMonitor → LinkWork) (again : Bool) (s : State) :
    ClockKeeps s (linkTaken event again s) := by
  rw [linkTaken_eq]
  have hshown := linkShown_clockKeeps event again s
  split
  · refine hshown.trans (unordered_clockKeeps fun f hf t => ?_)
    rcases linkNews_cases hf with rfl | rfl | rfl | rfl
    · exact loseTiming_clock
    all_goals exact .of_same (by simp) (by simp)
  · exact hshown

/-! The admission unit, which hands descriptor lines to the engine's slots (R30, R33, R38). -/

theorem countStamp_clockKeeps (t : TakenStamp) (s : State) : ClockKeeps s (countStamp t s) := countStamp_clock

theorem completed_clockKeeps (s : State) (line : Nat) (e : FlightEntry) (sent : Bool) :
    ClockKeeps s (completed s line e sent) := by
  obtain ⟨-, -, -, h⟩ := completed_spec s line e sent
  exact .of_changes h (by simp) (by simp)

theorem txCompletion_clockKeeps (w : Window) (line : Nat) (d : Line) (s : State) :
    ClockKeeps s (txCompletion w line d s).2 := by
  cases hf : flightOf s line with
  | none =>
    simp only [txCompletion, hf]
    exact .of_same (by simp) (by simp)
  | some e =>
    rw [txCompletion_matched d hf]
    have h := completed_clockKeeps s line e (descStatus d == 1)
    generalize completed s line e (descStatus d == 1) = u at *
    split
    · exact (h.trans (countStamp_clockKeeps _ u)).trans slotCompleted_clock
    · exact h.trans (slotRemoved_clockKeeps line u)

theorem rxCompletion_clockKeeps (d : Line) (s : State) : ClockKeeps s (rxCompletion d s).2 := by
  have hcounted : ClockKeeps s (countRx d s) := .of_same (by simp) (by simp)
  simp only [rxCompletion]
  repeat' split
  · exact (hcounted.trans (countStamp_clockKeeps _ _)).trans routeTiming_clock
  · have hstamped := hcounted.trans (countStamp_clockKeeps (takeStamp (countRx d s) false d) _)
    exact hstamped.trans (.of_same (by simp) (by simp))
  · exact hcounted

theorem overwrite_clockKeeps (line : Nat) (mask : BitVec 64) (d : Line) (s : State) :
    ClockKeeps s (overwrite line mask d s) := by
  have hunlist : ∀ u, ClockKeeps s u → ClockKeeps s (if clearsReady mask d then unlist line u else u) := fun u hu =>
    hu.trans (.of_ite fun _ => .of_same (by simp) (by simp))
  rw [overwrite]
  refine hunlist _ ?_
  split
  · exact fun h => slotLost_clockKeeps _ _ (ClockKeeps.of_same (by simp) (by simp) h)
  · exact .refl s

theorem flightExpiry_clockKeeps (e : FlightEntry) (s : State) : ClockKeeps s (flightExpiry e s) := fun h =>
  slotLost_clockKeeps _ _ (ClockKeeps.of_same (by simp) (by simp) h)

theorem reject_clockKeeps (i : Nat) (w : Window) (line : Nat) (d : Line) (reason : Nat) (s : State) :
    ClockKeeps s (reject i w line d reason s) := by
  have hby : ClockKeeps s (rejectedBy i w line d reason s) :=
    .of_same (by simp [rejectedBy, rejectFrom]) (by simp [rejectedBy, rejectFrom])
  rw [reject_eq]
  split
  · exact hby.trans (slotRejected_clockKeeps _ _ _)
  · exact hby

theorem judge_clockKeeps (i : Nat) (w : Window) (line : Nat) (d : Line) (s : State) :
    ClockKeeps s (judge i w line d s).2 := by
  simp only [judge]
  repeat' split
  case h_1 => exact reject_clockKeeps _ _ _ _ _ s
  all_goals exact .of_same (by simp) (by simp)

/-! The records (R13 to R15, R49, R58, R86, R99, R163). -/

theorem field_lt (l : Line) (n : Nat) : ∀ off, field l off n < 256 ^ n := by
  induction n with
  | zero => simp [field]
  | succ n ih =>
    intro off
    have := ih (off + 1)
    have := (getByte l off).isLt
    rw [field, pow_succ]
    omega

theorem abortLoop_clockKeeps (cause : LoopCause) (s : State) : ClockKeeps s (abortLoop cause s) :=
  .of_same (by simp) (by simp)

theorem applyWindow_clockKeeps (d : Line) (s : State) : ClockKeeps s (applyWindow d s) := by
  have hwindows : ∀ f, ClockKeeps s (s.updWindows f) := fun _ => .of_same rfl rfl
  simp only [applyWindow]
  repeat' split
  · exact .refl s
  · exact ((hwindows _).trans (resetSlots_clockKeeps _)).trans (abortLoop_clockKeeps _ _)
  all_goals exact hwindows _

theorem applyTimeset_clockKeeps {d : Line} (h : timesetCheck s d = .applied) : ClockKeeps s (applyTimeset d s) := by
  have hns : ¬ 999999999 < field d 16 4 := fun hc => by simp [timesetCheck, hc] at h
  have hsec := field_lt d 6 8
  exact setCounter_clock (by omega) (by omega)

theorem xferCount_clockKeeps (f : TransferCounters → TransferCounters) (s : State) : ClockKeeps s (xferCount f s) := id

theorem whenBit_clockKeeps {g n : Nat} {f : State → State} (h : ∀ u, ClockKeeps u (f u)) (s : State) :
    ClockKeeps s (whenBit g n f s) := .of_ite fun _ => h s

/-- Of the parts of a CLEAR record, the TIMING group's clears the engine's counters (R88, R163). -/
theorem applyClear_clockKeeps (d : Line) (s : State) : ClockKeeps s (applyClear d s) := by
  have hecc : ∀ u, ClockKeeps u (clearEcc u) := fun _ => .of_same (by simp) (by simp)
  have hports : ∀ u, ClockKeeps u (clearPorts u) := fun _ => .of_same (by simp) (by simp)
  have hadm : ∀ u, ClockKeeps u (clearAdmission u) := fun _ => .of_same (by simp) (by simp)
  have htests : ∀ u, ClockKeeps u (clearLoop (clearMarch u)) := fun _ => .of_same (by simp) (by simp)
  have hconds : ∀ f u, ClockKeeps u (changeConditions 5 f u) := fun _ _ => .of_same (by simp) (by simp)
  rw [applyClear]
  exact (whenBit_clockKeeps hecc s).trans <| (whenBit_clockKeeps hports _).trans <| (whenBit_clockKeeps hadm _).trans <|
    (whenBit_clockKeeps (xferCount_clockKeeps _) _).trans <| (whenBit_clockKeeps htests _).trans (hconds _ _)

theorem ClockKeeps.checked {o : RecordOutcome} {f : State → State} (h : o = .applied → ClockKeeps s (f s)) :
    ClockKeeps s (checked o f s).2 := by
  unfold Machine.checked
  split
  · exact h ‹_›
  · exact .refl s

/-- Of the records, WINDOW, PROFILE, LINK, TIMING, TIMESET, SYNTH and CLEAR change the time unit or the engine. -/
theorem examineKind_clockKeeps (kind : Nat) (d : Line) (s : State) : ClockKeeps s (examineKind kind d s).2 := by
  unfold examineKind
  split
  case h_1 => exact .checked fun _ => applyWindow_clockKeeps d s
  case h_2 => exact .checked fun _ => linkTaken_clockKeeps _ _ s
  case h_5 => exact .checked fun _ => linkTaken_clockKeeps _ _ s
  case h_6 => exact .checked fun _ => id
  case h_7 => exact .checked applyTimeset_clockKeeps
  case h_8 => exact .checked fun _ => id
  case h_15 => exact .checked fun _ => applyClear_clockKeeps d s
  case h_11 | h_12 | h_13 | h_16 | h_18 => exact .of_same (by simp) (by simp)
  all_goals exact .checked fun _ => .of_same (by simp) (by simp)

theorem examineRecord_clockKeeps (line : Nat) (mask : BitVec 64) (d : Line) (s : State) :
    ClockKeeps s (examineRecord line mask d s) := by
  have hkind := examineKind_clockKeeps (field d 1 1) d s
  have hfull : ClockKeeps s (examineFull line d s) := by
    rw [examineFull]
    generalize examineKind (field d 1 1) d s = x at *
    refine hkind.trans ?_
    repeat' split
    all_goals exact .of_same (by simp [passResult]) (by simp [passResult])
  simp only [examineRecord]
  repeat' split
  · exact .of_same (by simp) (by simp)
  · exact .of_same (by simp) (by simp)
  · exact hfull

/-! The classification of a port's requests (R96). -/

theorem observe_clockKeeps (x : Sighting) (w : Window) (r : LineRequest) (s : State) :
    ClockKeeps s (observe x w r s).2 := by
  simp only [observe]
  split
  case h_1 => exact linkTaken_clockKeeps _ _ s
  case h_3 => exact txCompletion_clockKeeps _ _ _ s
  case h_5 => exact overwrite_clockKeeps _ _ _ s
  case h_6 => exact rxCompletion_clockKeeps _ s
  case h_7 => exact frameWrite_clock
  case h_9 | h_10 | h_11 => exact examineRecord_clockKeeps _ _ _ s
  all_goals exact .of_same (by simp) (by simp)

theorem accept_clockKeeps (id : Nat) (p : Port) (r : LineRequest) (win : Option (Nat × Window))
    (stamp : Option TakenStamp) (s : State) : ClockKeeps s (accept id p r win stamp s) := .of_same (by simp) (by simp)

theorem classifyRequest_clockKeeps (id : Nat) (p : Port) (r : LineRequest) (s : State) :
    ClockKeeps s (classifyRequest id p r s) := by
  simp only [classifyRequest]
  split
  case h_1 | h_2 | h_3 => exact .of_same (by simp) (by simp)
  all_goals
    split
    · exact .of_same (by simp) (by simp)
    · exact (observe_clockKeeps _ _ r s).trans (accept_clockKeeps _ _ _ _ _ _)

theorem classifyWhen_clockKeeps (sort : Sighting → Bool) (p : Port) (s : State) :
    ClockKeeps s (classifyWhen sort p s) := by
  unfold classifyWhen
  split
  · exact .of_ite fun _ => classifyRequest_clockKeeps _ _ _ s
  · exact .refl s

/-! The resets and the oscillator (R45, R55, R171). -/

theorem underReset_clockKeeps (s : State) : ClockKeeps s (underReset s) := by
  intro h
  have hfreq : -800000 ≤ (underReset s).time.freq ∧ (underReset s).time.freq ≤ 800000 := by
    simp only [underReset, resetTime]
    split
    · exact holdoverFreq_bounds (clockLaw_history h).2 (clockLaw_freq h)
    · exact clockLaw_freq h
  obtain ⟨hcounter, -, hservo, -⟩ := clockLaw_parts.mp h
  exact clockLaw_parts.mpr ⟨hcounter, hfreq, hservo, Nat.zero_le _⟩

theorem resetLineAssert_clockKeeps (h : execResetLineAssert s = .next t) : ClockKeeps s t := by
  simp only [execResetLineAssert, Host.Outcome.next.injEq] at h
  subst h
  repeat' split
  · exact .refl s
  · exact underReset_clockKeeps s
  · exact .refl s
  · exact underReset_clockKeeps s

theorem resetLineDeassert_clockKeeps (s : State) : ClockKeeps s (copyPump (takeLevels (startTimers s))) := by
  have hstart : ClockKeeps s (startTimers s) := id
  refine hstart.trans ?_
  generalize startTimers s = v
  exact .of_same (by simp [takeLevels]) (by simp [takeLevels])

theorem atPowerOn_clockLaw (straps : BitVec 2) : clockLaw (State.atPowerOn straps) := by
  simp [clockLaw, State.atPowerOn, Initial.time, Initial.xfer]

theorem rolledOver_clockKeeps (s : State) : ClockKeeps s (rolledOver s) := by
  intro h
  have hcounted : clockLaw (timingPulse (startPulse s)) := timingPulse_clock (startPulse_clock h)
  have hsnapshot : clockLaw (snapshotRequest (timingPulse (startPulse s))) :=
    clockLaw_of_same (by simp) (by simp) hcounted
  exact sendTod_clock hsnapshot

theorem onePeriod_clockKeeps (s : State) : ClockKeeps s (onePeriod s) := by
  intro h
  have hadd := addPeriod_law (setNow_clock (n := if s.inReset then s.now else s.now + 1)
    (setOscillator_clock (n := s.oscillator + 1) h))
  simp only [onePeriod]
  split
  · exact rolledOver_clockKeeps _ hadd
  · exact hadd

/-! The rows at the memory port (R98, R104). -/

/-- The blocks that the rows at the memory port reach, but for the judgement of a descriptor read. -/
def completionBlocks : List Block := [.path, .integ, .march, .dram, .flips, .rep, .fault, .freeUses]

/-- From `s` to `t` only those blocks have changed. -/
def Completed (s t : State) : Prop := eraseBlocks completionBlocks t = eraseBlocks completionBlocks s

theorem Completed.trans (h : Completed s t) (h2 : Completed t u) : Completed s u := Eq.trans h2 h

theorem Completed.clockKeeps (h : Completed s t) : ClockKeeps s t :=
  .of_changes (onlyChanges_iff.mpr h) (by decide) (by decide)

section Completions

variable {f : LineFlips} {a : Access} {d : Line}

theorem ownWrite_completed {next : State → State} (h : ∀ t, Completed t (next t)) :
    Completed s (ownWrite a d next s) := by
  have hwritten : Completed s (unmark a.line (commit a d (popHead s))) := by simp [Completed, completionBlocks]
  have hfinished : ∀ t, Completed t (finishInternal a.id t) := fun _ => by simp [Completed, completionBlocks]
  simp only [ownWrite]
  split
  · exact hwritten.trans ((hfinished _).trans (h _))
  · exact hwritten

theorem makeDescriptor_completed {slot kind length sequence buffer : Nat} :
    Completed s (makeDescriptor slot kind length sequence buffer s) := by
  simp only [makeDescriptor]
  split <;> simp [Completed, completionBlocks]

theorem internalWriteDone_completed : Completed s (internalWriteDone s) := by
  simp only [internalWriteDone]
  repeat' split
  · exact ownWrite_completed fun _ => rfl
  · exact ownWrite_completed fun _ => rfl
  all_goals simp [Completed, completionBlocks]

theorem queryFrameDone_completed : Completed s (queryFrameDone s) := by
  simp only [queryFrameDone]
  repeat' split
  · exact ownWrite_completed fun _ => makeDescriptor_completed
  · exact ownWrite_completed fun _ => rfl
  · exact ownWrite_completed fun _ => rfl
  all_goals rfl

theorem testLineDone_completed : Completed s (testLineDone s) := by
  simp only [testLineDone]
  repeat' split
  · refine ownWrite_completed fun t => ?_
    split
    · rfl
    · exact makeDescriptor_completed
  · exact ownWrite_completed fun _ => rfl
  · exact ownWrite_completed fun _ => rfl
  all_goals rfl

theorem reportWriteDone_completed : Completed s (reportWriteDone s) := by
  simp only [reportWriteDone]
  repeat' split
  · exact ownWrite_completed fun _ => by simp [Completed, completionBlocks]
  all_goals rfl

theorem snapshotWriteDone_completed : Completed s (snapshotWriteDone s) := by
  simp only [snapshotWriteDone]
  repeat' split
  · exact ownWrite_completed fun _ => by simp [Completed, completionBlocks]
  · exact ownWrite_completed fun _ => rfl
  all_goals rfl

/-- A row of the memory port but the judgement of a descriptor read. -/
def isCompletion : Instr → Bool
  | .portReadComplete _ | .portWriteComplete | .rmwReadComplete _ | .rmwWriteComplete | .internalPartialReadComplete _
  | .internalWriteComplete | .queryFrameWriteComplete | .testFrameWriteComplete | .reportEntryWriteComplete
  | .snapshotLineWriteComplete | .scrubReadComplete _ | .scrubWritebackComplete | .copyReadComplete _
  | .copyWriteComplete | .marchReadComplete _ | .marchWriteComplete => true
  | _ => false

theorem exec_completed {i : Instr} (hi : isCompletion i = true) (h : exec i s = .next t) : Completed s t := by
  cases i <;> cases h
  case internalWriteComplete => exact internalWriteDone_completed
  case queryFrameWriteComplete => exact queryFrameDone_completed
  case testFrameWriteComplete => exact testLineDone_completed
  case reportEntryWriteComplete => exact reportWriteDone_completed
  case snapshotLineWriteComplete => exact snapshotWriteDone_completed
  case portReadComplete | portWriteComplete | rmwReadComplete | rmwWriteComplete | internalPartialReadComplete |
      scrubReadComplete | scrubWritebackComplete | copyReadComplete | copyWriteComplete | marchReadComplete |
      marchWriteComplete =>
    simp only [portReadDone, completeRead, portWriteDone, rmwReadDone, rmwWriteDone, writeBackReadDone, scrubReadDone,
      scrubWriteDone, copyReadDone, copyWriteDone, marchReadDone, marchWriteDone]
    repeat' split
    all_goals simp [Completed, completionBlocks]
  all_goals exact absurd hi (by simp [isCompletion])

end Completions

/-- A read's completion keeps the ranges where its delivery does. -/
theorem completeRead_clockKeeps {p : Port} {a : Access} {o : EccObs} {deliver : Line → State → Line × State}
    (h : ∀ d u, ClockKeeps u (deliver d u).2) : ClockKeeps s (completeRead p a o deliver s) := by
  have hout : ClockKeeps s (takeOutcome (.port p) a.line a.memLine o s) := .of_same (by simp) (by simp)
  have hans : ∀ y u, ClockKeeps u (answer a.id y u) := fun _ _ => .of_same (by simp) (by simp)
  simp only [completeRead]
  repeat' split
  · exact .of_same (by simp) (by simp)
  · exact .of_same (by simp) (by simp)
  · exact hout.trans (hans _ _)
  · exact hout.trans ((h _ _).trans (hans _ _))

theorem descriptorDone_clockKeeps (f : LineFlips) (s : State) : ClockKeeps s (descriptorDone f s) := by
  have hpop : ∀ a, ClockKeeps s (popRead f a s) := fun _ => .of_same (by simp) (by simp)
  simp only [descriptorDone]
  split
  · split
    · refine (hpop _).trans (completeRead_clockKeeps fun d u => ?_)
      split
      · exact judge_clockKeeps _ _ _ d u
      · exact .refl u
    · exact .refl s
  · exact .refl s

/-! Every row. -/

/-- What a row that is no completion does. -/
theorem exec_otherRow_clockKeeps {i : Instr} (hi : isCompletion i = false) (h : exec i s = .next t) :
    ClockKeeps s t := by
  cases i <;> cases h
  case powerOn straps => exact fun _ => atPowerOn_clockLaw straps
  case resetLineAssert => exact resetLineAssert_clockKeeps rfl
  case resetLineDeassert => exact .of_ite fun _ => resetLineDeassert_clockKeeps s
  case oscillatorPeriod => exact onePeriod_clockKeeps s
  case rollover => exact .of_ite fun _ => onePeriod_clockKeeps s
  case pulseEnd => exact .of_ite fun _ => id
  case todMessageEnd => exact .of_ite fun _ => endTod_clock
  case descriptorReadJudged f => exact descriptorDone_clockKeeps f s
  case statusTimerExpiry | restoreHoldExpiry | upshiftHoldExpiry => exact .of_ite fun _ => linkTaken_clockKeeps _ _ s
  case flightTimeout =>
    split
    · exact .of_ite fun _ => flightExpiry_clockKeeps _ s
    · exact .refl s
  case exchangeTimeout =>
    split
    · exact .of_ite fun _ => id
    · exact .refl s
  case lossTimeout =>
    split
    · exact .of_ite fun _ => .of_same (by simp) (by simp)
    · exact .refl s
  case queryTimerExpiry => exact .of_ite fun _ => queryExpiry_clock
  case blockTimerExpiry => exact .of_ite fun _ => blockExpiry_clock
  case synthLockExpiry => exact .of_ite fun _ => id
  case sendTimerExpiry => exact .of_ite fun _ => sendExpiry_clockKeeps s
  case lineRequestTaken | arbiterGrant | lockStationArrival | responseReturned | reportTimerExpiry =>
    exact .of_same (by simp) (by simp)
  case refillTimerExpiry | ageTimerExpiry | scrubTimerExpiry | retryTimerExpiry =>
    exact .of_ite fun _ => .of_same (by simp) (by simp)
  case portReadComplete | portWriteComplete | rmwReadComplete | rmwWriteComplete | internalPartialReadComplete |
      internalWriteComplete | queryFrameWriteComplete | testFrameWriteComplete | reportEntryWriteComplete |
      snapshotLineWriteComplete | scrubReadComplete | scrubWritebackComplete | copyReadComplete | copyWriteComplete |
      marchReadComplete | marchWriteComplete => exact nomatch hi
  all_goals exact classifyWhen_clockKeeps _ _ s

theorem exec_clockKeeps {i : Instr} (h : exec i s = .next t) : ClockKeeps s t := by
  cases hi : isCompletion i with
  | true => exact (exec_completed hi h).clockKeeps
  | false => exact exec_otherRow_clockKeeps hi h

/-- Settles O4: every row keeps the ranges, and the idle step leaves them. -/
theorem clockRangesKept : Obligations.ClockRangesKept := by
  unfold Obligations.ClockRangesKept
  intro s t hs h
  unfold step at h
  split at h
  · cases h
    exact hs
  · rename_i rest _
    exact exec_clockKeeps (s := s.setPending rest) h hs

end ClockKeeps
end Sys2Proof.Machine

namespace Sys2Proof.Machine

/-! ### Stamping (R52, R53) -/

section Stamping

variable {s : State} {tx : Bool} {d : Line}

/-- A total of nanoseconds below 2⁴⁸ seconds is the time it is returned to. -/
theorem totalNs_ofTotalNs {n : Int} (h0 : 0 ≤ n) (h : n < 2 ^ 48 * 1000000000) : totalNs (ofTotalNs n) = n := by
  have hsec : (n / 1000000000).toNat < 281474976710656 := by omega
  simp only [totalNs, ofTotalNs, Nat.mod_eq_of_lt hsec]
  omega

/-- The counter's value in nanoseconds lies below 2⁴⁸ seconds (R44). -/
theorem totalNs_timeNow_lt (h : clockLaw s) : totalNs (timeNow s) < 2 ^ 48 * 1000000000 := by
  obtain ⟨⟨hns, hsec, -⟩, -⟩ := clockLaw_parts.mp h
  simp only [totalNs, timeNow]
  omega

/-- The latency that a stamping takes off: that of the completion's direction (R52). -/
def stampLatency (tx : Bool) (e : ProfileEntry) : Nat := if tx then e.txLatency else e.rxLatency

/-- The arrival less the residence and the latency, in nanoseconds (R52). -/
def stampTotal (s : State) (tx : Bool) (d : Line) : Int :=
  totalNs (timeNow s) - descResidence d - stampLatency tx (profileAt s.link (descAirProfile d))

theorem takeStamp_refused (h : 11 < descAirProfile d ∨ (profileAt s.link (descAirProfile d)).valid = false ∨
    1000000 < descResidence d) : takeStamp s tx d = ⟨timeNow s, false, s.time.epoch⟩ := by
  simp only [takeStamp, stampValue]
  by_cases hp : 11 < descAirProfile d ∨ (profileAt s.link (descAirProfile d)).valid = false
  · rw [if_pos hp]
  · rw [if_neg hp, if_pos (by tauto)]

/-- A stamping whose profile and residence pass the tests of R53. -/
theorem takeStamp_passed (hi : descAirProfile d ≤ 11) (hv : (profileAt s.link (descAirProfile d)).valid = true)
    (hr : descResidence d ≤ 1000000) : takeStamp s tx d = if stampTotal s tx d < 0
      then ⟨⟨0, 0⟩, false, s.time.epoch⟩ else ⟨ofTotalNs (stampTotal s tx d), true, s.time.epoch⟩ := by
  have htotal : totalNs (timeNow s) - (descResidence d : Int) - ((if tx
      then (profileAt s.link (descAirProfile d)).txLatency
      else (profileAt s.link (descAirProfile d)).rxLatency : Nat) : Int) = stampTotal s tx d := rfl
  simp only [takeStamp, stampValue]
  rw [if_neg (by simp [hv]; omega), if_neg (by omega), htotal]
  split <;> rfl

/-- Settles O33, by the tests of R53 in order. -/
theorem stampIsArrivalLessDelays : Obligations.StampIsArrivalLessDelays := by
  unfold Obligations.StampIsArrivalLessDelays
  intro s tx d e n he hn
  obtain rfl : n = stampTotal s tx d := by rw [hn, he]; rfl
  have hle : stampTotal s tx d ≤ totalNs (timeNow s) := by rw [stampTotal]; omega
  subst he
  refine ⟨rfl, fun hi hv hr => ?_, fun h => by simp [takeStamp_refused h]⟩
  rw [takeStamp_passed hi hv hr]
  refine ⟨fun h0 => ?_, fun h0 => ?_⟩
  · rw [if_neg (by omega)]
    exact ⟨rfl, fun hl => totalNs_ofTotalNs h0 (hle.trans_lt (totalNs_timeNow_lt hl))⟩
  · rw [if_pos h0]
    exact ⟨rfl, rfl⟩

end Stamping
end Sys2Proof.Machine

namespace Sys2Proof.Machine

/-! ### What reports and snapshot lines leave of the report unit and of the line path (R156, R161) -/

section ReportUnit

variable {s t u : State} {n : Nat}

/-- The report unit without what a request for a report changes: the sequence, the entries made, the drops. -/
def withoutReports (r : Reports) : Reports :=
  { r with sequence := 0, dropped := 0, ring := r.ring.map fun g => { g with made := 0 } }

theorem reportAt_withoutReports (time : Stamp) (code : Nat) (body : List FieldSpec) (s : State) :
    withoutReports (reportAt time code body s).rep = withoutReports s.rep := by
  cases hg : s.rep.ring with
  | none => rw [reportAt_drops fun g h => by simp [hg] at h]; rfl
  | some g =>
    by_cases hroom : g.releasing = false ∧ unread g < g.size - 1
    · rw [reportAt_takes hg hroom.1 hroom.2]
      simp [withoutReports, hg]
    · rw [reportAt_drops fun x hx => ?_]
      · rfl
      · obtain rfl := Option.some.inj (hg.symm.trans hx)
        rcases not_and_or.mp hroom with h | h
        · exact .inl (by simpa using h)
        · exact .inr (by omega)

theorem Reporting.withoutReports (h : Reporting s t n) : withoutReports t.rep = withoutReports s.rep := by
  induction h with
  | start => rfl
  | silent _ hr _ _ _ ih => rw [hr, ih]
  | report time code body _ ih => rw [reportAt_withoutReports, ih]

/-- Reports leave the snapshot unit, and of the ring its state and its size. -/
theorem snapshot_of_withoutReports (h : withoutReports t.rep = withoutReports s.rep) :
    t.rep.snapshotWriting = s.rep.snapshotWriting ∧ t.rep.snapshotRemembered = s.rep.snapshotRemembered ∧
    t.rep.snapshotSequence = s.rep.snapshotSequence ∧ t.rep.snapshotMerged = s.rep.snapshotMerged ∧
    t.rep.snapshotDropped = s.rep.snapshotDropped ∧
    t.rep.ring.map (fun g => (g.releasing, g.size)) = s.rep.ring.map fun g => (g.releasing, g.size) := by
  simp only [Machine.withoutReports, Reports.mk.injEq] at h
  obtain ⟨hring, -, hw, hr, hq, -, -, hm, hd⟩ := h
  have hring := congrArg (Option.map fun g : Ring => (g.releasing, g.size)) hring
  simp only [Option.map_map] at hring
  exact ⟨hw, hr, hq, hm, hd, hring⟩

/-- The lines of a snapshot are made behind the requests that stand, and nothing else of the path changes. -/
theorem makeSnapshotLines_path (w : Window) (size : Nat) (c : State) (f : List (Nat × FieldSpec)) (is : List Nat)
    (s : State) : ∃ l : List Req, (makeSnapshotLines w size c f is s).path =
      { s.path with reqs := s.path.reqs ++ l, nextId := s.path.nextId + is.length } ∧
      (∀ i ∈ is, ∃ q ∈ l, q.line = windowLine w (size + i) ∧ q.stage = .forwarded ∧
        q.job = .snapshotLine i (snapshotLine c f i)) ∧
      ∀ q ∈ l, s.path.nextId ≤ q.id ∧ ∃ i d, q.job = .snapshotLine i d := by
  induction is generalizing s with
  | nil => exact ⟨[], by simp [makeSnapshotLines], by simp, by simp⟩
  | cons i is ih =>
    obtain ⟨l, hpath, hmade, hnew⟩ := ih (makeReq (windowLine w (size + i)) (.snapshotLine i (snapshotLine c f i)) s)
    refine ⟨⟨s.path.nextId, windowLine w (size + i), .forwarded, .snapshotLine i (snapshotLine c f i)⟩ :: l, ?_, ?_, ?_⟩
    · rw [makeSnapshotLines, hpath]
      simp [makeReq, addReq, Nat.add_comm, Nat.add_left_comm]
    · intro j hj
      rcases List.mem_cons.mp hj with rfl | hj
      · exact ⟨_, List.mem_cons_self .., rfl, rfl, rfl⟩
      · obtain ⟨q, hq, hrest⟩ := hmade j hj
        exact ⟨q, List.mem_cons_of_mem _ hq, hrest⟩
    · intro q hq
      rcases List.mem_cons.mp hq with rfl | hq
      · exact ⟨Nat.le_refl _, i, _, rfl⟩
      · obtain ⟨hid, hjob⟩ := hnew q hq
        exact ⟨Nat.le_of_succ_le hid, hjob⟩

/-- What a snapshot shows of the line path (R174): of the requests, those that the ports hold. -/
structure SamePorts (p q : Path) : Prop where
  reqs : portView p = portView q
  ports : p.ports = q.ports
  grants : p.grants = q.grants
  entries : p.loadHighEntries = q.loadHighEntries
  loadHigh : p.loadHigh = q.loadHigh
  weights : p.weights = q.weights

/-- The fields of a snapshot do not depend on the requests of the internal requester (R174). -/
theorem snapshotFields_congr (h : OnlyChanges [.path] s t) (hp : SamePorts t.path s.path) :
    snapshotFields t = snapshotFields s := by
  have hocc : ∀ p, occupancy t p = occupancy s p := fun p => by rw [occupancy_eq, occupancy_eq, hp.reqs]
  have hpath : groupPath t = groupPath s := by
    simp only [groupPath, portLoad, hocc, hp.ports, hp.grants, hp.entries, hp.loadHigh, hp.weights]
  obtain ⟨p, rfl⟩ : ∃ p, t = { s with path := p } :=
    ⟨t.path, eq_of_sameBlock fun b => by
      have hb := h b
      cases b <;> simp_all [sameBlock]⟩
  rw [snapshotFields, hpath]
  rfl

/-! A request for a snapshot, case by case (R161). -/

theorem snapshotRequest_dropped (h : ∀ g, s.rep.ring = some g → g.releasing = true) :
    snapshotRequest s = dropSnapshot s := by
  simp only [snapshotRequest]
  split
  · rfl
  · rw [if_pos (h _ ‹_›)]

variable {g : Ring}

theorem snapshotRequest_starts (hg : s.rep.ring = some g) (hr : g.releasing = false)
    (hw : s.rep.snapshotWriting = false) : snapshotRequest s = startSnapshot g s := by
  simp [snapshotRequest, hg, hr, hw]

theorem snapshotRequest_waits (hg : s.rep.ring = some g) (hr : g.releasing = false)
    (hw : s.rep.snapshotWriting = true) : snapshotRequest s = s.updRep fun u => { u with
      snapshotRemembered := true
      snapshotMerged := if u.snapshotRemembered then satInc u.snapshotMerged else u.snapshotMerged } := by
  cases hm : s.rep.snapshotRemembered <;> simp [snapshotRequest, hg, hr, hw, hm, State.updRep]

/-- The state that a snapshot shows: with its sequence, and before its state becomes WRITING (R161; log entry 23). -/
def captured (s : State) : State := s.updRep fun u => { u with snapshotSequence := u.snapshotSequence + 1 }

theorem startSnapshot_rep (g : Ring) (s : State) : (startSnapshot g s).rep =
    { s.rep with snapshotSequence := s.rep.snapshotSequence + 1, snapshotWriting := true } := by
  simp only [startSnapshot]
  split <;> simp

/-- A snapshot that starts, before its lines are made. -/
def snapshotBegun (s : State) : State := (captured s).updRep fun u => { u with snapshotWriting := true }

theorem startSnapshot_placed {w : Window} (hw : windowOfKind s .report = some w) : startSnapshot g s =
    makeSnapshotLines w g.size (captured s) (snapshotFields (captured s)) (List.range 64) (snapshotBegun s) := by
  have hw2 : windowOfKind (snapshotBegun s) .report = some w := hw
  unfold startSnapshot
  dsimp only
  split
  · rename_i v hv
    obtain rfl : v = w := Option.some.inj (hv.symm.trans hw2)
    rfl
  · rename_i hv
    exact absurd (hv.symm.trans hw2) (by simp)

theorem startSnapshot_unplaced (hw : windowOfKind s .report = none) : startSnapshot g s = snapshotBegun s := by
  have hw2 : windowOfKind (snapshotBegun s) .report = none := hw
  unfold startSnapshot
  dsimp only
  split
  · rename_i v hv
    exact absurd (hv.symm.trans hw2) (by simp)
  · rfl

/-- A snapshot that starts makes snapshot lines alone, behind the requests that stand. -/
theorem startSnapshot_path (g : Ring) (s : State) : ∃ (l : List Req) (n : Nat), (startSnapshot g s).path =
    { s.path with reqs := s.path.reqs ++ l, nextId := s.path.nextId + n } ∧
    ∀ q ∈ l, s.path.nextId ≤ q.id ∧ ∃ i d, q.job = .snapshotLine i d := by
  cases hw : windowOfKind s .report with
  | none => exact ⟨[], 0, by rw [startSnapshot_unplaced hw]; simp [snapshotBegun, captured], by simp⟩
  | some w =>
    obtain ⟨l, hpath, -, hnew⟩ := makeSnapshotLines_path w g.size (captured s) (snapshotFields (captured s))
      (List.range 64) (snapshotBegun s)
    exact ⟨l, _, by rw [startSnapshot_placed hw, hpath]; rfl, hnew⟩

/-- The lines of a snapshot that starts. -/
theorem startSnapshot_lines {w : Window} (hw : windowOfKind s .report = some w) : ∀ n < 64,
    ∃ q ∈ (startSnapshot g s).path.reqs, q.line = windowLine w (g.size + n) ∧ q.stage = .forwarded ∧
      q.job = .snapshotLine n (snapshotLine (captured s) (snapshotFields (captured s)) n) := by
  intro n hn
  obtain ⟨l, hpath, hmade, -⟩ := makeSnapshotLines_path w g.size (captured s) (snapshotFields (captured s))
    (List.range 64) (snapshotBegun s)
  obtain ⟨q, hq, hrest⟩ := hmade n (List.mem_range.mpr hn)
  rw [startSnapshot_placed hw, hpath]
  exact ⟨q, List.mem_append_right _ hq, hrest⟩

theorem startSnapshot_samePorts (g : Ring) (s : State) : SamePorts (startSnapshot g s).path s.path := by
  obtain ⟨l, n, hpath, -⟩ := startSnapshot_path g s
  refine ⟨by simp, ?_, ?_, ?_, ?_, ?_⟩ <;> rw [hpath]

/-- A request for a snapshot adds snapshot lines alone to the requests. -/
theorem snapshotRequest_turnover {N : Cls → Prop} (s : State) :
    Turnover N (fun j => ∃ i d, j = .snapshotLine i d) s (snapshotRequest s) := by
  simp only [snapshotRequest]
  repeat' split
  case h_2.isFalse.isTrue g _ _ _ =>
    obtain ⟨l, n, hpath, hnew⟩ := startSnapshot_path g s
    exact ⟨by rw [hpath]; exact Nat.le_add_right _ _, fun _ => true, l, by rw [hpath]; simp, by simp,
      fun q hq => (hnew q hq).imp id .inl⟩
  all_goals exact .of_path rfl

end ReportUnit
end Sys2Proof.Machine

namespace Sys2Proof.Machine

/-! ### The oscillator period and the rollover (R45, R47, R55, R56, R84) -/

section Rollover

variable {s t u : State}

/-- The counts after one more period, before a rollover has its effects (R45, R47). -/
def periodAdded (s : State) : State :=
  ((s.setOscillator (s.oscillator + 1)).setNow (if s.inReset then s.now else s.now + 1)).updTime addPeriod

theorem onePeriod_plain (h : willRollOver s.time = false) : onePeriod s = periodAdded s := by
  simp [onePeriod, periodAdded, h]

theorem onePeriod_carries (h : willRollOver s.time = true) : onePeriod s = rolledOver (periodAdded s) := by
  simp [onePeriod, periodAdded, h]

theorem exec_rollover (h : willRollOver s.time = true) : exec .rollover s = .next (rolledOver (periodAdded s)) := by
  rw [← onePeriod_carries h]
  show Host.Outcome.next _ = _
  rw [if_pos h]

/-! The engine's count of a pulse (R84). -/

theorem timingPulse_other (h : s.xfer.state ≠ .holdover) : timingPulse s = s := by
  cases hs : s.xfer.state <;> simp_all [timingPulse]

/-- The engine with a holdover age of one second more. -/
def aged (s : State) : State := s.updXfer fun x => { x with holdoverAge := x.holdoverAge + 1 }

theorem timingPulse_ages (h : s.xfer.state = .holdover)
    (hle : (s.xfer.holdoverAge + 1) * s.xfer.params.drift ≤ s.xfer.params.holdoverLimit) : timingPulse s = aged s := by
  simp [timingPulse, aged, h, hle]

theorem timingPulse_lapses (h : s.xfer.state = .holdover)
    (hlt : s.xfer.params.holdoverLimit < (s.xfer.holdoverAge + 1) * s.xfer.params.drift) :
    timingPulse s = moveTiming .freerun 7 lapse (aged s) := by
  simp [timingPulse, aged, enterFreerun, h, hlt]

theorem aged_reporting (s : State) : Reporting s (aged s) 0 := .updXfer _ s

theorem timingPulse_reporting (s : State) : ∃ n, Reporting s (timingPulse s) n := by
  by_cases h : s.xfer.state = .holdover
  · by_cases hle : (s.xfer.holdoverAge + 1) * s.xfer.params.drift ≤ s.xfer.params.holdoverLimit
    · exact ⟨0, timingPulse_ages h hle ▸ aged_reporting s⟩
    · obtain ⟨n, -, hr⟩ := moveTiming_takes .freerun 7 lapse (aged s)
      exact ⟨0 + n, timingPulse_lapses h (by omega) ▸ (aged_reporting s).trans hr⟩
  · exact ⟨0, by rw [timingPulse_other h]; exact .start⟩

/-! The time-of-day message (R56). -/

theorem sendTod_idle {m : TodMessage} (h : s.time.todSending = none) :
    (sendTod m s).time = { s.time with todSending := some ⟨m, s.oscillator⟩ } := by
  simp [sendTod, h]

theorem sendTod_busy {m : TodMessage} (h : s.time.todSending ≠ none) : (sendTod m s).time = { s.time with
    todWaiting := some m
    todReplaced := if s.time.todWaiting = none then s.time.todReplaced else satInc s.time.todReplaced } := by
  obtain ⟨b, hb⟩ := Option.ne_none_iff_exists'.mp h
  cases hw : s.time.todWaiting <;> simp [sendTod, hb, hw]

/-- The counter, F, the epoch and the pulse do not depend on the message. -/
theorem sendTod_rest (m : TodMessage) (s : State) : ∃ sending waiting replaced, (sendTod m s).time =
    { s.time with todSending := sending, todWaiting := waiting, todReplaced := replaced } := by
  by_cases h : s.time.todSending = none
  · exact ⟨_, _, _, sendTod_idle h⟩
  · exact ⟨_, _, _, sendTod_busy h⟩

/-- The state of a rollover once the engine has counted the pulse: what its message and its snapshot show (R176). -/
def pulseCounted (s : State) : State := timingPulse (startPulse (periodAdded s))

theorem rolledOver_eq (s : State) : rolledOver (periodAdded s) =
    sendTod (todMessage (pulseCounted s)) (snapshotRequest (pulseCounted s)) := by
  have hm : todMessage (snapshotRequest (pulseCounted s)) = todMessage (pulseCounted s) := by simp [todMessage]
  rw [rolledOver, ← pulseCounted, hm]

/-- The time unit of a rollover, before its message. -/
theorem pulseCounted_time (s : State) :
    (pulseCounted s).time = { addPeriod s.time with pulse := some (s.oscillator + 1 + 4000000) } := by
  simp [pulseCounted, startPulse, periodAdded]

theorem startPulse_xfer (s : State) : (startPulse (periodAdded s)).xfer = s.xfer := rfl

/-- A rollover changes none but these blocks. -/
theorem rolledOver_changes (s : State) :
    OnlyChanges [.oscillator, .now, .freeUses, .time, .xfer, .path, .rep, .fault] s (rolledOver (periodAdded s)) :=
  onlyChanges_iff.mpr (by simp [rolledOver, periodAdded])

/-- The message of a rollover, with the state after the engine's count (R56, R176). -/
theorem rolledOver_message (s : State) : todMessage (rolledOver (periodAdded s)) = todMessage (pulseCounted s) := by
  obtain ⟨a, b, c, ht⟩ := sendTod_rest (todMessage (pulseCounted s)) (snapshotRequest (pulseCounted s))
  rw [rolledOver_eq, todMessage, ht]
  simp [todMessage]

end Rollover
end Sys2Proof.Machine

namespace Sys2Proof.Machine

/-! ### The counter, the pulse and the message of a rollover (R45, R55, R56) -/

section RolloverTime

variable {s : State}

theorem willRollOver_iff {t : TimeUnit} : willRollOver t = true ↔ 1000000000 ≤ nextSubSecond t / 4294967296 :=
  decide_eq_true_iff

theorem not_willRollOver {t : TimeUnit} (h : nextSubSecond t / 4294967296 < 1000000000) : willRollOver t = false :=
  decide_eq_false (by omega)

theorem exec_oscillatorPeriod (s : State) : exec .oscillatorPeriod s = .next (onePeriod s) := rfl

/-- A period below one second (R45, R47). -/
theorem periodAdded_plain (h : nextSubSecond s.time / 4294967296 < 1000000000) : (periodAdded s).time = { s.time with
      nanoseconds := nextSubSecond s.time / 4294967296, fraction := nextSubSecond s.time % 4294967296 } :=
  addPeriod_plain (not_willRollOver h)

/-- The message of a rollover finds the line as the time unit of the state before it says. -/
theorem pulseCounted_tod (h : willRollOver s.time = true) :
    (snapshotRequest (pulseCounted s)).time.todSending = s.time.todSending ∧
    (snapshotRequest (pulseCounted s)).time.todWaiting = s.time.todWaiting ∧
    (snapshotRequest (pulseCounted s)).time.todReplaced = s.time.todReplaced := by
  simp [pulseCounted_time, addPeriod_roll h]

theorem pulseCounted_oscillator (s : State) : (snapshotRequest (pulseCounted s)).oscillator = s.oscillator + 1 := by
  simp [pulseCounted, startPulse, periodAdded]

/-- The time unit of a rollover, but for its message. -/
theorem rolledOver_time (h : willRollOver s.time = true) : ∃ sending waiting replaced,
    (rolledOver (periodAdded s)).time = { s.time with
      seconds := (s.time.seconds + 1) % 281474976710656
      nanoseconds := nextSubSecond s.time / 4294967296 - 1000000000
      fraction := nextSubSecond s.time % 4294967296
      pulse := some (s.oscillator + 1 + 4000000)
      todSending := sending, todWaiting := waiting, todReplaced := replaced } := by
  obtain ⟨sending, waiting, replaced, ht⟩ :=
    sendTod_rest (todMessage (pulseCounted s)) (snapshotRequest (pulseCounted s))
  refine ⟨sending, waiting, replaced, ?_⟩
  rw [rolledOver_eq, ht]
  simp [pulseCounted_time, addPeriod_roll h]

/-- On an idle line the message is sent, and otherwise it waits, in the place of one that waits (R56). -/
theorem rolledOver_tod (h : willRollOver s.time = true) {t : State} (ht : t = rolledOver (periodAdded s)) :
    (s.time.todSending = none → t.time.todSending = some ⟨todMessage t, s.oscillator + 1⟩ ∧
      t.time.todWaiting = s.time.todWaiting ∧ t.time.todReplaced = s.time.todReplaced) ∧
    (s.time.todSending ≠ none → t.time.todSending = s.time.todSending ∧ t.time.todWaiting = some (todMessage t) ∧
      t.time.todReplaced = if s.time.todWaiting = none then s.time.todReplaced else satInc s.time.todReplaced) := by
  obtain ⟨hs, hw, hr⟩ := pulseCounted_tod h
  have hm : todMessage t = todMessage (pulseCounted s) := by rw [ht, rolledOver_message]
  rw [hm, ht, rolledOver_eq]
  constructor <;> intro hl
  · rw [sendTod_idle (hs.trans hl), pulseCounted_oscillator]
    exact ⟨rfl, hw, hr⟩
  · rw [sendTod_busy (by rwa [hs])]
    exact ⟨hs, rfl, by rw [hw, hr]⟩

end RolloverTime

/-! ### The engine at a rollover (R84, R85) -/

section RolloverTiming

variable {s t u : State}

theorem rolledOver_xfer (s : State) : (rolledOver (periodAdded s)).xfer = (pulseCounted s).xfer := by
  rw [rolledOver_eq]
  simp

theorem rolledOver_xfer_other (h : s.xfer.state ≠ .holdover) : (rolledOver (periodAdded s)).xfer = s.xfer := by
  rw [rolledOver_xfer, pulseCounted, timingPulse_other (by rwa [startPulse_xfer]), startPulse_xfer]

theorem rolledOver_xfer_ages (h : s.xfer.state = .holdover)
    (hle : (s.xfer.holdoverAge + 1) * s.xfer.params.drift ≤ s.xfer.params.holdoverLimit) :
    (rolledOver (periodAdded s)).xfer = { s.xfer with holdoverAge := s.xfer.holdoverAge + 1 } := by
  rw [rolledOver_xfer, pulseCounted, timingPulse_ages (by rwa [startPulse_xfer]) (by rwa [startPulse_xfer])]
  rfl

/-- The lapse of HOLDOVER at a rollover (R84). -/
theorem pulseCounted_lapses (h : s.xfer.state = .holdover)
    (hlt : s.xfer.params.holdoverLimit < (s.xfer.holdoverAge + 1) * s.xfer.params.drift) :
    pulseCounted s = moveTiming .freerun 7 lapse (aged (startPulse (periodAdded s))) :=
  timingPulse_lapses (by rwa [startPulse_xfer]) (by rwa [startPulse_xfer])

theorem rolledOver_xfer_lapses (h : s.xfer.state = .holdover)
    (hlt : s.xfer.params.holdoverLimit < (s.xfer.holdoverAge + 1) * s.xfer.params.drift) :
    (rolledOver (periodAdded s)).xfer.state = .freerun ∧ (rolledOver (periodAdded s)).xfer.holdoverAge = 0 := by
  rw [rolledOver_xfer, pulseCounted_lapses h hlt, moveTiming_xfer]
  exact ⟨rfl, rfl⟩

/-- A report of an event, seen from another state with the same requests, report unit and windows. -/
theorem ReportAmong.since {n code : Nat} {time : Stamp} {body : List FieldSpec} (h1 : u.path = s.path)
    (h2 : u.rep = s.rep) (h3 : u.windows = s.windows) (hr : ReportAmong u t n time code body) :
    ReportAmong s t n time code body := by
  have hlaw : pathLaw u ↔ pathLaw s := by simp [pathLaw, occupancy_eq, h1]
  simpa only [ReportAmong, ReportAt, hlaw, h2, windowOfKind_congr h3] using hr

/-- The body of a timing report of a rollover does not depend on its message. -/
theorem timingStateBody_rolledOver {old : TimingState} {cause age : Nat} :
    timingStateBody old cause age (rolledOver (periodAdded s)) = timingStateBody old cause age (pulseCounted s) := by
  obtain ⟨a, b, c, ht⟩ := sendTod_rest (todMessage (pulseCounted s)) (snapshotRequest (pulseCounted s))
  rw [timingStateBody, rolledOver_xfer, rolledOver_eq, ht]
  simp [timingStateBody]

theorem timeNow_rolledOver (s : State) :
    timeNow (rolledOver (periodAdded s)) = timeNow (startPulse (periodAdded s)) := by
  obtain ⟨a, b, c, ht⟩ := sendTod_rest (todMessage (pulseCounted s)) (snapshotRequest (pulseCounted s))
  rw [timeNow, rolledOver_eq, ht]
  simp [timeNow, pulseCounted]

/-- The lapse of HOLDOVER is reported with the age that passed the limit, at the time of the rollover (R85). -/
theorem rolledOver_reported (h : s.xfer.state = .holdover)
    (hlt : s.xfer.params.holdoverLimit < (s.xfer.holdoverAge + 1) * s.xfer.params.drift) :
    TimingStateReported s (rolledOver (periodAdded s)) 1 (timeNow (rolledOver (periodAdded s))) .holdover 7
      (s.xfer.holdoverAge + 1) := by
  obtain ⟨v, ⟨k, hk, hv⟩, m, hm⟩ := moveTiming_reported .freerun 7 lapse (aged (startPulse (periodAdded s)))
  rw [← pulseCounted_lapses h hlt] at hm
  have hmade := ((aged_reporting _).trans hv).among_now (n := 1) (by omega) hm
  have hkept := (snapshotRequest_turnover (N := fun _ => True) (pulseCounted s)).among hmade
  have hsent := (Turnover.of_path (N := fun _ => True) (J := IsEntry) (s := snapshotRequest (pulseCounted s))
    (t := rolledOver (periodAdded s)) (by rw [rolledOver_eq]; simp)).among hkept
  rw [TimingStateReported, timeNow_rolledOver]
  have hold : (aged (startPulse (periodAdded s))).xfer.state = .holdover := h
  rw [hold, ← timingStateBody_rolledOver] at hsent
  exact ReportAmong.since (u := startPulse (periodAdded s)) rfl rfl rfl hsent

end RolloverTiming

/-! ### The snapshot of a rollover (R55, R161) -/

section RolloverSnapshot

variable {s : State} {g : Ring}

theorem pulseCounted_withoutReports (s : State) : withoutReports (pulseCounted s).rep = withoutReports s.rep := by
  obtain ⟨n, h⟩ := timingPulse_reporting (startPulse (periodAdded s))
  exact h.withoutReports

theorem rolledOver_rep (s : State) : (rolledOver (periodAdded s)).rep = (snapshotRequest (pulseCounted s)).rep := by
  rw [rolledOver_eq]
  simp

theorem rolledOver_path (s : State) : (rolledOver (periodAdded s)).path = (snapshotRequest (pulseCounted s)).path := by
  rw [rolledOver_eq]
  simp

/-- The report of the engine's count leaves an ACTIVE ring ACTIVE, and its size. -/
theorem pulseCounted_active (hg : s.rep.ring = some g) (hr : g.releasing = false) :
    ∃ x, (pulseCounted s).rep.ring = some x ∧ x.releasing = false ∧ x.size = g.size := by
  obtain ⟨-, -, -, -, -, hring⟩ := snapshot_of_withoutReports (pulseCounted_withoutReports s)
  rw [hg, Option.map_some, Option.map_eq_some_iff] at hring
  obtain ⟨x, hx, he⟩ := hring
  obtain ⟨hrel, hsize⟩ := Prod.mk.inj he
  exact ⟨x, hx, hrel.trans hr, hsize⟩

/-- It activates no ring. -/
theorem pulseCounted_inactive (h : ∀ g, s.rep.ring = some g → g.releasing = true) :
    ∀ g, (pulseCounted s).rep.ring = some g → g.releasing = true := by
  intro x hx
  by_contra hr
  obtain ⟨-, -, -, -, -, hring⟩ := snapshot_of_withoutReports (pulseCounted_withoutReports s)
  rw [hx, Option.map_some, eq_comm, Option.map_eq_some_iff] at hring
  obtain ⟨g, hg, he⟩ := hring
  exact hr ((Prod.mk.inj he).1.symm.trans (h g hg))

theorem rolledOver_dropped (h : ∀ g, s.rep.ring = some g → g.releasing = true) :
    (rolledOver (periodAdded s)).rep.snapshotDropped = satInc s.rep.snapshotDropped ∧
    (rolledOver (periodAdded s)).rep.snapshotWriting = s.rep.snapshotWriting ∧
    (rolledOver (periodAdded s)).rep.snapshotSequence = s.rep.snapshotSequence := by
  obtain ⟨hwriting, -, hseq, -, hdrop, -⟩ := snapshot_of_withoutReports (pulseCounted_withoutReports s)
  rw [rolledOver_rep, snapshotRequest_dropped (pulseCounted_inactive h), ← hwriting, ← hseq, ← hdrop]
  exact ⟨rfl, rfl, rfl⟩

/-- A request that finds a snapshot being written is remembered, or merged with one that is (R161). -/
theorem rolledOver_waits (hg : s.rep.ring = some g) (hr : g.releasing = false) (hw : s.rep.snapshotWriting = true)
    {t : State} (ht : t = rolledOver (periodAdded s)) :
    t.rep.snapshotWriting = true ∧ t.rep.snapshotDropped = s.rep.snapshotDropped ∧
    t.rep.snapshotSequence = s.rep.snapshotSequence ∧ t.rep.snapshotRemembered = true ∧
    t.rep.snapshotMerged = if s.rep.snapshotRemembered then satInc s.rep.snapshotMerged else s.rep.snapshotMerged := by
  obtain ⟨hwriting, hrem, hseq, hmerged, hdrop, -⟩ := snapshot_of_withoutReports (pulseCounted_withoutReports s)
  obtain ⟨x, hx, hxr, -⟩ := pulseCounted_active hg hr
  rw [ht, rolledOver_rep, snapshotRequest_waits hx hxr (hwriting.trans hw), ← hrem, ← hseq, ← hdrop, ← hmerged]
  exact ⟨hwriting.trans hw, rfl, rfl, rfl, rfl⟩

/-- A snapshot that a rollover starts, in an ACTIVE ring with none being written (R161). -/
theorem rollover_starts (hg : s.rep.ring = some g) (hr : g.releasing = false) (hw : s.rep.snapshotWriting = false) :
    ∃ x, snapshotRequest (pulseCounted s) = startSnapshot x (pulseCounted s) ∧ x.size = g.size := by
  obtain ⟨hwriting, -⟩ := snapshot_of_withoutReports (pulseCounted_withoutReports s)
  obtain ⟨x, hx, hxr, hsize⟩ := pulseCounted_active hg hr
  exact ⟨x, snapshotRequest_starts hx hxr (hwriting.trans hw), hsize⟩

theorem rolledOver_starts (hg : s.rep.ring = some g) (hr : g.releasing = false) (hw : s.rep.snapshotWriting = false)
    {t : State} (ht : t = rolledOver (periodAdded s)) :
    t.rep.snapshotWriting = true ∧ t.rep.snapshotDropped = s.rep.snapshotDropped ∧
    t.rep.snapshotSequence = s.rep.snapshotSequence + 1 ∧ t.rep.snapshotRemembered = s.rep.snapshotRemembered := by
  obtain ⟨-, hrem, hseq, -, hdrop, -⟩ := snapshot_of_withoutReports (pulseCounted_withoutReports s)
  obtain ⟨x, hstart, -⟩ := rollover_starts hg hr hw
  rw [ht, rolledOver_rep, hstart, startSnapshot_rep, ← hrem, ← hseq, ← hdrop]
  exact ⟨rfl, rfl, rfl, rfl⟩

/-- The state after a rollover as it stood before its snapshot became WRITING and before its message (log entries 13
and 23). -/
def rolledOverBefore (s t : State) : State := { t with
  rep := { t.rep with snapshotWriting := false }
  time := { t.time with
    todSending := s.time.todSending, todWaiting := s.time.todWaiting, todReplaced := s.time.todReplaced } }

theorem rolledOverBefore_time (h : willRollOver s.time = true) :
    (rolledOverBefore s (rolledOver (periodAdded s))).time = (pulseCounted s).time := by
  obtain ⟨a, b, c, ht⟩ := rolledOver_time h
  simp [rolledOverBefore, ht, pulseCounted_time, addPeriod_roll h]

theorem rolledOverBefore_rep (hg : s.rep.ring = some g) (hr : g.releasing = false)
    (hw : s.rep.snapshotWriting = false) :
    (rolledOverBefore s (rolledOver (periodAdded s))).rep = (captured (pulseCounted s)).rep := by
  obtain ⟨hwriting, -⟩ := snapshot_of_withoutReports (pulseCounted_withoutReports s)
  obtain ⟨x, hstart, -⟩ := rollover_starts hg hr hw
  have hoff : false = (pulseCounted s).rep.snapshotWriting := (hwriting.trans hw).symm
  simp only [rolledOverBefore, rolledOver_rep, hstart, startSnapshot_rep]
  rw [hoff]
  rfl

/-- What a rollover's snapshot captures is the state after it, but for the requests, WRITING and the message. -/
theorem rolledOver_captured (h : willRollOver s.time = true) (hg : s.rep.ring = some g) (hr : g.releasing = false)
    (hw : s.rep.snapshotWriting = false) :
    OnlyChanges [.path] (captured (pulseCounted s)) (rolledOverBefore s (rolledOver (periodAdded s))) := by
  have htime := rolledOverBefore_time h
  have hrep := rolledOverBefore_rep hg hr hw
  intro b hb
  cases b
  case time => exact htime
  case rep => exact hrep
  case path => exact absurd (List.mem_singleton.mpr rfl) hb
  all_goals
    simp [sameBlock, rolledOverBefore, captured, rolledOver_eq]

/-- The lines of the snapshot that a rollover starts show the state after it. -/
theorem rolledOver_lines (h : willRollOver s.time = true) (hg : s.rep.ring = some g) (hr : g.releasing = false)
    (hw : s.rep.snapshotWriting = false) {w : Window} {c t : State} (hwin : windowOfKind s .report = some w)
    (ht : t = rolledOver (periodAdded s)) (hc : c = rolledOverBefore s t) : ∀ n < 64, ∃ q ∈ t.path.reqs,
      q.line = windowLine w (g.size + n) ∧ q.stage = .forwarded ∧
      q.job = .snapshotLine n (snapshotLine c (snapshotFields c) n) := by
  subst ht hc
  obtain ⟨x, hstart, hsize⟩ := rollover_starts hg hr hw
  have hpath : (rolledOver (periodAdded s)).path = (startSnapshot x (pulseCounted s)).path := by
    rw [rolledOver_path, hstart]
  have hfields : snapshotFields (rolledOverBefore s (rolledOver (periodAdded s))) =
      snapshotFields (captured (pulseCounted s)) :=
    snapshotFields_congr (rolledOver_captured h hg hr hw) (by
      show SamePorts (rolledOver (periodAdded s)).path _
      rw [hpath]
      exact startSnapshot_samePorts x (pulseCounted s))
  have hline : ∀ f n, snapshotLine (rolledOverBefore s (rolledOver (periodAdded s))) f n =
      snapshotLine (captured (pulseCounted s)) f n := fun f n => by
    simp only [snapshotLine, timeNow, rolledOverBefore_time h, rolledOverBefore_rep hg hr hw]
    rfl
  have hplaced : windowOfKind (pulseCounted s) .report = some w :=
    (windowOfKind_congr (by simp [pulseCounted, startPulse, periodAdded]) _).trans hwin
  intro n hn
  rw [hfields, hline, hpath, ← hsize]
  exact startSnapshot_lines hplaced n hn

/-- A rollover's request in an ACTIVE ring starts a snapshot of the state after it, or is remembered or merged
(R161). -/
theorem rolledOver_snapshot (h : willRollOver s.time = true) (hg : s.rep.ring = some g) (hr : g.releasing = false)
    {t : State} (ht : t = rolledOver (periodAdded s)) :
    t.rep.snapshotWriting = true ∧ t.rep.snapshotDropped = s.rep.snapshotDropped ∧
    (s.rep.snapshotWriting = false → t.rep.snapshotSequence = s.rep.snapshotSequence + 1 ∧
      t.rep.snapshotRemembered = s.rep.snapshotRemembered ∧ ∀ (w : Window) (c : State),
        windowOfKind s .report = some w → c = rolledOverBefore s t → ∀ n < 64, ∃ q ∈ t.path.reqs,
          q.line = windowLine w (g.size + n) ∧ q.stage = .forwarded ∧
          q.job = .snapshotLine n (snapshotLine c (snapshotFields c) n)) ∧
    (s.rep.snapshotWriting = true → t.rep.snapshotSequence = s.rep.snapshotSequence ∧
      t.rep.snapshotRemembered = true ∧ t.rep.snapshotMerged =
        if s.rep.snapshotRemembered then satInc s.rep.snapshotMerged else s.rep.snapshotMerged) := by
  cases hw : s.rep.snapshotWriting
  · obtain ⟨hwriting, hdrop, hseq, hrem⟩ := rolledOver_starts hg hr hw ht
    exact ⟨hwriting, hdrop, fun _ => ⟨hseq, hrem, fun _ _ hwin hc => rolledOver_lines h hg hr hw hwin ht hc⟩, nofun⟩
  · obtain ⟨hwriting, hdrop, hwaits⟩ := rolledOver_waits hg hr hw ht
    exact ⟨hwriting, hdrop, nofun, fun _ => hwaits⟩

end RolloverSnapshot

section PeriodAndRollover

variable {s : State}

/-- A period that does not carry changes the counter, the oscillator count and the interval time alone (R45, R47). -/
theorem period_plain (h : nextSubSecond s.time / 4294967296 < 1000000000) : ∃ t, exec .oscillatorPeriod s = .next t ∧
    t.time = { s.time with
      nanoseconds := nextSubSecond s.time / 4294967296, fraction := nextSubSecond s.time % 4294967296 } ∧
    t.oscillator = s.oscillator + 1 ∧ (s.inReset = false → t.now = s.now + 1) ∧ (s.inReset = true → t.now = s.now) ∧
    OnlyChanges [.oscillator, .now, .time] s t := by
  refine ⟨periodAdded s, ?_, periodAdded_plain h, rfl, fun hr => ?_, fun hr => ?_,
    onlyChanges_iff.mpr (by simp [periodAdded])⟩
  · rw [exec_oscillatorPeriod, onePeriod_plain (not_willRollOver h)]
  all_goals simp [periodAdded, hr]

/-- Settles O19: a period that carries is `rolledOver (periodAdded s)` by either row, and the lemmas above say what that
state is, unit by unit. -/
theorem periodAndRollover : Obligations.PeriodAndRollover := by
  refine ⟨?_, ?_, fun s h => ?_⟩
  · rintro s q rfl hq
    exact period_plain hq
  · rintro s q rfl hq
    have hroll : willRollOver s.time = true := willRollOver_iff.mpr hq
    obtain ⟨t, ht⟩ : ∃ t, t = rolledOver (periodAdded s) := ⟨_, rfl⟩
    obtain ⟨a, b, c, htime⟩ := rolledOver_time hroll
    rw [← ht] at htime
    have hcount : t.time.nanoseconds + 1000000000 = nextSubSecond s.time / 4294967296 := by
      rw [htime]
      exact Nat.sub_add_cancel hq
    refine ⟨t, ht ▸ exec_rollover hroll, ?_, by rw [htime]; rfl, hcount, by rw [htime]; rfl, by rw [htime],
      by rw [htime], by rw [htime]; rfl, by rw [pulseLine, htime]; rfl, fun h => ht ▸ rolledOver_xfer_other h,
      fun h hlt => ?_, fun h hle => ht ▸ rolledOver_xfer_ages h hle, ?_, fun g hg hr => ?_,
      fun h => ht ▸ rolledOver_dropped h, ht ▸ rolledOver_changes s⟩
    · rw [exec_oscillatorPeriod, onePeriod_carries hroll, ht]
    · obtain ⟨hstate, hage⟩ := rolledOver_xfer_lapses h hlt
      exact ht ▸ ⟨hstate, hage, rolledOver_reported h hlt⟩
    · rintro m rfl
      exact rolledOver_tod hroll ht
    · exact rolledOver_snapshot hroll hg hr ht
  · show Host.Outcome.next _ = _
    rw [if_neg (by simp [h])]

end PeriodAndRollover
end Sys2Proof.Machine

namespace Sys2Proof.Machine

/-! ### The timing-qualified line (R59) -/

section QualifiedLine

variable {s t : State}

theorem qualifiedState_iff {x : TimingState} : qualifiedState x = true ↔ x = .track ∨ x = .holdover := by
  cases x <;> simp [qualifiedState]

theorem not_qualifiedState_iff {x : TimingState} : qualifiedState x = false ↔ x = .freerun ∨ x = .acquire := by
  cases x <;> simp [qualifiedState]

/-- The state that the reset line leaves is qualified as the state before it was (R80). -/
theorem qualifiedState_resetTiming (x : TimingState) : qualifiedState (resetTiming x) = qualifiedState x := by
  cases x <;> rfl

/-- A class that needs timing is admitted by the level of the timing-qualified line (R24). -/
theorem admissible_needsTiming {w : Window} {d : Line} (hc : windowClass w ≠ .s)
    (hn : (clsAt s (windowClass w)).needsTiming = true) (hd : isTimingDescriptor w d = false) :
    admissible s w d = ((clsAt s (windowClass w)).enabled && carriesTraffic s.link.state && qualifiedLine s) := by
  have hc : (windowClass w == Cls.s) = false := beq_eq_false_iff_ne.mpr hc
  simp [admissible, qualifiedLine, hc, hn, hd]

/-- The message of a rollover shows the timing-qualified line after it, and is sent at once or waits (R56). -/
theorem rollover_carries_qualified (h : willRollOver s.time = true) : ∃ t m, exec .rollover s = .next t ∧
    m.qualified = qualifiedLine t ∧ (s.time.todSending = none → t.time.todSending = some ⟨m, s.oscillator + 1⟩) ∧
    (s.time.todSending ≠ none → t.time.todWaiting = some m) := by
  obtain ⟨hidle, hbusy⟩ := rolledOver_tod h rfl
  exact ⟨_, _, exec_rollover h, rfl, fun hl => (hidle hl).1, fun hl => (hbusy hl).2.1⟩

theorem underReset_qualifiedLine (s : State) : qualifiedLine (underReset s) = qualifiedLine s :=
  qualifiedState_resetTiming s.xfer.state

/-- An assertion of 1 µs or more is taken; a shorter one is taken, or changes nothing but the free values (R171). -/
theorem resetLineAssert_outcomes (h : s.inReset = false) : exec .resetLineAssert s = .next (underReset s) ∨
    shortAssertion s = true ∧ ∃ t, (t = underReset (s.setFreeUses (s.freeUses + 1)) ∨
      t = s.setFreeUses (s.freeUses + 1)) ∧ exec .resetLineAssert s = .next t := by
  change execResetLineAssert s = _ ∨ shortAssertion s = true ∧ ∃ t, _ ∧ execResetLineAssert s = _
  simp only [execResetLineAssert, h]
  cases hs : shortAssertion s
  · exact .inl rfl
  · refine .inr ⟨rfl, _, ?_, rfl⟩
    cases hp : Config.pulseTaken s.freeUses
    · exact .inr rfl
    · exact .inl rfl

/-- Settles O20: the line is read from the timing state, which a rollover and the reset line change as the lemmas above
say. -/
theorem qualifiedLineFollowsState : Obligations.QualifiedLineFollowsState := by
  intro s
  refine ⟨qualifiedState_iff, not_qualifiedState_iff, ?_, rollover_carries_qualified, fun _ => ⟨_, rfl, rfl, rfl⟩, ?_⟩
  · intro w d hc hn hd
    rw [admissible_needsTiming hc hn hd, Bool.and_eq_true, Bool.and_eq_true, and_assoc]
  · intro hr
    rcases resetLineAssert_outcomes hr with he | ⟨hshort, t, ht, he⟩
    · refine ⟨_, he, underReset_qualifiedLine s, fun _ hq => ?_⟩
      show resetTiming s.xfer.state = .holdover
      rcases hq with hq | hq <;> rw [hq] <;> rfl
    · refine ⟨t, he, ?_, fun hlong => absurd (hshort.symm.trans hlong) (by simp)⟩
      rcases ht with rfl | rfl
      · exact underReset_qualifiedLine _
      · rfl

end QualifiedLine
end Sys2Proof.Machine

namespace Sys2Proof.Machine

/-! ### The time-of-day line (R56) -/

section TodLine

theorem todBytes_length (m : TodMessage) : (todBytes m).length = 14 := by simp [todBytes]

/-- The ten bits of one byte on the line: a start bit, its 8 data bits, a stop bit. -/
def byteFrame (b : Byte) : List Bool := false :: ((List.range 8).map fun i => b.getLsbD i) ++ [true]

theorem byteFrame_length (b : Byte) : (byteFrame b).length = 10 := rfl

/-- A bit of a byte's frame: low, its data from the least significant, high. -/
theorem byteFrame_getElem (b : Byte) {i : Nat} (h : i < (byteFrame b).length) :
    (byteFrame b)[i] = if i = 0 then false else if i = 9 then true else b.getLsbD (i - 1) := by
  rw [byteFrame_length] at h
  rcases i with _ | i
  · rfl
  · rcases Nat.lt_or_eq_of_le (Nat.le_of_lt_succ h) with h | h
    · have : i < 8 := by omega
      simp [byteFrame, this, Nat.ne_of_lt this]
    · obtain rfl : i = 8 := by omega
      rfl

/-- A bit of bytes sent one after another is a bit of the frame that its number falls in. -/
theorem frames_getD (l : List Byte) {k : Nat} (h : k < 10 * l.length) :
    (l.flatMap byteFrame).getD k true = (byteFrame (l.getD (k / 10) 0)).getD (k % 10) true := by
  induction l generalizing k with
  | nil => simp at h
  | cons b l ih =>
    rw [List.flatMap_cons]
    by_cases hk : k < 10
    · rw [List.getD_append _ _ _ _ (by rwa [byteFrame_length]), Nat.div_eq_of_lt hk, Nat.mod_eq_of_lt hk]
      rfl
    · obtain ⟨j, rfl⟩ := Nat.exists_eq_add_of_le (Nat.le_of_not_lt hk)
      rw [List.getD_append_right _ _ _ _ (by rw [byteFrame_length]; omega), byteFrame_length, Nat.add_sub_cancel_left,
        ih (by simp only [List.length_cons] at h; omega), Nat.add_mod_left, Nat.add_div_left _ (by omega),
        List.getD_cons_succ]

theorem frames_length (l : List Byte) : (l.flatMap byteFrame).length = 10 * l.length := by
  rw [List.length_flatMap, List.map_congr_left fun b _ => byteFrame_length b]
  simp [Nat.mul_comm]

theorem todBits_sent (m : TodMessage) {k : Nat} (h : k < 140) : (todBits m).getD k true =
    if k % 10 = 0 then false else if k % 10 = 9 then true else ((todBytes m).getD (k / 10) 0).getLsbD (k % 10 - 1) := by
  have hlt : k % 10 < 10 := Nat.mod_lt _ (by omega)
  show ((todBytes m).flatMap byteFrame).getD k true = _
  rw [frames_getD _ (by rw [todBytes_length]; omega), List.getD_eq_getElem _ _ (by rwa [byteFrame_length]),
    byteFrame_getElem]

theorem todBits_past (m : TodMessage) {k : Nat} (h : 140 ≤ k) : (todBits m).getD k true = true := by
  refine List.getD_eq_default _ _ ?_
  show ((todBytes m).flatMap byteFrame).length ≤ k
  rwa [frames_length, todBytes_length]

variable {s : State} {m : TodSending}

theorem todLine_sending (h : s.time.todSending = some m) :
    todLine s = (todBits m.message).getD ((s.oscillator - m.start) * 115200 / 40000000) true := by
  simp only [todLine, h]

theorem todLine_idle (h : s.time.todSending = none) : todLine s = true := by simp only [todLine, h]

theorem endTod_eq (s : State) : endTod s = { s with time := { s.time with
    todSending := s.time.todWaiting.map fun w => ⟨w, s.oscillator⟩, todWaiting := none } } := by
  cases h : s.time.todWaiting <;> simp [endTod, State.updTime, h]

end TodLine

/-! ### The levels of the second outputs and of the attention line (R55, R57, R160) -/

section Levels

variable {s : State}

theorem pulseLine_iff : pulseLine s = true ↔ ∃ d, s.time.pulse = some d := Option.isSome_iff_exists

theorem attentionLine_iff : attentionLine s = true ↔ ∃ g, s.rep.ring = some g ∧
    (g.trigger ≤ g.written - g.consumed ∨ g.timeoutFlag = true) := by
  cases h : s.rep.ring with
  | none => simp [attentionLine, h]
  | some g =>
    simp only [attentionLine, h, Option.some.injEq, exists_eq_left', Bool.or_eq_true]
    exact or_congr_left decide_eq_true_iff

theorem radioReference_running (h : s.time.synth.state = .running) : radioReference s = some
    (40000000 * s.time.synth.m * (16 * 10 ^ 9 + s.time.freq), s.time.synth.n * s.time.synth.p * (16 * 10 ^ 9)) :=
  if_pos h

theorem radioReference_off (h : s.time.synth.state ≠ .running) : radioReference s = none := if_neg h

end Levels

/-! ### The ends of the timers (R55 to R57, R160, R170) -/

section TimerEnds

variable {s : State} {d : Nat}

theorem due_some {now : Nat} (h : d ≤ now) : due (some d) now = true := decide_eq_true h

/-- The fault line's level depends on the conditions alone (R168). -/
theorem faultLevel_congr {u v : FaultUnit} (h : ∀ c, condGet u c = condGet v c) : faultLevel u = faultLevel v := by
  simp only [faultLevel, h]

/-- The fault line is evaluated on the conditions as a change leaves them (R168). -/
theorem changeCondition_line (c : Cond) (k : Condition) (cause : Nat) (s : State) :
    (changeCondition c k cause s).fault.line = faultLevel (changeCondition c k cause s).fault := by
  obtain ⟨v, hv⟩ : ∃ v, v = s.updFault fun u => condSet u c k := ⟨_, rfl⟩
  have hf : (changeCondition c k cause s).fault = (evalFaultLine v).fault := by simp [changeCondition, hv]
  rw [hf]
  show faultLevel v.fault = _
  exact faultLevel_congr fun _ => evalFaultLine_cond.symm

theorem exec_pulseEnd (h : s.time.pulse = some d) (hd : d ≤ s.oscillator) :
    exec .pulseEnd s = .next { s with time := { s.time with pulse := none } } := by
  show Host.Outcome.next _ = _
  rw [h, due_some hd]
  rfl

theorem exec_todMessageEnd {m : TodSending} (h : s.time.todSending = some m)
    (hd : 140 * 40000000 ≤ (s.oscillator - m.start) * 115200) :
    exec .todMessageEnd s = .next { s with time := { s.time with
      todSending := s.time.todWaiting.map fun w => ⟨w, s.oscillator⟩, todWaiting := none } } := by
  have hdone : todDone s = true := by simpa only [todDone, h] using decide_eq_true hd
  show Host.Outcome.next _ = _
  rw [if_pos hdone, endTod_eq]

theorem exec_synthLockExpiry (h : s.time.synth.lockTimer = some d) (hd : d ≤ s.oscillator) :
    exec .synthLockExpiry s = .next { s with time := { s.time with
      synth := { s.time.synth with state := .running, lockTimer := none } } } := by
  show Host.Outcome.next _ = _
  rw [h, due_some hd]
  rfl

theorem exec_reportTimerExpiry {r : Ring} (hr : s.rep.ring = some r) (h : r.timer = some d) (hd : d ≤ s.now) :
    exec .reportTimerExpiry s = .next { s with rep := { s.rep with
      ring := some { r with timeoutFlag := true, timer := none } } } := by
  show Host.Outcome.next _ = _
  simp only [State.updRep, hr, Option.map_some, h, due_some hd, if_true]

theorem exec_retryTimerExpiry {c : Cond} (h : (condGet s.fault c).timer = some d) (hd : d ≤ s.now) :
    exec (.retryTimerExpiry c) s = .next (changeCondition c (retryExpired c (condGet s.fault c)) 4 s) := by
  show Host.Outcome.next _ = _
  rw [h, due_some hd]
  rfl

/-- Settles O21: the bits of a message from the frames of its bytes, and each end from the row that brings it about. -/
theorem outputAndReportTimersEnd : Obligations.OutputAndReportTimersEnd := by
  refine ⟨fun _ _ => exec_pulseEnd, fun _ => ⟨pulseLine_iff, attentionLine_iff, radioReference_running,
    radioReference_off⟩, fun _ _ => exec_todMessageEnd, ?_, fun _ => todLine_idle, fun _ _ => exec_synthLockExpiry,
    fun _ _ _ => exec_reportTimerExpiry, fun s c d h hd => ⟨_, exec_retryTimerExpiry h hd, changeCondition_same,
      fun _ => changeCondition_other, changeCondition_line .., ?_, onlyChanges_iff.mpr (by simp)⟩⟩
  · rintro s m k h rfl
    rw [todLine_sending h]
    exact ⟨todBits_sent _, todBits_past _⟩
  · exact changeCondition_reported (N := fun _ => True) (.refl s) (Nat.le_refl 0) rfl
      (Turnover.of_path (N := fun _ => True) (J := IsEntry) rfl).stay rfl

end TimerEnds
end Sys2Proof.Machine

namespace Sys2Proof.Machine

/-! ### Tables of at most eight entries with distinct keys (R63, R65) -/

section KeyedTables

variable {α β : Type} {key : α → β} {l l' : List α} {e : α}

/-- A table holds at most eight entries, no two with one key. -/
def Keyed (key : α → β) (l : List α) : Prop := l.length ≤ 8 ∧ (l.map key).Nodup

theorem Keyed.sublist (h : Keyed key l) (hl : l'.Sublist l) : Keyed key l' :=
  ⟨hl.length_le.trans h.1, (hl.map key).nodup h.2⟩

/-- An entry with a new key enters a table that has room. -/
theorem Keyed.push (h : Keyed key l) (hlen : l.length < 8) (hnew : ∀ y ∈ l, key y ≠ key e) :
    Keyed key (l ++ [e]) := by
  refine ⟨by simpa using hlen, ?_⟩
  rw [List.map_append, List.nodup_append]
  exact ⟨h.2, by simp, by simpa using hnew⟩

/-- An entry with a new key takes the place of the oldest of a full table. -/
theorem Keyed.shift (h : Keyed key l) (hfull : 8 ≤ l.length) (hnew : ∀ y ∈ l, key y ≠ key e) :
    Keyed key (l.drop 1 ++ [e]) := by
  refine (h.sublist (List.drop_sublist 1 l)).push ?_ fun y hy => hnew y (List.mem_of_mem_drop hy)
  have := h.1
  rw [List.length_drop]
  omega

/-- An entry takes the place of the one with its key. -/
theorem Keyed.replace [BEq β] [LawfulBEq β] (h : Keyed key l) (hold : ∃ y ∈ l, key y = key e) :
    Keyed key (l.filter (fun y => key y != key e) ++ [e]) := by
  refine (h.sublist List.filter_sublist).push (Nat.lt_of_lt_of_le ?_ h.1) fun y hy => ?_
  · obtain ⟨y, hy, hk⟩ := hold
    exact List.length_filter_lt_length_iff_exists.mpr ⟨y, hy, by simp [hk]⟩
  · simpa using (List.mem_filter.mp hy).2

/-- An entry changes in its place. -/
theorem Keyed.update [DecidableEq β] (h : Keyed key l) :
    Keyed key (l.map fun y => if key y = key e then e else y) := by
  refine ⟨by simpa using h.1, ?_⟩
  have hkeys : (l.map fun y => if key y = key e then e else y).map key = l.map key := by
    rw [List.map_map]
    refine List.map_congr_left fun y _ => ?_
    simp only [Function.comp]
    split
    · exact Eq.symm ‹_›
    · rfl
  rw [hkeys]
  exact h.2

end KeyedTables

/-! ### The slots POSTED with test frames (R70) -/

section TestSlots

/-- A slot is POSTED with a test frame. -/
def holdsTest : Slot → Bool
  | .test _ => true
  | .free => false
  | .query _ _ => false

/-- How many slots are. -/
def testSlots (v : Vector Slot 64) : Nat := v.toList.countP holdsTest

theorem countP_set_le {α : Type} (p : α → Bool) (x : α) (l : List α) (j : Nat) :
    (l.set j x).countP p ≤ l.countP p + if p x then 1 else 0 := by
  induction l generalizing j with
  | nil => simp
  | cons y ys ih =>
    cases j with
    | zero =>
      simp only [List.set_cons_zero, List.countP_cons]
      omega
    | succ j =>
      simp only [List.set_cons_succ, List.countP_cons]
      have := ih j
      omega

/-- A slot that is taken for anything but a test frame, or freed. -/
theorem testSlots_set_other (v : Vector Slot 64) (j : Nat) {u : Slot} (h : holdsTest u = false) :
    testSlots (v.setIfInBounds j u) ≤ testSlots v := by
  have hle := countP_set_le holdsTest u v.toList j
  rwa [h, if_neg Bool.false_ne_true, Nat.add_zero, ← Vector.toList_setIfInBounds] at hle

/-- A slot that is taken. -/
theorem testSlots_set (v : Vector Slot 64) (j : Nat) (u : Slot) :
    testSlots (v.setIfInBounds j u) ≤ testSlots v + 1 := by
  have h := countP_set_le holdsTest u v.toList j
  have hone : (if holdsTest u then 1 else 0) ≤ 1 := by split <;> omega
  simp only [testSlots, Vector.toList_setIfInBounds]
  omega

/-- Slots that are FREE and slots that hold test frames are at most all 64. -/
theorem testSlots_freeSlots (s : State) : testSlots s.xfer.slots + freeSlots s ≤ 64 := by
  have hslots : s.xfer.slots.toList = (List.range 64).map (slotAt s) := by
    refine List.ext_getElem (by simp) fun i h1 h2 => ?_
    simp only [Vector.length_toList] at h1
    rw [List.getElem_map, List.getElem_range, slotAt, Vector.getElem?_eq_getElem h1, Vector.getElem_toList,
      Option.getD_some]
  have hall := List.length_eq_countP_add_countP (fun j => slotAt s j == .free) (l := List.range 64)
  have hle : (List.range 64).countP (holdsTest ∘ slotAt s) ≤
      (List.range 64).countP fun j => decide ¬(slotAt s j == .free) = true := by
    refine List.countP_mono_left fun j _ hj => ?_
    rw [Function.comp] at hj
    cases hs : slotAt s j with
    | free => exact absurd hj (by simp [hs, holdsTest])
    | query _ _ => rfl
    | test _ => rfl
  rw [testSlots, hslots, List.countP_map, freeSlots, ← List.countP_eq_length_filter]
  simp only [List.length_range] at hall
  omega

end TestSlots
/-! ### What the servo and the timing states leave of the engine (R77 to R85) -/

section ServoFrame

variable {s : State}

/-- The engine without what a selection and a change of timing state move. -/
def withoutServo (x : Transfer) : Transfer :=
  { x with block := [], integral := 0, history := [], state := .freerun, runCount := 0, holdoverAge := 0
           counters := Initial.transferCounters }

theorem moveTiming_withoutServo {new : TimingState} {cause : Nat} {f : Transfer → Transfer}
    (hf : ∀ x, withoutServo (f x) = withoutServo x) :
    withoutServo (moveTiming new cause f s).xfer = withoutServo s.xfer := by
  rw [moveTiming_xfer, hf]
  rfl

theorem loseTiming_withoutServo (cause : Nat) : withoutServo (loseTiming cause s).xfer = withoutServo s.xfer := by
  rw [loseTiming_xfer]
  rfl

theorem timingPulse_withoutServo : withoutServo (timingPulse s).xfer = withoutServo s.xfer := by
  simp only [timingPulse]
  repeat' split
  · exact moveTiming_withoutServo fun _ => rfl
  all_goals rfl

theorem phaseStep_xfer (theta : Int) (s : State) : (phaseStep theta s).xfer = { s.xfer with block := [] } := by
  simp only [phaseStep, afterTimeChange_xfer, State.updTime_xfer]

theorem stepSelection_withoutServo (theta : Int) : withoutServo (stepSelection theta s).xfer = withoutServo s.xfer := by
  rw [stepSelection, phaseStep_xfer]
  rfl

theorem steer_withoutServo (theta : Int) : withoutServo (steer theta s).xfer = withoutServo s.xfer := by
  simp only [steer]
  split <;> rfl

theorem pushFreq_withoutServo : withoutServo (pushFreq s).xfer = withoutServo s.xfer := rfl

theorem setRun_withoutServo (n : Nat) : withoutServo (setRun n s).xfer = withoutServo s.xfer := rfl

theorem acquireSelection_withoutServo (theta : Int) :
    withoutServo (acquireSelection theta s).xfer = withoutServo s.xfer := by
  have hmove : ∀ new cause u, withoutServo (moveTiming new cause (fun x => { x with runCount := 0 }) u).xfer =
      withoutServo u.xfer := fun _ _ _ => moveTiming_withoutServo fun _ => rfl
  simp only [acquireSelection]
  repeat' split
  · rw [setRun_withoutServo, stepSelection_withoutServo]
  · exact (hmove _ _ _).trans (by rw [pushFreq_withoutServo, steer_withoutServo])
  · rw [setRun_withoutServo, steer_withoutServo]
  · rw [setRun_withoutServo, steer_withoutServo]

theorem trackSelection_withoutServo (theta : Int) :
    withoutServo (trackSelection theta s).xfer = withoutServo s.xfer := by
  have hmove : ∀ new cause u, withoutServo (moveTiming new cause (fun x => { x with runCount := 0 }) u).xfer =
      withoutServo u.xfer := fun _ _ _ => moveTiming_withoutServo fun _ => rfl
  simp only [trackSelection]
  repeat' split
  · exact (hmove _ _ _).trans (by rw [stepSelection_withoutServo])
  · rw [setRun_withoutServo, pushFreq_withoutServo, steer_withoutServo]
  · exact (hmove _ _ _).trans (by rw [pushFreq_withoutServo, steer_withoutServo])
  · rw [setRun_withoutServo, pushFreq_withoutServo, steer_withoutServo]

theorem applySelection_withoutServo (theta : Int) :
    withoutServo (applySelection theta s).xfer = withoutServo s.xfer := by
  simp only [applySelection]
  split
  · exact acquireSelection_withoutServo theta
  · exact acquireSelection_withoutServo theta
  · exact trackSelection_withoutServo theta
  · exact (acquireSelection_withoutServo theta).trans (moveTiming_withoutServo fun _ => rfl)

end ServoFrame
/-! ### What keeps the tables of the time transfer engine (R63, R65, R70) -/

section TableKeeps

variable {s t u : State}

/-- The tables that the law bounds. -/
def tables (x : Transfer) : List PendingMessage × List Exchange × Vector Slot 64 :=
  (x.pendingTable, x.exchanges, x.slots)

theorem tables_of_withoutServo {x y : Transfer} (h : withoutServo x = withoutServo y) : tables x = tables y := by
  show tables (withoutServo x) = tables (withoutServo y)
  rw [h]

/-- The bounds of the three tables. -/
def TablesFit (x : Transfer) : Prop :=
  Keyed (·.line) x.pendingTable ∧ Keyed (·.offerSeq) x.exchanges ∧ testSlots x.slots ≤ 60

theorem tableLaw_iff : tableLaw s ↔ TablesFit s.xfer := by
  have htests : (s.xfer.slots.toList.filter fun u => match u with
      | .test _ => true
      | .free => false
      | .query _ _ => false).length = testSlots s.xfer.slots := by
    rw [testSlots, List.countP_eq_length_filter]
    refine congrArg List.length (List.filter_congr fun u _ => ?_)
    cases u <;> rfl
  rw [TablesFit, ← htests]
  exact ⟨fun ⟨h1, h2, h3, h4, h5⟩ => ⟨⟨h1, h2⟩, ⟨h3, h4⟩, h5⟩, fun ⟨⟨h1, h2⟩, ⟨h3, h4⟩, h5⟩ => ⟨h1, h2, h3, h4, h5⟩⟩

/-- From `s` to `t` the tables stay within their bounds. -/
def TableKeeps (s t : State) : Prop := TablesFit s.xfer → TablesFit t.xfer

theorem TableKeeps.refl (s : State) : TableKeeps s s := id

theorem TableKeeps.trans (h : TableKeeps s t) (h2 : TableKeeps t u) : TableKeeps s u := h2 ∘ h

/-- An operation that leaves the tables. -/
theorem TableKeeps.of_tables (h : tables t.xfer = tables s.xfer) : TableKeeps s t := by
  simp only [tables, Prod.mk.injEq] at h
  obtain ⟨hm, he, hs⟩ := h
  exact fun ⟨h1, h2, h3⟩ => ⟨hm ▸ h1, he ▸ h2, hs ▸ h3⟩

/-- An operation outside the time transfer engine. -/
theorem TableKeeps.of_same (hx : t.xfer = s.xfer) : TableKeeps s t := .of_tables (by rw [hx])

theorem TableKeeps.of_changes {l : List Block} (h : OnlyChanges l s t) (hx : .xfer ∉ l) : TableKeeps s t :=
  .of_same (h .xfer hx)

/-- An operation of the servo or of the timing states. -/
theorem TableKeeps.of_servo (h : withoutServo t.xfer = withoutServo s.xfer) : TableKeeps s t :=
  .of_tables (tables_of_withoutServo h)

theorem TableKeeps.of_ite {p : Prop} [Decidable p] (h : p → TableKeeps s t) : TableKeeps s (if p then t else s) := by
  split
  · exact h ‹_›
  · exact .refl s

theorem TableKeeps.of_ite' {p : Prop} [Decidable p] (h : p → TableKeeps s t) (h2 : ¬p → TableKeeps s u) :
    TableKeeps s (if p then t else u) := by
  split
  · exact h ‹_›
  · exact h2 ‹_›

/-- Consequences taken in any order (R175). -/
theorem unordered_tableKeeps {acts : List (State → State)} (h : ∀ f ∈ acts, ∀ t, TableKeeps t (f t)) :
    TableKeeps s (unordered acts s) := fun hs =>
  List.foldlRecOn (motive := fun t => TablesFit t.xfer) (permute (Config.order s.freeUses) acts) _
    (show TablesFit (s.setFreeUses (s.freeUses + 1)).xfer from hs) fun t ht f hf => h f (mem_permute.mp hf) t ht

/-! The exchange table (R65, R66, R73, R74). -/

theorem removeExchange_tableKeeps (q : BitVec 16) (s : State) : TableKeeps s (removeExchange q s) :=
  fun ⟨h1, h2, h3⟩ => ⟨h1, h2.sublist List.filter_sublist, h3⟩

theorem setExchange_tableKeeps (e : Exchange) (s : State) : TableKeeps s (setExchange e s) :=
  fun ⟨h1, h2, h3⟩ => ⟨h1, h2.update, h3⟩

theorem xferCount_tableKeeps (f : TransferCounters → TransferCounters) (s : State) : TableKeeps s (xferCount f s) :=
  id

theorem enterOffer_tableKeeps (q : BitVec 16) (a : Stamp) (b : TakenStamp) (s : State) :
    TableKeeps s (enterOffer q a b s) := by
  rintro ⟨h1, h2, h3⟩
  simp only [enterOffer]
  split
  · rename_i hold
    exact ⟨h1, h2.replace (e := newExchange s q a b) (by simpa [newExchange] using hold), h3⟩
  · rename_i hnew
    replace hnew : ∀ y ∈ s.xfer.exchanges, y.offerSeq ≠ (newExchange s q a b).offerSeq := by
      simpa [newExchange] using hnew
    split
    · exact ⟨h1, h2.push ‹_› hnew, h3⟩
    · exact ⟨h1, h2.shift (Nat.le_of_not_lt ‹_›) hnew, h3⟩

theorem acceptSample_tables (x : Sample) (s : State) : tables (acceptSample x s).xfer = tables s.xfer := by
  have hjoin : ∀ u, tables (joinBlock x u).xfer = tables u.xfer := fun u => by
    simp only [joinBlock]
    repeat' split
    · rfl
    · rw [tables_of_withoutServo (applySelection_withoutServo _)]
      rfl
    · rfl
  simp only [acceptSample, hjoin]
  split
  · rw [moveTiming_xfer]
    rfl
  · rfl

theorem computeSample_tables (a : Stamp) (b c : TakenStamp) (d : Stamp) (s : State) :
    tables (computeSample a b c d s).xfer = tables s.xfer := by
  simp only [computeSample]
  iterate 5
    split
    · rfl
  exact acceptSample_tables _ s

theorem matchAnswer_tableKeeps (o q : BitVec 16) (d : Stamp) (s : State) : TableKeeps s (matchAnswer o q d s) := by
  simp only [matchAnswer]
  repeat' split
  · exact (removeExchange_tableKeeps o s).trans (.of_tables (computeSample_tables _ _ _ _ _))
  · exact setExchange_tableKeeps _ s
  all_goals exact xferCount_tableKeeps _ s

/-! The pending message table (R62 to R64). -/

theorem forgetPending_tableKeeps (line : Nat) (s : State) : TableKeeps s (forgetPending line s) :=
  fun ⟨h1, h2, h3⟩ => ⟨h1.sublist List.filter_sublist, h2, h3⟩

theorem enterPending_tableKeeps (m : PendingMessage) (s : State) : TableKeeps s (enterPending m s) := by
  rintro ⟨h1, h2, h3⟩
  simp only [enterPending]
  split
  · rename_i hold
    exact ⟨h1.replace (by simpa using hold), h2, h3⟩
  · rename_i hnew
    replace hnew : ∀ y ∈ s.xfer.pendingTable, y.line ≠ m.line := by simpa using hnew
    split
    · exact ⟨h1.push ‹_› hnew, h2, h3⟩
    · exact ⟨h1.shift (Nat.le_of_not_lt ‹_›) hnew, h2, h3⟩

theorem frameWrite_tableKeeps (line : Nat) (mask : BitVec 64) (d : Line) (s : State) :
    TableKeeps s (frameWrite line mask d s) := by
  simp only [frameWrite]
  repeat' split
  case isFalse => exact enterPending_tableKeeps _ s
  all_goals exact forgetPending_tableKeeps line s

theorem routeTiming_tableKeeps (a : Nat) (b : TakenStamp) (s : State) : TableKeeps s (routeTiming a b s) := by
  simp only [routeTiming]
  split
  · rename_i m _
    have hout : TableKeeps s
        (s.updXfer fun x => { x with pendingTable := x.pendingTable.filter fun y => y.line != m.line }) :=
      forgetPending_tableKeeps m.line s
    split
    · exact hout.trans (enterOffer_tableKeeps _ _ _ _)
    · exact hout.trans (matchAnswer_tableKeeps _ _ _ _)
  · exact xferCount_tableKeeps _ s

/-! The slots of the part's transmit ring (R68 to R72). -/

theorem freeSlot_tableKeeps (j : Nat) (s : State) : TableKeeps s (freeSlot j s) :=
  fun ⟨h1, h2, h3⟩ => ⟨h1, h2, (testSlots_set_other _ j rfl).trans h3⟩

theorem postQuery_tableKeeps (j : Nat) (o q : BitVec 16) (s : State) : TableKeeps s (postSlot j (.query o q) s) :=
  fun ⟨h1, h2, h3⟩ => ⟨h1, h2, (testSlots_set_other _ j rfl).trans h3⟩

/-- The slot request of a test frame is granted with five slots FREE (R70). -/
theorem postTest_tableKeeps (j : Nat) (q : BitVec 16) (h : 5 ≤ freeSlots s) :
    TableKeeps s (postSlot j (.test q) s) := by
  have hone := testSlots_set s.xfer.slots j (.test q)
  have hall := testSlots_freeSlots s
  exact fun ⟨h1, h2, _⟩ => ⟨h1, h2, by simp only [postSlot, State.updXfer_xfer]; omega⟩

theorem resetSlots_tableKeeps (s : State) : TableKeeps s (resetSlots s) := by
  have hx : (resetSlots s).xfer = { s.xfer with slots := Vector.replicate 64 .free, ringPointer := 0 } := by
    simp [resetSlots]
  have hfree : testSlots (Vector.replicate 64 .free) ≤ 60 := by decide
  rintro ⟨h1, h2, -⟩
  rw [hx]
  exact ⟨h1, h2, hfree⟩

theorem queryCompletion_tableKeeps (o q : BitVec 16) (sent : Bool) (c : TakenStamp) (s : State) :
    TableKeeps s (queryCompletion o q sent c s) := by
  have hreoffer : ∀ e, TableKeeps s
      (xferCount (fun c => { c with queryNotSent := satInc c.queryNotSent }) (setExchange (reoffer e) s)) := fun e =>
    setExchange_tableKeeps (reoffer e) s
  have horphan := xferCount_tableKeeps (fun c => { c with cOrphan := satInc c.cOrphan }) s
  simp only [queryCompletion]
  split
  · split
    · split
      · exact setExchange_tableKeeps _ s
      · exact hreoffer _
    · split
      · split
        · exact (removeExchange_tableKeeps o s).trans (.of_tables (computeSample_tables _ _ _ _ _))
        · exact horphan
      · exact hreoffer _
    all_goals exact horphan
  · exact horphan

theorem queryLost_tableKeeps (o q : BitVec 16) (s : State) : TableKeeps s (queryLost o q s) := by
  simp only [queryLost]
  split
  · exact removeExchange_tableKeeps o s
  · exact .refl s

theorem queryRejected_tableKeeps (o q : BitVec 16) (s : State) : TableKeeps s (queryRejected o q s) := by
  simp only [queryRejected]
  split
  · exact setExchange_tableKeeps _ s
  · exact .refl s

theorem loopDescriptorEvent_tableKeeps (j : Nat) (q : BitVec 16) (f : DescriptorFate) (s : State) :
    TableKeeps s (loopDescriptorEvent j q f s) := .of_same (by simp)

theorem slotCompleted_tableKeeps (line : Nat) (timing sent : Bool) (c : TakenStamp) (s : State) :
    TableKeeps s (slotCompleted line timing sent c s) := by
  have horphan : ∀ u, TableKeeps u
      (if timing then xferCount (fun c => { c with cOrphan := satInc c.cOrphan }) u else u) := fun u =>
    .of_ite fun _ => xferCount_tableKeeps _ u
  simp only [slotCompleted]
  split
  · rename_i j _
    have hfree := freeSlot_tableKeeps j s
    split
    · exact .of_ite' (fun _ => hfree.trans (queryCompletion_tableKeeps _ _ _ _ _)) fun _ => hfree
    · exact (hfree.trans (horphan _)).trans (loopDescriptorEvent_tableKeeps _ _ _ _)
    · exact horphan s
  · exact horphan s

theorem slotLost_tableKeeps (line : Nat) (s : State) : TableKeeps s (slotLost line s) := by
  simp only [slotLost]
  repeat' split
  · exact (freeSlot_tableKeeps _ s).trans (queryLost_tableKeeps _ _ _)
  · exact (freeSlot_tableKeeps _ s).trans (loopDescriptorEvent_tableKeeps _ _ _ _)
  all_goals exact .refl s

theorem slotRejected_tableKeeps (line sequence : Nat) (s : State) : TableKeeps s (slotRejected line sequence s) := by
  have horphan := xferCount_tableKeeps (fun c => { c with rejectOrphan := satInc c.rejectOrphan }) s
  simp only [slotRejected]
  repeat' split
  · exact (freeSlot_tableKeeps _ s).trans (queryRejected_tableKeeps _ _ _)
  · exact horphan
  · exact (freeSlot_tableKeeps _ s).trans (loopDescriptorEvent_tableKeeps _ _ _ _)
  all_goals exact horphan

theorem slotRemoved_tableKeeps (line : Nat) (s : State) : TableKeeps s (slotRemoved line s) := by
  simp only [slotRemoved]
  split
  · exact freeSlot_tableKeeps _ s
  · exact .refl s

/-! The timers of the two engines (R67, R74, R83, R144). -/

theorem queryExpiry_tableKeeps (s : State) : TableKeeps s (queryExpiry s) := by
  have hmake : ∀ l j u, TableKeeps u (makeReq l j u) := fun _ _ _ => .of_same (by simp)
  have hsend : ∀ w j e u, TableKeeps u (sendQuery w j e u) := fun w j e u => by
    simp only [sendQuery]
    refine TableKeeps.trans ?_ (hmake _ _ _)
    exact (postQuery_tableKeeps j e.offerSeq u.xfer.querySeq u).trans (setExchange_tableKeeps _ _)
  have hset : TableKeeps s
      (s.updXfer fun x => { x with queryTimer := x.queryTimer.map fun d => d + queryPeriod x.params }) := id
  simp only [queryExpiry, tryQuery]
  repeat' split
  · exact hset.trans (xferCount_tableKeeps _ _)
  · exact hset.trans (xferCount_tableKeeps _ _)
  · exact hset.trans (hsend _ _ _ _)
  · exact hset.trans (xferCount_tableKeeps _ _)

theorem exchangeExpiry_tableKeeps (q : BitVec 16) (s : State) : TableKeeps s (exchangeExpiry q s) :=
  removeExchange_tableKeeps q s

theorem blockExpiry_tableKeeps (s : State) : TableKeeps s (blockExpiry s) :=
  TableKeeps.trans (show TableKeeps s (s.updXfer fun x => { x with blockTimer := none }) from id)
    (.of_servo (loseTiming_withoutServo 5))

theorem sendExpiry_tableKeeps (s : State) : TableKeeps s (sendExpiry s) := by
  have hframe : ∀ w j u, 5 ≤ freeSlots u → TableKeeps u (generateFrame w j u) := fun w j u h =>
    (postTest_tableKeeps j (BitVec.ofNat 16 u.loop.nextSeq) h).trans (.of_same (by simp [generateFrame]))
  have htry : ∀ u, TableKeeps u (trySend u) := fun u => by
    simp only [trySend]
    repeat' split
    · exact .of_same rfl
    · exact hframe _ _ u ‹_›
    all_goals exact .of_same rfl
  exact htry (s.updLoop _)

/-! The link monitor's events, which the engine learns of (R11, R83). -/

theorem linkTaken_tableKeeps (event : LinkMonitor → LinkWork) (again : Bool) (s : State) :
    TableKeeps s (linkTaken event again s) := by
  obtain ⟨hx, -, -⟩ := linkShown_frame (event := event) (again := again) (s := s)
  rw [linkTaken_eq]
  split
  · refine (TableKeeps.of_same hx).trans (unordered_tableKeeps fun f hf t => ?_)
    rcases linkNews_cases hf with rfl | rfl | rfl | rfl
    · exact .of_servo (loseTiming_withoutServo 6)
    all_goals exact .of_same (by simp)
  · exact .of_same hx

/-! The admission unit, which hands descriptor lines to the engine's slots (R30, R33, R38). -/

theorem txCompletion_tableKeeps (w : Window) (line : Nat) (d : Line) (s : State) :
    TableKeeps s (txCompletion w line d s).2 := by
  cases hf : flightOf s line with
  | none =>
    simp only [txCompletion, hf]
    exact .of_same (by simp)
  | some e =>
    obtain ⟨-, -, -, hframe⟩ := completed_spec s line e (descStatus d == 1)
    rw [txCompletion_matched d hf]
    have h : TableKeeps s (completed s line e (descStatus d == 1)) := .of_changes hframe (by decide)
    generalize completed s line e (descStatus d == 1) = u at *
    split
    · exact (h.trans (.of_same (by simp))).trans (slotCompleted_tableKeeps _ _ _ _ (countStamp _ u))
    · exact h.trans (slotRemoved_tableKeeps line u)

theorem rxCompletion_tableKeeps (d : Line) (s : State) : TableKeeps s (rxCompletion d s).2 := by
  have hcounted : ∀ c, TableKeeps s (countStamp c (countRx d s)) := fun _ => .of_same (by simp)
  simp only [rxCompletion]
  repeat' split
  · exact (hcounted _).trans (routeTiming_tableKeeps _ _ _)
  · exact (hcounted (takeStamp (countRx d s) false d)).trans (.of_same (by simp))
  · exact .of_same (by simp)

theorem overwrite_tableKeeps (line : Nat) (mask : BitVec 64) (d : Line) (s : State) :
    TableKeeps s (overwrite line mask d s) := by
  have hunlist : ∀ u, TableKeeps s u → TableKeeps s (if clearsReady mask d then unlist line u else u) := fun u hu =>
    hu.trans (.of_ite fun _ => .of_same (by simp))
  rw [overwrite]
  refine hunlist _ ?_
  split
  · exact TableKeeps.trans (.of_same (by simp)) (slotLost_tableKeeps line (countCls _ _ (removeFlight line s)))
  · exact .refl s

theorem flightExpiry_tableKeeps (e : FlightEntry) (s : State) : TableKeeps s (flightExpiry e s) :=
  TableKeeps.trans (.of_same (by simp)) (slotLost_tableKeeps e.line (report 0x05 (flightTimeoutBody e)
    (countCls e.cls (fun k => { k with lost := satInc k.lost }) (removeFlight e.line s))))

theorem judge_tableKeeps (i : Nat) (w : Window) (line : Nat) (d : Line) (s : State) :
    TableKeeps s (judge i w line d s).2 := by
  have hreject : ∀ reason, TableKeeps s (reject i w line d reason s) := fun reason => by
    have hby : TableKeeps s (rejectedBy i w line d reason s) := .of_same (by simp [rejectedBy, rejectFrom])
    rw [reject_eq]
    split
    · exact hby.trans (slotRejected_tableKeeps _ _ _)
    · exact hby
  simp only [judge]
  repeat' split
  case h_1 => exact hreject _
  all_goals exact .of_same (by simp)

/-! The records (R13 to R15, R49, R86, R99, R163). -/

theorem applyWindow_tableKeeps (d : Line) (s : State) : TableKeeps s (applyWindow d s) := by
  have habort : ∀ r u, TableKeeps u (abortLoop r u) := fun _ _ => .of_same (by simp)
  have hwindows : ∀ f, TableKeeps s (s.updWindows f) := fun _ => .of_same rfl
  simp only [applyWindow]
  repeat' split
  · exact .refl s
  · exact ((hwindows _).trans (resetSlots_tableKeeps _)).trans (habort _ _)
  all_goals exact hwindows _

theorem applyTimeset_tableKeeps (d : Line) (s : State) : TableKeeps s (applyTimeset d s) :=
  .of_tables (by rw [applyTimeset, setCounter, afterTimeChange_xfer]; rfl)

/-- Of the parts of a CLEAR record, the TIMING group's clears the engine's counters (R88, R163). -/
theorem applyClear_tableKeeps (d : Line) (s : State) : TableKeeps s (applyClear d s) := by
  have hpart : ∀ g n f (u : State), (∀ v, TableKeeps v (f v)) → TableKeeps u (whenBit g n f u) := fun _ _ _ u h =>
    .of_ite fun _ => h u
  have hecc : ∀ u, TableKeeps u (clearEcc u) := fun _ => .of_same (by simp)
  have hports : ∀ u, TableKeeps u (clearPorts u) := fun _ => .of_same (by simp)
  have hadm : ∀ u, TableKeeps u (clearAdmission u) := fun _ => .of_same (by simp)
  have htests : ∀ u, TableKeeps u (clearLoop (clearMarch u)) := fun _ => .of_same (by simp)
  have hconds : ∀ f u, TableKeeps u (changeConditions 5 f u) := fun _ _ => .of_same (by simp)
  rw [applyClear]
  exact (hpart _ _ _ s hecc).trans <| (hpart _ _ _ _ hports).trans <| (hpart _ _ _ _ hadm).trans <|
    (hpart _ _ _ _ (xferCount_tableKeeps _)).trans <| (hpart _ _ _ _ htests).trans (hconds _ _)

theorem TableKeeps.checked {o : RecordOutcome} {f : State → State} (h : TableKeeps s (f s)) :
    TableKeeps s (checked o f s).2 := by
  unfold Machine.checked
  split
  · exact h
  · exact .refl s

/-- Of the records, WINDOW, PROFILE, LINK, TIMING, TIMESET and CLEAR reach the engine. -/
theorem examineKind_tableKeeps (kind : Nat) (d : Line) (s : State) : TableKeeps s (examineKind kind d s).2 := by
  unfold examineKind
  split
  case h_1 => exact .checked (applyWindow_tableKeeps d s)
  case h_2 => exact .checked (linkTaken_tableKeeps _ _ s)
  case h_5 => exact .checked (linkTaken_tableKeeps _ _ s)
  case h_6 => exact .checked id
  case h_7 => exact .checked (applyTimeset_tableKeeps d s)
  case h_15 => exact .checked (applyClear_tableKeeps d s)
  case h_11 | h_12 | h_13 | h_16 | h_18 => exact .of_same (by simp)
  all_goals exact .checked (.of_same (by simp))

theorem examineRecord_tableKeeps (line : Nat) (mask : BitVec 64) (d : Line) (s : State) :
    TableKeeps s (examineRecord line mask d s) := by
  have hfull : TableKeeps s (examineFull line d s) := by
    rw [examineFull]
    have hkind := examineKind_tableKeeps (field d 1 1) d s
    generalize examineKind (field d 1 1) d s = x at *
    refine hkind.trans ?_
    repeat' split
    all_goals exact .of_same (by simp [passResult])
  simp only [examineRecord]
  repeat' split
  · exact .of_same (by simp)
  · exact .of_same (by simp)
  · exact hfull

/-! The classification of a port's requests (R96). -/

theorem observe_tableKeeps (x : Sighting) (w : Window) (r : LineRequest) (s : State) :
    TableKeeps s (observe x w r s).2 := by
  simp only [observe]
  split
  case h_1 => exact linkTaken_tableKeeps _ _ s
  case h_3 => exact txCompletion_tableKeeps _ _ _ s
  case h_5 => exact overwrite_tableKeeps _ _ _ s
  case h_6 => exact rxCompletion_tableKeeps _ s
  case h_7 => exact frameWrite_tableKeeps _ _ _ s
  case h_9 | h_10 | h_11 => exact examineRecord_tableKeeps _ _ _ s
  all_goals exact .of_same (by simp)

theorem classifyWhen_tableKeeps (sort : Sighting → Bool) (p : Port) (s : State) :
    TableKeeps s (classifyWhen sort p s) := by
  have haccept : ∀ id r win stamp u, TableKeeps u (accept id p r win stamp u) := fun _ _ _ _ _ => .of_same (by simp)
  have hrequest : ∀ id r, TableKeeps s (classifyRequest id p r s) := fun id r => by
    simp only [classifyRequest]
    split
    case h_1 | h_2 | h_3 => exact .of_same (by simp)
    all_goals
      split
      · exact haccept _ _ _ _ s
      · exact (observe_tableKeeps _ _ r s).trans (haccept _ _ _ _ _)
  unfold classifyWhen
  split
  · exact .of_ite fun _ => hrequest _ _
  · exact .refl s

/-! The resets and the oscillator (R45, R55, R171). -/

theorem emptyTables_fit {x : Transfer} (h : tables x = tables Initial.xfer) : TablesFit x := by
  simp only [tables, Prod.mk.injEq] at h
  obtain ⟨hm, he, hs⟩ := h
  refine ⟨?_, ?_, ?_⟩
  · rw [hm]; exact ⟨by decide, by decide⟩
  · rw [he]; exact ⟨by decide, by decide⟩
  · rw [hs]; decide

theorem resetLineAssert_tableKeeps (h : execResetLineAssert s = .next t) : TableKeeps s t := by
  have hreset : TableKeeps s (underReset s) := fun _ => emptyTables_fit rfl
  simp only [execResetLineAssert, Host.Outcome.next.injEq] at h
  subst h
  repeat' split
  · exact .refl s
  · exact hreset
  · exact .refl s
  · exact hreset

theorem resetLineDeassert_tableKeeps (s : State) : TableKeeps s (copyPump (takeLevels (startTimers s))) := by
  have hstart : TableKeeps s (startTimers s) := id
  refine hstart.trans ?_
  generalize startTimers s = v
  exact .of_same (by simp [takeLevels])

theorem onePeriod_tableKeeps (s : State) : TableKeeps s (onePeriod s) := by
  have hroll : ∀ u, TableKeeps u (rolledOver u) := fun u =>
    TableKeeps.trans (t := timingPulse (startPulse u)) (.of_servo timingPulse_withoutServo)
      (.of_same (by simp [rolledOver]))
  have hadd : TableKeeps s (periodAdded s) := id
  simp only [onePeriod]
  split
  · exact hadd.trans (hroll _)
  · exact hadd

/-! Every row. -/

/-- Of the rows at the memory port, the judgement of a descriptor read reaches the engine. -/
theorem descriptorDone_tableKeeps (f : LineFlips) (s : State) : TableKeeps s (descriptorDone f s) := by
  have hans : ∀ a y u, TableKeeps u (answer a y u) := fun _ _ _ => .of_same (by simp)
  have hread : ∀ p a o (deliver : Line → State → Line × State) u, (∀ d v, TableKeeps v (deliver d v).2) →
      TableKeeps u (completeRead p a o deliver u) := fun p a o deliver u h => by
    have hout : TableKeeps u (takeOutcome (.port p) a.line a.memLine o u) := .of_same (by simp)
    simp only [completeRead]
    repeat' split
    · exact .of_same (by simp)
    · exact .of_same (by simp)
    · exact hout.trans (hans _ _ _)
    · exact hout.trans ((h _ _).trans (hans _ _ _))
  have hpop : ∀ a, TableKeeps s (popRead f a s) := fun _ => .of_same (by simp)
  simp only [descriptorDone]
  split
  · split
    · refine (hpop _).trans (hread _ _ _ _ _ fun d v => ?_)
      split
      · exact judge_tableKeeps _ _ _ d v
      · exact .refl v
    · exact .refl s
  · exact .refl s

/-- What a row that is no completion does. -/
theorem exec_otherRow_tableKeeps {i : Instr} (hi : isCompletion i = false) (h : exec i s = .next t) :
    TableKeeps s t := by
  cases i <;> cases h
  case powerOn straps => exact fun _ => emptyTables_fit rfl
  case resetLineAssert => exact resetLineAssert_tableKeeps rfl
  case resetLineDeassert => exact .of_ite fun _ => resetLineDeassert_tableKeeps s
  case oscillatorPeriod => exact onePeriod_tableKeeps s
  case rollover => exact .of_ite fun _ => onePeriod_tableKeeps s
  case descriptorReadJudged f => exact descriptorDone_tableKeeps f s
  case statusTimerExpiry | restoreHoldExpiry | upshiftHoldExpiry => exact .of_ite fun _ => linkTaken_tableKeeps _ _ s
  case flightTimeout =>
    split
    · exact .of_ite fun _ => flightExpiry_tableKeeps _ s
    · exact .refl s
  case exchangeTimeout =>
    split
    · exact .of_ite fun _ => exchangeExpiry_tableKeeps _ s
    · exact .refl s
  case lossTimeout =>
    split
    · exact .of_ite fun _ => .of_same (by simp)
    · exact .refl s
  case queryTimerExpiry => exact .of_ite fun _ => queryExpiry_tableKeeps s
  case blockTimerExpiry => exact .of_ite fun _ => blockExpiry_tableKeeps s
  case sendTimerExpiry => exact .of_ite fun _ => sendExpiry_tableKeeps s
  case lineRequestTaken | arbiterGrant | lockStationArrival | responseReturned | reportTimerExpiry =>
    exact .of_same (by simp)
  case pulseEnd | todMessageEnd | synthLockExpiry | refillTimerExpiry | ageTimerExpiry | scrubTimerExpiry |
      retryTimerExpiry => exact .of_ite fun _ => .of_same (by simp)
  case portReadComplete | portWriteComplete | rmwReadComplete | rmwWriteComplete | internalPartialReadComplete |
      internalWriteComplete | queryFrameWriteComplete | testFrameWriteComplete | reportEntryWriteComplete |
      snapshotLineWriteComplete | scrubReadComplete | scrubWritebackComplete | copyReadComplete | copyWriteComplete |
      marchReadComplete | marchWriteComplete => exact nomatch hi
  all_goals exact classifyWhen_tableKeeps _ _ s

theorem exec_tableKeeps {i : Instr} (h : exec i s = .next t) : TableKeeps s t := by
  cases hi : isCompletion i with
  | true => exact .of_changes (onlyChanges_iff.mpr (exec_completed hi h)) (by decide)
  | false => exact exec_otherRow_tableKeeps hi h

/-- Settles O6: every row keeps the tables' bounds, and the idle step leaves them. -/
theorem transferTablesKept : Obligations.TransferTablesKept := by
  unfold Obligations.TransferTablesKept
  intro s t hs h
  rw [tableLaw_iff] at hs ⊢
  unfold step at h
  split at h
  · cases h
    exact hs
  · rename_i rest _
    exact exec_tableKeeps (s := s.setPending rest) h hs

end TableKeeps
end Sys2Proof.Machine


namespace Sys2Proof.Machine

/-! ### Frame writes and the pending message table (R62, R63) -/

section FrameWrites

variable {s : State} {d : Line} {line : Nat} {mask : BitVec 64} {m : PendingMessage}

/-- The tests of a frame's kind and of its stamp (R62). -/
theorem frameWellFormed_iff :
    frameWellFormed d = true ↔ (field d 0 1 = 1 ∨ field d 0 1 = 3) ∧ field d 12 4 ≤ 999999999 := by
  simp only [frameWellFormed, Bool.and_eq_true, Bool.or_eq_true, beq_iff_eq]
  exact and_congr_right fun _ => decide_eq_true_iff

theorem enterPending_replaced (h : ∃ y ∈ s.xfer.pendingTable, y.line = m.line) :
    (enterPending m s).xfer = { s.xfer with
      pendingTable := s.xfer.pendingTable.filter (fun y => y.line != m.line) ++ [m]
      counters := { s.xfer.counters with pendingReplaced := satInc s.xfer.counters.pendingReplaced } } := by
  rw [enterPending, if_pos (by simpa using h)]
  rfl

theorem enterPending_new (h : ∀ y ∈ s.xfer.pendingTable, y.line ≠ m.line) (hl : s.xfer.pendingTable.length < 8) :
    (enterPending m s).xfer = { s.xfer with pendingTable := s.xfer.pendingTable ++ [m] } := by
  rw [enterPending, if_neg (by simpa using h), if_pos hl]
  rfl

theorem enterPending_full (h : ∀ y ∈ s.xfer.pendingTable, y.line ≠ m.line) (hl : 8 ≤ s.xfer.pendingTable.length) :
    (enterPending m s).xfer = { s.xfer with
      pendingTable := s.xfer.pendingTable.drop 1 ++ [m]
      counters := { s.xfer.counters with pendingDropped := satInc s.xfer.counters.pendingDropped } } := by
  rw [enterPending, if_neg (by simpa using h), if_neg (Nat.not_lt.mpr hl)]
  rfl

theorem frameWrite_partial (h : maskFull mask = false) :
    (frameWrite line mask d s).xfer = { s.xfer with
      pendingTable := s.xfer.pendingTable.filter fun y => y.line != line
      counters := { s.xfer.counters with partialFrame := satInc s.xfer.counters.partialFrame } } := by
  rw [frameWrite, if_pos h]
  rfl

theorem frameWrite_bad (h : maskFull mask = true) (hw : ¬frameWellFormed d = true) :
    (frameWrite line mask d s).xfer = { s.xfer with
      pendingTable := s.xfer.pendingTable.filter fun y => y.line != line
      counters := { s.xfer.counters with badFrame := satInc s.xfer.counters.badFrame } } := by
  rw [frameWrite, if_neg (by simp [h]), if_pos (by simpa using hw)]
  rfl

theorem frameWrite_foreign (h : maskFull mask = true) (hw : frameWellFormed d = true)
    (hd : field d 1 1 ≠ s.xfer.params.domain) :
    (frameWrite line mask d s).xfer = { s.xfer with
      pendingTable := s.xfer.pendingTable.filter fun y => y.line != line
      counters := { s.xfer.counters with domainMismatch := satInc s.xfer.counters.domainMismatch } } := by
  rw [frameWrite, if_neg (by simp [h]), if_neg (by simp [hw]), if_pos hd]
  rfl

theorem frameWrite_parsed (h : maskFull mask = true) (hw : frameWellFormed d = true)
    (hd : field d 1 1 = s.xfer.params.domain) :
    frameWrite line mask d s = enterPending (pendingOf s line d) s := by
  rw [frameWrite, if_neg (by simp [h]), if_neg (by simp [hw]), if_neg (not_not_intro hd)]

end FrameWrites

/-- Settles O37: the row accepts the write after the engine has handled it, test by test. -/
theorem frameWriteEntersTable : Obligations.FrameWriteEntersTable := by
  unfold Obligations.FrameWriteEntersTable
  rintro s id r i w good m rest ⟨hn, hx, hw⟩ hgood rfl rfl
  rw [← frameWellFormed_iff] at hgood
  simp only [hgood]
  have hrow : exec .frameWrite s = .next
      (accept id .modem r (some (i, w)) none (frameWrite (reqLine r) (reqMask r) (seen r) s)) :=
    congrArg _ (observed_row hn hx hw rfl (by simp))
  refine ⟨_, hrow, onlyChanges_iff.mpr (by simp), ?_⟩
  simp only [accept_frame]
  refine ⟨frameWrite_partial, frameWrite_bad, frameWrite_foreign, fun hm hg hd => ?_⟩
  rw [frameWrite_parsed hm hg hd]
  exact ⟨enterPending_replaced (m := pendingOf s (reqLine r) (seen r)), fun h =>
    ⟨enterPending_new (m := pendingOf s (reqLine r) (seen r)) h,
      enterPending_full (m := pendingOf s (reqLine r) (seen r)) h⟩⟩

end Sys2Proof.Machine

namespace Sys2Proof.Machine

/-! ### Samples (R75 to R77, R81) -/

section Samples

variable {s : State} {a d : Stamp} {b c : TakenStamp} {x y : Sample}

/-- The selection: no older sample of the block has less delay, and every newer one has more (R77). -/
theorem selectSample_spec {l : List Sample} (h : l ≠ []) : ∃ (y : Sample) (pre post : List Sample),
    l = pre ++ y :: post ∧ (∀ z ∈ pre, y.delay ≤ z.delay) ∧ (∀ z ∈ post, y.delay < z.delay) ∧
    selectSample l = some y := by
  induction l with
  | nil => exact absurd rfl h
  | cons x xs ih =>
    by_cases hxs : xs = []
    · subst hxs
      exact ⟨x, [], [], rfl, by simp, by simp, rfl⟩
    · obtain ⟨y, pre, post, hl, hpre, hpost, hy⟩ := ih hxs
      by_cases hle : y.delay ≤ x.delay
      · exact ⟨y, x :: pre, post, by rw [hl, List.cons_append], List.forall_mem_cons.mpr ⟨hle, hpre⟩, hpost,
          by simp only [selectSample, hy, if_pos hle]⟩
      · refine ⟨x, [], xs, rfl, by simp, fun z hz => ?_, by simp only [selectSample, hy, if_neg hle]⟩
        have hlt := Int.not_le.mp hle
        rw [hl, List.mem_append, List.mem_cons] at hz
        rcases hz with hz | rfl | hz
        · exact Int.lt_of_lt_of_le hlt (hpre z hz)
        · exact hlt
        · exact Int.lt_trans hlt (hpost z hz)

/-! The tests in order (R75, R76). -/

theorem computeSample_invalid (h : b.valid = false ∨ c.valid = false) :
    computeSample a b c d s = xferCount (fun k => { k with invalid := satInc k.invalid }) s := if_pos h

/-- Both stamps that the node took are valid and of the current epoch. -/
def StampsCurrent (s : State) (b c : TakenStamp) : Prop :=
  ¬(b.valid = false ∨ c.valid = false) ∧ ¬(b.epoch ≠ c.epoch ∨ b.epoch ≠ s.time.epoch)

theorem computeSample_epoch (hv : ¬(b.valid = false ∨ c.valid = false))
    (h : b.epoch ≠ c.epoch ∨ b.epoch ≠ s.time.epoch) :
    computeSample a b c d s = xferCount (fun k => { k with epochDiscard := satInc k.epochDiscard }) s :=
  (if_neg hv).trans (if_pos h)

theorem computeSample_range (hc : StampsCurrent s b c)
    (h : 2147483647 < |totalNs b.stamp - totalNs a| ∨ 2147483647 < |totalNs d - totalNs c.stamp|) :
    computeSample a b c d s = xferCount (fun k => { k with sampleRange := satInc k.sampleRange }) s :=
  (if_neg hc.1).trans ((if_neg hc.2).trans (if_pos h))

/-- What becomes of a sample that the four stamps give, by its delay (R76). -/
theorem computeSample_sample (hc : StampsCurrent s b c)
    (h : ¬(2147483647 < |totalNs b.stamp - totalNs a| ∨ 2147483647 < |totalNs d - totalNs c.stamp|))
    (hx : x = ⟨sampleOffset (totalNs b.stamp - totalNs a) (totalNs d - totalNs c.stamp) s.xfer.params.pathDifference,
      sampleDelay (totalNs b.stamp - totalNs a) (totalNs d - totalNs c.stamp)⟩) :
    computeSample a b c d s =
      if x.delay < 0 then xferCount (fun k => { k with negative := satInc k.negative }) s
      else if (s.xfer.params.maximumDelay : Int) < x.delay then
        xferCount (fun k => { k with tooLong := satInc k.tooLong }) s
      else acceptSample x s := by
  subst hx
  exact (if_neg hc.1).trans ((if_neg hc.2).trans (if_neg h))

/-! An accepted sample (R76, R77, R81). -/

/-- The sample counts, and the block timer restarts. -/
def sampleCounted (s : State) : State :=
  { s with xfer := { s.xfer with
    counters := { s.xfer.counters with samplesAccepted := satInc s.xfer.counters.samplesAccepted }
    blockTimer := some (s.now + ms (1000 * s.xfer.params.blockTimeout)) } }

theorem acceptSample_freerun (h : s.xfer.state = .freerun) : acceptSample x s =
    joinBlock x (moveTiming .acquire 1 (fun t => { t with runCount := 0 }) (sampleCounted s)) :=
  congrArg (joinBlock x) (if_pos h)

theorem acceptSample_other (h : s.xfer.state ≠ .freerun) : acceptSample x s = joinBlock x (sampleCounted s) :=
  congrArg (joinBlock x) (if_neg h)

theorem joinBlock_short (h : s.xfer.block.length < 7) :
    joinBlock x s = s.updXfer fun t => { t with block := s.xfer.block ++ [x] } :=
  if_pos (by rw [List.length_append, List.length_singleton]; omega)

theorem joinBlock_selects (h : 7 ≤ s.xfer.block.length) (hy : selectSample (s.xfer.block ++ [x]) = some y) :
    joinBlock x s = applySelection y.offset { s with xfer := { s.xfer with
      block := [], lastOffset := y.offset, lastDelay := y.delay
      counters := { s.xfer.counters with selections := satInc s.xfer.counters.selections } } } := by
  have hlen : ¬(s.xfer.block ++ [x]).length < 8 := by rw [List.length_append, List.length_singleton]; omega
  rw [joinBlock, if_neg hlen, hy]
  rfl

/-- A change of timing state that keeps the qualification makes its report and nothing else (R85). -/
theorem moveTiming_plain {new : TimingState} {cause : Nat} {f : Transfer → Transfer}
    (h : qualifiedState s.xfer.state = qualifiedState new) : moveTiming new cause f s =
    report 0x07 (timingStateBody s.xfer.state cause s.xfer.holdoverAge (s.updXfer fun x => f { x with state := new }))
      (s.updXfer fun x => f { x with state := new }) := if_pos h

/-- A sample that does not fill the block joins it, in FREERUN with the move to ACQUIRE (R77, R81). -/
theorem acceptSample_short (h : s.xfer.block.length < 7) : (acceptSample x s).time = s.time ∧
    (acceptSample x s).xfer = { (sampleCounted s).xfer with
      block := s.xfer.block ++ [x]
      state := if s.xfer.state = .freerun then .acquire else s.xfer.state
      runCount := if s.xfer.state = .freerun then 0 else s.xfer.runCount } := by
  by_cases hf : s.xfer.state = .freerun
  · have hblock : (moveTiming .acquire 1 (fun t => { t with runCount := 0 }) (sampleCounted s)).xfer.block =
        s.xfer.block := by rw [moveTiming_xfer]; rfl
    rw [acceptSample_freerun hf, joinBlock_short (by rw [hblock]; exact h), hblock]
    refine ⟨by simp [sampleCounted], ?_⟩
    rw [State.updXfer_xfer, moveTiming_xfer, if_pos hf, if_pos hf]
  · rw [acceptSample_other hf, joinBlock_short (s := sampleCounted s) h, if_neg hf, if_neg hf]
    exact ⟨rfl, rfl⟩

/-- Its report of the entry into ACQUIRE (R85). -/
theorem acceptSample_reported (h : s.xfer.block.length < 7) (hf : s.xfer.state = .freerun) :
    TimingStateReported s (acceptSample x s) 0 (timeNow s) .freerun 1 s.xfer.holdoverAge := by
  obtain ⟨htime, hxfer⟩ := acceptSample_short (x := x) h
  have hbody : timingStateBody .freerun 1 s.xfer.holdoverAge (acceptSample x s) =
      timingStateBody (sampleCounted s).xfer.state 1 (sampleCounted s).xfer.holdoverAge
        ((sampleCounted s).updXfer fun x => { x with state := .acquire, runCount := 0 }) := by
    simp [timingStateBody, htime, hxfer, sampleCounted, hf]
  have hq : qualifiedState (sampleCounted s).xfer.state = qualifiedState .acquire :=
    (congrArg qualifiedState hf).trans rfl
  have hcounted : Reporting s ((sampleCounted s).updXfer fun x => { x with state := .acquire, runCount := 0 }) 0 :=
    .of_same rfl rfl rfl rfl
  refine hcounted.among_now (body := timingStateBody .freerun 1 s.xfer.holdoverAge (acceptSample x s)) (m := 0)
    (Nat.le_refl 0) ?_
  rw [hbody, acceptSample_freerun hf, moveTiming_plain hq, joinBlock_short]
  · exact .updXfer _ _
  · simpa [sampleCounted] using h

end Samples

/-- Settles O30: the tests in their order, and of the accepted sample its place in the block. -/
theorem sampleComputed : Obligations.SampleComputed := by
  unfold Obligations.SampleComputed
  rintro s a d b c ba dc delay theta x discard rfl rfl hdelay1 hdelay2 htheta1 htheta2 hdiscard rfl
  simp only [hdiscard]
  refine ⟨computeSample_invalid, fun hb hc => ?_⟩
  have hvalid : ¬(b.valid = false ∨ c.valid = false) := by simp [hb, hc]
  refine ⟨computeSample_epoch hvalid, fun hbc hbs => ?_⟩
  have hcurrent : StampsCurrent s b c := ⟨hvalid, by simp [← hbc, hbs]⟩
  refine ⟨computeSample_range hcurrent, fun hba hdc => ?_⟩
  have hsample := computeSample_sample (x := ⟨theta, delay⟩) hcurrent
    (not_or.mpr ⟨Int.not_lt.mpr hba, Int.not_lt.mpr hdc⟩) (by rw [Sample.mk.injEq, sampleOffset, sampleDelay]; omega)
  dsimp only at hsample
  refine ⟨fun hneg => hsample.trans (if_pos hneg), fun hpos hlong =>
    hsample.trans ((if_neg (Int.not_lt.mpr hpos)).trans (if_pos hlong)), fun hpos hmax => ?_⟩
  rw [if_neg (Int.not_lt.mpr hpos), if_neg (Int.not_lt.mpr hmax)] at hsample
  rw [hsample]
  refine ⟨fun hlen => ?_, fun hlen hf => ?_⟩
  · obtain ⟨htime, hxfer⟩ := acceptSample_short (x := ⟨theta, delay⟩) hlen
    exact ⟨htime, hxfer, acceptSample_reported hlen⟩
  · obtain ⟨y, pre, post, hl, hpre, hpost, hy⟩ :=
      selectSample_spec (l := s.xfer.block ++ [⟨theta, delay⟩]) (by simp)
    exact ⟨y, pre, post, hl, hpre, hpost, (acceptSample_other hf).trans (joinBlock_selects hlen hy)⟩

end Sys2Proof.Machine

namespace Sys2Proof.Machine

/-! ### The query timer (R67 to R69) -/

section QueryTimer

variable {s : State} {d j : Nat} {e : Exchange} {w : Window}

/-- The search for a FREE slot finds one of the 64 (R68). -/
theorem nextFreeSlot_lt (h : nextFreeSlot s = some j) : j < 64 := by
  obtain ⟨i, -, hi⟩ := List.mem_map.mp (List.mem_of_find?_eq_some h)
  exact hi ▸ Nat.mod_lt _ (by decide)

theorem tryQuery_down (h : isDown s.link.state = true) :
    tryQuery s = xferCount (fun c => { c with noLink := satInc c.noLink }) s := if_pos h

theorem tryQuery_up (h : isDown s.link.state = false) : tryQuery s =
    match newestOffered s.xfer with
    | none => xferCount (fun c => { c with noOffer := satInc c.noOffer }) s
    | some e =>
      match windowOfKind s .partTx, nextFreeSlot s with
      | some w, some j => sendQuery w j e s
      | _, _ => xferCount (fun c => { c with noSlot := satInc c.noSlot }) s :=
  if_neg (by simp [h])

theorem tryQuery_noOffer (h : isDown s.link.state = false) (he : newestOffered s.xfer = none) :
    tryQuery s = xferCount (fun c => { c with noOffer := satInc c.noOffer }) s := by
  rw [tryQuery_up h, he]

theorem tryQuery_noSlot (h : isDown s.link.state = false) (he : newestOffered s.xfer = some e)
    (hs : windowOfKind s .partTx = none ∨ nextFreeSlot s = none) :
    tryQuery s = xferCount (fun c => { c with noSlot := satInc c.noSlot }) s := by
  rw [tryQuery_up h, he]
  rcases hs with hs | hs
  · rw [hs]
  · rw [hs]
    cases windowOfKind s .partTx <;> rfl

theorem tryQuery_sends (h : isDown s.link.state = false) (he : newestOffered s.xfer = some e)
    (hw : windowOfKind s .partTx = some w) (hj : nextFreeSlot s = some j) : tryQuery s = sendQuery w j e s := by
  rw [tryQuery_up h, he, hw, hj]

theorem sendQuery_xfer : (sendQuery w j e s).xfer = { s.xfer with
    slots := s.xfer.slots.setIfInBounds j (.query e.offerSeq s.xfer.querySeq)
    ringPointer := (j + 1) % 64
    querySeq := s.xfer.querySeq + 1
    exchanges := s.xfer.exchanges.map fun y => if y.offerSeq = e.offerSeq
      then { e with querySeq := some s.xfer.querySeq, state := .querySent } else y
    counters := { s.xfer.counters with queriesSent := satInc s.xfer.counters.queriesSent } } := by
  simp only [sendQuery, makeReq_frame]
  rfl

theorem tryQuery_queryTimer : (tryQuery s).xfer.queryTimer = s.xfer.queryTimer := by
  simp only [tryQuery]
  repeat' split
  · rfl
  · rfl
  · rw [sendQuery_xfer]
  · rfl

/-- The query timer starts its next period (R67). -/
def queryRestarted (s : State) : State :=
  s.updXfer fun x => { x with queryTimer := x.queryTimer.map fun d => d + queryPeriod x.params }

theorem queryExpiry_eq : queryExpiry s = tryQuery (queryRestarted s) := rfl

theorem queryExpiry_queryTimer (h : s.xfer.queryTimer = some d) :
    (queryExpiry s).xfer.queryTimer = some (d + 40000000 / s.xfer.params.queryRate) := by
  rw [queryExpiry_eq, tryQuery_queryTimer, queryRestarted, State.updXfer_xfer, h]
  rfl

/-- The query that an expiry sends (R69). -/
theorem queryExpiry_sends (h : isDown s.link.state = false) (he : newestOffered s.xfer = some e)
    (hw : windowOfKind s .partTx = some w) (hj : nextFreeSlot s = some j) :
    queryExpiry s = sendQuery w j e (queryRestarted s) := tryQuery_sends (s := queryRestarted s) h he hw hj

end QueryTimer

/-! ### The block timer (R83) -/

section BlockTimer

variable {s : State}

/-- The report of the timing state that the block timer's expiry leaves (R85). -/
theorem blockExpiry_reported (h : s.xfer.state = .track ∨ s.xfer.state = .acquire) :
    TimingStateReported s (blockExpiry s) 1 (timeNow s) s.xfer.state 5 s.xfer.holdoverAge := by
  obtain ⟨v, ⟨k, hk, h1⟩, m, h2⟩ := loseTiming_reported (s := s.updXfer fun x => { x with blockTimer := none }) 5 h
  exact .since rfl rfl rfl (h1.among_now hk h2)

/-- The counter's value and its frequency word change with the entry into HOLDOVER only (R83). -/
theorem loseTiming_time {cause : Nat} (h : s.xfer.state ≠ .track) : (loseTiming cause s).time = s.time := by
  by_cases ha : s.xfer.state = .acquire
  · rw [loseTiming_acquire _ ha]
    simp
  · rw [loseTiming_other _ (not_or.mpr ⟨h, ha⟩)]
    rfl

theorem blockExpiry_time (h : s.xfer.state ≠ .track) : (blockExpiry s).time = s.time :=
  loseTiming_time (s := s.updXfer fun x => { x with blockTimer := none }) h

end BlockTimer

/-- Settles O39: each timer's row, with the cases of the query timer and of the block timer. -/
theorem transferTimersExpire : Obligations.TransferTimersExpire := by
  unfold Obligations.TransferTimersExpire
  refine ⟨fun s d hd hle => ?_, fun s q e he hle => ?_, fun s hdue => ?_⟩
  · have hrow : exec .queryTimerExpiry s = .next (queryExpiry s) := congrArg _ (if_pos (hd ▸ due_some hle))
    refine ⟨_, hrow, queryExpiry_queryTimer hd, onlyChanges_iff.mpr (by simp), fun hdown => ?_, fun hup hnone => ?_,
      fun e hup hoff hslot => ?_, fun e w j hup hoff hw hj => ?_⟩
    · rw [queryExpiry_eq, tryQuery_down (s := queryRestarted s) hdown]
      exact ⟨rfl, rfl, rfl⟩
    · rw [queryExpiry_eq, tryQuery_noOffer (s := queryRestarted s) hup hnone]
      exact ⟨rfl, rfl⟩
    · rw [queryExpiry_eq, tryQuery_noSlot (s := queryRestarted s) hup hoff hslot]
      exact ⟨rfl, rfl⟩
    · rw [queryExpiry_sends hup hoff hw hj]
      refine ⟨?_, by rw [sendQuery_xfer], by rw [sendQuery_xfer]; rfl, by rw [sendQuery_xfer]; rfl,
        by rw [sendQuery_xfer]; rfl, rfl⟩
      rw [slotAt, sendQuery_xfer, Vector.getElem?_setIfInBounds_self_of_lt (nextFreeSlot_lt hj)]
      rfl
  · have hrow : exec (.exchangeTimeout q) s = .next (exchangeExpiry q s) := by
      simp only [exec, execExchangeTimeout, he, if_pos hle]
    exact ⟨_, hrow, onlyChanges_iff.mpr (by simp), rfl⟩
  · have hrow : exec .blockTimerExpiry s = .next (blockExpiry s) := congrArg _ (if_pos hdue)
    refine ⟨_, hrow, ?_⟩
    have hx : (blockExpiry s).xfer = _ := loseTiming_xfer 5 (s.updXfer fun x => { x with blockTimer := none })
    have hf : (blockExpiry s).time.freq = _ := loseTiming_freq 5 (s.updXfer fun x => { x with blockTimer := none })
    simp only [State.updXfer_xfer] at hx hf
    refine ⟨by rw [hx], by rw [hx], by rw [hx], by rw [hx], fun h => ?_, fun h => ?_, fun h => ?_,
      blockExpiry_reported, onlyChanges_iff.mpr (by simp)⟩
    · rw [hx]
      exact ⟨if_pos (.inl h), if_pos (.inl h), hf.trans (if_pos h)⟩
    · rw [hx]
      exact ⟨if_neg (by simp [h]), blockExpiry_time (by simp [h])⟩
    · have ht : s.xfer.state ≠ .track := by rcases h with h | h <;> simp [h]
      rw [hx]
      refine ⟨?_, blockExpiry_time ht⟩
      rcases h with h | h
      · exact (if_pos (.inr h)).trans h.symm
      · exact (if_neg (by simp [h])).trans h.symm

end Sys2Proof.Machine

namespace Sys2Proof.Machine

/-! ### Events that move the time counter between their reports (R48, R49, R156) -/

section Passages

/-- From `s` to `t` an event has made `n` reports, and its requests have turned over; the time counter may have moved
with it, the windows have not. -/
structure Passage (N : Cls → Prop) (J : Job → Prop) (s t : State) (n : Nat) : Prop extends Turnover N J s t where
  taken : ReportsTaken s t n
  windows : t.windows = s.windows

variable {N M : Cls → Prop} {J K : Job → Prop} {s t u : State} {k m n : Nat} {time : Stamp} {code : Nat}
  {body : List FieldSpec}

theorem Course.passage (h : Course N J s t n) : Passage N J s t n := ⟨h.toTurnover, h.taken, h.windows⟩

theorem Reporting.passage (h : Reporting s t n) : Passage N IsEntry s t n := h.course.passage

theorem Passage.trans (h : Passage N J s t m) (h2 : Passage N J t u n) : Passage N J s u (m + n) :=
  ⟨h.toTurnover.trans h2.toTurnover, h.taken.trans h2.taken, h2.windows.trans h.windows⟩

/-- An operation outside the requests, the report unit and the windows. -/
theorem Passage.of_same (h1 : t.path = s.path) (h2 : t.rep = s.rep) (h3 : t.windows = s.windows) :
    Passage N J s t 0 := ⟨.of_path h1, reportsTaken_none h2, h3⟩

theorem Passage.refl (s : State) : Passage N J s s 0 := .of_same rfl rfl rfl

theorem Passage.report (h : Passage N IsEntry s t n) : Passage N IsEntry s (reportAt time code body t) (n + 1) :=
  ⟨h.toTurnover.trans (reportAt_turnover _ _ _ _), reportsTaken_succ h.taken, by simpa using h.windows⟩

theorem Passage.made (h : Passage N J s t k) {g : Ring} (hg : s.rep.ring = some g) (hr : g.releasing = false)
    (hu : unread g + k < g.size - 1) (time : Stamp) (code : Nat) (body : List FieldSpec) :
    ReportAt s (reportAt time code body t) g k time code body :=
  reportAt_behind h.taken (windowOfKind_congr h.windows _) hg hr hu

/-- A report among those of an event, timed at its making. -/
theorem Passage.among_at (h : Passage N J s t k) (hk : k ≤ n) (h2 : Turnover M K (Machine.report code body t) u) :
    ReportAmong s u n (timeNow t) code body :=
  fun _ g hg hr hu => ⟨k, hk, h2.keeps (h.made hg hr (by omega) (timeNow t) code body)⟩

/-- An applied record counts, and its result comes last. -/
theorem Passage.recordDone {x : State} {id : Nat} {r : LineRequest} (h : Passage N IsEntry s x n)
    (hn : Next s .site id r) (hm : n ≤ m) (hd : x.dec = s.dec) :
    RecordDone s (recordEnd s id r .applied x) m r := by
  have hcount : Passage N IsEntry s (countOutcome .applied x) (n + 0) :=
    h.trans (.of_same rfl rfl rfl)
  refine ⟨?_, n, hm, hcount.report.taken.silent rfl, fun hp g hg hrel hu => ?_⟩
  · simp [RecordApplied, recordEnd, countOutcome, hd]
  · exact (h.toTurnover.trans (recordResult_turnover s x r .applied)).setReq_keeps hn hp
      (hcount.made hg hrel hu _ _ _)

end Passages
end Sys2Proof.Machine

namespace Sys2Proof.Machine

/-! ### The TIMING, TIMESET and SYNTH records (R49, R50, R57, R58, R86, R154) -/

section TimeRecords

variable {s : State} {id a : Nat} {r : LineRequest} {d : Line} {o : RecordOutcome}

/-! The checks. -/

theorem within_iff {lo v hi : Nat} : within lo v hi = true ↔ lo ≤ v ∧ v ≤ hi := by simp [within]

/-- The ranges of R86. -/
theorem timingOk_iff {p : TimingParams} : timingOk p = true ↔
    (1 ≤ p.queryRate ∧ p.queryRate ≤ 64) ∧ (100 ≤ p.exchangeTimeout ∧ p.exchangeTimeout ≤ 5000) ∧
    (-1000000 ≤ p.pathDifference ∧ p.pathDifference ≤ 1000000) ∧
    (1 ≤ p.maximumDelay ∧ p.maximumDelay ≤ 100000000) ∧ (1000 ≤ p.tStep ∧ p.tStep ≤ 100000000) ∧
    (1 ≤ p.tTrk ∧ p.tTrk ≤ 100000000) ∧ (1 ≤ p.k ∧ p.k ≤ 16) ∧ (1 ≤ p.blockTimeout ∧ p.blockTimeout ≤ 60) ∧
    (1 ≤ p.drift ∧ p.drift ≤ 10000) ∧ (1000 ≤ p.holdoverLimit ∧ p.holdoverLimit ≤ 100000000) ∧
    p.tTrk ≤ p.tStep := by
  simp only [timingOk, Bool.and_eq_true, within_iff, decide_eq_true_eq, abs_le, and_assoc]

theorem timingCheck_applied (h : timingOk (timingOf d) = true) : timingCheck d = .applied := if_pos h

theorem not_timingOk {p : TimingParams} (h : p.queryRate = 0 ∨ 64 < p.queryRate ∨ p.exchangeTimeout < 100 ∨
    5000 < p.exchangeTimeout ∨ p.pathDifference < -1000000 ∨ 1000000 < p.pathDifference ∨ p.maximumDelay = 0 ∨
    100000000 < p.maximumDelay ∨ p.tStep < 1000 ∨ 100000000 < p.tStep ∨ p.tTrk = 0 ∨ 100000000 < p.tTrk ∨
    p.tStep < p.tTrk ∨ p.k = 0 ∨ 16 < p.k ∨ p.blockTimeout = 0 ∨ 60 < p.blockTimeout ∨ p.drift = 0 ∨
    10000 < p.drift ∨ p.holdoverLimit < 1000 ∨ 100000000 < p.holdoverLimit) : ¬timingOk p = true := by
  rw [timingOk_iff]
  omega

theorem timingCheck_range (h : ¬timingOk (timingOf d) = true) : timingCheck d = .range := if_neg h

/-- The bounds of R57. -/
theorem synthOk_iff {n m p : Nat} : synthOk n m p = true ↔ (1 ≤ n ∧ n ≤ 16) ∧ (8 ≤ m ∧ m ≤ 255) ∧
    (1 ≤ p ∧ p ≤ 64) ∧ 2 * n ≤ 40 ∧ 40 ≤ 20 * n ∧ 600 * n ≤ 40 * m ∧ 40 * m ≤ 1200 * n := by
  simp only [synthOk, Bool.and_eq_true, within_iff, decide_eq_true_eq, and_assoc]

/-- A record carries the synthesizer's settings. -/
def SameSettings (y : Synth) (d : Line) : Prop := field d 5 1 = y.n ∧ field d 6 1 = y.m ∧ field d 7 1 = y.p

theorem synthCheck_range {y : Synth} (h : ¬synthOk (field d 5 1) (field d 6 1) (field d 7 1) = true) :
    synthCheck y d = .range := if_pos (Bool.eq_false_iff.mpr h)

theorem synthCheck_busy {y : Synth} (h : synthOk (field d 5 1) (field d 6 1) (field d 7 1) = true)
    (he : flagField d 4 = true) (hy : y.state ≠ .off) (hn : ¬SameSettings y d) : synthCheck y d = .busy := by
  have hne : field d 5 1 ≠ y.n ∨ field d 6 1 ≠ y.m ∨ field d 7 1 ≠ y.p := by
    simpa only [SameSettings, not_and_or] using hn
  exact (if_neg (by simp [h])).trans (if_pos ⟨he, hy, hne⟩)

theorem synthCheck_applied {y : Synth} (h : synthOk (field d 5 1) (field d 6 1) (field d 7 1) = true)
    (hc : flagField d 4 = false ∨ y.state = .off ∨ SameSettings y d) : synthCheck y d = .applied := by
  refine (if_neg (by simp [h])).trans (if_neg ?_)
  rintro ⟨he, hy, hne⟩
  rcases hc with hc | hc | ⟨h1, h2, h3⟩
  · exact absurd (he.symm.trans hc) (by decide)
  · exact hy hc
  · exact hne.elim (· h1) (·.elim (· h2) (· h3))

/-! The rows. -/

theorem timingRecord_applies (h : RecordNext s id r 0x06 a) (hc : timingCheck (seen r) = .applied) :
    exec .timingRecord s = .next (recordEnd s id r .applied (applyTiming (seen r) s)) := by
  show Host.Outcome.next (classifyWhen _ .site s) = _
  rw [record_applies h rfl (by decide) fun _ => by simp [examineKind, checked, hc] <;> rfl]

theorem timingRecord_refuses (h : RecordNext s id r 0x06 a) (ho : o ≠ .applied) (hc : timingCheck (seen r) = o) :
    RecordRefused .timingRecord s r (outcomeCode o) (countOutcome o s).dec :=
  record_refuses h rfl rfl ho fun _ => by simp [examineKind, checked, hc, ho]

theorem timesetRecord_applies (h : RecordNext s id r 0x07 a) (hc : timesetCheck s (seen r) = .applied) :
    exec .timesetRecord s = .next (recordEnd s id r .applied (applyTimeset (seen r) s)) := by
  show Host.Outcome.next (classifyWhen _ .site s) = _
  rw [record_applies h rfl (by decide) fun _ => by simp [examineKind, checked, hc] <;> rfl]

theorem timesetRecord_refuses (h : RecordNext s id r 0x07 a) (ho : o ≠ .applied)
    (hc : timesetCheck s (seen r) = o) :
    RecordRefused .timesetRecord s r (outcomeCode o) (countOutcome o s).dec :=
  record_refuses h rfl rfl ho fun _ => by simp [examineKind, checked, hc, ho]

theorem synthRecord_applies (h : RecordNext s id r 0x08 a) (hc : synthCheck s.time.synth (seen r) = .applied) :
    exec .synthRecord s = .next (recordEnd s id r .applied (applySynth (seen r) s)) := by
  show Host.Outcome.next (classifyWhen _ .site s) = _
  rw [record_applies h rfl (by decide) fun _ => by simp [examineKind, checked, hc] <;> rfl]

theorem synthRecord_refuses (h : RecordNext s id r 0x08 a) (ho : o ≠ .applied)
    (hc : synthCheck s.time.synth (seen r) = o) :
    RecordRefused .synthRecord s r (outcomeCode o) (countOutcome o s).dec :=
  record_refuses h rfl rfl ho fun _ => by simp [examineKind, checked, hc, ho]

/-! The applications. -/

/-- A TIMING record's parameters, its count and its result (R86, R87). -/
theorem timingRecord_done (h : RecordNext s id r 0x06 a) (hc : timingOk (timingOf (seen r)) = true) :
    ∃ t, exec .timingRecord s = .next t ∧ t.xfer = { s.xfer with params := timingOf (seen r) } ∧
      RecordDone s t 0 r ∧ OnlyChanges [.xfer, .rep, .path, .dec] s t := by
  have hquiet : Reporting s (applyTiming (seen r) s) 0 := .updXfer _ s
  have hdone := recordEnd_done hquiet h.1 (Nat.le_refl 0) (by simp [applyTiming])
  have hblocks : OnlyChanges [.xfer, .rep, .path] s (applyTiming (seen r) s) :=
    onlyChanges_iff.mpr (by simp [applyTiming])
  refine ⟨_, timingRecord_applies h (timingCheck_applied hc), ?_, hdone,
    recordEnd_changes hblocks (by decide) (by decide) _⟩
  simp [recordEnd, applyTiming]

/-- The counter as a TIMESET record leaves it, with its block emptied, before the report (R49). -/
def counterSet (sec ns : Nat) (s : State) : State := { s with
  time := { s.time with
    seconds := sec, nanoseconds := ns, fraction := 0, epoch := s.time.epoch + 1, timesets := satInc s.time.timesets }
  xfer := { s.xfer with block := [] } }

theorem counterSet_passage {N : Cls → Prop} {J : Job → Prop} (sec ns : Nat) (s : State) :
    Passage N J s (counterSet sec ns s) 0 := .of_same rfl rfl rfl

theorem setCounter_eq {sec ns : Nat} : setCounter sec ns s = report 0x06
    (timeStepBody 1 false (counterSet sec ns s).time.epoch 0 (timeNow s) (timeNow (counterSet sec ns s)))
    (counterSet sec ns s) := rfl

/-- A TIMESET record's report of the time it sets, its count and its result (R49, R50). -/
theorem timesetRecord_done (h : RecordNext s id r 0x07 a) (hc : timesetCheck s (seen r) = .applied) :
    ∃ t, exec .timesetRecord s = .next t ∧
      t.time = { s.time with
        seconds := field (seen r) 8 6, nanoseconds := field (seen r) 16 4, fraction := 0, epoch := s.time.epoch + 1
        timesets := satInc s.time.timesets } ∧
      t.xfer = { s.xfer with block := [] } ∧
      ReportAmong s t 0 (timeNow t) 0x06 ([⟨16, 1, 1⟩, ⟨17, 1, 0⟩, ⟨18, 2, t.time.epoch.toNat⟩, ⟨20, 4, 0⟩] ++
        stampFields 24 32 (timeNow s) ++ stampFields 40 48 (timeNow t)) ∧
      RecordDone s t 1 r ∧ OnlyChanges [.time, .xfer, .rep, .path, .dec] s t := by
  have hblocks : OnlyChanges [.time, .xfer, .rep, .path] s (applyTimeset (seen r) s) :=
    onlyChanges_iff.mpr (by simp [applyTimeset])
  have hrow := timesetRecord_applies h hc
  have hblocks' := recordEnd_changes (id := id) (r := r) hblocks (by decide) (by decide) .applied
  rw [applyTimeset, setCounter_eq] at hrow hblocks'
  generalize hv : counterSet (field (seen r) 8 6) (field (seen r) 16 4) s = v at *
  have htime : (recordEnd s id r .applied (report 0x06
      (timeStepBody 1 false v.time.epoch 0 (timeNow s) (timeNow v)) v)).time = v.time := by simp [recordEnd]
  have hset : Passage (fun _ => False) IsEntry s v 0 := hv ▸ counterSet_passage _ _ s
  have hmade := hset.among_at (u := report 0x06 (timeStepBody 1 false v.time.epoch 0 (timeNow s) (timeNow v)) v)
    (Nat.le_refl 0) (Turnover.of_path rfl : Turnover (fun _ => False) IsEntry _ _)
  have hnow : timeNow (recordEnd s id r .applied (report 0x06
      (timeStepBody 1 false v.time.epoch 0 (timeNow s) (timeNow v)) v)) = timeNow v := by
    rw [Machine.timeNow, htime]
    rfl
  refine ⟨_, hrow, ?_, ?_, ?_, hset.report.recordDone h.1 (Nat.le_refl 1) ?_, hblocks'⟩
  · rw [htime, ← hv]
    rfl
  · rw [show (recordEnd s id r .applied _).xfer = v.xfer by simp [recordEnd], ← hv]
    rfl
  · rw [hnow, htime]
    exact hset.report.toTurnover.recordEnd_among h.1 hmade _
  · simp [← hv, counterSet]

/-! The synthesizer (R57, R58). -/

theorem synthAfter_disabled {y : Synth} {n : Nat} (h : flagField d 4 = false) :
    synthAfter y d n = ⟨field d 5 1, field d 6 1, field d 7 1, false, .off, none⟩ := if_pos h

theorem synthAfter_enabled {y : Synth} {n : Nat} (h : flagField d 4 = true) (hy : y.state = .off) :
    synthAfter y d n = ⟨field d 5 1, field d 6 1, field d 7 1, true, .locking, some (n + 80000)⟩ :=
  (if_neg (by simp [h])).trans (if_pos hy)

theorem synthAfter_kept {y : Synth} {n : Nat} (h : flagField d 4 = true) (hy : y.state ≠ .off) :
    synthAfter y d n = y :=
  (if_neg (by simp [h])).trans (if_neg hy)

theorem Reporting.setSynth (f : Synth → Synth) (s : State) :
    Reporting s (s.updTime fun t => { t with synth := f t.synth }) 0 := .of_same rfl rfl rfl rfl

/-- A SYNTH record's settings, its count and its result (R58). -/
theorem synthRecord_done (h : RecordNext s id r 0x08 a) (hc : synthCheck s.time.synth (seen r) = .applied) :
    ∃ t, exec .synthRecord s = .next t ∧
      t.time = { s.time with synth := synthAfter s.time.synth (seen r) s.oscillator } ∧ RecordDone s t 0 r ∧
      OnlyChanges [.time, .rep, .path, .dec] s t := by
  have hquiet : Reporting s (applySynth (seen r) s) 0 :=
    .setSynth (synthAfter · (seen r) s.oscillator) s
  have hdone := recordEnd_done hquiet h.1 (Nat.le_refl 0) (by simp [applySynth])
  have hblocks : OnlyChanges [.time, .rep, .path] s (applySynth (seen r) s) :=
    onlyChanges_iff.mpr (by simp [applySynth])
  refine ⟨_, synthRecord_applies h hc, ?_, hdone, recordEnd_changes hblocks (by decide) (by decide) _⟩
  simp [recordEnd, applySynth]

/-- A SYNTH record that leaves the time unit as it is. -/
theorem OnlyChanges.without_time {t : State} (h : OnlyChanges [.time, .rep, .path, .dec] s t)
    (ht : t.time = s.time) : OnlyChanges [.rep, .path, .dec] s t := by
  intro b hb
  by_cases hbt : b = .time
  · subst hbt
    exact ht
  · exact h b (by simpa [hbt] using hb)

end TimeRecords

/-- Settles O55: each record's checks decide its row. -/
theorem timeRecords : Obligations.TimeRecords := by
  unfold Obligations.TimeRecords
  refine ⟨?_, ?_, ?_, ?_⟩
  · rintro s id r a d h rfl hq1 hq2 he1 he2 hp1 hp2 hm1 hm2 hs1 hs2 ht1 ht2 hk1 hk2 hb1 hb2 hd1 hd2 hl1 hl2
    obtain rfl := h.action
    refine timingRecord_done h ?_
    rw [timingOk_iff]
    simp only [timingOf]
    exact ⟨⟨hq1, hq2⟩, ⟨he1, he2⟩, ⟨hp1, hp2⟩, ⟨hm1, hm2⟩, ⟨hs1, hs2⟩, ⟨ht1, ht2.trans hs2⟩, ⟨hk1, hk2⟩, ⟨hb1, hb2⟩,
      ⟨hd1, hd2⟩, ⟨hl1, hl2⟩, ht2⟩
  · rintro s id r a d h rfl hout
    refine timingRecord_refuses (o := .range) h (by decide) (timingCheck_range (not_timingOk ?_))
    simpa only [timingOf] using hout
  · rintro s id r a d h rfl
    refine ⟨fun hns => ?_, fun hns hq => ?_, fun hns hq => ?_⟩
    · exact timesetRecord_refuses (o := .range) h (by decide) (if_pos hns)
    · exact timesetRecord_refuses (o := .busy) h (by decide) ((if_neg (Nat.not_lt.mpr hns)).trans (if_pos hq))
    · exact timesetRecord_done h ((if_neg (Nat.not_lt.mpr hns)).trans (if_neg (by simp [hq])))
  · intro s id r a n m p d h hd hn hm hp
    subst hd
    rw [hn, hm, hp]
    clear hn hm hp
    refine ⟨fun hout => ?_, fun hn1 hn2 hm1 hm2 hp1 hp2 hf1 hf2 hv1 hv2 => ?_⟩
    · refine synthRecord_refuses (o := .range) h (by decide) (synthCheck_range fun hok => ?_)
      rw [synthOk_iff] at hok
      omega
    · have hok := synthOk_iff.mpr ⟨⟨hn1, hn2⟩, ⟨hm1, hm2⟩, ⟨hp1, hp2⟩, hf1, hf2, hv1, hv2⟩
      refine ⟨fun hoff => ?_, fun hon hy => ?_, fun hon hy h1 h2 h3 => ?_, fun hon hy hne => ?_⟩
      · rw [← synthAfter_disabled (y := s.time.synth) (n := s.oscillator) hoff]
        exact synthRecord_done h (synthCheck_applied hok (.inl hoff))
      · rw [← synthAfter_enabled hon hy]
        exact synthRecord_done h (synthCheck_applied hok (.inr (.inl hy)))
      · obtain ⟨t, hrow, ht, hdone, hblocks⟩ :=
          synthRecord_done h (synthCheck_applied hok (.inr (.inr ⟨h1, h2, h3⟩)))
        rw [synthAfter_kept hon hy] at ht
        exact ⟨t, hrow, hdone, hblocks.without_time ht⟩
      · refine synthRecord_refuses (o := .busy) h (by decide) (synthCheck_busy hok hon hy ?_)
        rintro ⟨h1, h2, h3⟩
        exact hne.elim (· h1) (·.elim (· h2) (· h3))

end Sys2Proof.Machine

namespace Sys2Proof.Machine

/-! ### What the time transfer engine reads (R64 to R85) -/

section EngineReads

variable {s t : State}

/-- Two states that the servo, the timing states and the exchange table do not tell apart. -/
structure Alike (s t : State) : Prop where
  time : s.time = t.time
  xfer : s.xfer = t.xfer
  now : s.now = t.now

theorem Alike.updXfer (h : Alike s t) (f : Transfer → Transfer) : Alike (s.updXfer f) (t.updXfer f) :=
  ⟨h.time, congrArg f h.xfer, h.now⟩

theorem Alike.updTime (h : Alike s t) (f : TimeUnit → TimeUnit) : Alike (s.updTime f) (t.updTime f) :=
  ⟨congrArg f h.time, h.xfer, h.now⟩

theorem Alike.xferCount (h : Alike s t) (f : TransferCounters → TransferCounters) :
    Alike (xferCount f s) (xferCount f t) := h.updXfer _

theorem Alike.setRun (h : Alike s t) (n : Nat) : Alike (setRun n s) (setRun n t) := h.updXfer _

theorem Alike.timeNow (h : Alike s t) : timeNow s = timeNow t := by rw [Machine.timeNow, Machine.timeNow, h.time]

theorem Alike.moveTiming (h : Alike s t) (new : TimingState) (cause : Nat) (f : Transfer → Transfer) :
    Alike (moveTiming new cause f s) (moveTiming new cause f t) :=
  ⟨by simpa using h.time, by rw [moveTiming_xfer, moveTiming_xfer, h.xfer], by simpa using h.now⟩

theorem Alike.phaseStep (h : Alike s t) (theta : Int) : Alike (phaseStep theta s) (phaseStep theta t) := by
  refine ⟨?_, by rw [phaseStep_xfer, phaseStep_xfer, h.xfer], by simpa using h.now⟩
  simp only [Machine.phaseStep, afterTimeChange_time, State.updTime_time, h.timeNow, h.time]

theorem Alike.stepSelection (h : Alike s t) (theta : Int) : Alike (stepSelection theta s) (stepSelection theta t) :=
  ((h.updXfer _).xferCount _).phaseStep theta

theorem Alike.steer (h : Alike s t) (theta : Int) : Alike (steer theta s) (steer theta t) := by
  simp only [Machine.steer, h.xfer]
  split
  · exact (h.updXfer _).updTime _
  · exact (h.updTime _).xferCount _

theorem Alike.pushFreq (h : Alike s t) : Alike (pushFreq s) (pushFreq t) := by
  simp only [Machine.pushFreq, h.time]
  exact h.updXfer _

theorem Alike.acquireSelection (h : Alike s t) (theta : Int) :
    Alike (acquireSelection theta s) (acquireSelection theta t) := by
  simp only [Machine.acquireSelection, h.xfer]
  repeat' split
  · exact (h.stepSelection theta).setRun 0
  · exact (h.steer theta).pushFreq.moveTiming _ _ _
  · exact (h.steer theta).setRun _
  · exact (h.steer theta).setRun 0

theorem Alike.trackSelection (h : Alike s t) (theta : Int) :
    Alike (trackSelection theta s) (trackSelection theta t) := by
  simp only [Machine.trackSelection, h.xfer]
  repeat' split
  · exact (h.stepSelection theta).moveTiming _ _ _
  · exact (h.steer theta).pushFreq.setRun 0
  · exact (h.steer theta).pushFreq.moveTiming _ _ _
  · exact (h.steer theta).pushFreq.setRun _

theorem Alike.applySelection (h : Alike s t) (theta : Int) :
    Alike (applySelection theta s) (applySelection theta t) := by
  simp only [Machine.applySelection, h.xfer]
  split
  · exact h.acquireSelection theta
  · exact h.acquireSelection theta
  · exact h.trackSelection theta
  · exact (h.moveTiming _ _ _).acquireSelection theta

theorem Alike.joinBlock (h : Alike s t) (x : Sample) : Alike (joinBlock x s) (joinBlock x t) := by
  simp only [Machine.joinBlock, h.xfer]
  repeat' split
  · exact h.updXfer _
  · exact ((h.updXfer _).xferCount _).applySelection _
  · exact h

theorem Alike.acceptSample (h : Alike s t) (x : Sample) : Alike (acceptSample x s) (acceptSample x t) := by
  have hcounted : Alike (sampleCounted s) (sampleCounted t) :=
    ⟨h.time, by simp only [sampleCounted, h.xfer, h.now], h.now⟩
  by_cases hf : t.xfer.state = .freerun
  · rw [acceptSample_freerun hf, acceptSample_freerun (by rw [h.xfer, hf])]
    exact (hcounted.moveTiming _ _ _).joinBlock x
  · rw [acceptSample_other hf, acceptSample_other (by rwa [h.xfer])]
    exact hcounted.joinBlock x

/-- A sample is computed from the engine, the time unit and the interval time alone. -/
theorem Alike.computeSample (h : Alike s t) (a : Stamp) (b c : TakenStamp) (d : Stamp) :
    Alike (computeSample a b c d s) (computeSample a b c d t) := by
  simp only [Machine.computeSample, h.time, h.xfer]
  repeat' split
  case isFalse => exact h.acceptSample _
  all_goals exact h.xferCount _

theorem Alike.removeExchange (h : Alike s t) (q : BitVec 16) : Alike (removeExchange q s) (removeExchange q t) :=
  h.updXfer _

theorem Alike.setExchange (h : Alike s t) (e : Exchange) : Alike (setExchange e s) (setExchange e t) := h.updXfer _

theorem Alike.findExchange (h : Alike s t) (o q : BitVec 16) : findExchange s o q = findExchange t o q := by
  rw [Machine.findExchange, Machine.findExchange, h.xfer]

theorem Alike.enterOffer (h : Alike s t) (q : BitVec 16) (a : Stamp) (b : TakenStamp) :
    Alike (enterOffer q a b s) (enterOffer q a b t) := by
  have he : newExchange s q a b = newExchange t q a b := by simp only [newExchange, h.xfer, h.now]
  simp only [Machine.enterOffer, h.xfer, he]
  repeat' split
  · exact ((h.removeExchange q).xferCount _).updXfer _
  · exact h.updXfer _
  · exact (h.xferCount _).updXfer _

theorem Alike.matchAnswer (h : Alike s t) (o q : BitVec 16) (d : Stamp) :
    Alike (matchAnswer o q d s) (matchAnswer o q d t) := by
  simp only [Machine.matchAnswer, h.findExchange]
  repeat' split
  · exact (h.removeExchange o).computeSample _ _ _ _
  · exact h.setExchange _
  all_goals exact h.xferCount _

theorem Alike.routeTiming (h : Alike s t) (a : Nat) (b : TakenStamp) :
    Alike (routeTiming a b s) (routeTiming a b t) := by
  simp only [Machine.routeTiming, h.xfer]
  split
  · split
    · exact (h.updXfer _).enterOffer _ _ _
    · exact (h.updXfer _).matchAnswer _ _ _
  · exact h.xferCount _

theorem Alike.queryCompletion (h : Alike s t) (o q : BitVec 16) (sent : Bool) (c : TakenStamp) :
    Alike (queryCompletion o q sent c s) (queryCompletion o q sent c t) := by
  have hreoffer : ∀ (e : Exchange) (g : TransferCounters → TransferCounters),
      Alike (Machine.xferCount g (Machine.setExchange e s)) (Machine.xferCount g (Machine.setExchange e t)) :=
    fun e g => (h.setExchange e).xferCount g
  simp only [Machine.queryCompletion, h.findExchange]
  split
  · split
    · split
      · exact h.setExchange _
      · exact hreoffer _ _
    · split
      · split
        · exact (h.removeExchange o).computeSample _ _ _ _
        · exact h.xferCount _
      · exact hreoffer _ _
    all_goals exact h.xferCount _
  · exact h.xferCount _

end EngineReads
end Sys2Proof.Machine

namespace Sys2Proof.Machine

/-! ### TIMING completions in the engine (R64, R66, R71, R73) -/

section TimingCompletions

variable {s : State} {a line : Nat} {b c : TakenStamp} {m : PendingMessage} {e : Exchange} {o q : BitVec 16}
  {x d : Stamp} {j : Nat} {sent : Bool}

/-! An offer (R66). -/

theorem enterOffer_duplicate (h : ∃ y ∈ s.xfer.exchanges, y.offerSeq = o) :
    (enterOffer o x b s).xfer = { s.xfer with
      exchanges := (s.xfer.exchanges.filter fun y => y.offerSeq != o) ++ [newExchange s o x b]
      counters := { s.xfer.counters with offerDuplicate := satInc s.xfer.counters.offerDuplicate } } := by
  rw [enterOffer, if_pos (by simpa using h)]
  rfl

theorem enterOffer_new (h : ∀ y ∈ s.xfer.exchanges, y.offerSeq ≠ o) (hl : s.xfer.exchanges.length < 8) :
    (enterOffer o x b s).xfer = { s.xfer with exchanges := s.xfer.exchanges ++ [newExchange s o x b] } := by
  rw [enterOffer, if_neg (by simpa using h), if_pos hl]
  rfl

theorem enterOffer_full (h : ∀ y ∈ s.xfer.exchanges, y.offerSeq ≠ o) (hl : 8 ≤ s.xfer.exchanges.length) :
    (enterOffer o x b s).xfer = { s.xfer with
      exchanges := s.xfer.exchanges.drop 1 ++ [newExchange s o x b]
      counters := { s.xfer.counters with exchangeEvicted := satInc s.xfer.counters.exchangeEvicted } } := by
  rw [enterOffer, if_neg (by simpa using h), if_neg (Nat.not_lt.mpr hl)]
  rfl

/-! An answer (R73). -/

/-- The entry that an answer or a completion is matched to has its offer sequence. -/
theorem findExchange_offerSeq (h : findExchange s o q = some e) : e.offerSeq = o := by
  have := List.find?_some h
  simp only [decide_eq_true_eq] at this
  exact this.1

theorem matchAnswer_unmatched
    (h : ∀ e, findExchange s o q = some e → e.state = .offered ∨ e.state = .answeredEarly) :
    matchAnswer o q d s = xferCount (fun c => { c with answerUnmatched := satInc c.answerUnmatched }) s := by
  cases hf : findExchange s o q with
  | none => simp only [matchAnswer, hf]
  | some e =>
    rcases h e hf with he | he
    · simp only [matchAnswer, hf, he]
    · simp only [matchAnswer, hf, he]

theorem matchAnswer_early (hf : findExchange s o q = some e) (he : e.state = .querySent) :
    matchAnswer o q d s = setExchange { e with d := some d, state := .answeredEarly } s := by
  simp only [matchAnswer, hf, he]

theorem matchAnswer_sample (hf : findExchange s o q = some e) (he : e.state = .queried) (hc : e.c = some c) :
    matchAnswer o q d s = computeSample e.a e.b c d (removeExchange e.offerSeq s) := by
  rw [findExchange_offerSeq hf]
  simp only [matchAnswer, hf, he, hc]

/-! A received completion (R64). -/

theorem routeTiming_none (h : ∀ m ∈ s.xfer.pendingTable, lineAddress m.line ≠ a) :
    routeTiming a b s = xferCount (fun c => { c with noPayload := satInc c.noPayload }) s := by
  have hf : (s.xfer.pendingTable.find? fun m => lineAddress m.line = a) = none := by simpa using h
  simp only [routeTiming, hf]

theorem routeTiming_offer (h : s.xfer.pendingTable.find? (fun y => lineAddress y.line = a) = some m)
    (ho : m.offer = true) :
    routeTiming a b s = enterOffer m.offerSeq m.carried b (forgetPending m.line s) := by
  simp only [routeTiming, h, ho, if_true, forgetPending]

theorem routeTiming_answer (h : s.xfer.pendingTable.find? (fun y => lineAddress y.line = a) = some m)
    (ho : m.offer = false) :
    routeTiming a b s = matchAnswer m.offerSeq m.querySeq m.carried (forgetPending m.line s) := by
  simp only [routeTiming, h, ho, Bool.false_eq_true, if_false, forgetPending]

/-! A completion on a slot (R68, R71). -/

theorem queryCompletion_orphan
    (h : ∀ e, findExchange s o q = some e → e.state = .offered ∨ e.state = .queried) :
    queryCompletion o q sent c s = xferCount (fun c => { c with cOrphan := satInc c.cOrphan }) s := by
  cases hf : findExchange s o q with
  | none => simp only [queryCompletion, hf]
  | some e =>
    rcases h e hf with he | he
    · simp only [queryCompletion, hf, he]
    · simp only [queryCompletion, hf, he]

theorem queryCompletion_sent (hf : findExchange s o q = some e) (he : e.state = .querySent) :
    queryCompletion o q true c s = setExchange { e with c := some c, state := .queried } s := by
  simp only [queryCompletion, hf, he, if_true]

theorem queryCompletion_sample (hf : findExchange s o q = some e) (he : e.state = .answeredEarly)
    (hd : e.d = some d) :
    queryCompletion o q true c s = computeSample e.a e.b c d (removeExchange e.offerSeq s) := by
  rw [findExchange_offerSeq hf]
  simp only [queryCompletion, hf, he, hd, if_true]

theorem queryCompletion_notSent (hf : findExchange s o q = some e)
    (he : e.state = .querySent ∨ e.state = .answeredEarly) : queryCompletion o q false c s =
      xferCount (fun c => { c with queryNotSent := satInc c.queryNotSent }) (setExchange (reoffer e) s) := by
  rcases he with he | he
  · simp only [queryCompletion, hf, he, Bool.false_eq_true, if_false]
  · simp only [queryCompletion, hf, he, Bool.false_eq_true, if_false]

theorem slotCompleted_free (h : ∀ j, slotOfLine s line = some j → slotAt s j = .free) :
    slotCompleted line true sent c s = xferCount (fun c => { c with cOrphan := satInc c.cOrphan }) s := by
  cases hj : slotOfLine s line with
  | none => simp only [slotCompleted, hj, if_true]
  | some j => simp only [slotCompleted, hj, h j hj, if_true]

theorem slotCompleted_query (hj : slotOfLine s line = some j) (hs : slotAt s j = .query o q) :
    slotCompleted line true sent c s = queryCompletion o q sent c (freeSlot j s) := by
  simp only [slotCompleted, hj, hs, if_true]

theorem slotCompleted_test (hj : slotOfLine s line = some j) (hs : slotAt s j = .test q) :
    (slotCompleted line true sent c s).time = s.time ∧ (slotCompleted line true sent c s).xfer = { s.xfer with
      slots := s.xfer.slots.setIfInBounds j .free
      counters := { s.xfer.counters with cOrphan := satInc s.xfer.counters.cOrphan } } := by
  simp only [slotCompleted, hj, hs, if_true, loopDescriptorEvent_frame]
  exact ⟨rfl, rfl⟩

/-! The rows. -/

variable {id i : Nat} {r : LineRequest} {w : Window} {f : FlightEntry}

/-- The state with a stamp counted (R53). -/
def withStamp (s : State) (b : TakenStamp) : State := { s with time := stampCounted s.time b }

theorem countStamp_alike {t : State} (ht : t.time = s.time) (hx : t.xfer = s.xfer) (hn : t.now = s.now)
    (b : TakenStamp) : Alike (countStamp b t) (withStamp s b) := by
  refine ⟨?_, hx, hn⟩
  rw [countStamp, State.updTime_time, ht]
  rfl

/-- A received TIMING completion: the engine's part of the row (R37, R64). -/
theorem rxTiming_row (h : ModemNext s id r .rxCompletion i w) (hst : descStatus (seen r) = 3)
    (hk : descKind (seen r) = 1) (hb : takeStamp s false (seen r) = b) : ∃ t, exec .rxCompletion s = .next t ∧
      Alike t (routeTiming (descBuffer (seen r)) b (withStamp s b)) := by
  have hstamp : takeStamp (countRx (seen r) s) false (seen r) = b :=
    (takeStamp_congr (by simp) (by simp)).trans hb
  have hrow := rxCompletion_row h
  rw [rxCompletion, if_pos ⟨hst, .inl hk⟩] at hrow
  simp only [if_pos hk, hstamp] at hrow
  have halike := (countStamp_alike (s := s) (t := countRx (seen r) s) (by simp) (by simp) (by simp)
    b).routeTiming (descBuffer (seen r)) b
  exact ⟨_, hrow, by simpa using halike.time, by simpa using halike.xfer, by simpa using halike.now⟩

/-- A matched TIMING completion: the engine's part of the row, behind the admission unit's (R29, R30). -/
theorem txTiming_row (h : ModemNext s id r .txCompletion i w) (hf : flightOf s (reqLine r) = some f)
    (hk : f.kind = 1) (hc : takeStamp s true (seen r) = c) : ∃ t v, exec .txCompletion s = .next t ∧
      v.windows = s.windows ∧ Alike v (withStamp s c) ∧
      t.time = (slotCompleted (reqLine r) true (descStatus (seen r) == 1) c v).time ∧
      t.xfer = (slotCompleted (reqLine r) true (descStatus (seen r) == 1) c v).xfer := by
  obtain ⟨-, -, -, hframe⟩ := completed_spec s (reqLine r) f (descStatus (seen r) == 1)
  have hrow := txCompletion_row h
  rw [txCompletion_matched _ hf, if_pos (.inl hk), hk, beq_self_eq_true] at hrow
  generalize completed s (reqLine r) f (descStatus (seen r) == 1) = v at *
  rw [takeStamp_congr (hframe .link (by decide)) (hframe .time (by decide)), hc] at hrow
  have hwin : v.windows = s.windows := hframe .windows (by decide)
  have halike : Alike (countStamp c v) (withStamp s c) :=
    countStamp_alike (hframe .time (by decide)) (hframe .xfer (by decide)) (hframe .now (by decide)) c
  exact ⟨_, countStamp c v, hrow, hwin, halike, by simp, by simp⟩

end TimingCompletions

/-- Settles O40: the two rows, each by the cases of what the engine finds. -/
theorem timingCompletionsReachExchange : Obligations.TimingCompletionsReachExchange := by
  unfold Obligations.TimingCompletionsReachExchange
  refine ⟨?_, ?_⟩
  · intro s id r i w b u h hst hk hb hu
    obtain ⟨t, hrow, ht, hx, -⟩ := rxTiming_row h hst hk hb.symm
    clear hb
    rw [hu]
    clear hu
    generalize descBuffer (seen r) = a at *
    refine ⟨t, hrow, fun hnone => ?_, ?_⟩
    · rw [ht, hx, routeTiming_none (s := withStamp s b) hnone]
      exact ⟨rfl, rfl⟩
    · intro m rest hm hrest
      subst hrest
      refine ⟨fun ho => ?_, fun ho => ?_⟩
      · rw [routeTiming_offer (s := withStamp s b) hm ho] at ht hx
        refine ⟨by rw [ht]; simp [forgetPending]; rfl, ?_⟩
        rintro e rfl
        rw [hx]
        exact ⟨fun hdup => enterOffer_duplicate (s := forgetPending m.line (withStamp s b)) hdup, fun hnew =>
          ⟨enterOffer_new (s := forgetPending m.line (withStamp s b)) hnew,
            enterOffer_full (s := forgetPending m.line (withStamp s b)) hnew⟩⟩
      · rw [routeTiming_answer (s := withStamp s b) hm ho] at ht hx
        rw [ht, hx]
        refine ⟨fun hun => ?_, fun e he => ⟨fun hs => ?_, ?_⟩⟩
        · rw [matchAnswer_unmatched (s := forgetPending m.line (withStamp s b)) hun]
          exact ⟨rfl, rfl⟩
        · rw [matchAnswer_early (s := forgetPending m.line (withStamp s b)) he hs]
          exact ⟨rfl, rfl⟩
        · rintro c v hs hc rfl
          rw [matchAnswer_sample (s := forgetPending m.line (withStamp s b)) he hs hc]
          exact ⟨rfl, rfl⟩
  · intro s id r i w f c u h hf hk hc hu
    obtain ⟨t, v, hrow, hwin, halike, ht, hx⟩ := txTiming_row h hf hk hc.symm
    clear hc
    rw [hu]
    clear hu
    generalize descStatus (seen r) = n at *
    have hslot : slotOfLine v (reqLine r) = slotOfLine s (reqLine r) := slotOfLine_congr hwin
    have hat : ∀ j, slotAt v j = slotAt s j := fun j => by rw [slotAt, slotAt, halike.xfer]; rfl
    refine ⟨t, hrow, fun hfree => ?_, ?_⟩
    · rw [ht, hx, slotCompleted_free (fun j hj => (hat j).trans (hfree j (hslot ▸ hj)))]
      exact ⟨halike.time, (halike.xferCount _).xfer⟩
    · intro j slots hj hslots
      subst hslots
      rw [← hslot] at hj
      refine ⟨fun q hq => ?_, fun o q hq => ?_⟩
      · obtain ⟨h1, h2⟩ := slotCompleted_test (c := c) (sent := n == 1) hj ((hat j).trans hq)
        rw [ht, hx, h1, h2, halike.time, halike.xfer]
        exact ⟨rfl, rfl⟩
      · rw [slotCompleted_query hj ((hat j).trans hq)] at ht hx
        have hfree : Alike (freeSlot j v) (freeSlot j (withStamp s c)) := halike.updXfer _
        have hquery := hfree.queryCompletion o q (n == 1) c
        rw [hquery.time] at ht
        rw [hquery.xfer] at hx
        rw [ht, hx]
        refine ⟨fun hun => ?_, fun e he => ⟨fun hst hs => ?_, ?_, fun hst hs => ?_⟩⟩
        · rw [queryCompletion_orphan (s := freeSlot j (withStamp s c)) hun]
          exact ⟨rfl, rfl⟩
        · rw [hst, beq_self_eq_true, queryCompletion_sent (s := freeSlot j (withStamp s c)) he hs]
          exact ⟨rfl, rfl⟩
        · rintro d v hst hs hd rfl
          rw [hst, beq_self_eq_true, queryCompletion_sample (s := freeSlot j (withStamp s c)) he hs hd]
          exact ⟨rfl, rfl⟩
        · rw [hst, show ((2 : Nat) == 1) = false from rfl,
            queryCompletion_notSent (s := freeSlot j (withStamp s c)) he hs]
          exact ⟨rfl, rfl⟩

end Sys2Proof.Machine

namespace Sys2Proof.Machine

/-! ### The counter and the engine behind a selection (R48, R78, R79) -/

section ServoSteps

variable {s : State} {theta : Int}

/-- The counter as a phase step leaves it (R48). -/
def steppedTime (theta : Int) (s : State) : TimeUnit := { s.time with
  seconds := if totalNs (timeNow s) - theta < 0 then 0 else (ofTotalNs (totalNs (timeNow s) - theta)).sec
  nanoseconds := if totalNs (timeNow s) - theta < 0 then 0 else (ofTotalNs (totalNs (timeNow s) - theta)).ns
  fraction := if totalNs (timeNow s) - theta < 0 then 0 else s.time.fraction
  epoch := s.time.epoch + 1
  phaseSteps := satInc s.time.phaseSteps
  stepsClamped := if totalNs (timeNow s) - theta < 0 then satInc s.time.stepsClamped else s.time.stepsClamped }

theorem phaseStep_time : (phaseStep theta s).time = steppedTime theta s := by
  simp only [phaseStep, afterTimeChange_time, State.updTime_time, decide_eq_true_eq, steppedTime]

theorem stepSelection_time : (stepSelection theta s).time = steppedTime theta s := by
  rw [stepSelection, phaseStep_time]
  rfl

theorem stepSelection_xfer : (stepSelection theta s).xfer = { s.xfer with
    integral := 0, block := []
    counters := { s.xfer.counters with stepSelections := satInc s.xfer.counters.stepSelections } } := by
  rw [stepSelection, phaseStep_xfer]
  rfl

/-- A step that stays within the counter moves the time by θ and nothing else of it (R48). -/
theorem steppedTime_within {t : State} (ht : t.time = steppedTime theta s) (h0 : 0 ≤ totalNs (timeNow s) - theta)
    (h1 : totalNs (timeNow s) - theta < 2 ^ 48 * 1000000000) :
    totalNs (timeNow t) = totalNs (timeNow s) - theta ∧ t.time.fraction = s.time.fraction ∧
      t.time.stepsClamped = s.time.stepsClamped := by
  have hneg : ¬totalNs (timeNow s) - theta < 0 := Int.not_lt.mpr h0
  have hnow : timeNow t = ofTotalNs (totalNs (timeNow s) - theta) := by
    rw [timeNow, ht]
    simp only [steppedTime, if_neg hneg]
  refine ⟨by rw [hnow, totalNs_ofTotalNs h0 h1], ?_, ?_⟩
  · rw [ht]
    exact if_neg hneg
  · rw [ht]
    exact if_neg hneg

/-- A step below zero leaves the counter at 0, which counts (R48). -/
theorem steppedTime_clamped {t : State} (ht : t.time = steppedTime theta s) (h : totalNs (timeNow s) - theta < 0) :
    timeNow t = ⟨0, 0⟩ ∧ t.time.fraction = 0 ∧ t.time.stepsClamped = satInc s.time.stepsClamped := by
  rw [timeNow, ht]
  exact ⟨Stamp.mk.injEq .. ▸ ⟨if_pos h, if_pos h⟩, if_pos h, if_pos h⟩

/-- The frequency word that a selection asks for is within its bounds (R79). -/
def freqFits (theta : Int) (x : Transfer) : Bool :=
  decide (-800000 ≤ servoFreq x.params x.integral theta ∧ servoFreq x.params x.integral theta ≤ 800000)

/-- F as a steering selection leaves it: at its bound where it would pass it (R79). -/
def steeredFreq (theta : Int) (x : Transfer) : Int :=
  if freqFits theta x then servoFreq x.params x.integral theta
  else if 0 ≤ servoFreq x.params x.integral theta then 800000 else -800000

/-- S as a steering selection leaves it, kept where F is held (R79). -/
def steeredIntegral (theta : Int) (x : Transfer) : Int :=
  if freqFits theta x then servoIntegral x.integral theta else x.integral

def steeredCounters (theta : Int) (x : Transfer) : TransferCounters :=
  if freqFits theta x then x.counters else { x.counters with fClamped := satInc x.counters.fClamped }

theorem steer_spec : (steer theta s).time = { s.time with freq := steeredFreq theta s.xfer } ∧
    (steer theta s).xfer = { s.xfer with
      integral := steeredIntegral theta s.xfer, counters := steeredCounters theta s.xfer } := by
  simp only [steer, steeredFreq, steeredIntegral, steeredCounters, freqFits, decide_eq_true_eq]
  split
  · exact ⟨rfl, rfl⟩
  · exact ⟨rfl, rfl⟩

end ServoSteps

/-! ### The timing states behind a selection (R81, R82, R84) -/

section SelectionStates

variable {s t : State} {theta : Int}

/-- The run count that a selection finds: HOLDOVER moves to ACQUIRE first, with none (R84). -/
def runBefore (x : Transfer) : Nat := if x.state = .holdover then 0 else x.runCount

/-- The holdover age behind a selection (R84). -/
def ageBehind (x : Transfer) : Nat := if x.state = .holdover then 0 else x.holdoverAge

/-- A selection has stepped the counter (R78). -/
def Stepped (theta : Int) (s t : State) : Prop := t.time = steppedTime theta s ∧ t.xfer = { s.xfer with
  state := .acquire, runCount := 0, holdoverAge := ageBehind s.xfer, integral := 0, block := []
  counters := { s.xfer.counters with stepSelections := satInc s.xfer.counters.stepSelections } }

/-- A selection has steered the counter, with the timing state, run count and history that follow (R79). -/
def Steered (theta : Int) (s t : State) (state : TimingState) (run : Nat) (history : List Int) : Prop :=
  t.time = { s.time with freq := steeredFreq theta s.xfer } ∧ t.xfer = { s.xfer with
    integral := steeredIntegral theta s.xfer, counters := steeredCounters theta s.xfer
    state := state, runCount := run, history := history, holdoverAge := ageBehind s.xfer }

/-- The history with F behind the selection (R82). -/
def historyBehind (theta : Int) (x : Transfer) : List Int := pushHistory (steeredFreq theta x) x.history

/-! The state in which ACQUIRE takes the selection (R81, R84). -/

/-- HOLDOVER moves to ACQUIRE first. -/
def opened (s : State) : State :=
  if s.xfer.state = .holdover then moveTiming .acquire 8 (fun x => { x with holdoverAge := 0, runCount := 0 }) s else s

theorem opened_holdover (h : s.xfer.state = .holdover) :
    opened s = moveTiming .acquire 8 (fun x => { x with holdoverAge := 0, runCount := 0 }) s := if_pos h

theorem opened_acquire (h : s.xfer.state = .acquire) : opened s = s := if_neg (by simp [h])

theorem opened_time : (opened s).time = s.time := by
  rw [opened]
  split
  · simp
  · rfl

theorem opened_xfer (h : s.xfer.state = .acquire ∨ s.xfer.state = .holdover) : (opened s).xfer = { s.xfer with
    state := .acquire, runCount := runBefore s.xfer, holdoverAge := ageBehind s.xfer } := by
  rcases h with h | h
  · have hne : ¬s.xfer.state = .holdover := by simp [h]
    rw [opened_acquire h, runBefore, ageBehind, if_neg hne, if_neg hne, ← h]
  · rw [opened_holdover h, moveTiming_xfer, runBefore, ageBehind, if_pos h, if_pos h]

theorem applySelection_opened (h : s.xfer.state = .acquire ∨ s.xfer.state = .holdover) :
    applySelection theta s = acquireSelection theta (opened s) := by
  rcases h with h | h
  · rw [opened_acquire h]
    simp only [applySelection, h]
  · rw [opened_holdover h]
    simp only [applySelection, h]

theorem applySelection_track (h : s.xfer.state = .track) : applySelection theta s = trackSelection theta s := by
  simp only [applySelection, h]

/-! The branches of the two states. -/

theorem acquireSelection_step (h : selectionSteps s.xfer.params theta = true) :
    acquireSelection theta s = setRun 0 (stepSelection theta s) := if_pos h

theorem acquireSelection_locks (h : ¬selectionSteps s.xfer.params theta = true)
    (hw : withinTrack s.xfer.params theta = true) (hr : s.xfer.params.k ≤ s.xfer.runCount + 1) :
    acquireSelection theta s =
      moveTiming .track 2 (fun x => { x with runCount := 0 }) (pushFreq (steer theta s)) :=
  (if_neg h).trans ((if_pos hw).trans (if_pos hr))

theorem acquireSelection_runs (h : ¬selectionSteps s.xfer.params theta = true)
    (hw : withinTrack s.xfer.params theta = true) (hr : ¬s.xfer.params.k ≤ s.xfer.runCount + 1) :
    acquireSelection theta s = setRun (s.xfer.runCount + 1) (steer theta s) :=
  (if_neg h).trans ((if_pos hw).trans (if_neg hr))

theorem acquireSelection_outside (h : ¬selectionSteps s.xfer.params theta = true)
    (hw : ¬withinTrack s.xfer.params theta = true) :
    acquireSelection theta s = setRun 0 (steer theta s) :=
  (if_neg h).trans (if_neg hw)

theorem trackSelection_step (h : selectionSteps s.xfer.params theta = true) : trackSelection theta s =
    moveTiming .acquire 3 (fun x => { x with runCount := 0 }) (stepSelection theta s) := if_pos h

theorem trackSelection_within (h : ¬selectionSteps s.xfer.params theta = true)
    (hw : withinTrack s.xfer.params theta = true) :
    trackSelection theta s = setRun 0 (pushFreq (steer theta s)) :=
  (if_neg h).trans (if_pos hw)

theorem trackSelection_leaves (h : ¬selectionSteps s.xfer.params theta = true)
    (hw : ¬withinTrack s.xfer.params theta = true) (hr : s.xfer.params.k ≤ s.xfer.runCount + 1) :
    trackSelection theta s =
      moveTiming .acquire 4 (fun x => { x with runCount := 0 }) (pushFreq (steer theta s)) :=
  (if_neg h).trans ((if_neg hw).trans (if_pos hr))

theorem trackSelection_runs (h : ¬selectionSteps s.xfer.params theta = true)
    (hw : ¬withinTrack s.xfer.params theta = true) (hr : ¬s.xfer.params.k ≤ s.xfer.runCount + 1) :
    trackSelection theta s = setRun (s.xfer.runCount + 1) (pushFreq (steer theta s)) :=
  (if_neg h).trans ((if_neg hw).trans (if_neg hr))

/-! What a selection leaves of the counter and of the engine. -/

section Acquire

variable (h : s.xfer.state = .acquire ∨ s.xfer.state = .holdover)
include h

theorem steer_opened : (steer theta (opened s)).time = { s.time with freq := steeredFreq theta s.xfer } ∧
    (steer theta (opened s)).xfer = { s.xfer with
      integral := steeredIntegral theta s.xfer, counters := steeredCounters theta s.xfer
      state := .acquire, runCount := runBefore s.xfer, holdoverAge := ageBehind s.xfer } := by
  obtain ⟨ht, hx⟩ := steer_spec (s := opened s) (theta := theta)
  rw [ht, hx, opened_time, opened_xfer h]
  exact ⟨rfl, rfl⟩

theorem opened_params : (opened s).xfer.params = s.xfer.params := by rw [opened_xfer h]

theorem opened_runCount : (opened s).xfer.runCount = runBefore s.xfer := by rw [opened_xfer h]

theorem acquire_steps (hs : selectionSteps s.xfer.params theta = true) : Stepped theta s (applySelection theta s) := by
  rw [applySelection_opened h, acquireSelection_step (by rwa [opened_params h])]
  refine ⟨stepSelection_time.trans ?_, ?_⟩
  · rw [steppedTime, timeNow, opened_time]
    rfl
  · rw [setRun, State.updXfer_xfer, stepSelection_xfer, opened_xfer h]

theorem acquire_locks (hs : ¬selectionSteps s.xfer.params theta = true)
    (hw : withinTrack s.xfer.params theta = true) (hr : s.xfer.params.k ≤ runBefore s.xfer + 1) :
    applySelection theta s =
      moveTiming .track 2 (fun x => { x with runCount := 0 }) (pushFreq (steer theta (opened s))) ∧
    Steered theta s (applySelection theta s) .track 0 (historyBehind theta s.xfer) := by
  obtain ⟨ht, hx⟩ := steer_opened (theta := theta) h
  have he := (applySelection_opened h).trans (acquireSelection_locks (by rwa [opened_params h])
    (by rwa [opened_params h]) (by rwa [opened_params h, opened_runCount h]))
  refine ⟨he, ?_⟩
  rw [he, Steered, moveTiming_xfer, pushFreq, State.updXfer_xfer, hx, ht]
  exact ⟨by simpa using ht, rfl⟩

theorem acquire_runs (hs : ¬selectionSteps s.xfer.params theta = true)
    (hw : withinTrack s.xfer.params theta = true) (hr : ¬s.xfer.params.k ≤ runBefore s.xfer + 1) :
    Steered theta s (applySelection theta s) .acquire (runBefore s.xfer + 1) s.xfer.history := by
  obtain ⟨ht, hx⟩ := steer_opened (theta := theta) h
  rw [applySelection_opened h, acquireSelection_runs (by rwa [opened_params h]) (by rwa [opened_params h])
    (by rwa [opened_params h, opened_runCount h]), opened_runCount h]
  refine ⟨ht, ?_⟩
  rw [setRun, State.updXfer_xfer, hx]

theorem acquire_outside (hs : ¬selectionSteps s.xfer.params theta = true)
    (hw : ¬withinTrack s.xfer.params theta = true) :
    Steered theta s (applySelection theta s) .acquire 0 s.xfer.history := by
  obtain ⟨ht, hx⟩ := steer_opened (theta := theta) h
  rw [applySelection_opened h, acquireSelection_outside (by rwa [opened_params h]) (by rwa [opened_params h])]
  refine ⟨ht, ?_⟩
  rw [setRun, State.updXfer_xfer, hx]

end Acquire

section Track

variable (h : s.xfer.state = .track)
include h

theorem pushFreq_steer : (pushFreq (steer theta s)).time = { s.time with freq := steeredFreq theta s.xfer } ∧
    (pushFreq (steer theta s)).xfer = { s.xfer with
      integral := steeredIntegral theta s.xfer, counters := steeredCounters theta s.xfer
      history := historyBehind theta s.xfer, holdoverAge := ageBehind s.xfer } := by
  obtain ⟨ht, hx⟩ := steer_spec (s := s) (theta := theta)
  have hage : ageBehind s.xfer = s.xfer.holdoverAge := if_neg (by simp [h])
  refine ⟨ht, ?_⟩
  rw [pushFreq, State.updXfer_xfer, hx, ht, hage]
  rfl

theorem track_steps (hs : selectionSteps s.xfer.params theta = true) : Stepped theta s (applySelection theta s) := by
  have hage : ageBehind s.xfer = s.xfer.holdoverAge := if_neg (by simp [h])
  rw [applySelection_track h, trackSelection_step hs, Stepped, moveTiming_xfer, stepSelection_xfer, hage]
  exact ⟨by simpa using stepSelection_time, rfl⟩

theorem track_within (hs : ¬selectionSteps s.xfer.params theta = true)
    (hw : withinTrack s.xfer.params theta = true) :
    Steered theta s (applySelection theta s) .track 0 (historyBehind theta s.xfer) := by
  obtain ⟨ht, hx⟩ := pushFreq_steer (theta := theta) h
  rw [applySelection_track h, trackSelection_within hs hw]
  refine ⟨ht, ?_⟩
  rw [setRun, State.updXfer_xfer, hx, ← h]

theorem track_leaves (hs : ¬selectionSteps s.xfer.params theta = true)
    (hw : ¬withinTrack s.xfer.params theta = true) (hr : s.xfer.params.k ≤ s.xfer.runCount + 1) :
    Steered theta s (applySelection theta s) .acquire 0 (historyBehind theta s.xfer) := by
  obtain ⟨ht, hx⟩ := pushFreq_steer (theta := theta) h
  rw [applySelection_track h, trackSelection_leaves hs hw hr, Steered, moveTiming_xfer, hx]
  exact ⟨by simpa using ht, rfl⟩

theorem track_runs (hs : ¬selectionSteps s.xfer.params theta = true)
    (hw : ¬withinTrack s.xfer.params theta = true) (hr : ¬s.xfer.params.k ≤ s.xfer.runCount + 1) :
    Steered theta s (applySelection theta s) .track (s.xfer.runCount + 1) (historyBehind theta s.xfer) := by
  obtain ⟨ht, hx⟩ := pushFreq_steer (theta := theta) h
  rw [applySelection_track h, trackSelection_runs hs hw hr]
  refine ⟨ht, ?_⟩
  rw [setRun, State.updXfer_xfer, hx, ← h]

end Track
end SelectionStates
end Sys2Proof.Machine

namespace Sys2Proof.Machine

/-! ### The reports behind a selection (R50, R85, R156, R170) -/

section ServoReports

variable {N M : Cls → Prop} {J K : Job → Prop} {s t u v : State} {theta : Int} {c : Cond} {k n cause : Nat}
  {new : TimingState} {f : Transfer → Transfer}

/-! The level that a change of the qualification sets (R165, R170). -/

/-- A change of a condition has its FAULT_CHANGE, timed at its making, behind the reports made before it. -/
theorem changeCondition_reportedAt {d : Condition} (h : Passage N IsEntry s v k) (hk : k ≤ n)
    (hc : condGet v.fault c = condGet s.fault c) (hx : Turnover M K (changeCondition c d cause v) t)
    (hf : t.fault = (changeCondition c d cause v).fault) : FaultReportedAt s t n (timeNow v) c cause := by
  rintro a b rfl rfl hne hmode
  obtain ⟨w, hw⟩ : ∃ w, w = evalFaultLine (v.updFault fun u => condSet u c d) := ⟨_, rfl⟩
  have hcc : changeCondition c d cause v = reportFault c (condGet s.fault c) cause w := by rw [changeCondition, hc, hw]
  have hfw : t.fault = w.fault := by rw [hf, hcc]; simp
  have hnow : timeNow w = timeNow v := by rw [hw]; rfl
  have hcw : Passage N IsEntry s w (k + 0) := h.trans (by rw [hw]; exact .of_same rfl rfl rfl)
  rw [hfw] at hne hmode ⊢
  rw [hcc, reportFault, if_neg] at hx
  · have hr := hcw.among_at (n := n) hk hx
    rw [faultBody_eq, hnow] at hr
    exact hr
  · rintro (⟨h1, h2⟩ | h1)
    · exact hne.elim (fun h => h h1) fun h => h h2
    · exact hmode h1

/-- An event that leaves a condition has nothing to report of it. -/
theorem FaultReportedAt.of_kept {time : Stamp} (h : condGet t.fault c = condGet s.fault c) :
    FaultReportedAt s t n time c cause := by
  rintro a b rfl rfl hne
  rw [h] at hne
  exact absurd hne (by simp)

theorem setLevel_reportedAt {b : Bool} (h : Passage N IsEntry s v k) (hk : k ≤ n)
    (hc : condGet v.fault c = condGet s.fault c) (hx : Turnover M K (setLevel c b v) t)
    (hf : t.fault = (setLevel c b v).fault) : FaultReportedAt s t n (timeNow v) c (if b then 1 else 2) := by
  simp only [setLevel] at hx hf
  by_cases hkeep : (v.inReset || (condGet v.fault c).raw == b) = true
  · rw [if_pos hkeep] at hf
    exact .of_kept (by rw [hf, hc])
  · rw [if_neg hkeep] at hx hf
    split
    · rw [if_pos ‹_›] at hx hf
      exact changeCondition_reportedAt h hk hc hx hf
    · rw [if_neg ‹_›] at hx hf
      exact changeCondition_reportedAt h hk hc hx hf

/-- A change of timing state that moves the qualification makes its report and sets the level, in either order. -/
theorem moveTiming_moves (h : qualifiedState s.xfer.state ≠ qualifiedState new) : ∃ (body : List FieldSpec) (x : State),
    Passage N J s x 0 ∧ x.fault = s.fault ∧ x.inReset = s.inReset ∧ timeNow x = timeNow s ∧
    (moveTiming new cause f s = setLevel .timingUnqualified (!qualifiedState new) (report 0x07 body x) ∨
      moveTiming new cause f s = report 0x07 body (setLevel .timingUnqualified (!qualifiedState new) x)) := by
  have hm : moveTiming new cause f s = unordered [report 0x07 (timingStateBody s.xfer.state cause s.xfer.holdoverAge
      (s.updXfer fun x => f { x with state := new })), setLevel .timingUnqualified (!qualifiedState new)]
      (s.updXfer fun x => f { x with state := new }) := if_neg h
  rw [hm]
  obtain ⟨x, hx⟩ : ∃ x : State, x = (s.updXfer fun x => f { x with state := new }).setFreeUses (s.freeUses + 1) :=
    ⟨_, rfl⟩
  have hquiet : Passage N J s x 0 ∧ x.fault = s.fault ∧ x.inReset = s.inReset ∧ timeNow x = timeNow s := by
    rw [hx]
    exact ⟨.of_same rfl rfl rfl, rfl, rfl, rfl⟩
  obtain ⟨hp, hf, hin, hnow⟩ := hquiet
  exact ⟨_, x, hp, hf, hin, hnow, hx ▸ unordered_pair⟩

/-- A change of the qualification has its FAULT_CHANGE. -/
theorem moveTiming_faultAt (h : Passage N IsEntry s v k)
    (hc : condGet v.fault .timingUnqualified = condGet s.fault .timingUnqualified) (hk : k + 1 ≤ n) :
    FaultReportedAt s (moveTiming new cause f v) n (timeNow v) .timingUnqualified
      (if qualifiedState new then 2 else 1) := by
  by_cases hq : qualifiedState v.xfer.state = qualifiedState new
  · refine .of_kept ?_
    rw [moveTiming_plain hq, ← hc]
    simp
  · have hcause : (if qualifiedState new then 2 else 1) = if (!qualifiedState new) = true then 1 else 2 := by
      cases qualifiedState new <;> rfl
    obtain ⟨body, x, hx, hf, -, hnow, he | he⟩ :=
      moveTiming_moves (N := N) (J := IsEntry) (cause := cause) (f := f) hq
    · have hp : Passage N IsEntry s (report 0x07 body x) (k + 0 + 1) := (h.trans hx).report
      have htime : timeNow (report 0x07 body x) = timeNow v := by
        rw [← hnow, timeNow, timeNow]
        simp
      have hr := setLevel_reportedAt (n := n) (c := .timingUnqualified) (b := !qualifiedState new)
        (t := setLevel .timingUnqualified (!qualifiedState new) (report 0x07 body x)) hp hk
        (by simp [hf, hc]) (Turnover.of_path (N := N) (J := IsEntry) rfl) rfl
      rw [he, hcause, ← htime]
      exact hr
    · have hr := setLevel_reportedAt (n := n) (c := .timingUnqualified) (b := !qualifiedState new)
        (t := report 0x07 body (setLevel .timingUnqualified (!qualifiedState new) x)) (h.trans hx) (by omega)
        (by rw [hf, hc]) (reportAt_turnover _ _ _ _ : Turnover N IsEntry _ _) (by simp)
      rw [he, hcause, ← hnow]
      exact hr

/-- A change of the qualification is told to the fault unit (R165). -/
theorem moveTiming_raw (h : qualifiedState s.xfer.state ≠ qualifiedState new) (hr : s.inReset = false) :
    (moveTiming new cause f s).fault.timingUnqualified.raw = !qualifiedState new := by
  obtain ⟨body, x, -, -, hin, -, he | he⟩ :=
    moveTiming_moves (N := fun _ => False) (J := IsEntry) (cause := cause) (f := f) h
  · rw [he]
    exact setLevel_raw (c := .timingUnqualified) (by simp [hin, hr])
  · rw [he, show (report 0x07 body (setLevel .timingUnqualified (!qualifiedState new) x)).fault =
      (setLevel .timingUnqualified (!qualifiedState new) x).fault by simp]
    exact setLevel_raw (c := .timingUnqualified) (by rw [hin, hr])

/-- A change of timing state is reported behind the reports made before it (R85). -/
theorem moveTiming_reportedAt (h : Passage N IsEntry s v k) (hk : k + 1 ≤ n) :
    TimingStateReported s (moveTiming new cause f v) n (timeNow v) v.xfer.state cause v.xfer.holdoverAge := by
  obtain ⟨w, ⟨i, hi, hw⟩, m, hm⟩ := moveTiming_reported new cause f v
  rw [← hw.timeNow]
  exact (h.trans hw.passage).among_at (M := N) (by omega) hm.turnover

/-! The report of a step (R50). -/

/-- The body of a selection's TIME_STEP, with the counter behind the step. -/
def stepBody (theta : Int) (s : State) (u : TimeUnit) : List FieldSpec :=
  [⟨16, 1, 0⟩, ⟨17, 1, if totalNs (timeNow s) - theta < 0 then 1 else 0⟩, ⟨18, 2, u.epoch.toNat⟩,
    ⟨20, 4, narrowSigned 4 theta⟩] ++ stampFields 24 32 (timeNow s) ++ stampFields 40 48 ⟨u.seconds, u.nanoseconds⟩

/-- The counter's value and the block, as every change of the counter's value leaves them (R51, R77). -/
def timeChanged (s : State) : State := (stepEpoch s).updXfer fun x => { x with block := [] }

theorem phaseStep_reports : ∃ v, v.time = steppedTime theta s ∧ Passage N J s v 0 ∧
    phaseStep theta s = report 0x06 (stepBody theta s v.time) v := by
  obtain ⟨f, hf⟩ : ∃ f, phaseStep theta s = afterTimeChange 0 (decide (totalNs (timeNow s) - theta < 0)) theta
      (timeNow s) (s.updTime f) := ⟨_, rfl⟩
  have hflag : flagByte (decide (totalNs (timeNow s) - theta < 0)) =
      if totalNs (timeNow s) - theta < 0 then 1 else 0 := by
    by_cases h : totalNs (timeNow s) - theta < 0
    · rw [decide_eq_true h, if_pos h]
      rfl
    · rw [decide_eq_false h, if_neg h]
      rfl
  refine ⟨timeChanged (s.updTime f), ?_, .of_same rfl rfl rfl, ?_⟩
  · rw [← phaseStep_time, hf, afterTimeChange_time]
    rfl
  · rw [hf, stepBody, ← hflag]
    rfl

theorem stepSelection_reports : ∃ v, v.time = steppedTime theta s ∧ Passage N J s v 0 ∧
    stepSelection theta s = report 0x06 (stepBody theta s v.time) v := by
  have hcounted : Passage N J s (xferCount (fun c => { c with stepSelections := satInc c.stepSelections })
    (s.updXfer fun x => { x with integral := 0 })) 0 := .of_same rfl rfl rfl
  obtain ⟨v, hv, hp, he⟩ := phaseStep_reports (N := N) (J := J) (theta := theta)
    (s := xferCount (fun c => { c with stepSelections := satInc c.stepSelections })
      (s.updXfer fun x => { x with integral := 0 }))
  exact ⟨v, hv, hcounted.trans hp, he⟩

theorem stepSelection_passage : Passage N IsEntry s (stepSelection theta s) 1 := by
  obtain ⟨v, -, hp, he⟩ := stepSelection_reports (N := N) (J := IsEntry) (s := s) (theta := theta)
  rw [he]
  exact hp.report

/-- A selection's step is reported behind the reports made before it. -/
theorem stepSelection_among (h : Passage N IsEntry s u k) (hk : k ≤ n) (hu : u.time = s.time)
    (ht : t.time = steppedTime theta s) (hx : Turnover M K (stepSelection theta u) t) :
    ReportAmong s t n (timeNow t) 0x06 (stepBody theta s t.time) := by
  obtain ⟨v, hv, hp, he⟩ := stepSelection_reports (N := N) (J := IsEntry) (s := u) (theta := theta)
  have hnow : timeNow u = timeNow s := by rw [timeNow, timeNow, hu]
  have hvt : v.time = t.time := by rw [hv, ht, steppedTime, steppedTime, hnow, hu]
  have hbody : stepBody theta u v.time = stepBody theta s t.time := by rw [stepBody, stepBody, hnow, hvt]
  have htime : timeNow v = timeNow t := by rw [timeNow, timeNow, hvt]
  rw [he, hbody] at hx
  rw [← htime]
  exact (h.trans hp).among_at hk hx

/-! The selections by what they move. -/

/-- A selection in ACQUIRE moves to TRACK, or leaves the timing state and the fault unit. -/
theorem acquireSelection_moves (theta : Int) (u : State) :
    ((acquireSelection theta u).xfer.state = u.xfer.state ∧ (acquireSelection theta u).fault = u.fault) ∨
    ∃ v, acquireSelection theta u = moveTiming .track 2 (fun x => { x with runCount := 0 }) v ∧
      Reporting u v 0 ∧ v.fault = u.fault ∧ v.inReset = u.inReset ∧ v.xfer.state = u.xfer.state ∧
      v.xfer.holdoverAge = u.xfer.holdoverAge := by
  obtain ⟨hst, hsx⟩ := steer_spec (s := u) (theta := theta)
  by_cases hs : selectionSteps u.xfer.params theta = true
  · left
    rw [acquireSelection_step hs, setRun, State.updXfer_xfer, stepSelection_xfer]
    exact ⟨rfl, by simp⟩
  by_cases hw : withinTrack u.xfer.params theta = true
  · by_cases hr : u.xfer.params.k ≤ u.xfer.runCount + 1
    · right
      refine ⟨_, acquireSelection_locks hs hw hr, .of_same (by simp) (by simp) (by simp) ?_, by simp, by simp, ?_, ?_⟩
      · rw [timeNow, pushFreq, State.updXfer_time, hst]
        rfl
      · rw [pushFreq, State.updXfer_xfer, hsx]
      · rw [pushFreq, State.updXfer_xfer, hsx]
    · left
      rw [acquireSelection_runs hs hw hr, setRun, State.updXfer_xfer, hsx]
      exact ⟨rfl, by simp⟩
  · left
    rw [acquireSelection_outside hs hw, setRun, State.updXfer_xfer, hsx]
    exact ⟨rfl, by simp⟩

/-- A selection in TRACK moves to ACQUIRE, behind a step or without one, or leaves the timing state. -/
theorem trackSelection_moves (theta : Int) (u : State) :
    (trackSelection theta u).xfer.state = u.xfer.state ∨
    ∃ cause v n, trackSelection theta u = moveTiming .acquire cause (fun x => { x with runCount := 0 }) v ∧
      Passage (fun _ => False) IsEntry u v n ∧ v.fault = u.fault ∧ v.inReset = u.inReset ∧
      v.xfer.state = u.xfer.state ∧ v.xfer.holdoverAge = u.xfer.holdoverAge ∧
      (if selectionSteps u.xfer.params theta then cause = 3 ∧ n = 1
        else cause = 4 ∧ n = 0 ∧ timeNow v = timeNow u) := by
  obtain ⟨hst, hsx⟩ := steer_spec (s := u) (theta := theta)
  by_cases hs : selectionSteps u.xfer.params theta = true
  · right
    refine ⟨_, _, _, trackSelection_step hs, stepSelection_passage, by simp, by simp, ?_, ?_,
      by rw [if_pos hs]; exact ⟨rfl, rfl⟩⟩
    · rw [stepSelection_xfer]
    · rw [stepSelection_xfer]
  by_cases hw : withinTrack u.xfer.params theta = true
  · left
    rw [trackSelection_within hs hw, setRun, State.updXfer_xfer, pushFreq, State.updXfer_xfer, hsx]
  by_cases hr : u.xfer.params.k ≤ u.xfer.runCount + 1
  · right
    refine ⟨_, _, _, trackSelection_leaves hs hw hr, .of_same (by simp) (by simp) (by simp), by simp, by simp, ?_, ?_,
      by rw [if_neg hs]; refine ⟨rfl, rfl, ?_⟩; rw [timeNow, pushFreq, State.updXfer_time, hst]; rfl⟩
    · rw [pushFreq, State.updXfer_xfer, hsx]
    · rw [pushFreq, State.updXfer_xfer, hsx]
  · left
    rw [trackSelection_runs hs hw hr, setRun, State.updXfer_xfer, pushFreq, State.updXfer_xfer, hsx]

end ServoReports
end Sys2Proof.Machine

namespace Sys2Proof.Machine

/-! ### A selection, by its kind and by the state that it finds (R78 to R85) -/

section Selections

variable {N : Cls → Prop} {s t : State} {theta : Int}

/-- The states that a selection can find (R81). -/
theorem selection_states (h : s.xfer.state ≠ .freerun) :
    (s.xfer.state = .acquire ∨ s.xfer.state = .holdover) ∨ s.xfer.state = .track := by
  cases hs : s.xfer.state with
  | freerun => exact absurd hs h
  | acquire => exact .inl (.inl rfl)
  | holdover => exact .inl (.inr rfl)
  | track => exact .inr rfl

theorem selectionSteps_iff {p : TimingParams} : selectionSteps p theta = true ↔ (p.tStep : Int) < |theta| :=
  decide_eq_true_iff

theorem withinTrack_iff {p : TimingParams} : withinTrack p theta = true ↔ |theta| ≤ (p.tTrk : Int) :=
  decide_eq_true_iff

theorem applySelection_steps (h : s.xfer.state ≠ .freerun) (hs : selectionSteps s.xfer.params theta = true) :
    Stepped theta s (applySelection theta s) :=
  (selection_states h).elim (acquire_steps · hs) (track_steps · hs)

theorem track_steers (h : s.xfer.state = .track) (hs : ¬selectionSteps s.xfer.params theta = true) :
    ∃ state run, Steered theta s (applySelection theta s) state run (historyBehind theta s.xfer) := by
  by_cases hw : withinTrack s.xfer.params theta = true
  · exact ⟨_, _, track_within h hs hw⟩
  by_cases hr : s.xfer.params.k ≤ s.xfer.runCount + 1
  · exact ⟨_, _, track_leaves h hs hw hr⟩
  · exact ⟨_, _, track_runs h hs hw hr⟩

theorem applySelection_steers (h : s.xfer.state ≠ .freerun) (hs : ¬selectionSteps s.xfer.params theta = true) :
    ∃ state run history, Steered theta s (applySelection theta s) state run history := by
  rcases selection_states h with ha | ha
  · by_cases hw : withinTrack s.xfer.params theta = true
    · by_cases hr : s.xfer.params.k ≤ runBefore s.xfer + 1
      · exact ⟨_, _, _, (acquire_locks ha hs hw hr).2⟩
      · exact ⟨_, _, _, acquire_runs ha hs hw hr⟩
    · exact ⟨_, _, _, acquire_outside ha hs hw⟩
  · obtain ⟨state, run, ht⟩ := track_steers ha hs
    exact ⟨state, run, _, ht⟩

theorem applySelection_holdoverAge (h : s.xfer.state ≠ .freerun) :
    (applySelection theta s).xfer.holdoverAge = ageBehind s.xfer := by
  by_cases hs : selectionSteps s.xfer.params theta = true
  · obtain ⟨-, hx⟩ := applySelection_steps h hs
    rw [hx]
  · obtain ⟨_, _, _, -, hx⟩ := applySelection_steers h hs
    rw [hx]

theorem historyBehind_eq {x : Transfer} :
    historyBehind theta x = (x.history ++ [steeredFreq theta x]).drop (x.history.length + 1 - 4) := by
  rw [historyBehind, pushHistory, List.length_append, List.length_singleton]

/-- A selection whose F stays in range sets F and S (R79). -/
theorem Steered.fits {state : TimingState} {run : Nat} {history : List Int} (h : Steered theta s t state run history)
    (hf : -800000 ≤ servoFreq s.xfer.params s.xfer.integral theta ∧
      servoFreq s.xfer.params s.xfer.integral theta ≤ 800000) :
    t.time = { s.time with freq := servoFreq s.xfer.params s.xfer.integral theta } ∧
    t.xfer.integral = servoIntegral s.xfer.integral theta ∧ t.xfer.counters = s.xfer.counters := by
  obtain ⟨ht, hx⟩ := h
  have hfit : freqFits theta s.xfer = true := decide_eq_true hf
  rw [ht, hx, steeredFreq, if_pos hfit]
  exact ⟨rfl, if_pos hfit, if_pos hfit⟩

/-- A selection whose F would pass its bound holds F there, and counts (R79). -/
theorem Steered.clamps {state : TimingState} {run : Nat} {history : List Int} (h : Steered theta s t state run history)
    (hf : servoFreq s.xfer.params s.xfer.integral theta < -800000 ∨
      800000 < servoFreq s.xfer.params s.xfer.integral theta) :
    t.time = { s.time with
      freq := if 0 ≤ servoFreq s.xfer.params s.xfer.integral theta then 800000 else -800000 } ∧
    t.xfer.integral = s.xfer.integral ∧
    t.xfer.counters = { s.xfer.counters with fClamped := satInc s.xfer.counters.fClamped } := by
  obtain ⟨ht, hx⟩ := h
  have hfit : ¬freqFits theta s.xfer = true := by
    rw [freqFits, decide_eq_true_eq]
    omega
  rw [ht, hx, steeredFreq, if_neg hfit]
  exact ⟨rfl, if_neg hfit, if_neg hfit⟩

/-- The history that F has entered (R81, R82). -/
theorem Steered.history_of {state : TimingState} {run : Nat}
    (h : Steered theta s t state run (historyBehind theta s.xfer)) :
    t.xfer.history = (s.xfer.history ++ [t.time.freq]).drop (s.xfer.history.length + 1 - 4) := by
  obtain ⟨ht, hx⟩ := h
  rw [ht, hx]
  exact historyBehind_eq

/-! The qualification and the reports. -/

/-- The move from HOLDOVER to ACQUIRE makes at most its two reports. -/
theorem opened_reporting (s : State) : ∃ k ≤ 2, Reporting s (opened s) k := by
  by_cases h : s.xfer.state = .holdover
  · rw [opened_holdover h]
    exact moveTiming_takes _ _ _ s
  · exact ⟨0, by omega, by rw [opened, if_neg h]; exact .start⟩

/-- A change of the qualification has reached the fault unit (R165). -/
theorem applySelection_raw (h : s.xfer.state ≠ .freerun) (hr : s.inReset = false)
    (hq : qualifiedState (applySelection theta s).xfer.state ≠ qualifiedState s.xfer.state) :
    (applySelection theta s).fault.timingUnqualified.raw = !qualifiedState (applySelection theta s).xfer.state := by
  rcases selection_states h with ha | ha
  · have hopen : (opened s).xfer.state = .acquire := by rw [opened_xfer ha]
    rw [applySelection_opened ha] at hq ⊢
    rcases acquireSelection_moves theta (opened s) with ⟨hst, hf⟩ | ⟨v, hv, -, -, hin, hst, -⟩
    · rw [hst, hopen] at hq ⊢
      rcases ha with ha | ha
      · exact absurd (by rw [ha]) hq
      · rw [hf, opened_holdover ha]
        exact moveTiming_raw hq.symm hr
    · have hmoved : (acquireSelection theta (opened s)).xfer.state = .track := by rw [hv, moveTiming_xfer]
      have hin' : v.inReset = false := by
        rw [hin, opened]
        split
        · simpa using hr
        · exact hr
      rw [hmoved, hv]
      exact moveTiming_raw (by rw [hst, hopen]; decide) hin'
  · rw [applySelection_track ha] at hq ⊢
    rcases trackSelection_moves theta s with hst | ⟨cause, v, n, hv, -, -, hin, hst, -⟩
    · exact absurd (by rw [hst]) hq
    · have hmoved : (trackSelection theta s).xfer.state = .acquire := by rw [hv, moveTiming_xfer]
      rw [hmoved, hv]
      exact moveTiming_raw (by rw [hst, ha]; decide) (hin.trans hr)

/-- A step has its TIME_STEP report (R50). -/
theorem applySelection_stepReport (h : s.xfer.state ≠ .freerun) (hs : selectionSteps s.xfer.params theta = true) :
    ReportAmong s (applySelection theta s) 2 (timeNow (applySelection theta s)) 0x06
      (stepBody theta s (applySelection theta s).time) := by
  obtain ⟨ht, -⟩ := applySelection_steps h hs
  rcases selection_states h with ha | ha
  · obtain ⟨k, hk, hopen⟩ := opened_reporting s
    refine stepSelection_among (N := fun _ => False) hopen.passage hk opened_time ht
      (?_ : Turnover (fun _ => False) IsEntry _ _)
    rw [applySelection_opened ha, acquireSelection_step (by rwa [opened_params ha])]
    exact .of_path rfl
  · refine stepSelection_among (N := fun _ => False) (.refl s) (Nat.zero_le 2) rfl ht
      (?_ : Turnover (fun _ => False) IsEntry _ _)
    rw [applySelection_track ha, trackSelection_step hs]
    exact (moveTiming_work _ _ _ _).turnover

/-- A selection that moves ACQUIRE to TRACK has its two reports (R85, R170). -/
theorem acquire_reported (h : s.xfer.state = .acquire) (ht : (applySelection theta s).xfer.state = .track) :
    TimingStateReported s (applySelection theta s) 1 (timeNow s) .acquire 2 s.xfer.holdoverAge ∧
    FaultReported s (applySelection theta s) 1 .timingUnqualified 2 := by
  rw [applySelection_opened (.inl h), opened_acquire h] at ht ⊢
  rcases acquireSelection_moves theta s with ⟨hst, -⟩ | ⟨v, hv, hrep, hf, -, hst, hage⟩
  · exact absurd (ht.symm.trans (hst.trans h)) (by decide)
  · rw [hv, ← hage, ← h, ← hst, FaultReported, ← hrep.timeNow]
    exact ⟨moveTiming_reportedAt (N := fun _ => False) hrep.passage (Nat.le_refl 1),
      moveTiming_faultAt (N := fun _ => False) hrep.passage (by rw [hf]) (Nat.le_refl 1)⟩

/-- A selection that moves TRACK to ACQUIRE by a step has its two reports behind TIME_STEP (R85, R170). -/
theorem track_step_reported (h : s.xfer.state = .track) (hs : selectionSteps s.xfer.params theta = true) :
    TimingStateReported s (applySelection theta s) 2 (timeNow (applySelection theta s)) .track 3 s.xfer.holdoverAge ∧
    FaultReportedAt s (applySelection theta s) 2 (timeNow (applySelection theta s)) .timingUnqualified 1 := by
  have hx := stepSelection_xfer (s := s) (theta := theta)
  have hnow : timeNow (applySelection theta s) = timeNow (stepSelection theta s) := by
    rw [timeNow, timeNow, applySelection_track h, trackSelection_step hs]
    simp
  have hstate : (stepSelection theta s).xfer.state = .track := by rw [hx, ← h]
  have hage : (stepSelection theta s).xfer.holdoverAge = s.xfer.holdoverAge := by rw [hx]
  rw [hnow, applySelection_track h, trackSelection_step hs, ← hage, ← hstate]
  exact ⟨moveTiming_reportedAt (N := fun _ => False) stepSelection_passage (Nat.le_refl 2),
    moveTiming_faultAt (N := fun _ => False) stepSelection_passage (by simp) (Nat.le_refl 2)⟩

/-- A selection that moves TRACK to ACQUIRE without a step has its two reports (R85, R170). -/
theorem track_leaves_reported (h : s.xfer.state = .track) (hs : ¬selectionSteps s.xfer.params theta = true)
    (ht : (applySelection theta s).xfer.state = .acquire) :
    TimingStateReported s (applySelection theta s) 1 (timeNow s) .track 4 s.xfer.holdoverAge ∧
    FaultReported s (applySelection theta s) 1 .timingUnqualified 1 := by
  rw [applySelection_track h] at ht ⊢
  rcases trackSelection_moves theta s with hst | ⟨cause, v, n, hv, hp, hf, -, hst, hage, hcause⟩
  · exact absurd (ht.symm.trans (hst.trans h)) (by decide)
  · rw [if_neg hs] at hcause
    obtain ⟨rfl, rfl, hnow⟩ := hcause
    rw [hv, ← hage, ← h, ← hst, FaultReported, ← hnow]
    exact ⟨moveTiming_reportedAt hp (Nat.le_refl 1), moveTiming_faultAt hp (by rw [hf]) (Nat.le_refl 1)⟩

/-- The move from HOLDOVER to ACQUIRE has its report (R84, R85). -/
theorem holdover_reported (h : s.xfer.state = .holdover) :
    ReportAmong s (applySelection theta s) 1 (timeNow s) 0x07 [⟨16, 1, 3⟩, ⟨17, 1, 1⟩, ⟨18, 1, 8⟩,
      ⟨20, 2, s.time.epoch.toNat⟩, ⟨24, 4, narrowSigned 4 s.time.freq⟩, ⟨28, 4, narrowSigned 4 s.xfer.integral⟩,
      ⟨32, 4, narrow 4 s.xfer.holdoverAge⟩] := by
  have hbody : timingStateBody s.xfer.state 8 s.xfer.holdoverAge (opened s) = [⟨16, 1, 3⟩, ⟨17, 1, 1⟩, ⟨18, 1, 8⟩,
      ⟨20, 2, s.time.epoch.toNat⟩, ⟨24, 4, narrowSigned 4 s.time.freq⟩, ⟨28, 4, narrowSigned 4 s.xfer.integral⟩,
      ⟨32, 4, narrow 4 s.xfer.holdoverAge⟩] := by
    rw [timingStateBody, opened_time, opened_xfer (.inr h), h]
    rfl
  obtain ⟨v, ⟨k, hk, hv⟩, m, hm⟩ :=
    moveTiming_reported .acquire 8 (fun x => { x with holdoverAge := 0, runCount := 0 }) s
  rw [← opened_holdover h, hbody] at hm
  rw [applySelection_opened (.inr h), ← hv.timeNow]
  exact (hv.passage (N := fun _ => False)).among_at hk
    (hm.turnover.trans (acquireSelection_work theta (opened s)).turnover)

/-- A selection that goes on from there to TRACK has its report too (R84, R85). -/
theorem holdover_track_reported (h : s.xfer.state = .holdover) (ht : (applySelection theta s).xfer.state = .track) :
    TimingStateReported s (applySelection theta s) 3 (timeNow s) .acquire 2 0 := by
  have hx := opened_xfer (s := s) (.inr h)
  have hstate : (opened s).xfer.state = .acquire := by rw [hx]
  have hopenAge : (opened s).xfer.holdoverAge = 0 := by
    rw [hx]
    exact if_pos h
  rw [applySelection_opened (.inr h)] at ht ⊢
  rcases acquireSelection_moves theta (opened s) with ⟨hst, -⟩ | ⟨v, hv, hrep, -, -, hst, hage⟩
  · exact absurd (ht.symm.trans (hst.trans hstate)) (by decide)
  · obtain ⟨k, hk, hopen⟩ := opened_reporting s
    rw [hv, ← hopenAge, ← hage, ← hstate, ← hst, ← hopen.timeNow, ← hrep.timeNow]
    exact moveTiming_reportedAt (N := fun _ => False) (hopen.passage.trans hrep.passage) (by omega)

end Selections

/-- Settles O44: what the selection moves, by its kind and by the state it finds, and the reports of it. -/
theorem selectionServo : Obligations.SelectionServo := by
  unfold Obligations.SelectionServo
  intro s t theta integral freq run hstate ht hintegral hfreq hrun
  have hservo : freq = servoFreq s.xfer.params s.xfer.integral theta := by
    rw [hfreq, hintegral]
    rfl
  replace hintegral : integral = servoIntegral s.xfer.integral theta := hintegral
  replace hrun : run = runBefore s.xfer := hrun
  have hrest := applySelection_withoutServo (s := s) theta
  have hchanges : OnlyChanges [.time, .xfer, .path, .rep, .fault, .freeUses] s (applySelection theta s) :=
    onlyChanges_iff.mpr (by simp)
  rw [ht, hservo, hintegral, hrun]
  clear ht hservo hfreq hintegral hrun
  simp only [← selectionSteps_iff (p := s.xfer.params), ← withinTrack_iff (p := s.xfer.params)]
  have hle : ∀ {n : Nat}, |theta| ≤ (n : Int) → ¬(n : Int) < |theta| := fun h => Int.not_lt.mpr h
  refine ⟨hchanges, congrArg (·.params) hrest, congrArg (·.exchanges) hrest, congrArg (·.blockTimer) hrest,
    applySelection_holdoverAge hstate, fun hs => ?_, fun hs => ?_, fun hr hq => applySelection_raw hstate hr hq,
    fun hs => applySelection_stepReport hstate hs, fun h ht => acquire_reported h ht,
    fun h ht => ⟨fun hs => track_step_reported h hs,
      fun hs => track_leaves_reported h (mt selectionSteps_iff.mp (hle hs)) ht⟩,
    fun h => ⟨holdover_reported h, fun ht => holdover_track_reported h ht⟩⟩
  · obtain ⟨ht, hx⟩ := applySelection_steps hstate hs
    generalize applySelection theta s = t at *
    refine ⟨by rw [hx], by rw [hx], by rw [hx], by rw [hx], by rw [hx], by rw [ht]; rfl, by rw [ht]; rfl,
      by rw [ht]; rfl, by rw [hx], fun h0 h1 => steppedTime_within ht h0 h1, fun h0 => steppedTime_clamped ht h0⟩
  · replace hs : ¬selectionSteps s.xfer.params theta = true := mt selectionSteps_iff.mp (hle hs)
    obtain ⟨_, _, _, hsteered⟩ := applySelection_steers hstate hs
    refine ⟨by rw [hsteered.2], hsteered.fits, hsteered.clamps, fun hne => ?_, fun h => ?_⟩
    · have h := (selection_states hstate).resolve_right hne
      refine ⟨fun hw => ?_, fun hw => ⟨fun hr => ?_, fun hr => ?_⟩⟩
      · obtain ⟨-, hx⟩ := acquire_outside h hs (mt withinTrack_iff.mp (Int.not_le.mpr hw))
        rw [hx]
        exact ⟨rfl, rfl, rfl⟩
      · obtain ⟨-, hx⟩ := acquire_runs h hs hw (Nat.not_le.mpr hr)
        rw [hx]
        exact ⟨rfl, rfl, rfl⟩
      · have hlocks := (acquire_locks h hs hw hr).2
        exact ⟨by rw [hlocks.2], by rw [hlocks.2], hlocks.history_of⟩
    · obtain ⟨_, _, hhistory⟩ := track_steers h hs
      have hrun : runBefore s.xfer = s.xfer.runCount := if_neg (by simp [h])
      rw [hrun]
      refine ⟨hhistory.history_of, fun hw => ?_, fun hw => ⟨fun hr => ?_, fun hr => ?_⟩⟩
      · obtain ⟨-, hx⟩ := track_within h hs hw
        rw [hx]
        exact ⟨rfl, rfl⟩
      · obtain ⟨-, hx⟩ := track_runs h hs (mt withinTrack_iff.mp (Int.not_le.mpr hw)) (Nat.not_le.mpr hr)
        rw [hx]
        exact ⟨rfl, rfl⟩
      · obtain ⟨-, hx⟩ := track_leaves h hs (mt withinTrack_iff.mp (Int.not_le.mpr hw)) hr
        rw [hx]
        exact ⟨rfl, rfl⟩

end Sys2Proof.Machine

namespace Sys2Proof.Machine

/-! ### What a step does to the DRAM contents and to the flipped bits that stand in it (R98, R104, R108) -/

section DramMoves

variable {s t : State} {a : Access} {f : LineFlips} {d : Line}

/-- What a row can do to DRAM: nothing, find new flips in the line that the access at the head reads, or store the line
of the write at the head. -/
inductive DramMove (s t : State) : Prop
  | stays (hd : t.dram = s.dram) (hf : t.flips = s.flips)
  | reads (a : Access) (f : LineFlips) (hd : t.dram = s.dram)
      (hf : t.flips = flipsWrite s.flips a.memLine (flipsMet f a s))
  | stores (a : Access) (d : Line) (ha : Completes s a) (hk : storesLine a.kind = true)
      (hd : t.dram = dramWrite s.dram a.memLine d) (hf : t.flips = flipsWrite s.flips a.memLine Flips.none)

/-- An operation that leaves both, behind a move. -/
theorem DramMove.then {u : State} (h : DramMove s t) (hd : u.dram = t.dram) (hf : u.flips = t.flips) :
    DramMove s u := by
  cases h with
  | stays hd' hf' => exact .stays (hd.trans hd') (hf.trans hf')
  | reads a f hd' hf' => exact .reads a f (hd.trans hd') (hf.trans hf')
  | stores a d ha hk hd' hf' => exact .stores a d ha hk (hd.trans hd') (hf.trans hf')

theorem popRead_dramMove (f : LineFlips) (a : Access) (s : State) : DramMove s (popRead f a s) :=
  .reads a f (by simp) popRead_flips

theorem commit_dramMove (ha : portHead s = some a) (hk : storesLine a.kind = true) (d : Line) :
    DramMove s (commit a d (popHead s)) :=
  .stores a d ha hk (by simp [commit, storeLine_dram]) (by simp [commit, storeLine_flips])

/-- A write of the part's own content stores its line, and what follows leaves DRAM. -/
theorem ownWrite_dramMove {next : State → State} (ha : portHead s = some a) (hk : storesLine a.kind = true)
    (hd : ∀ u, (next u).dram = u.dram) (hf : ∀ u, (next u).flips = u.flips) : DramMove s (ownWrite a d next s) := by
  have hc := commit_dramMove ha hk d
  simp only [ownWrite]
  split
  · exact hc.then (by simp [hd]) (by simp [hf])
  · exact hc.then (by simp) (by simp)

/-- The completion of a port's read. -/
theorem completeRead_dramMove {p : Port} {o : EccObs} {deliver : Line → State → Line × State}
    (hd : ∀ d u, (deliver d u).2.dram = u.dram) (hf : ∀ d u, (deliver d u).2.flips = u.flips) (a : Access) :
    DramMove s (completeRead p a o deliver (popRead f a s)) := by
  refine (popRead_dramMove f a s).then ?_ ?_ <;> simp only [completeRead] <;> repeat' split
  all_goals simp [hd, hf]

theorem makeDescriptor_dram (slot kind length sequence buffer : Nat) (s : State) :
    (makeDescriptor slot kind length sequence buffer s).dram = s.dram ∧
      (makeDescriptor slot kind length sequence buffer s).flips = s.flips := by
  simp only [makeDescriptor]
  split <;> simp

theorem testLineDone_dramMove (s : State) : DramMove s (testLineDone s) := by
  simp only [testLineDone]
  split
  · split
    · refine ownWrite_dramMove ‹_› (by simp [storesLine, *]) (fun u => ?_) (fun u => ?_) <;> repeat' split
      all_goals simp [makeDescriptor_dram]
    · exact .stays rfl rfl
  · exact .stays rfl rfl

theorem queryFrameDone_dramMove (s : State) : DramMove s (queryFrameDone s) := by
  simp only [queryFrameDone]
  split
  · split
    · refine ownWrite_dramMove ‹_› (by simp [storesLine, *]) (fun u => ?_) (fun u => ?_) <;> repeat' split
      all_goals simp [makeDescriptor_dram]
    · exact .stays rfl rfl
  · exact .stays rfl rfl

theorem snapshotWriteDone_dramMove (s : State) : DramMove s (snapshotWriteDone s) := by
  simp only [snapshotWriteDone]
  split
  · split
    · refine ownWrite_dramMove ‹_› (by simp [storesLine, *]) (fun u => ?_) (fun u => ?_) <;> split
      all_goals simp
    · exact .stays rfl rfl
  · exact .stays rfl rfl

theorem internalWriteDone_dramMove (s : State) : DramMove s (internalWriteDone s) := by
  simp only [internalWriteDone]
  split
  · split
    · exact ownWrite_dramMove ‹_› (by simp [storesLine, *]) (fun _ => rfl) fun _ => rfl
    · exact ownWrite_dramMove ‹_› (by simp [storesLine, *]) (fun _ => rfl) fun _ => rfl
    · rename_i d hk
      refine (commit_dramMove ‹_› (by simp [storesLine, hk]) d).then ?_ ?_ <;> split <;> simp
    · exact .stays rfl rfl
  · exact .stays rfl rfl

/-- The rows of the memory port. -/
theorem exec_completion_dramMove {i : Instr} (hi : isCompletion i = true) (h : exec i s = .next t) : DramMove s t := by
  cases i <;> cases h
  case internalWriteComplete => exact internalWriteDone_dramMove s
  case queryFrameWriteComplete => exact queryFrameDone_dramMove s
  case testFrameWriteComplete => exact testLineDone_dramMove s
  case snapshotLineWriteComplete => exact snapshotWriteDone_dramMove s
  case reportEntryWriteComplete =>
    simp only [reportWriteDone]
    split
    · split
      · exact ownWrite_dramMove ‹_› (by simp [storesLine, *]) (by simp) (by simp)
      · exact .stays rfl rfl
    · exact .stays rfl rfl
  case portReadComplete =>
    simp only [portReadDone]
    split
    · split
      · exact completeRead_dramMove (fun _ _ => rfl) (fun _ _ => rfl) _
      · exact .stays rfl rfl
    · exact .stays rfl rfl
  case portWriteComplete | rmwWriteComplete | scrubWritebackComplete | copyWriteComplete | marchWriteComplete =>
    simp only [portWriteDone, rmwWriteDone, scrubWriteDone, copyWriteDone, marchWriteDone]
    split
    · split
      · rename_i d hk
        refine (commit_dramMove ‹_› (by simp [storesLine, hk]) d).then ?_ ?_ <;> split <;> simp
      · exact .stays rfl rfl
    · exact .stays rfl rfl
  case rmwReadComplete f | internalPartialReadComplete f | scrubReadComplete f | copyReadComplete f |
      marchReadComplete f =>
    simp only [rmwReadDone, writeBackReadDone, scrubReadDone, copyReadDone, marchReadDone]
    split
    · rename_i a _
      split
      · refine (popRead_dramMove f a s).then ?_ ?_ <;> repeat' split
        all_goals simp
      · exact .stays rfl rfl
    · exact .stays rfl rfl
  all_goals exact absurd hi (by simp [isCompletion])

/-- The judgement of a descriptor read. -/
theorem descriptorDone_dramMove (f : LineFlips) (s : State) : DramMove s (descriptorDone f s) := by
  simp only [descriptorDone]
  split
  · split
    · refine completeRead_dramMove (fun d u => ?_) (fun d u => ?_) _ <;> split <;> simp
    · exact .stays rfl rfl
  · exact .stays rfl rfl

/-- Away from the memory port and from power-on both stay. -/
theorem exec_otherRow_dram {i : Instr} (hi : isCompletion i = false) (hp : ∀ x, i ≠ .powerOn x)
    (hj : ∀ f, i ≠ .descriptorReadJudged f) (h : exec i s = .next t) : t.dram = s.dram ∧ t.flips = s.flips := by
  cases i <;> cases h
  case powerOn straps => exact absurd rfl (hp straps)
  case descriptorReadJudged f => exact absurd rfl (hj f)
  case resetLineAssert => repeat' split
                          all_goals exact ⟨rfl, rfl⟩
  case resetLineDeassert => split <;> simp [takeLevels, startTimers]
  case oscillatorPeriod | rollover =>
    simp only [onePeriod, rolledOver]
    repeat' split
    all_goals simp
  case portReadComplete | portWriteComplete | rmwReadComplete | rmwWriteComplete | internalPartialReadComplete |
      internalWriteComplete | queryFrameWriteComplete | testFrameWriteComplete | reportEntryWriteComplete |
      snapshotLineWriteComplete | scrubReadComplete | scrubWritebackComplete | copyReadComplete | copyWriteComplete |
      marchReadComplete | marchWriteComplete => exact nomatch hi
  all_goals repeat' split
  all_goals simp

theorem exec_dramMove {i : Instr} (hp : ∀ x, i ≠ .powerOn x) (h : exec i s = .next t) : DramMove s t := by
  cases hi : isCompletion i with
  | true => exact exec_completion_dramMove hi h
  | false =>
    by_cases hj : ∃ f, i = .descriptorReadJudged f
    · obtain ⟨f, rfl⟩ := hj
      cases h
      exact descriptorDone_dramMove f s
    · obtain ⟨hd, hf⟩ := exec_otherRow_dram hi hp (fun f e => hj ⟨f, e⟩) h
      exact .stays hd hf

/-! The moves keep the canonical form, and a flip until a write covers its line. -/

theorem DramMove.law (h : DramMove s t) (hs : dramLaw s) : dramLaw t := by
  obtain ⟨hd, hf⟩ := hs
  cases h with
  | stays h1 h2 => exact ⟨h1 ▸ hd, h2 ▸ hf⟩
  | reads a f h1 h2 => exact ⟨h1 ▸ hd, h2 ▸ flipsWrite_wf hf⟩
  | stores a d _ _ h1 h2 => exact ⟨h1 ▸ dramWrite_wf hd, h2 ▸ flipsWrite_wf hf⟩

/-- A read keeps each flipped bit it finds. -/
theorem and_standingFlips (old : Flips) (f : LineFlips) (w : Fin 8) : old[w] &&& (standingFlips old f)[w] = old[w] := by
  simp only [standingFlips, Fin.getElem_fin, Vector.getElem_ofFn]
  exact BitVec.eq_of_getLsbD_eq fun i _ => by cases h : (old[w.val]).getLsbD i <;> simp [h]

theorem DramMove.flip (h : DramMove s t) (hs : dramLaw s) (m : Nat) (w : Fin 8) :
    (flipsRead s.flips m)[w] &&& (flipsRead t.flips m)[w] = (flipsRead s.flips m)[w] ∨
      ∃ a, Completes s a ∧ a.memLine = m ∧ storesLine a.kind = true := by
  cases h with
  | stays _ hf => exact .inl (by rw [hf, BitVec.and_self])
  | reads a f _ hf =>
    left
    by_cases hm : m = a.memLine
    · rw [hf, hm, flipsRead_write_same hs.2]
      exact and_standingFlips _ f w
    · rw [hf, flipsRead_write_other hm, BitVec.and_self]
  | stores a d ha hk _ hf =>
    by_cases hm : a.memLine = m
    · exact .inr ⟨a, ha, hm, hk⟩
    · exact .inl (by rw [hf, flipsRead_write_other (Ne.symm hm), BitVec.and_self])

/-- Settles O3: every row but POWER_ON is a move of DRAM, and each move keeps the canonical form and the flips of the
lines it does not store. -/
theorem dramCanonicalKept : Obligations.DramCanonicalKept := by
  unfold Obligations.DramCanonicalKept
  intro s t hs h
  unfold step at h
  split at h
  · cases h
    exact ⟨hs, fun m w => .inl (BitVec.and_self ..)⟩
  · rename_i i rest hq
    by_cases hp : ∃ x, i = .powerOn x
    · obtain ⟨x, rfl⟩ := hp
      cases h
      exact ⟨⟨rfl, rfl⟩, fun m w => .inr (.inr ⟨x, rest, hq⟩)⟩
    · have hm := exec_dramMove (s := s.setPending rest) (fun x e => hp ⟨x, e⟩) h
      exact ⟨hm.law hs, fun m w => (hm.flip hs m w).imp_right .inl⟩

end DramMoves
end Sys2Proof.Machine

namespace Sys2Proof.Machine

/-! ### Grants of the arbiter (R102 to R104) -/

section Grants

variable {s u : State} {r : Req} {q : Queue}

/-- A request that can be granted is ready for its first access or for its second. -/
theorem grantable_stage (h : grantable s r = true) :
    (∃ m, r.stage = .ready m ∨ r.stage = .draining m) ∨ ∃ m d, r.stage = .writeReady m d := by
  simp only [grantable] at h
  split at h
  · exact .inl ⟨_, .inl ‹_›⟩
  · exact .inr ⟨_, _, ‹_›⟩
  · exact .inl ⟨_, .inr ‹_›⟩
  all_goals exact absurd h (by simp)

/-- The grant of a request that can be granted issues its access and leaves the arbiter's turn. -/
theorem issue_issues (h : grantable s r = true) (u : State) : ∃ a, IssuedAs r a ∧
    (issue r u).path.memPort = u.path.memPort ++ [a] ∧ (issue r u).path.current = u.path.current ∧
    (issue r u).path.remaining = u.path.remaining ∧ (issue r u).path.grants = u.path.grants := by
  rcases grantable_stage h with ⟨m, hm | hm⟩ | ⟨m, d, hm⟩
  · exact ⟨⟨r.id, r.line, m, firstAccess r.job, true, false⟩, by simp [IssuedAs, hm],
      by simp [issue, hm, setStage]⟩
  · exact ⟨⟨r.id, r.line, m, firstAccess r.job, true, false⟩, by simp [IssuedAs, hm],
      by simp [issue, hm, setStage]⟩
  · exact ⟨⟨r.id, r.line, m, secondAccess r.job d, true, false⟩, by simp [IssuedAs, hm],
      by simp [issue, hm, setStage]⟩

/-- A grant to a queue: its turn stands as given, the grant counts, and one access is issued. -/
theorem grantTo_issues (h : grantable s r = true) (q : Queue) (n : Nat) : ∃ t a, grantTo q n r s = t ∧
    t.path.memPort = s.path.memPort ++ [a] ∧ IssuedAs r a ∧ t.path.current = q ∧ t.path.remaining = n - 1 ∧
    queueGet t.path.grants q = satInc (queueGet s.path.grants q) ∧ OnlyChanges [.path] s t := by
  obtain ⟨a, ha, hport, hcur, hrem, hgr⟩ := issue_issues h (s.updPath fun p =>
    { p with current := q, remaining := n - 1, grants := queueSet p.grants q (satInc (queueGet p.grants q)) })
  refine ⟨_, a, rfl, hport, ha, hcur, hrem, ?_, onlyChanges_iff.mpr (by simp)⟩
  rw [grantTo, hgr]
  exact queueGet_set_same _ _ _

theorem portCandidate_grantable {p : Port} (h : portCandidate s p = some r) : grantable s r = true := by
  simp only [portCandidate] at h
  split at h
  · split at h
    · cases h; assumption
    · cases h
  · cases h

/-- The candidate of a priority is its oldest request not yet granted, and can be granted. -/
theorem internalOf_some {k : Nat} (h : internalOf s k = some r) :
    grantable s r = true ∧ s.path.reqs.find? (fun x => priorityOf x.job == k && ungranted x) = some r := by
  simp only [internalOf] at h
  split at h
  · split at h
    · cases h; exact ⟨‹_›, ‹_›⟩
    · cases h
  · cases h

/-- The internal queue's candidate is that of the highest priority which has one (R103). -/
theorem internalCandidate_some (h : internalCandidate s = some r) :
    ∃ k, 1 ≤ k ∧ internalOf s k = some r ∧ ∀ j, 1 ≤ j → j < k → internalOf s j = none := by
  obtain ⟨pre, k, post, hl, hk, hnone⟩ := List.findSome?_eq_some_iff.mp h
  have hsorted : (pre ++ k :: post).Pairwise (· < ·) := hl ▸ by decide
  have hmem : k ∈ [1, 2, 3, 4, 5] := hl ▸ by simp
  have hk5 : 1 ≤ k ∧ k ≤ 5 := by simp at hmem; omega
  refine ⟨k, hk5.1, hk, fun j hj hjk => hnone j ?_⟩
  have hj : j ∈ pre ++ k :: post := hl ▸ by simp; omega
  simp only [List.mem_append, List.mem_cons] at hj
  rcases hj with hj | rfl | hj
  · exact hj
  · exact absurd hjk (Nat.lt_irrefl _)
  · have := (List.pairwise_cons.mp (List.pairwise_append.mp hsorted).2.1).1 j hj
    omega

theorem candidate_grantable (h : candidate s q = some r) : grantable s r = true := by
  cases q
  case internal =>
    obtain ⟨k, -, hk, -⟩ := internalCandidate_some h
    exact (internalOf_some hk).1
  all_goals exact portCandidate_grantable h

/-- The cycle's first queue with a candidate has the fresh turn (R102). -/
theorem grantNext_first {pre rest : List Queue} (hc : cycleFrom s.path.current = pre ++ q :: rest)
    (hn : ∀ x ∈ pre, candidate s x = none) (hq : candidate s q = some r) :
    grantNext s = grantTo q (queueGet s.path.weights q) r s := by
  have hf : (cycleFrom s.path.current).findSome? (fun q => (candidate s q).map fun r => (q, r)) = some (q, r) := by
    rw [hc, List.findSome?_append, List.findSome?_eq_none_iff.mpr fun x hx => by simp [hn x hx]]
    simp [hq]
  simp only [grantNext, hf]

theorem grantNext_none (h : ∀ q, candidate s q = none) : grantNext s = s := by
  have hf : (cycleFrom s.path.current).findSome? (fun q => (candidate s q).map fun r => (q, r)) = none :=
    List.findSome?_eq_none_iff.mpr fun x _ => by simp [h x]
  simp only [grantNext, hf]

/-- The internal queue's candidate: the oldest of its priority, and every higher priority's oldest is not ready. -/
theorem internalCandidate_oldest (h : candidate s .internal = some r) :
    grantable s r = true ∧ 1 ≤ priorityOf r.job ∧
      (∃ pre post, s.path.reqs = pre ++ r :: post ∧
        ∀ q ∈ pre, priorityOf q.job = priorityOf r.job → ungranted q = false) ∧
      ∀ (k : Nat) (pre post : List Req) (q : Req), 1 ≤ k → k < priorityOf r.job → s.path.reqs = pre ++ q :: post →
        priorityOf q.job = k → ungranted q = true → (∀ x ∈ pre, priorityOf x.job = k → ungranted x = false) →
        grantable s q = false := by
  obtain ⟨k, hk1, hk, hhigher⟩ := internalCandidate_some h
  obtain ⟨hg, hf⟩ := internalOf_some hk
  obtain ⟨hr, pre, post, hl, hpre⟩ := List.find?_eq_some_iff_append.mp hf
  simp only [Bool.and_eq_true, beq_iff_eq] at hr
  refine ⟨hg, hr.1 ▸ hk1, ⟨pre, post, hl, fun q hq hpq => ?_⟩, ?_⟩
  · have := hpre q hq
    simpa [hpq, hr.1] using this
  · intro j pre' post' q hj hjk hl' hqj hqu hpre'
    have hnone := hhigher j hj (hr.1 ▸ hjk)
    have hfind : s.path.reqs.find? (fun x => priorityOf x.job == j && ungranted x) = some q :=
      List.find?_eq_some_iff_append.mpr ⟨by simp [hqj, hqu], pre', post', hl', fun x hx => by
        by_cases hxj : priorityOf x.job = j
        · simp [hpre' x hx hxj]
        · simp [hxj]⟩
    simp only [internalOf, hfind] at hnone
    split at hnone
    · cases hnone
    · simpa using ‹¬grantable s q = true›

/-- Settles O25: the turn that goes on, the fresh turn, no grant, and the internal queue's candidate. -/
theorem grantIssuesOneAccess : Obligations.GrantIssuesOneAccess := by
  unfold Obligations.GrantIssuesOneAccess
  refine fun s => ⟨fun hs r hc hrem => ?_, fun hs hend pre q rest r hcycle hnone hq => ?_, fun h => ?_,
    fun r h => internalCandidate_oldest h⟩
  · have hgrant : grant s = grantTo s.path.current s.path.remaining r s := by simp [grant, hs, hc, hrem]
    obtain ⟨t, a, ht, hrest⟩ := grantTo_issues (candidate_grantable hc) s.path.current s.path.remaining
    exact ⟨t, a, congrArg Host.Outcome.next (hgrant.trans ht), hrest⟩
  · have hnext : grant s = grantNext s := by
      rcases hend with hc | hrem
      · simp [grant, hs, hc]
      · simp only [grant, hs, hrem]
        cases candidate s s.path.current <;> simp
    obtain ⟨t, a, ht, hrest⟩ := grantTo_issues (candidate_grantable hq) q (queueGet s.path.weights q)
    exact ⟨t, a, congrArg Host.Outcome.next ((hnext.trans (grantNext_first hcycle hnone hq)).trans ht), hrest⟩
  · refine congrArg Host.Outcome.next (show grant s = s from ?_)
    rcases h with hs | hnone
    · simp [grant, hs]
    · simp [grant, hnone, grantNext_none hnone]

end Grants
end Sys2Proof.Machine

namespace Sys2Proof.Machine

/-! ### The load signal and who is told of it (R105, R107, R135) -/

section Load

variable {s t u : State} {p : Port}

/-- A path that has only gained requests, of new numbers and before the lock station. -/
def PathGrows (p q : Path) : Prop := ∃ l n, q = { p with reqs := p.reqs ++ l, nextId := n } ∧ p.nextId ≤ n ∧
  ∀ x ∈ l, p.nextId ≤ x.id ∧ x.stage = .forwarded

theorem PathGrows.refl (p : Path) : PathGrows p p := ⟨[], p.nextId, by simp, Nat.le_refl _, by simp⟩

theorem PathGrows.trans {p q r : Path} (h : PathGrows p q) (h2 : PathGrows q r) : PathGrows p r := by
  obtain ⟨l, n, rfl, hn, hl⟩ := h
  obtain ⟨m, k, rfl, hk, hm⟩ := h2
  refine ⟨l ++ m, k, by simp, hn.trans hk, fun x hx => ?_⟩
  rcases List.mem_append.mp hx with hx | hx
  · exact hl x hx
  · exact ⟨hn.trans (hm x hx).1, (hm x hx).2⟩

theorem makeReq_grows (line : Nat) (job : Job) (s : State) : PathGrows s.path (makeReq line job s).path :=
  ⟨[⟨s.path.nextId, line, .forwarded, job⟩], s.path.nextId + 1, rfl, Nat.le_succ _, by simp⟩

theorem marchPump_grows (s : State) : PathGrows s.path (marchPump s).path := by
  unfold marchPump
  split
  · exact .refl _
  · exact makeReq_grows _ _ s

theorem scrubLoop_grows (n : Nat) (s : State) : PathGrows s.path (scrubLoop n s).path := by
  induction n generalizing s with
  | zero => exact .refl _
  | succ n ih =>
    unfold scrubLoop
    simp only
    split
    · exact ih _
    · exact makeReq_grows _ _ _

theorem scrubPump_grows (s : State) : PathGrows s.path (scrubPump s).path := by
  unfold scrubPump
  split
  · exact .refl _
  · exact scrubLoop_grows _ s

theorem loadChanged_grows (b : Bool) (s : State) : PathGrows s.path (loadChanged b s).path :=
  (marchPump_grows (s.updMarch _)).trans (scrubPump_grows _)

theorem loadChanged_march (b : Bool) (s : State) : (loadChanged b s).march =
    if marchActive s.march then settleCauses { s.march with causeLoad := b } else s.march := by
  simp [loadChanged]

/-- What an evaluation of LOAD_HIGH leaves of the path: the signal, its entries counted, and requests gained. -/
theorem evalLoad_path (s : State) : ∃ l n, (evalLoad s).path = { s.path with
    reqs := s.path.reqs ++ l, nextId := n, loadHigh := loadNext s.path (portLoad s)
    loadHighEntries := if s.path.loadHigh = false ∧ loadNext s.path (portLoad s) = true then
      satInc s.path.loadHighEntries else s.path.loadHighEntries } := by
  simp only [evalLoad]
  split
  next h => exact ⟨[], s.path.nextId, by rw [h, if_neg (by simp), List.append_nil]⟩
  next h =>
    obtain ⟨l, n, hp, -⟩ := loadChanged_grows (loadNext s.path (portLoad s)) (s.updPath fun p =>
      { p with
        loadHigh := loadNext s.path (portLoad s)
        loadHighEntries := if loadNext s.path (portLoad s) then satInc p.loadHighEntries else p.loadHighEntries })
    refine ⟨l, n, hp.trans ?_⟩
    generalize loadNext s.path (portLoad s) = b at h
    cases b <;> cases hb : s.path.loadHigh <;> simp_all

/-- The state that a cause set gives an active session (R135). -/
theorem settleCauses_state {m : March} (h : marchActive m = true) :
    (settleCauses m).state = if m.causeManual = true ∨ m.causeLoad = true then .suspended else .running := by
  simp only [marchActive, Bool.or_eq_true, beq_iff_eq] at h
  rcases h with h | h <;> simp only [settleCauses, h] <;> cases m.causeManual <;> cases m.causeLoad <;> simp [h]

theorem settleCauses_causes (m : March) :
    (settleCauses m).causeManual = m.causeManual ∧ (settleCauses m).causeLoad = m.causeLoad := by
  unfold settleCauses
  repeat' split
  all_goals exact ⟨rfl, rfl⟩

theorem evalLoad_told (s : State) : LoadTold s (evalLoad s) := by
  obtain ⟨l, n, hp⟩ := evalLoad_path s
  have hm : (evalLoad s).march =
      if loadNext s.path (portLoad s) = s.path.loadHigh then s.march else
        if marchActive s.march then settleCauses { s.march with causeLoad := loadNext s.path (portLoad s) }
        else s.march := by
    simp only [evalLoad]
    split
    · rfl
    · exact loadChanged_march _ _
  have hcauses := settleCauses_causes { s.march with causeLoad := loadNext s.path (portLoad s) }
  simp only [LoadTold, hp, hm]
  refine ⟨trivial, ?_, fun h => ?_, fun h ha => ?_⟩
  · repeat' split
    · rfl
    · exact hcauses.1
    · rfl
  · rcases h with h | h
    · simp [h]
    · simp [h]
  · rw [if_neg h, if_pos ha]
    exact ⟨hcauses.2, (settleCauses_state (m := { s.march with causeLoad := loadNext s.path (portLoad s) }) ha).trans
      (by rw [hcauses.1])⟩

/-- The telling depends on the signal, its count and the session's causes alone. -/
theorem LoadTold.of_same (h : LoadTold u t) (hl : u.path.loadHigh = s.path.loadHigh)
    (he : u.path.loadHighEntries = s.path.loadHighEntries) (hm : u.march.causeManual = s.march.causeManual)
    (hc : u.march.causeLoad = s.march.causeLoad) (hs : u.march.state = s.march.state) : LoadTold s t := by
  simpa only [LoadTold, marchActive, hl, he, hm, hc, hs] using h

theorem evalLoad_signal (s : State) :
    (s.path.loadHigh = true → (evalLoad s).path.loadHigh = !decide (portLoad s ≤ s.path.lowMark)) ∧
    (s.path.loadHigh = false → (evalLoad s).path.loadHigh = decide (s.path.highMark ≤ portLoad s)) := by
  obtain ⟨l, n, hp⟩ := evalLoad_path s
  rw [hp]
  exact ⟨fun h => by simp [loadNext, h], fun h => by simp [loadNext, h]⟩

theorem evalLoad_occupancy (s : State) (p : Port) : occupancy (evalLoad s) p = occupancy s p := by
  simp only [occupancy_eq, evalLoad_portView]

/-! Taking a request (R90). -/

theorem occupancy_addReq (line : Nat) (st : Stage) (r : LineRequest) (p q : Port) (s : State) :
    occupancy (addReq line st (.port p r none none) s) q = if q = p then occupancy s q + 1 else occupancy s q := by
  simp only [occupancy, portQueue, addReq, State.updPath_path, List.filter_append, List.length_append]
  by_cases h : q = p
  · simp [isPortReq, h]
  · simp [isPortReq, h, Ne.symm h]

theorem portLoad_add {p : Port} (h : occupancy t p = occupancy s p + 1)
    (ho : ∀ q, q ≠ p → occupancy t q = occupancy s q) : portLoad t = portLoad s + 1 := by
  cases p <;> simp [portLoad, h, ho] <;> omega

/-- The port with the request in its place, before LOAD_HIGH is evaluated. -/
def requestPlaced (p : Port) (r : LineRequest) (s : State) : State :=
  countPort p (fun c => if reqIsWrite r then { c with writes := satInc c.writes } else
    { c with reads := satInc c.reads })
    (addReq (reqLine r) .unclassified (.port p r none none) s)

theorem takeRequest_placed (r : LineRequest) (h1 : s.inReset = false) (h2 : occupancy s p < 16) :
    takeRequest p r s = evalLoad (requestPlaced p r s) := by
  simp [takeRequest, h1, Nat.not_le.mpr h2, requestPlaced]

theorem requestPlaced_occupancy (r : LineRequest) (q : Port) :
    occupancy (requestPlaced p r s) q = if q = p then occupancy s q + 1 else occupancy s q := by
  rw [← occupancy_addReq (reqLine r) .unclassified r p q s]
  rfl

/-- Settles O22: the place is taken, and the evaluation of LOAD_HIGH on the new load does the rest. -/
theorem requestTakenOrStalled : Obligations.RequestTakenOrStalled := by
  unfold Obligations.RequestTakenOrStalled
  refine fun p r s => ⟨fun h1 h2 => ?_, fun h => ?_⟩
  · have hocc : ∀ q, occupancy (requestPlaced p r s) q = if q = p then occupancy s q + 1 else occupancy s q :=
      requestPlaced_occupancy r
    have hload : portLoad (requestPlaced p r s) = portLoad s + 1 :=
      portLoad_add (p := p) (by simp [hocc]) fun q hq => by simp [hocc, hq]
    obtain ⟨l, n, hp⟩ := evalLoad_path (requestPlaced p r s)
    have hports : portGet (evalLoad (requestPlaced p r s)).path.ports p =
        if reqIsWrite r then { portGet s.path.ports p with writes := satInc (portGet s.path.ports p).writes }
        else { portGet s.path.ports p with reads := satInc (portGet s.path.ports p).reads } := by
      rw [hp]
      simp [requestPlaced, countPort, addReq]
    have hsignal := evalLoad_signal (requestPlaced p r s)
    rw [hload] at hsignal
    refine ⟨evalLoad (requestPlaced p r s), congrArg Host.Outcome.next (takeRequest_placed r h1 h2), ?_, ?_, ?_, ?_, ?_,
      hsignal.1, hsignal.2, ?_, ?_⟩
    · rw [hp]
      exact ⟨l, by simp [requestPlaced, countPort, addReq]⟩
    · simp [evalLoad_occupancy, hocc]
    · exact fun q hq => by simp [evalLoad_occupancy, hocc, hq]
    · exact fun h => by rw [hports, if_pos h]
    · exact fun h => by rw [hports, if_neg (by simp [h])]
    · exact (evalLoad_told _).of_same rfl rfl rfl rfl rfl
    · exact onlyChanges_iff.mpr (by simp [requestPlaced])
  · exact congrArg Host.Outcome.next (by rw [takeRequest, if_pos (by simpa using h)])

/-! Returning a response (R90). -/

theorem portQueue_dropReq {id : Nat} (q : Port) : portQueue (dropReq id s) q = (portQueue s q).filter (·.id != id) := by
  simp only [portQueue, dropReq, dropReqs, State.updMarch_path, State.updPath_path, List.filter_filter]
  exact List.filter_congr fun x _ => by simp [Bool.and_comm, bne]

/-- The place of a port's oldest request, given back. -/
theorem occupancy_dropHead {q : Req} {rest : List Req} (hp : pathLaw s) (hq : portQueue s p = q :: rest) :
    occupancy (dropReq q.id s) p + 1 = occupancy s p ∧
      ∀ u, u ≠ p → occupancy (dropReq q.id s) u = occupancy s u := by
  obtain ⟨-, -, -, -, hids, -⟩ := hp
  have hmem : q ∈ s.path.reqs ∧ isPortReq p q = true :=
      List.mem_filter.mp (show q ∈ portQueue s p from hq ▸ List.mem_cons_self)
  have hrest : ∀ x ∈ rest, x.id ≠ q.id := by
    have hsub : ((portQueue s p).map (·.id)).Nodup := hids.sublist (List.filter_sublist.map _)
    rw [hq, List.map_cons, List.nodup_cons] at hsub
    exact fun x hx he => hsub.1 (he ▸ List.mem_map_of_mem hx)
  refine ⟨?_, fun u hu => ?_⟩
  · rw [occupancy, occupancy, portQueue_dropReq, hq, List.filter_cons_of_neg (by simp),
      List.filter_eq_self.mpr fun x hx => by simp [hrest x hx], List.length_cons]
  · have hother : ∀ x ∈ portQueue s u, x.id ≠ q.id := fun x hx he => by
      obtain ⟨hxs, hxu⟩ := List.mem_filter.mp hx
      have hxq : x = q := List.inj_on_of_nodup_map hids hxs hmem.1 he
      have hqp := hmem.2
      rw [hxq] at hxu
      unfold isPortReq at hxu hqp
      split at hxu
      · next hj =>
        rw [hj] at hqp
        exact hu ((beq_iff_eq.mp hxu).symm.trans (beq_iff_eq.mp hqp))
      · cases hxu
    rw [occupancy, occupancy, portQueue_dropReq, List.filter_eq_self.mpr fun x hx => by simp [hother x hx]]

/-- Settles O27: the head of the port's queue leaves, and LOAD_HIGH is evaluated on the load without it. -/
theorem responseFreesPlace : Obligations.ResponseFreesPlace := by
  unfold Obligations.ResponseFreesPlace
  refine fun s p hp => ⟨fun q rest x hq hx => ?_, fun q rest hq hx => ?_⟩
  · let u := (dropReq q.id s).updPath fun y => { y with lastResponse := portSet y.lastResponse p (some x) }
    have hret : returnResponse p s = evalLoad u := by simp [returnResponse, oldestAnswer, hq, hx, u]
    obtain ⟨hfreed, hothers⟩ := occupancy_dropHead hp hq
    have hocc : ∀ y, occupancy u y = occupancy (dropReq q.id s) y := fun _ => rfl
    have hload : portLoad u = portLoad s - 1 := by
      have := portLoad_add (s := u) (t := s) (p := p) (by rw [hocc, hfreed]) fun y hy => by rw [hocc, hothers y hy]
      omega
    obtain ⟨l, n, hpath⟩ := evalLoad_path u
    have hsignal := evalLoad_signal u
    rw [hload] at hsignal
    refine ⟨evalLoad u, congrArg Host.Outcome.next hret, ?_, ?_, ?_, hsignal.1, hsignal.2, ?_, ?_⟩
    · rw [hpath]
      exact portGet_set_same _ _ _
    · rw [evalLoad_occupancy, hocc, hfreed]
    · exact fun y hy => by rw [evalLoad_occupancy, hocc, hothers y hy]
    · exact (evalLoad_told u).of_same rfl rfl rfl rfl rfl
    · exact onlyChanges_iff.mpr (by simp [u])
  · refine congrArg Host.Outcome.next (show returnResponse p s = s from ?_)
    have hnone : oldestAnswer s p = none := by simp only [oldestAnswer, hq]
    simp only [returnResponse, hnone]

end Load
end Sys2Proof.Machine

namespace Sys2Proof.Machine

/-! ### The window table and a WINDOW record's checks (R92, R93, R99, R100) -/

section WindowTable

variable {s t : State} {i : Nat} {w : Window} {k : WindowKind} {d : Line}

theorem windowEntry_congr (h : t.windows = s.windows) (j : Nat) : windowEntry t j = windowEntry s j := by
  simp only [windowEntry, h]

theorem windowEntry_set (hi : i ≤ 15) (new : Option Window) (ht : t.windows = s.windows.setIfInBounds i new) (j : Nat) :
    windowEntry t j = if j = i then new else windowEntry s j := by
  simp only [windowEntry, ht, Vector.getElem?_setIfInBounds]
  by_cases h : i = j
  · simp [h, show j < 16 by omega]
  · simp [h, Ne.symm h]

/-- The one window of a kind is an entry of the table. -/
theorem windowOfKind_some (h : windowOfKind s k = some w) : w.kind = k ∧ ∃ j, windowEntry s j = some w := by
  obtain ⟨j, -, hj⟩ := List.exists_of_findSome?_eq_some h
  split at hj
  · split at hj
    · cases hj
      exact ⟨beq_iff_eq.mp ‹_›, j, ‹_›⟩
    · cases hj
  · cases hj

/-- A kind of which the table has an entry has its window. -/
theorem windowOfKind_ne_none {j : Nat} (h : windowEntry s j = some w) : windowOfKind s w.kind ≠ none := by
  intro hn
  have := List.findSome?_eq_none_iff.mp hn j (List.mem_range.mpr (windowEntry_lt h))
  simp [h] at this

/-- The window of a kind depends on the entries of that kind alone. -/
theorem windowOfKind_of_entries (h : ∀ j x, x.kind = k → (windowEntry t j = some x ↔ windowEntry s j = some x)) :
    windowOfKind t k = windowOfKind s k := by
  simp only [windowOfKind]
  congr 1
  funext j
  cases ht : windowEntry t j with
  | some x =>
    by_cases hx : x.kind = k
    · rw [(h j x hx).mp ht]
    · cases hs : windowEntry s j with
      | none => simp [hx]
      | some y =>
        by_cases hy : y.kind = k
        · rw [(h j y hy).mpr hs] at ht
          cases ht
          rfl
        · simp [hx, hy]
  | none =>
    cases hs : windowEntry s j with
    | none => rfl
    | some y =>
      by_cases hy : y.kind = k
      · rw [(h j y hy).mpr hs] at ht
        cases ht
      · simp [hy]

theorem mem_otherWindows {o : Window} : o ∈ otherWindows s i ↔ ∃ j, j ≠ i ∧ windowEntry s j = some o := by
  simp only [otherWindows, List.mem_filterMap, List.mem_range]
  constructor
  · rintro ⟨j, -, hj⟩
    split at hj
    · cases hj
    · exact ⟨j, ‹_›, hj⟩
  · rintro ⟨j, hji, hj⟩
    exact ⟨j, windowEntry_lt hj, by rw [if_neg hji, hj]⟩

/-- The indices other than one whose entries are of a kind. -/
def othersOfKind (s : State) (i : Nat) (k : WindowKind) : List Nat :=
  (List.range 16).filter fun j => decide (j ≠ i) && ((windowEntry s j).map (·.kind) == some k)

theorem mem_othersOfKind {j : Nat} : j ∈ othersOfKind s i k ↔ j ≠ i ∧ ∃ o, windowEntry s j = some o ∧ o.kind = k := by
  simp only [othersOfKind, List.mem_filter, List.mem_range, Bool.and_eq_true, decide_eq_true_eq, beq_iff_eq,
    Option.map_eq_some_iff, and_iff_right_iff_imp]
  rintro ⟨-, o, ho, -⟩
  exact windowEntry_lt ho

theorem othersOfKind_length : ((otherWindows s i).filter fun o => o.kind == k).length =
    (othersOfKind s i k).length := by
  simp only [otherWindows, othersOfKind, ← List.countP_eq_length_filter, List.countP_filterMap]
  congr 1
  funext j
  by_cases hj : j = i
  · simp [hj]
  · cases windowEntry s j <;> simp [hj]

theorem othersOfKind_nodup : (othersOfKind s i k).Nodup := List.nodup_range.filter _

theorem othersOfKind_le (hi : i ≤ 15) : (othersOfKind s i k).length ≤ 15 := by
  have hle : (othersOfKind s i k).toFinset ⊆ (Finset.range 16).erase i := fun j hj => by
    obtain ⟨hji, o, ho, -⟩ := mem_othersOfKind.mp (List.mem_toFinset.mp hj)
    exact Finset.mem_erase.mpr ⟨hji, Finset.mem_range.mpr (windowEntry_lt ho)⟩
  rw [← List.toFinset_card_of_nodup othersOfKind_nodup]
  refine (Finset.card_le_card hle).trans ?_
  rw [Finset.card_erase_of_mem (Finset.mem_range.mpr (by omega)), Finset.card_range]

theorem othersOfKind_pos : 1 ≤ (othersOfKind s i k).length ↔ ∃ j o, j ≠ i ∧ windowEntry s j = some o ∧ o.kind = k := by
  rw [Nat.one_le_iff_ne_zero, Ne, List.length_eq_zero_iff, List.eq_nil_iff_forall_not_mem, not_forall_not]
  simp only [mem_othersOfKind]
  exact ⟨fun ⟨j, hj, o, h⟩ => ⟨j, o, hj, h⟩, fun ⟨j, o, hj, h⟩ => ⟨j, hj, o, h⟩⟩

theorem othersOfKind_two : 2 ≤ (othersOfKind s i k).length ↔ ∃ j j' o o', j ≠ j' ∧ j ≠ i ∧ j' ≠ i ∧
    windowEntry s j = some o ∧ windowEntry s j' = some o' ∧ o.kind = k ∧ o'.kind = k := by
  rw [← List.toFinset_card_of_nodup othersOfKind_nodup, Nat.succ_le_iff, Finset.one_lt_card]
  simp only [List.mem_toFinset, mem_othersOfKind]
  constructor
  · rintro ⟨j, ⟨hj, o, ho, hk⟩, j', ⟨hj', o', ho', hk'⟩, hne⟩
    exact ⟨j, j', o, o', hne, hj, hj', ho, ho', hk, hk'⟩
  · rintro ⟨j, j', o, o', hne, hj, hj', ho, ho', hk, hk'⟩
    exact ⟨j, ⟨hj, o, ho, hk⟩, j', ⟨hj', o', ho', hk'⟩, hne⟩

/-- The conflicts of a new window at an index: a shared page, another window of a kind (or of a TX_RING's class) that
may have but one, two other RX_RING windows (R93, R99). -/
def Clashes (s : State) (i : Nat) (w : Window) : Prop :=
  (∃ j o, j ≠ i ∧ windowEntry s j = some o ∧ o.base < w.base + w.size ∧ w.base < o.base + o.size) ∨
  (∃ j o, j ≠ i ∧ windowEntry s j = some o ∧ o.kind = w.kind ∧ w.kind ≠ .rxRing ∧ w.kind ≠ .buffer ∧
    (w.kind = .txRing → o.cls = w.cls)) ∨
  (w.kind = .rxRing ∧ ∃ j j' o o', j ≠ j' ∧ j ≠ i ∧ j' ≠ i ∧ windowEntry s j = some o ∧
    windowEntry s j' = some o' ∧ o.kind = .rxRing ∧ o'.kind = .rxRing)

theorem sharesPage_iff : (otherWindows s i).any (windowsMeet w) = true ↔
    ∃ j o, j ≠ i ∧ windowEntry s j = some o ∧ o.base < w.base + w.size ∧ w.base < o.base + o.size := by
  simp only [List.any_eq_true, mem_otherWindows, windowsMeet, Bool.and_eq_true, decide_eq_true_eq]
  exact ⟨fun ⟨o, ⟨j, hj, ho⟩, h1, h2⟩ => ⟨j, o, hj, ho, h2, h1⟩, fun ⟨j, o, hj, ho, h1, h2⟩ => ⟨o, ⟨j, hj, ho⟩, h2, h1⟩⟩

theorem sharesClass_iff {c : Option Cls} : (otherWindows s i).any (fun o => o.kind == .txRing && o.cls == c) = true ↔
    ∃ j o, j ≠ i ∧ windowEntry s j = some o ∧ o.kind = .txRing ∧ o.cls = c := by
  simp only [List.any_eq_true, mem_otherWindows, Bool.and_eq_true, beq_iff_eq]
  exact ⟨fun ⟨o, ⟨j, hj, ho⟩, h⟩ => ⟨j, o, hj, ho, h⟩, fun ⟨j, o, hj, ho, h⟩ => ⟨o, ⟨j, hj, ho⟩, h⟩⟩

/-- The kinds of which an entry has its number beside it already (R93); TX_RING's is for each class. -/
theorem kindFull_iff (hi : i ≤ 15) : kindLimit k ≤ (othersOfKind s i k).length ↔
    ((k ≠ .rxRing ∧ k ≠ .buffer ∧ k ≠ .txRing) ∧ ∃ j o, j ≠ i ∧ windowEntry s j = some o ∧ o.kind = k) ∨
      (k = .rxRing ∧ ∃ j j' o o', j ≠ j' ∧ j ≠ i ∧ j' ≠ i ∧ windowEntry s j = some o ∧
        windowEntry s j' = some o' ∧ o.kind = k ∧ o'.kind = k) := by
  rw [← othersOfKind_pos, ← othersOfKind_two]
  have hle := othersOfKind_le (s := s) (k := k) hi
  generalize (othersOfKind s i k).length = n at *
  cases k <;> simp [kindLimit] <;> omega

theorem windowConflict_iff (hi : i ≤ 15) : windowConflict s i w = true ↔ Clashes s i w := by
  simp only [windowConflict, Bool.or_eq_true, Bool.and_eq_true, decide_eq_true_eq, beq_iff_eq, sharesPage_iff,
    sharesClass_iff, othersOfKind_length, kindFull_iff hi]
  constructor
  · rintro (((⟨⟨hr, hb, ht⟩, j, o, hj, ho, hk⟩ | ⟨hr, htwo⟩) | ⟨hk, j, o, hj, ho, hok, hc⟩) | hpage)
    · exact .inr (.inl ⟨j, o, hj, ho, hk, hr, hb, fun h => absurd h ht⟩)
    · exact .inr (.inr ⟨hr, by simpa only [hr] using htwo⟩)
    · exact .inr (.inl ⟨j, o, hj, ho, hok.trans hk.symm, by simp [hk], by simp [hk], fun _ => hc⟩)
    · exact .inl hpage
  · rintro (hpage | ⟨j, o, hj, ho, hk, hr, hb, hc⟩ | ⟨hr, htwo⟩)
    · exact .inr hpage
    · by_cases ht : w.kind = .txRing
      · exact .inl (.inr ⟨ht, j, o, hj, ho, hk.trans ht, hc ht⟩)
      · exact .inl (.inl (.inl ⟨⟨hr, hb, ht⟩, j, o, hj, ho, hk⟩))
    · exact .inl (.inl (.inr ⟨hr, by simpa only [hr] using htwo⟩))

/-- The clauses of the window law that speak of one window beside entry 0. -/
def WindowOk (w : Window) : Prop :=
  w.kind ≠ .control ∧ (1 ≤ w.size ∧ w.size ≤ 65536) ∧ w.base + w.size ≤ 2 ^ 24 ∧
    (w.kind = .partTx → 17 ≤ w.size) ∧ (w.kind = .status ∨ w.kind = .notice → w.size = 1) ∧
    (w.kind = .spare → w.size ≤ 32 ∧ w.perms = ⟨false, false, false, false, false, false⟩) ∧
    (w.cls.isSome = true ↔ w.kind = .txRing ∨ w.kind = .buffer)

theorem needsClass_iff : needsClass k = true ↔ k = .txRing ∨ k = .buffer := by
  cases k <;> simp [needsClass]

theorem windowKindOfCode_ne_control {n : Nat} (h : windowKindOfCode n = some k) : k ≠ .control := by
  unfold windowKindOfCode at h
  split at h <;> cases h <;> decide

theorem clsOfCode_isSome {n : Nat} (h : n ≤ 4) : (clsOfCode n).isSome = true := by
  interval_cases n <;> rfl

/-- The window of a record that passes its range checks (R99). -/
theorem windowOf_ok {n : Nat} (hk : windowKindOfCode n = some k) (h : windowRange k d = true) :
    WindowOk (windowOf k d) := by
  simp only [windowRange, Bool.and_eq_true, Bool.or_eq_true, decide_eq_true_eq, Bool.not_eq_true'] at h
  obtain ⟨⟨⟨⟨⟨halign, hlow⟩, hhigh⟩, hend⟩, hsize⟩, hclass⟩ := h
  refine ⟨windowKindOfCode_ne_control hk, ⟨hlow, hhigh⟩, ?_, ?_, ?_, ?_, ?_⟩
  · simp only [windowOf]; omega
  · rintro rfl; simpa [sizeOk, windowOf] using hsize
  · rintro (rfl | rfl) <;> simpa [sizeOk, windowOf] using hsize
  · rintro rfl; exact ⟨by simpa [sizeOk, windowOf] using hsize, rfl⟩
  · rw [← needsClass_iff]
    show (if needsClass k then clsOfCode (field d 6 1) else none).isSome = true ↔ needsClass k = true
    cases hn : needsClass k
    · simp
    · simp [clsOfCode_isSome (hclass.resolve_left (by simp [hn]))]

/-- A record that changes an entry and is applied has passed every check (R99, R100). -/
theorem windowCheck_passed (h : windowCheck s d = .applied) (hn : windowContent d ≠ windowEntry s (field d 4 1)) :
    (1 ≤ field d 4 1 ∧ field d 4 1 ≤ 15) ∧ windowBusy s (field d 4 1) (windowContent d) = false ∧
      ∀ w, windowContent d = some w → WindowOk w ∧ ¬Clashes s (field d 4 1) w := by
  simp only [windowCheck, if_neg hn] at h
  cases hc : windowContent d with
  | none =>
    simp only [hc] at h
    repeat' split at h
    all_goals try cases h
    rename_i hrange _ hbusy
    push Not at hrange
    exact ⟨⟨Nat.one_le_iff_ne_zero.mpr hrange.1, hrange.2.1⟩, by simpa using hbusy, fun w hw => by cases hw⟩
  | some w =>
    simp only [hc] at h
    repeat' split at h
    all_goals try cases h
    rename_i hrange hclash hbusy
    push Not at hrange
    obtain ⟨hlow, hhigh, hrange⟩ := hrange
    obtain ⟨k, hk, rfl⟩ := Option.map_eq_some_iff.mp hc
    refine ⟨⟨Nat.one_le_iff_ne_zero.mpr hlow, hhigh⟩, by simpa using hbusy, fun w hw => ?_⟩
    cases hw
    exact ⟨windowOf_ok hk (by simpa [windowOf] using hrange), fun hc => hclash ((windowConflict_iff hhigh).mpr hc)⟩

/-! What a WINDOW record makes of the table. -/

theorem applyWindow_same (h : windowContent d = windowEntry s (field d 4 1)) : applyWindow d s = s := by
  simp [applyWindow, h]

theorem applyWindow_windows (h : windowContent d ≠ windowEntry s (field d 4 1)) :
    (applyWindow d s).windows = s.windows.setIfInBounds (field d 4 1) (windowContent d) := by
  simp only [applyWindow, if_neg h]
  repeat' split
  all_goals simp

end WindowTable
end Sys2Proof.Machine

namespace Sys2Proof.Machine

/-! ### What keeps the window table and the remap table (R92 to R94, R120, R123) -/

section TablesKept

variable {s t u : State} {i : Nat} {d : Line} {e f : RemapEntry}

/-! A WINDOW record keeps the window law. -/

theorem mem_of_filter_length {α : Type} {l : List α} {p : α → Bool} {x y : α} (h : (l.filter p).length ≤ 1)
    (hx : x ∈ l) (hpx : p x = true) (hy : y ∈ l) (hpy : p y = true) : x = y := by
  match hf : l.filter p with
  | [] => exact absurd (List.mem_filter.mpr ⟨hx, hpx⟩) (by simp [hf])
  | [z] =>
    have hxz : x ∈ l.filter p := List.mem_filter.mpr ⟨hx, hpx⟩
    have hyz : y ∈ l.filter p := List.mem_filter.mpr ⟨hy, hpy⟩
    rw [hf, List.mem_singleton] at hxz hyz
    exact hxz.trans hyz.symm
  | a :: b :: rest => rw [hf] at h; simp at h

theorem rxRings_set (hi : i ≤ 15) (new : Option Window) (ht : t.windows = s.windows.setIfInBounds i new)
    (hs : ((List.range 16).filter fun j => (windowEntry s j).map (·.kind) == some .rxRing).length ≤ 2)
    (hnew : ∀ w, new = some w → ¬Clashes s i w) :
    ((List.range 16).filter fun j => (windowEntry t j).map (·.kind) == some .rxRing).length ≤ 2 := by
  have hent := windowEntry_set hi new ht
  have hothers : ∀ j ∈ (List.range 16).filter (fun j => (windowEntry t j).map (·.kind) == some .rxRing),
      j ∈ othersOfKind s i .rxRing ∨ (j = i ∧ new.map (·.kind) = some .rxRing) := fun j hj => by
    have hk := (List.mem_filter.mp hj).2
    rw [beq_iff_eq, hent] at hk
    by_cases hji : j = i
    · exact .inr ⟨hji, by simpa [hji] using hk⟩
    · rw [if_neg hji] at hk
      obtain ⟨o, ho, hkind⟩ := Option.map_eq_some_iff.mp hk
      exact .inl (mem_othersOfKind.mpr ⟨hji, o, ho, hkind⟩)
  have hnd : ((List.range 16).filter fun j => (windowEntry t j).map (·.kind) == some .rxRing).Nodup :=
    List.nodup_range.filter _
  by_cases hrx : new.map (·.kind) = some .rxRing
  · obtain ⟨w, hw, hkind⟩ := Option.map_eq_some_iff.mp hrx
    have hfew : (othersOfKind s i .rxRing).length ≤ 1 := by
      by_contra hc
      obtain ⟨j, j', o, o', hne, hj, hj', ho, ho', hk, hk'⟩ := othersOfKind_two.mp (Nat.lt_of_not_le hc)
      exact hnew w hw (.inr (.inr ⟨hkind, j, j', o, o', hne, hj, hj', ho, ho', hk, hk'⟩))
    have hsub := hnd.subperm (l₂ := i :: othersOfKind s i .rxRing) fun j hj =>
      (hothers j hj).elim (List.mem_cons_of_mem _) fun h => h.1 ▸ List.mem_cons_self
    exact hsub.length_le.trans (by simpa using hfew)
  · refine (hnd.subperm fun j hj => ?_).length_le.trans hs
    rcases hothers j hj with h | ⟨-, h⟩
    · obtain ⟨-, o, ho, hk⟩ := mem_othersOfKind.mp h
      exact List.mem_filter.mpr ⟨List.mem_range.mpr (windowEntry_lt ho), by simp [ho, hk]⟩
    · exact absurd h hrx

/-- A window that clashes with no other keeps the law (R93). -/
theorem windowLaw_set (hi : 1 ≤ i ∧ i ≤ 15) (new : Option Window) (ht : t.windows = s.windows.setIfInBounds i new)
    (hstraps : t.straps = s.straps) (hnew : ∀ w, new = some w → WindowOk w ∧ ¬Clashes s i w) (hs : windowLaw s) :
    windowLaw t := by
  obtain ⟨h0, hone, htwo, hrx⟩ := hs
  have hent := windowEntry_set hi.2 new ht
  have hpair : ∀ j a b, j ≠ i → new = some a → windowEntry s j = some b →
      (a.base + a.size ≤ b.base ∨ b.base + b.size ≤ a.base) ∧
      (a.kind = b.kind → a.kind = .rxRing ∨ a.kind = .buffer ∨ (a.kind = .txRing ∧ a.cls ≠ b.cls)) := by
    intro j a b hj ha hb
    have hclash := (hnew a ha).2
    simp only [Clashes, not_or] at hclash
    obtain ⟨hmeet, hkind, -⟩ := hclash
    refine ⟨?_, fun hk => ?_⟩
    · by_contra hc
      push Not at hc
      exact hmeet ⟨j, b, hj, hb, hc.1, hc.2⟩
    · by_contra hc
      push Not at hc
      exact hkind ⟨j, b, hj, hb, hk.symm, hc.1, hc.2.1, fun h => (hc.2.2 h).symm⟩
  refine ⟨?_, fun j w hj hw => ?_, fun j k a b hjk ha hb => ?_, rxRings_set hi.2 new ht hrx fun w hw => (hnew w hw).2⟩
  · rw [hent, if_neg (by omega), h0, hstraps]
  · rw [hent] at hw
    split at hw
    · exact (hnew w hw).1
    · exact hone j w hj hw
  · rw [hent] at ha hb
    split at ha <;> split at hb
    · omega
    · exact hpair k a b ‹_› ha hb
    · obtain ⟨hd, hk⟩ := hpair j b a ‹_› hb ha
      refine ⟨hd.symm, fun he => ?_⟩
      rw [he]
      exact (hk he.symm).imp_right fun h => h.imp_right fun h => ⟨h.1, Ne.symm h.2⟩
    · exact htwo j k a b hjk ha hb

/-! What one entry's change makes of the remap table. -/

theorem length_filter_le_one {α β : Type} {l : List α} {p : α → Bool} (g : α → β) (hn : (l.map g).Nodup)
    (h : ∀ x ∈ l, ∀ y ∈ l, p x = true → p y = true → g x = g y) : (l.filter p).length ≤ 1 := by
  match hf : l.filter p with
  | [] => simp
  | [z] => simp
  | a :: b :: rest =>
    have hsub : ((l.filter p).map g).Nodup := hn.sublist (List.filter_sublist.map g)
    rw [hf] at hsub
    obtain ⟨ha, hpa⟩ := List.mem_filter.mp (show a ∈ l.filter p by simp [hf])
    obtain ⟨hb, hpb⟩ := List.mem_filter.mp (show b ∈ l.filter p by simp [hf])
    exact absurd (h a ha b hb hpa hpb) (by simp at hsub; exact hsub.1.1)

/-- The law of the remap table, with the clause on COPYING entries said of any two of them. -/
theorem remapLaw_iff : remapLaw s ↔ s.integ.remaps.length ≤ 32 ∧ (s.integ.remaps.map (·.failed)).Nodup ∧
    (s.integ.remaps.map (·.spare)).Nodup ∧
    (∀ x ∈ s.integ.remaps, ∀ y ∈ s.integ.remaps, x.state = .copying → y.state = .copying → x.failed = y.failed) ∧
    (∀ x ∈ s.integ.remaps, inSpare s x.spare = true ∧ remapPointerOk x) ∧
    ∀ i w, windowEntry s i = some w → w.kind = .spare → w.size ≤ 32 := by
  unfold remapLaw
  refine and_congr_right fun _ => and_congr_right fun hn => and_congr_right fun _ => and_congr_left fun _ =>
    ⟨fun h x hx y hy hcx hcy => ?_, fun h => length_filter_le_one (·.failed) hn fun x hx y hy hcx hcy => ?_⟩
  · rw [mem_of_filter_length h hx (by simp [hcx]) hy (by simp [hcy])]
  · exact h x hx y hy (beq_iff_eq.mp hcx) (beq_iff_eq.mp hcy)

theorem remapLaw_of_same (hr : t.integ.remaps = s.integ.remaps) (hw : t.windows = s.windows) (h : remapLaw s) :
    remapLaw t := by
  simpa only [remapLaw, hr, inSpare, windowOfKind_congr hw, windowEntry_congr hw] using h

/-- An entry takes the place of one with its pages: where it is COPYING no other is (R120, R123). -/
theorem setRemap_law (hf : f ∈ s.integ.remaps) (hfailed : e.failed = f.failed) (hspare : e.spare = f.spare)
    (hok : remapPointerOk e)
    (hcopy : e.state = .copying → ∀ x ∈ s.integ.remaps, x.state = .copying → x.failed = f.failed) (h : remapLaw s) :
    remapLaw (setRemap e s) := by
  rw [remapLaw_iff] at h ⊢
  obtain ⟨hlen, hnf, hns, hc, hall, hsize⟩ := h
  have huniq : ∀ x ∈ s.integ.remaps, x.failed = e.failed → x = f := fun x hx hxe =>
    List.inj_on_of_nodup_map hnf hx hf (hxe.trans hfailed)
  have hmap : ∀ {β : Type} (g : RemapEntry → β), g e = g f →
      (setRemap e s).integ.remaps.map g = s.integ.remaps.map g := fun g hg => by
    simp only [setRemap, State.updInteg_integ, List.map_map]
    refine List.map_congr_left fun x hx => ?_
    simp only [Function.comp]
    split
    · rw [hg, huniq x hx ‹_›]
    · rfl
  have hmem : ∀ x ∈ (setRemap e s).integ.remaps, x = e ∨ x ∈ s.integ.remaps ∧ x.failed ≠ e.failed := fun x hx => by
    obtain ⟨y, hy, hyx⟩ := List.mem_map.mp hx
    split at hyx
    · exact .inl hyx.symm
    · exact .inr ⟨hyx ▸ hy, hyx ▸ ‹_›⟩
  refine ⟨?_, ?_, ?_, fun x hx y hy hcx hcy => ?_, fun x hx => ?_, hsize⟩
  · simpa [setRemap] using hlen
  · rw [hmap (·.failed) hfailed]; exact hnf
  · rw [hmap (·.spare) hspare]; exact hns
  · rcases hmem x hx with rfl | ⟨hxs, hxe⟩ <;> rcases hmem y hy with rfl | ⟨hys, hye⟩
    · rfl
    · exact hfailed.trans (hcopy hcx y hys hcy).symm
    · exact (hcopy hcy x hxs hcx).trans hfailed.symm
    · exact hc x hxs y hys hcx hcy
  · rcases hmem x hx with rfl | ⟨hxs, -⟩
    · exact ⟨hspare ▸ (hall f hf).1, hok⟩
    · exact hall x hxs

theorem copyPump_remapLaw (h : remapLaw s) : remapLaw (copyPump s) := by
  simp only [copyPump]
  split
  · exact h
  · split
    · exact remapLaw_of_same (by simp) (by simp) h
    · rename_i hnone
      split
      · rename_i e he
        have hno : ∀ x ∈ s.integ.remaps, x.state ≠ .copying := by simpa [copyingEntry] using hnone
        refine remapLaw_of_same (s := setRemap { e with state := .copying, pointer := 0 } s) (by simp) (by simp)
          (setRemap_law (List.mem_of_find?_eq_some he) rfl rfl (by simp [remapPointerOk]) ?_ h)
        exact fun _ x hx hc => absurd hc (hno x hx)
      · exact h

/-- The page that the pool gives lies in SPARE and is no entry's (R121). -/
theorem poolPage_some {p : Nat} (h : poolPage s = some p) :
    inSpare s p = true ∧ ∀ x ∈ s.integ.remaps, x.spare ≠ p := by
  simp only [poolPage] at h
  split at h
  · rename_i w hw
    have hp := List.mem_of_find?_eq_some h
    have hfree := List.find?_some h
    simp only [List.mem_map, List.mem_range] at hp
    obtain ⟨n, hn, rfl⟩ := hp
    exact ⟨by simp [inSpare, hw, hn], by simpa using hfree⟩
  · cases h

/-- Distinct pages of a SPARE window of at most 32 pages are at most 32. -/
theorem spares_length (hns : (s.integ.remaps.map (·.spare)).Nodup)
    (hall : ∀ x ∈ s.integ.remaps, inSpare s x.spare = true)
    (hsize : ∀ i w, windowEntry s i = some w → w.kind = .spare → w.size ≤ 32) : s.integ.remaps.length ≤ 32 := by
  cases hw : windowOfKind s .spare with
  | none =>
    have hnil : s.integ.remaps = [] :=
      List.eq_nil_iff_forall_not_mem.mpr fun x hx => by simpa [inSpare, hw] using hall x hx
    simp [hnil]
  | some w =>
    obtain ⟨hk, j, hj⟩ := windowOfKind_some hw
    have hsub : (s.integ.remaps.map (·.spare)).toFinset ⊆ Finset.Ico w.base (w.base + w.size) := fun p hp => by
      obtain ⟨x, hx, rfl⟩ := List.mem_map.mp (List.mem_toFinset.mp hp)
      simpa [inSpare, hw] using hall x hx
    have hcard := Finset.card_le_card hsub
    rw [List.toFinset_card_of_nodup hns, List.length_map, Nat.card_Ico] at hcard
    have := hsize j w hj hk
    omega

/-- A new entry for a page that has none, with a page of the pool (R121). -/
theorem remapLaw_append (hpage : remapHas s e.failed = false) (hp : poolPage s = some e.spare)
    (hstate : e.state = .waiting) (hpointer : e.pointer = 0) (h : remapLaw s) :
    remapLaw (s.updInteg fun x => { x with remaps := x.remaps ++ [e] }) := by
  rw [remapLaw_iff] at h ⊢
  obtain ⟨hlen, hnf, hns, hc, hall, hsize⟩ := h
  obtain ⟨hin, hfree⟩ := poolPage_some hp
  have hnew : ∀ x ∈ s.integ.remaps, x.failed ≠ e.failed := by simpa [remapHas] using hpage
  have hns' : ((s.integ.remaps ++ [e]).map (·.spare)).Nodup := by
    rw [List.map_append, List.nodup_append]
    exact ⟨hns, List.nodup_singleton _, by simpa using hfree⟩
  have hall' : ∀ x ∈ s.integ.remaps ++ [e], inSpare s x.spare = true ∧ remapPointerOk x := fun x hx => by
    rcases List.mem_append.mp hx with hx | hx
    · exact hall x hx
    · rw [List.mem_singleton.mp hx]
      exact ⟨hin, by simp [remapPointerOk, hstate, hpointer]⟩
  refine ⟨spares_length (s := s.updInteg fun x => { x with remaps := x.remaps ++ [e] }) hns'
    (fun x hx => (hall' x hx).1) hsize, ?_, hns', fun x hx y hy hcx hcy => ?_, hall', hsize⟩
  · show ((s.integ.remaps ++ [e]).map (·.failed)).Nodup
    rw [List.map_append, List.nodup_append]
    exact ⟨hnf, List.nodup_singleton _, by simpa using hnew⟩
  · have hold : ∀ z ∈ s.integ.remaps ++ [e], z.state = .copying → z ∈ s.integ.remaps := fun z hz hcz =>
      (List.mem_append.mp hz).resolve_right fun hz' => by
        rw [List.mem_singleton.mp hz', hstate] at hcz
        cases hcz
    exact hc x (hold x hx hcx) y (hold y hy hcy) hcx hcy

theorem remapLaw_filter (p : RemapEntry → Bool) (h : remapLaw s) :
    remapLaw (s.updInteg fun x => { x with remaps := x.remaps.filter p }) := by
  rw [remapLaw_iff] at h ⊢
  obtain ⟨hlen, hnf, hns, hc, hall, hsize⟩ := h
  have hmem : ∀ x ∈ s.integ.remaps.filter p, x ∈ s.integ.remaps := fun x hx => (List.mem_filter.mp hx).1
  exact ⟨(List.length_filter_le ..).trans hlen, hnf.sublist (List.filter_sublist.map _),
    hns.sublist (List.filter_sublist.map _), fun x hx y hy => hc x (hmem x hx) y (hmem y hy),
    fun x hx => hall x (hmem x hx), hsize⟩

/-! ### Operations that keep both tables' laws -/

/-- From `s` to `t` the laws of both tables are kept. -/
structure TablesKept (s t : State) : Prop where
  windows : windowLaw s → windowLaw t
  remaps : remapLaw s → remapLaw t

theorem TablesKept.refl (s : State) : TablesKept s s := ⟨id, id⟩

theorem TablesKept.trans (h : TablesKept s t) (h2 : TablesKept t u) : TablesKept s u :=
  ⟨h2.windows ∘ h.windows, h2.remaps ∘ h.remaps⟩

/-- An operation that leaves both tables. -/
theorem TablesKept.of_same (hs : t.straps = s.straps) (hw : t.windows = s.windows)
    (hr : t.integ.remaps = s.integ.remaps) : TablesKept s t :=
  ⟨fun h => by simpa only [windowLaw, hs, windowEntry_congr hw] using h, remapLaw_of_same hr hw⟩

/-- An operation that leaves the window table. -/
theorem TablesKept.of_remaps (hs : t.straps = s.straps) (hw : t.windows = s.windows)
    (hr : remapLaw s → remapLaw t) : TablesKept s t :=
  ⟨fun h => by simpa only [windowLaw, hs, windowEntry_congr hw] using h, hr⟩

theorem TablesKept.of_ite {p : Prop} [Decidable p] (h : p → TablesKept s t) :
    TablesKept s (if p then t else s) := by
  split
  · exact h ‹_›
  · exact .refl s

theorem copyPump_tables (s : State) : TablesKept s (copyPump s) := .of_remaps (by simp) (by simp) copyPump_remapLaw

theorem remapRequest_tables (page : Nat) (src : RemapSource) (s : State) :
    TablesKept s (remapRequest page src s) := by
  refine .of_remaps (by simp) (by simp) fun h => ?_
  simp only [remapRequest]
  split
  · exact remapLaw_of_same rfl rfl h
  · rename_i hpage
    split
    · exact remapLaw_of_same (by simp [remapExhausted_integ]) (by simp) h
    · rename_i p hp
      have happ := remapLaw_append (e := ⟨page, p, .waiting, src, 0, timeNow s⟩) (by simpa using hpage) hp rfl rfl h
      exact copyPump_remapLaw (remapLaw_of_same (by simp) (by simp) happ)

theorem suspectReached_tables (x : Suspect) (s : State) : TablesKept s (suspectReached x s) := by
  simp only [suspectReached]
  split
  · exact remapRequest_tables _ _ s
  · exact .of_same (by simp) (by simp) (by simp)

theorem suspectCount_tables (line : Nat) (s : State) : TablesKept s (suspectCount line s) := by
  obtain ⟨v, hv, ⟨l, c, hi⟩, hcases⟩ := suspectCount_cases line s
  have hsv : TablesKept s v := .of_same (hv .straps (by decide)) (hv .windows (by decide)) (by rw [hi])
  rcases hcases with h | ⟨e, h⟩
  · exact h ▸ hsv
  · exact h ▸ hsv.trans (suspectReached_tables e v)

theorem uncorrectable_remaps (source : IntegritySource) (line memLine : Nat) (s : State) :
    (uncorrectable source line memLine s).integ.remaps = s.integ.remaps := by
  simp only [uncorrectable]
  repeat' split
  all_goals simp [integCount]

theorem takeOutcome_tables (source : IntegritySource) (line memLine : Nat) (o : EccObs) (s : State) :
    TablesKept s (takeOutcome source line memLine o s) := by
  simp only [takeOutcome]
  split
  · exact .refl s
  · exact TablesKept.trans (t := (integCount (fun c => { c with corrected := satInc c.corrected }) s).updInteg _)
      (.of_same rfl rfl rfl) (suspectCount_tables line _)
  · exact .of_same (by simp) (by simp) (uncorrectable_remaps ..)

theorem orphanOutcome_tables (source : IntegritySource) (a : Access) (o : EccObs) (s : State) :
    TablesKept s (orphanOutcome source a o s) := by
  simp only [orphanOutcome]
  split
  · exact .refl s
  · exact takeOutcome_tables ..

theorem orphanRead_tables (source : IntegritySource) (a : Access) (o : EccObs) (s : State) :
    TablesKept s (orphanRead source a o s) := by
  simp only [orphanRead]
  split
  · exact .refl s
  · exact orphanOutcome_tables ..

/-- The entry that the copy engine moves is the table's. -/
theorem copyingEntry_some (h : copyingEntry s = some e) : e ∈ s.integ.remaps ∧ e.state = .copying :=
  ⟨List.mem_of_find?_eq_some h, by simpa using List.find?_some h⟩

theorem abandonCopy_tables (id : Nat) (e : RemapEntry) (s : State) : TablesKept s (abandonCopy id e s) :=
  .of_remaps (by simp) (by simp) fun h => copyPump_remapLaw (remapLaw_of_same (by simp [integCount]) (by simp)
    (remapLaw_filter (s := dropReq id s) (fun x => x.failed != e.failed) (remapLaw_of_same (by simp) (by simp) h)))

/-- The entry once its line is copied: ACTIVE behind the last line (R123). -/
def advanced (e : RemapEntry) : RemapEntry :=
  { e with pointer := e.pointer + 1, state := if e.pointer + 1 = 64 then .active else .copying }

theorem copyAdvance_eq (id : Nat) (e : RemapEntry) (s : State) : copyAdvance id e s =
    copyPump (if e.pointer + 1 = 64 then
      report 0x0C (remapBody (advanced e)) (releaseLock (64 * e.failed + e.pointer)
        (setRemap (advanced e) (dropReq id s)))
      else releaseLock (64 * e.failed + e.pointer) (setRemap (advanced e) (dropReq id s))) := rfl

theorem advanced_pointerOk (h : e.pointer < 64) : remapPointerOk (advanced e) := by
  by_cases hp : e.pointer + 1 = 64
  · simp [remapPointerOk, advanced, hp]
  · simp only [remapPointerOk, advanced, hp]
    simp
    omega

theorem copyAdvance_tables {id : Nat} (he : copyingEntry s = some e) : TablesKept s (copyAdvance id e s) := by
  refine .of_remaps (by simp) (by simp) fun h => ?_
  obtain ⟨hmem, hstate⟩ := copyingEntry_some he
  obtain ⟨-, -, -, hc, hall, -⟩ := remapLaw_iff.mp h
  have hpointer : e.pointer < 64 := by simpa [remapPointerOk, hstate] using (hall e hmem).2
  have hset : remapLaw (setRemap (advanced e) (dropReq id s)) :=
    setRemap_law (f := e) (by simpa using hmem) rfl rfl (advanced_pointerOk hpointer)
      (fun _ x hx hcx => hc x (by simpa using hx) e hmem hcx hstate) (remapLaw_of_same (by simp) (by simp) h)
  rw [copyAdvance_eq]
  refine copyPump_remapLaw ?_
  split
  · exact remapLaw_of_same (by simp) (by simp) hset
  · exact remapLaw_of_same (by simp) (by simp) hset

theorem scrubLoop_remaps (n : Nat) (s : State) : (scrubLoop n s).integ.remaps = s.integ.remaps := by
  induction n generalizing s with
  | zero => rfl
  | succ n ih =>
    unfold scrubLoop
    simp only
    split
    · exact ih _
    · simp [updScrub]

@[simp] theorem scrubPump_remaps (s : State) : (scrubPump s).integ.remaps = s.integ.remaps := by
  simp only [scrubPump]
  split
  · rfl
  · exact scrubLoop_remaps _ s

@[simp] theorem evalLoad_remaps (s : State) : (evalLoad s).integ.remaps = s.integ.remaps := by
  simp only [evalLoad]
  split
  · rfl
  · simp [loadChanged]

@[simp] theorem applyClear_remaps (d : Line) (s : State) : (applyClear d s).integ.remaps = s.integ.remaps := by
  simp only [applyClear, whenBit]
  repeat' split
  all_goals simp [clearEcc]

theorem endMarch_tables (s : State) : TablesKept s (endMarch s) := by
  have hfold : ∀ (l : List Nat) (v : State),
      TablesKept v (l.foldl (fun t page => remapRequest page .fill t) v) := fun l => by
    induction l with
    | nil => exact .refl
    | cons page l ih => exact fun v => (remapRequest_tables page .fill v).trans (ih _)
  have hrest : ∀ v : State, TablesKept s v → ∀ t : State, t.straps = v.straps → t.windows = v.windows →
      t.integ.remaps = v.integ.remaps → TablesKept s t := fun v hv t h1 h2 h3 => hv.trans (.of_same h1 h2 h3)
  simp only [endMarch]
  generalize (if s.march.failingReads = 0 then SessionOutcome.pass else SessionOutcome.fail) = o
  have hmid : TablesKept s (if s.march.autoRemap && o == .fail then
      s.march.failing.foldl (fun t page => remapRequest page .fill t) (s.updMarch fun m =>
        { m with state := .done, causeManual := false, causeLoad := false, outcome := some o }) else
      s.updMarch fun m => { m with state := .done, causeManual := false, causeLoad := false, outcome := some o }) := by
    split
    · exact TablesKept.trans (t := s.updMarch _) (.of_same rfl rfl rfl) (hfold _ _)
    · exact .of_same rfl rfl rfl
  split
  · exact hrest _ hmid _ (by simp) (by simp) (by simp)
  · exact hrest _ hmid _ (by simp) (by simp) (by simp)

/-! WINDOW and REMAP records. -/

/-- A window that a record may change has no spare page in use where it is SPARE (R100). -/
theorem windowBusy_spare {new : Option Window} {w : Window} (h : windowBusy s i new = false)
    (hw : windowEntry s i = some w) (hk : w.kind = .spare) : s.integ.remaps = [] := by
  simp only [windowBusy, hw, replaceBusy, hk, Bool.or_eq_false_iff] at h
  simpa using h.1.1.1.2

theorem applyWindow_tables (hc : windowCheck s d = .applied) : TablesKept s (applyWindow d s) := by
  by_cases hsame : windowContent d = windowEntry s (field d 4 1)
  · rw [applyWindow_same hsame]
    exact .refl s
  obtain ⟨hi, hbusy, hnew⟩ := windowCheck_passed hc hsame
  have hwin := applyWindow_windows hsame
  have hent := windowEntry_set hi.2 _ hwin
  refine ⟨windowLaw_set hi _ hwin (by simp) hnew, fun h => ?_⟩
  have hr : (applyWindow d s).integ = s.integ := by simp
  obtain ⟨hlen, hnf, hns, hcp, hall, hsize⟩ := remapLaw_iff.mp h
  refine remapLaw_iff.mpr ?_
  rw [hr]
  refine ⟨hlen, hnf, hns, hcp, fun x hx => ⟨?_, (hall x hx).2⟩, fun j w hj hk => ?_⟩
  · have hin := (hall x hx).1
    obtain ⟨w, hw⟩ : ∃ w, windowOfKind s .spare = some w := by
      cases hs : windowOfKind s .spare with
      | none => simp [inSpare, hs] at hin
      | some w => exact ⟨w, rfl⟩
    obtain ⟨hwk, j, hj⟩ := windowOfKind_some hw
    have hold : ∀ o, windowEntry s (field d 4 1) = some o → o.kind ≠ .spare := fun o ho hk => by
      rw [windowBusy_spare hbusy ho hk] at hx
      cases hx
    have hji : j ≠ field d 4 1 := fun he => hold w (he ▸ hj) hwk
    have hnone : ∀ o, windowContent d = some o → o.kind ≠ .spare := fun o ho hk =>
      (hnew o ho).2 (.inr (.inl ⟨j, w, hji, hj, hwk.trans hk.symm, by simp [hk], by simp [hk],
        fun h => by simp [hk] at h⟩))
    have hsp : windowOfKind (applyWindow d s) .spare = windowOfKind s .spare := windowOfKind_of_entries fun k o hk => by
      rw [hent]
      split
      next he => exact he ▸ ⟨fun ho => absurd hk (hnone o ho), fun ho => absurd hk (hold o ho)⟩
      next => rfl
    rw [inSpare, hsp]
    exact hin
  · rw [hent] at hj
    split at hj
    · exact ((hnew w hj).1.2.2.2.2.2.1 hk).1
    · exact hsize j w hj hk

theorem checked_tables {o : RecordOutcome} {f : State → State} (h : o = .applied → TablesKept s (f s)) :
    TablesKept s (checked o f s).2 := by
  unfold checked
  split
  · exact h ‹_›
  · exact .refl s

theorem examineKind_tables (kind : Nat) (d : Line) (s : State) : TablesKept s (examineKind kind d s).2 := by
  unfold examineKind
  split
  case h_1 => exact checked_tables applyWindow_tables
  case h_11 =>
    simp only [examineRemap]
    repeat' split
    · exact .refl s
    · exact .refl s
    · exact remapRequest_tables _ _ s
  case h_12 =>
    simp only [examineMemtest]
    split
    case h_5 => exact .refl s
    all_goals exact checked_tables fun _ => .of_same (by simp) (by simp) (by simp)
  case h_13 =>
    simp only [examineLooptest]
    split
    case h_3 => exact .refl s
    all_goals exact checked_tables fun _ => .of_same (by simp) (by simp) (by simp)
  case h_16 =>
    simp only [examineReport]
    split
    case h_3 | h_4 => exact .refl s
    all_goals exact checked_tables fun _ => .of_same (by simp) (by simp) (by simp)
  case h_18 => exact .refl s
  case h_9 => exact checked_tables fun _ => .of_same (by simp) (by simp) (by simp [applyPorts])
  case h_10 => exact checked_tables fun _ => .of_same (by simp) (by simp) rfl
  all_goals exact checked_tables fun _ => .of_same (by simp) (by simp) (by simp)

theorem examineFull_tables (line : Nat) (d : Line) (s : State) : TablesKept s (examineFull line d s) := by
  have hkind := examineKind_tables (field d 1 1) d s
  simp only [examineFull]
  generalize examineKind (field d 1 1) d s = x at *
  refine hkind.trans ?_
  repeat' split
  all_goals exact .of_same (by simp) (by simp) (by simp)

theorem examineRecord_tables (line : Nat) (mask : BitVec 64) (d : Line) (s : State) :
    TablesKept s (examineRecord line mask d s) := by
  simp only [examineRecord]
  repeat' split
  · exact .of_same rfl rfl rfl
  · exact .of_same (by simp) (by simp) (by simp)
  · exact examineFull_tables line d s

theorem observe_tables (x : Sighting) (w : Window) (r : LineRequest) (s : State) :
    TablesKept s (observe x w r s).2 := by
  simp only [observe]
  split
  case h_9 | h_10 | h_11 => exact examineRecord_tables _ _ _ s
  all_goals exact .of_same (by simp) (by simp) (by simp)

theorem classifyWhen_tables (sort : Sighting → Bool) (p : Port) (s : State) :
    TablesKept s (classifyWhen sort p s) := by
  have haccept : ∀ id r win stamp u, TablesKept u (accept id p r win stamp u) := fun _ _ _ _ _ =>
    .of_same (by simp) (by simp) (by simp)
  have hrequest : ∀ id r, TablesKept s (classifyRequest id p r s) := fun id r => by
    simp only [classifyRequest]
    split
    case h_1 | h_2 | h_3 => exact .of_same (by simp) (by simp) (by simp)
    all_goals
      split
      · exact haccept _ _ _ _ s
      · exact (observe_tables _ _ r s).trans (haccept _ _ _ _ _)
  unfold classifyWhen
  split
  · exact .of_ite fun _ => hrequest _ _
  · exact .refl s

/-! The rows of the memory port. -/

theorem popRead_tables (f : LineFlips) (a : Access) (s : State) : TablesKept s (popRead f a s) :=
  .of_same (by simp) (by simp) (by simp)

theorem completeRead_tables {p : Port} {a : Access} {o : EccObs} {deliver : Line → State → Line × State}
    (h : ∀ d u, TablesKept u (deliver d u).2) (s : State) : TablesKept s (completeRead p a o deliver s) := by
  have hans : ∀ y u, TablesKept u (answer a.id y u) := fun _ _ => .of_same (by simp) (by simp) (by simp)
  simp only [completeRead]
  repeat' split
  · exact orphanRead_tables ..
  · exact .of_same (by simp) (by simp) (by simp [countMarkedRead, integCount])
  · exact (takeOutcome_tables ..).trans (hans _ _)
  · exact (takeOutcome_tables ..).trans ((h _ _).trans (hans _ _))

theorem ownWrite_tables {a : Access} {d : Line} {next : State → State} (h : ∀ u, TablesKept u (next u)) (s : State) :
    TablesKept s (ownWrite a d next s) := by
  simp only [ownWrite]
  split
  · exact TablesKept.trans (t := finishInternal a.id (unmark a.line (commit a d (popHead s))))
      (.of_same (by simp) (by simp) (by simp [unmark])) (h _)
  · exact .of_same (by simp) (by simp) (by simp [unmark])

theorem makeDescriptor_tables (slot kind length sequence buffer : Nat) (s : State) :
    TablesKept s (makeDescriptor slot kind length sequence buffer s) := by
  simp only [makeDescriptor]
  split
  · exact .of_same (by simp) (by simp) (by simp)
  · exact .refl s

theorem rmwReadDone_tables (f : LineFlips) (s : State) : TablesKept s (rmwReadDone f s) := by
  simp only [rmwReadDone]
  split
  · rename_i a _
    have hpop := popRead_tables f a s
    split
    · rename_i p _
      have hout := hpop.trans (takeOutcome_tables (.port p) a.line a.memLine (lineRead f a s) _)
      repeat' split
      · exact hpop.trans (orphanRead_tables ..)
      · exact hpop.trans (.of_same (by simp) (by simp) (by simp [countMarkedRead, integCount]))
      · exact hout.trans (.of_same (by simp) (by simp) (by simp))
      · exact hout.trans (.of_same (by simp) (by simp) (by simp))
    · exact .refl s
  · exact .refl s

theorem writeBackReadDone_tables (f : LineFlips) (s : State) : TablesKept s (writeBackReadDone f s) := by
  simp only [writeBackReadDone]
  split
  · rename_i a _
    have hpop := popRead_tables f a s
    have hout := hpop.trans (takeOutcome_tables .internalPartial a.line a.memLine (lineRead f a s) _)
    repeat' split
    · exact hpop.trans (orphanRead_tables ..)
    · exact hpop.trans (.of_same (by simp) (by simp) (by simp [countMarkedRead, integCount]))
    · exact hout.trans (.of_same (by simp) (by simp) (by simp))
    · exact hout.trans (.of_same (by simp) (by simp) (by simp))
    all_goals exact .refl s
  · exact .refl s

theorem scrubReadDone_tables (f : LineFlips) (s : State) : TablesKept s (scrubReadDone f s) := by
  simp only [scrubReadDone]
  split
  · rename_i a _
    have hpop := popRead_tables f a s
    have hout := hpop.trans (takeOutcome_tables .scrubber a.line a.memLine (lineRead f a s) _)
    repeat' split
    · exact hpop.trans (orphanOutcome_tables ..)
    · exact hout.trans (.of_same (by simp) (by simp) (by simp))
    · exact hout.trans (.of_same (by simp) (by simp) (by simp [scrubEnd, integCount]))
    all_goals exact .refl s
  · exact .refl s

theorem copyReadDone_tables (f : LineFlips) (s : State) : TablesKept s (copyReadDone f s) := by
  simp only [copyReadDone]
  split
  · rename_i a _
    have hpop := popRead_tables f a s
    have hout := hpop.trans (takeOutcome_tables .copyEngine a.line a.memLine (lineRead f a s) _)
    repeat' split
    · exact hpop.trans (orphanOutcome_tables ..)
    · exact hout.trans (.of_same (by simp) (by simp) (by simp))
    · exact hout.trans (.of_same (by simp) (by simp) (by simp))
    · exact hout.trans (abandonCopy_tables ..)
    · exact hout
    all_goals exact .refl s
  · exact .refl s

theorem copyWriteDone_tables (s : State) : TablesKept s (copyWriteDone s) := by
  have hpop : ∀ a d, TablesKept s (commit a d (popHead s)) := fun _ _ => .of_same (by simp) (by simp) (by simp)
  simp only [copyWriteDone]
  repeat' split
  · exact (hpop _ _).trans (copyAdvance_tables ‹_›)
  · exact hpop _ _
  all_goals exact .refl s

theorem marchReadDone_tables (f : LineFlips) (s : State) : TablesKept s (marchReadDone f s) := by
  simp only [marchReadDone]
  split
  · rename_i a _
    have hpop := popRead_tables f a s
    repeat' split
    · exact hpop
    · exact TablesKept.trans (t := (dropReq _ (popRead f _ s)).updMarch _) (.of_same (by simp) (by simp) (by simp))
        (endMarch_tables _)
    · exact .of_same (by simp) (by simp) (by simp)
    all_goals exact .refl s
  · exact .refl s

theorem exec_completion_tables {i : Instr} (hi : isCompletion i = true) (h : exec i s = .next t) : TablesKept s t := by
  cases i <;> cases h
  case portReadComplete f =>
    simp only [portReadDone]
    split
    · rename_i a _
      have hpop := popRead_tables f a s
      split
      · exact hpop.trans (completeRead_tables (fun _ u => .refl u) _)
      · exact .refl s
    · exact .refl s
  case rmwReadComplete f => exact rmwReadDone_tables f s
  case internalPartialReadComplete f => exact writeBackReadDone_tables f s
  case scrubReadComplete f => exact scrubReadDone_tables f s
  case copyReadComplete f => exact copyReadDone_tables f s
  case copyWriteComplete => exact copyWriteDone_tables s
  case marchReadComplete f => exact marchReadDone_tables f s
  case portWriteComplete | rmwWriteComplete | marchWriteComplete =>
    simp only [portWriteDone, rmwWriteDone, marchWriteDone]
    repeat' split
    all_goals exact .of_same (by simp) (by simp) (by simp [unmark])
  case scrubWritebackComplete =>
    simp only [scrubWriteDone]
    repeat' split
    all_goals exact .of_same (by simp) (by simp) (by simp [scrubEnd, integCount])
  case internalWriteComplete =>
    simp only [internalWriteDone]
    repeat' split
    · exact ownWrite_tables .refl s
    · exact ownWrite_tables .refl s
    all_goals exact .of_same (by simp) (by simp) (by simp)
  case queryFrameWriteComplete =>
    simp only [queryFrameDone]
    repeat' split
    · exact ownWrite_tables (fun u => makeDescriptor_tables ..) s
    · exact ownWrite_tables .refl s
    · exact ownWrite_tables .refl s
    all_goals exact .refl s
  case testFrameWriteComplete =>
    simp only [testLineDone]
    repeat' split
    · refine ownWrite_tables (fun u => ?_) s
      split
      · exact .refl u
      · exact makeDescriptor_tables ..
    · exact ownWrite_tables .refl s
    · exact ownWrite_tables .refl s
    all_goals exact .refl s
  case reportEntryWriteComplete =>
    simp only [reportWriteDone]
    repeat' split
    · exact ownWrite_tables (fun u => .of_same (by simp) (by simp) (by simp)) s
    all_goals exact .refl s
  case snapshotLineWriteComplete =>
    simp only [snapshotWriteDone]
    repeat' split
    · exact ownWrite_tables (fun u => .of_same (by simp) (by simp) (by simp)) s
    · exact ownWrite_tables .refl s
    all_goals exact .refl s
  all_goals exact absurd hi (by simp [isCompletion])

theorem descriptorDone_tables (f : LineFlips) (s : State) : TablesKept s (descriptorDone f s) := by
  simp only [descriptorDone]
  split
  · rename_i a _
    have hpop := popRead_tables f a s
    repeat' split
    · exact hpop.trans (completeRead_tables (fun d u => .of_same (by simp) (by simp) (by simp)) _)
    · exact hpop.trans (completeRead_tables (fun _ u => .refl u) _)
    · exact .refl s
  · exact .refl s

/-! The two resets (R92, R171). -/

/-- The table after the reset line: entry 0 and SPARE of the table before (R92). -/
theorem windowEntry_reset {j : Nat} {w : Window} (ht : t.windows = resetWindows s.windows) :
    windowEntry t j = some w ↔ windowEntry s j = some w ∧ (w.kind = .control ∨ w.kind = .spare) := by
  simp only [windowEntry, ht, resetWindows, Vector.getElem?_map]
  cases hj : s.windows[j]? with
  | none => simp
  | some x =>
    cases x with
    | none => simp
    | some v =>
      by_cases hv : v.kind = .control ∨ v.kind = .spare
      · simp only [Option.map_some, if_pos hv, Option.getD_some, Option.some.injEq]
        exact ⟨fun h => ⟨h, h ▸ hv⟩, And.left⟩
      · simp only [Option.map_some, if_neg hv, Option.getD_some, Option.some.injEq, reduceCtorEq, false_iff]
        exact fun ⟨h, hw⟩ => hv (h ▸ hw)

theorem resetWindows_law (ht : t.windows = resetWindows s.windows) (hs : t.straps = s.straps) (h : windowLaw s) :
    windowLaw t := by
  obtain ⟨h0, hone, htwo, -⟩ := h
  have hent := fun j w => windowEntry_reset (s := s) (t := t) (j := j) (w := w) ht
  refine ⟨?_, fun j w hj hw => hone j w hj ((hent j w).mp hw).1, fun j k a b hjk ha hb =>
    htwo j k a b hjk ((hent j a).mp ha).1 ((hent k b).mp hb).1, ?_⟩
  · rw [hs]
    exact (hent 0 _).mpr ⟨h0, .inl rfl⟩
  · rw [List.filter_eq_nil_iff.mpr fun j _ hk => ?_]
    · exact Nat.zero_le 2
    · obtain ⟨w, hw, hkind⟩ := Option.map_eq_some_iff.mp (beq_iff_eq.mp hk)
      have := ((hent j w).mp hw).2
      rw [hkind] at this
      exact this.elim (nomatch ·) (nomatch ·)

theorem resetWindows_remapLaw (ht : t.windows = resetWindows s.windows) (hr : t.integ.remaps = s.integ.remaps)
    (h : remapLaw s) : remapLaw t := by
  have hsp : windowOfKind t .spare = windowOfKind s .spare := windowOfKind_of_entries fun j w hw => by
    rw [windowEntry_reset ht]
    exact and_iff_left (.inr hw)
  obtain ⟨hlen, hnf, hns, hc, hall, hsize⟩ := h
  refine ⟨hr ▸ hlen, hr ▸ hnf, hr ▸ hns, hr ▸ hc, ?_, fun j w hw => hsize j w ((windowEntry_reset ht).mp hw).1⟩
  simpa only [hr, inSpare, hsp] using hall

theorem underReset_tables (s : State) : TablesKept s (underReset s) :=
  ⟨resetWindows_law rfl rfl, resetWindows_remapLaw rfl rfl⟩

theorem windowEntry_atPowerOn (straps : BitVec 2) (j : Nat) : windowEntry (State.atPowerOn straps) j =
    if j = 0 then some (Initial.controlWindow straps) else none := by
  by_cases hj : j < 16
  · interval_cases j <;> rfl
  · have h0 : j ≠ 0 := by omega
    simp [windowEntry, State.atPowerOn, Initial.windows, hj, h0]

theorem atPowerOn_tables (straps : BitVec 2) :
    windowLaw (State.atPowerOn straps) ∧ remapLaw (State.atPowerOn straps) := by
  have hent := windowEntry_atPowerOn straps
  refine ⟨⟨(hent 0).trans rfl, fun j w hj hw => by simp [hent, hj] at hw, fun j k a b hjk ha hb => ?_, ?_⟩,
    by simp [State.atPowerOn, Initial.integ], by simp [State.atPowerOn, Initial.integ],
    by simp [State.atPowerOn, Initial.integ], by simp [State.atPowerOn, Initial.integ],
    by simp [State.atPowerOn, Initial.integ], fun j w hw hk => ?_⟩
  · rw [hent] at ha hb
    split at ha
    · split at hb
      · omega
      · cases hb
    · cases ha
  · rw [List.filter_eq_nil_iff.mpr fun j _ => ?_]
    · exact Nat.zero_le 2
    · rw [hent]
      split <;> simp [Initial.controlWindow]
  · rw [hent] at hw
    split at hw
    · cases hw
      cases hk
    · cases hw

/-! Every row. -/

theorem exec_otherRow_tables {i : Instr} (hi : isCompletion i = false) (h : exec i s = .next t) : TablesKept s t := by
  cases i <;> cases h
  case powerOn straps => exact ⟨fun _ => (atPowerOn_tables straps).1, fun _ => (atPowerOn_tables straps).2⟩
  case resetLineAssert =>
    repeat' split
    · exact .refl s
    · exact TablesKept.trans (t := s.setFreeUses (s.freeUses + 1)) (.of_same rfl rfl rfl) (underReset_tables _)
    · exact .of_same rfl rfl rfl
    · exact underReset_tables s
  case resetLineDeassert =>
    exact .of_ite fun _ => TablesKept.trans (t := takeLevels (startTimers s))
      (.of_same (by simp [takeLevels, startTimers]) (by simp [takeLevels, startTimers])
        (by simp [takeLevels, startTimers])) (copyPump_tables _)
  case oscillatorPeriod | rollover =>
    simp only [onePeriod, rolledOver]
    repeat' split
    all_goals exact .of_same (by simp) (by simp) (by simp)
  case descriptorReadJudged f => exact descriptorDone_tables f s
  case flightTimeout | exchangeTimeout | lossTimeout =>
    repeat' split
    all_goals exact .of_same (by simp) (by simp) (by simp)
  case lineRequestTaken =>
    simp only [takeRequest]
    exact .of_same (by split <;> simp) (by split <;> simp) (by split <;> simp)
  case responseReturned =>
    simp only [returnResponse]
    exact .of_same (by split <;> simp) (by split <;> simp) (by split <;> simp)
  case arbiterGrant | lockStationArrival | reportTimerExpiry => exact .of_same (by simp) (by simp) (by simp)
  case scrubTimerExpiry =>
    exact .of_ite fun _ => .of_same (by simp) (by simp) (by simp [scrubExpiry, updScrub])
  case statusTimerExpiry | restoreHoldExpiry | upshiftHoldExpiry | queryTimerExpiry | blockTimerExpiry |
      synthLockExpiry | sendTimerExpiry | pulseEnd | todMessageEnd | refillTimerExpiry | ageTimerExpiry |
      retryTimerExpiry => exact .of_ite fun _ => .of_same (by simp) (by simp) (by simp)
  case portReadComplete | portWriteComplete | rmwReadComplete | rmwWriteComplete | internalPartialReadComplete |
      internalWriteComplete | queryFrameWriteComplete | testFrameWriteComplete | reportEntryWriteComplete |
      snapshotLineWriteComplete | scrubReadComplete | scrubWritebackComplete | copyReadComplete | copyWriteComplete |
      marchReadComplete | marchWriteComplete => exact nomatch hi
  all_goals exact classifyWhen_tables _ _ s

theorem step_tables (h : step s = .next t) : TablesKept s t := by
  unfold step at h
  split at h
  · cases h
    exact .refl s
  · rename_i i rest _
    refine TablesKept.trans (t := s.setPending rest) (.of_same rfl rfl rfl) ?_
    cases hi : isCompletion i with
    | true => exact exec_completion_tables hi h
    | false => exact exec_otherRow_tables hi h

/-- Settles O11: every step keeps the laws of both tables. -/
theorem windowAndRemapLawsKept : Obligations.WindowAndRemapLawsKept := by
  unfold Obligations.WindowAndRemapLawsKept
  exact ⟨fun _ _ hs h => (step_tables h).windows hs, fun _ _ hs h => (step_tables h).remaps hs⟩

end TablesKept
end Sys2Proof.Machine

namespace Sys2Proof.Machine

/-! ### What keeps the laws of the line path, the load signal, the march session and the fence (R90, R105, R113, R131)

The laws read little of the state: the requests with their numbers, the locks, the accesses at the memory port, the
arbiter's parameters, and the session and the region of the march test. `Kept b m t` says that the laws of `b` hold in
`t`, at whose memory port accesses of the numbers `m` stand; each operation of the model carries it on. -/

section LawParts

variable {s t u : State}

/-- The locks of the table (R113). -/
def LocksOk (l : List Lock) : Prop :=
  l.length ≤ 8 ∧ (l.map (·.line)).Nodup ∧ ∀ h, h ≠ .internalPartial → (l.filter fun k => k.holder == h).length ≤ 1

/-- The model's numbering of requests and of accesses. -/
def Numbered (p : Path) : Prop :=
  (p.reqs.map (·.id)).Nodup ∧ (∀ r ∈ p.reqs, r.id < p.nextId) ∧ (p.memPort.map (·.id)).Nodup ∧
  ∀ a ∈ p.memPort, a.id < p.nextId ∧ (a.live = true → ∃ r ∈ p.reqs, r.id = a.id) ∧
    ∀ r ∈ p.reqs, r.id = a.id → accessOf r a

theorem pathLaw_iff : pathLaw s ↔ (∀ p, occupancy s p ≤ 16) ∧ LocksOk s.path.locks ∧ Numbered s.path := by
  simp only [pathLaw, LocksOk, Numbered, and_assoc]

/-- The numbers of the accesses at the memory port. -/
def accessIds (p : Path) : List Nat := p.memPort.map (·.id)

theorem not_mem_accessIds {p : Path} {id : Nat} (h : id ∉ accessIds p) {a : Access} (ha : a ∈ p.memPort) : a.id ≠ id :=
  fun he => h (he ▸ List.mem_map_of_mem ha)

/-- A request of the march test. -/
def isMarchReq (r : Req) : Bool := stationOf r.job == .march

/-- A memory line that a stage names is the one given. -/
def stageNames (line : Nat) (st : Stage) : Prop := ∀ m, st = .draining m ∨ st = .ready m ∨ st = .issued m → m = line

/-- The march test's requests among `l`, as the fence has them (R131, R133). -/
def MarchReqsOk (up : Bool) (m : March) (l : List Req) : Prop :=
  (∀ r ∈ l, isMarchReq r = true → up = true ∧ inRegion m r.line = true ∧ stageNames r.line r.stage) ∧
  (l.filter isMarchReq).length ≤ 1

/-- The fence's region, and the windows it is clear of (R131). -/
def RegionClear (s : State) : Prop :=
  fenceUp s = true → 1 ≤ s.march.pageCount ∧ s.march.index < 64 * s.march.pageCount ∧
    ∀ i w, windowEntry s i = some w →
      w.kind = .control ∨ w.kind = .report ∨ w.kind = .spare ∨ w.kind = .partTx ∨ w.kind = .status ∨ w.kind = .notice ∨
        ((w.kind = .txRing ∨ w.kind = .buffer) ∧ ∃ c, w.cls = some c ∧ (clsAt s c).enabled = true) →
      w.base + w.size ≤ s.march.startPage ∨ s.march.startPage + s.march.pageCount ≤ w.base

theorem fenceLaw_iff : fenceLaw s ↔ RegionClear s ∧ MarchReqsOk (fenceUp s) s.march s.path.reqs := by
  simp only [fenceLaw, RegionClear, MarchReqsOk, isMarchReq, beq_iff_eq, stageNames]
  exact Iff.rfl

/-- The requests `l'` of the march test come from those of `l`, at the stations they stood or past none. -/
structure MarchReqsFrom (l l' : List Req) : Prop where
  each : ∀ r ∈ l', isMarchReq r = true → ∃ r' ∈ l, isMarchReq r' = true ∧ r'.line = r.line ∧
    (stageNames r.line r'.stage → stageNames r.line r.stage)
  count : (l'.filter isMarchReq).length ≤ (l.filter isMarchReq).length

theorem MarchReqsFrom.ok {l l' : List Req} {up : Bool} {m : March} (h : MarchReqsFrom l l') (hl : MarchReqsOk up m l) :
    MarchReqsOk up m l' := by
  refine ⟨fun r hr hm => ?_, h.count.trans hl.2⟩
  obtain ⟨r', hr', hm', hline, hst⟩ := h.each r hr hm
  obtain ⟨hup, hin, hnames⟩ := hl.1 r' hr' hm'
  rw [hline] at hin hnames
  exact ⟨hup, hin, hst hnames⟩

theorem MarchReqsFrom.of_filter {l l' : List Req} (h : l'.filter isMarchReq = l.filter isMarchReq) :
    MarchReqsFrom l l' := by
  refine ⟨fun r hr hm => ?_, by rw [h]⟩
  have hmem : r ∈ l.filter isMarchReq := h ▸ List.mem_filter.mpr ⟨hr, hm⟩
  exact ⟨r, (List.mem_filter.mp hmem).1, hm, rfl, id⟩

theorem MarchReqsFrom.filter (l : List Req) (p : Req → Bool) : MarchReqsFrom l (l.filter p) :=
  ⟨fun r hr hm => ⟨r, (List.mem_filter.mp hr).1, hm, rfl, id⟩,
    (List.filter_sublist.filter _).length_le⟩

theorem MarchReqsFrom.setStage (l : List Req) (id : Nat) (st : Stage)
    (hst : ∀ r ∈ l, r.id = id → isMarchReq r = true → stageNames r.line st) :
    MarchReqsFrom l (l.map fun r => if r.id = id then { r with stage := st } else r) := by
  refine ⟨fun r hr hm => ?_, ?_⟩
  · obtain ⟨q, hq, rfl⟩ := List.mem_map.mp hr
    by_cases hid : q.id = id
    · simp only [if_pos hid] at hm ⊢
      exact ⟨q, hq, hm, rfl, fun _ => hst q hq hid hm⟩
    · simp only [if_neg hid] at hm ⊢
      exact ⟨q, hq, hm, rfl, fun h => h⟩
  · rw [List.filter_map, List.length_map]
    refine le_of_eq (congrArg _ (List.filter_congr fun r _ => ?_))
    simp only [Function.comp]
    split <;> rfl

/-- What `pathLaw` and `loadLaw` read of the line path. -/
def pathCore (p : Path) :=
  (p.reqs, p.nextId, p.locks, p.memPort, p.weights, p.lowMark, p.highMark, p.loadHigh)

theorem numbered_append {p q : Path} {r : Req} (hr : q.reqs = p.reqs ++ [r]) (hid : r.id = p.nextId)
    (hn : q.nextId = p.nextId + 1) (hm : q.memPort = p.memPort) (h : Numbered p) : Numbered q := by
  obtain ⟨hnd, hlt, hmn, hacc⟩ := h
  refine ⟨?_, fun x hx => ?_, hm ▸ hmn, fun a ha => ?_⟩
  · rw [hr, List.map_append, List.nodup_append]
    refine ⟨hnd, List.nodup_singleton _, fun i hi j hj => ?_⟩
    obtain ⟨x, hx, rfl⟩ := List.mem_map.mp hi
    have := hlt x hx
    rw [List.map_singleton, List.mem_singleton] at hj
    omega
  · rw [hr, List.mem_append, List.mem_singleton] at hx
    rcases hx with hx | rfl
    · have := hlt x hx
      omega
    · omega
  · rw [hm] at ha
    obtain ⟨hlta, hlive, hof⟩ := hacc a ha
    refine ⟨by omega, fun hl => ?_, fun x hx hxa => ?_⟩
    · obtain ⟨x, hx, hxa⟩ := hlive hl
      exact ⟨x, hr ▸ List.mem_append_left _ hx, hxa⟩
    · rw [hr, List.mem_append, List.mem_singleton] at hx
      rcases hx with hx | rfl
      · exact hof x hx hxa
      · omega

theorem numbered_filter {p q : Path} {keep : Req → Bool} (hr : q.reqs = p.reqs.filter keep) (hn : q.nextId = p.nextId)
    (hm : q.memPort = p.memPort) (hfree : ∀ r ∈ p.reqs, keep r = false → r.id ∉ accessIds p) (h : Numbered p) :
    Numbered q := by
  obtain ⟨hnd, hlt, hmn, hacc⟩ := h
  have hsub : ∀ x ∈ q.reqs, x ∈ p.reqs := fun x hx => (List.mem_filter.mp (hr ▸ hx)).1
  refine ⟨hr ▸ hnd.sublist (List.filter_sublist.map _), fun x hx => hn ▸ hlt x (hsub x hx), hm ▸ hmn, fun a ha => ?_⟩
  rw [hm] at ha
  obtain ⟨hlta, hlive, hof⟩ := hacc a ha
  refine ⟨hn ▸ hlta, fun hl => ?_, fun x hx => hof x (hsub x hx)⟩
  obtain ⟨x, hx, hxa⟩ := hlive hl
  refine ⟨x, hr ▸ List.mem_filter.mpr ⟨hx, ?_⟩, hxa⟩
  by_contra hk
  exact not_mem_accessIds (hfree x hx (Bool.eq_false_iff.mpr hk)) ha hxa.symm

/-- Changing the request of a number that no access has. -/
theorem numbered_map {p q : Path} {id : Nat} {g : Req → Req}
    (hr : q.reqs = p.reqs.map fun r => if r.id = id then g r else r)
    (hg : ∀ r, (g r).id = r.id) (hn : q.nextId = p.nextId) (hm : q.memPort = p.memPort) (hfree : id ∉ accessIds p)
    (h : Numbered p) : Numbered q := by
  obtain ⟨hnd, hlt, hmn, hacc⟩ := h
  have hid : ∀ r : Req, (if r.id = id then g r else r).id = r.id := fun r => by split <;> simp [hg]
  refine ⟨?_, fun x hx => ?_, hm ▸ hmn, fun a ha => ?_⟩
  · rw [hr, List.map_map, show ((·.id) ∘ fun r => if r.id = id then g r else r) = (·.id) from funext hid]
    exact hnd
  · rw [hr] at hx
    obtain ⟨y, hy, rfl⟩ := List.mem_map.mp hx
    rw [hid, hn]
    exact hlt y hy
  · rw [hm] at ha
    obtain ⟨hlta, hlive, hof⟩ := hacc a ha
    refine ⟨hn ▸ hlta, fun hl => ?_, fun x hx hxa => ?_⟩
    · obtain ⟨x, hx, hxa⟩ := hlive hl
      exact ⟨_, hr ▸ List.mem_map_of_mem hx, (hid x).trans hxa⟩
    · rw [hr] at hx
      obtain ⟨y, hy, rfl⟩ := List.mem_map.mp hx
      rw [hid] at hxa
      rw [if_neg fun he => not_mem_accessIds hfree ha (hxa ▸ he)]
      exact hof y hy hxa

/-- A request that stands at no access stage has no access at the memory port. -/
theorem Numbered.free {p : Path} (h : Numbered p) {r : Req} (hr : r ∈ p.reqs) (h1 : ∀ m, r.stage ≠ .issued m)
    (h2 : ∀ m, r.stage ≠ .writeIssued m) : r.id ∉ accessIds p := by
  intro hid
  obtain ⟨a, ha, he⟩ := List.mem_map.mp hid
  obtain ⟨-, -, hst⟩ := (h.2.2.2 a ha).2.2 r hr he.symm
  rcases hst with ⟨h, -⟩ | ⟨h, -⟩
  · exact h1 _ h
  · exact h2 _ h

/-- The session's region and whether a fence stands (R131). -/
def fenceOf (m : March) := (m.state == .running || m.state == .suspended, m.startPage, m.pageCount, m.index)

theorem regionClear_of (hm : fenceOf t.march = fenceOf s.march) (hw : t.windows = s.windows)
    (he : ∀ c, (clsAt t c).enabled = true → (clsAt s c).enabled = true) (h : RegionClear s) : RegionClear t := by
  simp only [fenceOf, Prod.mk.injEq] at hm
  obtain ⟨hup, hstart, hcount, hindex⟩ := hm
  intro hf
  obtain ⟨hpos, hlt, hclear⟩ := h (hup.symm.trans hf)
  rw [hstart, hcount, hindex]
  refine ⟨hpos, hlt, fun i w hi hk => hclear i w (by rwa [← windowEntry_congr hw]) ?_⟩
  refine hk.imp_right fun hk => hk.imp_right fun hk => hk.imp_right fun hk => hk.imp_right fun hk => hk.imp_right
    fun hk => hk.imp_right fun ⟨hkind, c, hc, hen⟩ => ⟨hkind, c, hc, he c hen⟩

theorem marchReqsOk_of {l : List Req} (hm : fenceOf t.march = fenceOf s.march)
    (h : MarchReqsOk (fenceUp s) s.march l) : MarchReqsOk (fenceUp t) t.march l := by
  simp only [fenceOf, Prod.mk.injEq] at hm
  obtain ⟨hup, hstart, hcount, -⟩ := hm
  have hin : ∀ line, inRegion t.march line = inRegion s.march line := fun line => by simp [inRegion, hstart, hcount]
  refine ⟨fun r hr hmr => ?_, h.2⟩
  obtain ⟨h1, h2, h3⟩ := h.1 r hr hmr
  exact ⟨hup.trans h1, (hin _).trans h2, h3⟩


/-- Requests go, and the accesses of those that go become dead, and no others. -/
theorem numbered_kill {p q : Path} {keep : Req → Bool} {dead : Access → Bool} (hr : q.reqs = p.reqs.filter keep)
    (hn : q.nextId = p.nextId) (hm : q.memPort = p.memPort.map fun a => if dead a then { a with live := false } else a)
    (hdead : ∀ a ∈ p.memPort, ∀ r ∈ p.reqs, r.id = a.id → keep r = !dead a) (h : Numbered p) : Numbered q := by
  obtain ⟨hnd, hlt, hmn, hacc⟩ := h
  have hsub : ∀ x ∈ q.reqs, x ∈ p.reqs ∧ keep x = true := fun x hx => List.mem_filter.mp (hr ▸ hx)
  have hid : ∀ a : Access, (if dead a then { a with live := false } else a).id = a.id := fun a => by split <;> rfl
  refine ⟨hr ▸ hnd.sublist (List.filter_sublist.map _), fun x hx => hn ▸ hlt x (hsub x hx).1, ?_, fun a ha => ?_⟩
  · rw [hm, List.map_map, show ((·.id) ∘ fun a : Access => if dead a then { a with live := false } else a) = (·.id)
      from funext hid]
    exact hmn
  · rw [hm] at ha
    obtain ⟨c, hc, rfl⟩ := List.mem_map.mp ha
    obtain ⟨hltc, hlive, hof⟩ := hacc c hc
    rw [hid, hn]
    refine ⟨hltc, fun hl => ?_, fun x hx hxc => ?_⟩
    · split at hl
      · cases hl
      · obtain ⟨x, hx, hxc⟩ := hlive hl
        exact ⟨x, hr ▸ List.mem_filter.mpr ⟨hx, by simp [hdead c hc x hx hxc, *]⟩, hxc⟩
    · obtain ⟨hxp, hk⟩ := hsub x hx
      have hd := hdead c hc x hxp hxc
      rw [if_neg (by simpa [hk] using hd)]
      exact hof x hxp hxc

end LawParts

/-! ### Operations that keep the laws -/

/-- The laws of `b` hold in `t` as well, at whose memory port accesses of the numbers `m` stand. -/
structure Kept (b : State) (m : List Nat) (t : State) : Prop where
  ids : accessIds t.path = m
  path : pathLaw b → pathLaw t
  load : pathLaw b → loadLaw b → loadLaw t
  march : marchLaw b → marchLaw t
  fence : pathLaw b → fenceLaw b → fenceLaw t

section Kept

variable {b t u : State} {m : List Nat}

theorem Kept.refl (s : State) : Kept s (accessIds s.path) s := ⟨rfl, id, fun _ => id, id, fun _ => id⟩

/-- The march session but for its start drain. -/
theorem marchLaw_of (hm : u.march = { t.march with drain := u.march.drain }) (hl : u.path.loadHigh = t.path.loadHigh)
    (h : marchLaw t) : marchLaw u := by
  rw [marchLaw, hm, hl]
  exact h

theorem fenceOf_of (hm : u.march = { t.march with drain := u.march.drain }) : fenceOf u.march = fenceOf t.march := by
  rw [hm]
  rfl

/-- What the arbiter's law reads beside the port load (R105, R106). -/
def arbiterOf (p : Path) := (p.weights, p.lowMark, p.highMark, p.loadHigh)

theorem portLoad_of_view (h : portView u.path = portView t.path) : portLoad u = portLoad t := by
  simp only [portLoad, occupancy_eq, h]

theorem loadLaw_of (ha : arbiterOf u.path = arbiterOf t.path) (hv : portView u.path = portView t.path)
    (h : loadLaw t) : loadLaw u := by
  simp only [arbiterOf, Prod.mk.injEq] at ha
  obtain ⟨hwt, hlo, hhi, hlh⟩ := ha
  simpa only [loadLaw, hwt, hlo, hhi, hlh, portLoad_of_view hv] using h

theorem pathLaw_of (hv : portView u.path = portView t.path) (hl : LocksOk t.path.locks → LocksOk u.path.locks)
    (hn : Numbered t.path → Numbered u.path) (h : pathLaw t) : pathLaw u := by
  obtain ⟨hocc, hlk, hnum⟩ := pathLaw_iff.mp h
  exact pathLaw_iff.mpr ⟨fun p => by rw [occupancy_eq, hv, ← occupancy_eq]; exact hocc p, hl hlk, hn hnum⟩

/-- Of the laws' parts the requests, the locks and the accesses change. -/
theorem Kept.of_parts (h : Kept b m t) (hids : accessIds u.path = accessIds t.path)
    (ha : arbiterOf u.path = arbiterOf t.path) (hm : u.march = { t.march with drain := u.march.drain })
    (hw : u.windows = t.windows) (he : ∀ c, (clsAt u c).enabled = true → (clsAt t c).enabled = true)
    (hv : pathLaw b → portView u.path = portView t.path)
    (hl : pathLaw b → LocksOk t.path.locks → LocksOk u.path.locks)
    (hn : pathLaw b → Numbered t.path → Numbered u.path)
    (hr : pathLaw b → pathLaw t → fenceLaw t → MarchReqsOk (fenceUp t) t.march u.path.reqs) : Kept b m u where
  ids := hids.trans h.ids
  path hb := pathLaw_of (hv hb) (hl hb) (hn hb) (h.path hb)
  load hb hlb := loadLaw_of ha (hv hb) (h.load hb hlb)
  march hl := by
    simp only [arbiterOf, Prod.mk.injEq] at ha
    exact marchLaw_of hm ha.2.2.2 (h.march hl)
  fence hb hl := fenceLaw_iff.mpr ⟨regionClear_of (fenceOf_of hm) hw he (fenceLaw_iff.mp (h.fence hb hl)).1,
    marchReqsOk_of (fenceOf_of hm) (hr hb (h.path hb) (h.fence hb hl))⟩

/-- The requests change; none of the march test's comes. -/
theorem Kept.of_reqs (h : Kept b m t) (hmem : u.path.memPort = t.path.memPort) (hlocks : u.path.locks = t.path.locks)
    (ha : arbiterOf u.path = arbiterOf t.path) (hm : u.march = { t.march with drain := u.march.drain })
    (hw : u.windows = t.windows) (he : ∀ c, (clsAt u c).enabled = true → (clsAt t c).enabled = true)
    (hv : pathLaw b → portView u.path = portView t.path) (hn : pathLaw b → Numbered t.path → Numbered u.path)
    (hr : pathLaw b → Numbered t.path → MarchReqsFrom t.path.reqs u.path.reqs) : Kept b m u :=
  h.of_parts (by rw [accessIds, hmem, accessIds]) ha hm hw he hv (fun _ => hlocks ▸ id) hn
    fun hb ht hf => (hr hb (pathLaw_iff.mp ht).2.2).ok (fenceLaw_iff.mp hf).2

/-- What no law reads changes. -/
theorem Kept.of_core (h : Kept b m t) (hc : pathCore u.path = pathCore t.path)
    (hm : u.march = { t.march with drain := u.march.drain }) (hw : u.windows = t.windows)
    (he : ∀ c, (clsAt u c).enabled = true → (clsAt t c).enabled = true) : Kept b m u := by
  simp only [pathCore, Prod.mk.injEq] at hc
  obtain ⟨hr, hn, hl, hmem, hwt, hlo, hhi, hlh⟩ := hc
  exact h.of_reqs hmem hl (by simp only [arbiterOf, hwt, hlo, hhi, hlh]) hm hw he (fun _ => by simp only [portView, hr])
    (fun _ hnum => by simpa only [Numbered, hr, hn, hmem] using hnum) fun _ _ => .of_filter (by rw [hr])

/-- The line path, the march test, the windows and the admission unit stay. -/
theorem Kept.same (h : Kept b m t) (hp : u.path = t.path) (hm : u.march = t.march) (hw : u.windows = t.windows)
    (ha : u.adm = t.adm) : Kept b m u :=
  h.of_core (by rw [hp]) (by rw [hm]) hw fun c => by simp only [clsAt, ha, imp_self]

/-- Of the line path alone something changes that no law reads. -/
theorem Kept.updPath (h : Kept b m t) {f : Path → Path} (hc : pathCore (f t.path) = pathCore t.path) :
    Kept b m (t.updPath f) := h.of_core hc rfl rfl fun _ => id

/-- The march session changes within its law, on its region. -/
theorem Kept.updMarch (h : Kept b m t) {f : March → March}
    (hm : marchLaw t → marchLaw (t.updMarch f)) (hf : fenceOf (f t.march) = fenceOf t.march) :
    Kept b m (t.updMarch f) where
  ids := h.ids
  path := h.path
  load := h.load
  march := hm ∘ h.march
  fence hb hl := fenceLaw_iff.mpr ⟨regionClear_of hf rfl (fun _ => id) (fenceLaw_iff.mp (h.fence hb hl)).1,
    marchReqsOk_of hf (fenceLaw_iff.mp (h.fence hb hl)).2⟩

theorem Kept.leaveDrain (h : Kept b m t) {id : Nat} : Kept b m (leaveDrain id t) :=
  h.of_core rfl rfl rfl fun _ => fun h => h

/-! Requests that come and go. -/

theorem portView_append {p q : Path} {r : Req} (hr : q.reqs = p.reqs ++ [r]) (hj : ∀ x, stationOf r.job ≠ .port x) :
    portView q = portView p := by
  simp only [portView, hr, List.filterMap_append, List.filterMap_cons, List.filterMap_nil]
  cases hjob : r.job <;> simp_all [stationOf]

/-- A source of the internal requester other than the march test makes a request. -/
theorem Kept.makeReq (h : Kept b m t) {line : Nat} {job : Job} (hp : ∀ x, stationOf job ≠ .port x)
    (hm : stationOf job ≠ .march) : Kept b m (makeReq line job t) := by
  refine h.of_reqs rfl rfl rfl rfl rfl (fun _ => id) (fun _ => portView_append (r := ⟨_, _, _, job⟩) rfl hp)
    (fun _ hn => numbered_append (r := ⟨_, _, _, job⟩) rfl rfl rfl rfl hn) fun _ _ => .of_filter ?_
  simp [Machine.makeReq, addReq, List.filter_append, isMarchReq, hm]

/-- Requests that have no access are dropped. -/
theorem Kept.dropReqs (h : Kept b m t) {gone : Req → Bool}
    (hv : pathLaw b → portView (dropReqs gone t).path = portView t.path)
    (hfree : pathLaw b → Numbered t.path → ∀ r ∈ t.path.reqs, gone r = true → r.id ∉ m) :
    Kept b m (dropReqs gone t) :=
  h.of_reqs rfl rfl rfl rfl rfl (fun _ => id) hv
    (fun hb hn => numbered_filter rfl rfl rfl (fun r hr hg => h.ids ▸ hfree hb hn r hr (by simpa using hg)) hn)
    fun _ _ => .filter _ _

/-- A number is a request's of the internal requester, and no access has it. -/
def Idle (m : List Nat) (id : Nat) (t : State) : Prop := id ∉ m ∧ ∀ q, (id, q) ∉ portView t.path

theorem Idle.of_view {id : Nat} (h : Idle m id t) (hv : portView u.path = portView t.path) : Idle m id u :=
  ⟨h.1, fun q => hv ▸ h.2 q⟩

theorem dropReq_portView {id : Nat} (h : ∀ q, (id, q) ∉ portView t.path) :
    portView (dropReq id t).path = portView t.path := by
  have hno : ∀ r ∈ t.path.reqs, r.id = id → ∀ p x w y, r.job ≠ .port p x w y := fun r hr he p x w y hj =>
    h p (mem_portView.mpr ⟨r, hr, he, x, w, y, hj⟩)
  simp only [dropReq, Machine.dropReqs, State.updMarch_path, State.updPath_path, portView]
  generalize t.path.reqs = l at hno ⊢
  induction l with
  | nil => rfl
  | cons r rs ih =>
    have hrs := ih fun q hq => hno q (List.mem_cons_of_mem _ hq)
    rw [List.filter_cons, List.filterMap_cons]
    split
    · rw [List.filterMap_cons, hrs]
    · have hr := hno r List.mem_cons_self (by simpa using ‹¬(!r.id == id) = true›)
      rw [hrs]
      cases hj : r.job with
      | port p x w y => exact absurd hj (hr p x w y)
      | _ => rfl

/-- A request of the internal requester, past its access, ends. -/
theorem Kept.dropReq (h : Kept b m t) {id : Nat} (hid : pathLaw b → Idle m id t) : Kept b m (dropReq id t) :=
  h.dropReqs (fun hb => dropReq_portView (hid hb).2) fun hb _ r _ hg => by
    rw [beq_iff_eq.mp hg]
    exact (hid hb).1

/-- A request without an access gets a new stage. -/
theorem Kept.setStage (h : Kept b m t) {id : Nat} {st : Stage}
    (hst : pathLaw b → Numbered t.path → ∀ r ∈ t.path.reqs, r.id = id → isMarchReq r = true → stageNames r.line st)
    (hfree : pathLaw b → Numbered t.path → id ∉ m) : Kept b m (setStage id st t) :=
  h.of_reqs rfl rfl rfl rfl rfl (fun _ => fun h => h) (fun _ => setStage_portView)
    (fun hb hn => numbered_map (g := fun r => { r with stage := st }) rfl (fun _ => rfl) rfl rfl
      (h.ids ▸ hfree hb hn) hn)
    fun hb hn => .setStage _ _ _ (hst hb hn)

end Kept
end Sys2Proof.Machine

namespace Sys2Proof.Machine

section KeptReports

variable {b t u : State} {m : List Nat}

theorem Kept.foldl {α : Type} {f : State → α → State} {l : List α} (h : Kept b m t)
    (hf : ∀ t, Kept b m t → ∀ x ∈ l, Kept b m (f t x)) : Kept b m (l.foldl f t) := by
  induction l generalizing t with
  | nil => exact h
  | cons x xs ih =>
    exact ih (hf t h x List.mem_cons_self) fun t ht y hy => hf t ht y (List.mem_cons_of_mem _ hy)

theorem Kept.unordered {acts : List (State → State)} (h : Kept b m t)
    (hf : ∀ f ∈ acts, ∀ t, Kept b m t → Kept b m (f t)) : Kept b m (unordered acts t) :=
  Kept.foldl (h.same rfl rfl rfl rfl) fun t ht f hf' => hf f (mem_permute.mp hf') t ht

/-! What changes one part that no law reads. -/

theorem Kept.updRep (h : Kept b m t) {f} : Kept b m (t.updRep f) := h.same rfl rfl rfl rfl

theorem Kept.updFault (h : Kept b m t) {f} : Kept b m (t.updFault f) := h.same rfl rfl rfl rfl

theorem Kept.updTime (h : Kept b m t) {f} : Kept b m (t.updTime f) := h.same rfl rfl rfl rfl

theorem Kept.updXfer (h : Kept b m t) {f} : Kept b m (t.updXfer f) := h.same rfl rfl rfl rfl

theorem Kept.updLoop (h : Kept b m t) {f} : Kept b m (t.updLoop f) := h.same rfl rfl rfl rfl

theorem Kept.updLink (h : Kept b m t) {f} : Kept b m (t.updLink f) := h.same rfl rfl rfl rfl

theorem Kept.updInteg (h : Kept b m t) {f} : Kept b m (t.updInteg f) := h.same rfl rfl rfl rfl

theorem Kept.updFlips (h : Kept b m t) {f} : Kept b m (t.updFlips f) := h.same rfl rfl rfl rfl

theorem Kept.updDec (h : Kept b m t) {f} : Kept b m (t.updDec f) := h.same rfl rfl rfl rfl

/-! Reports and the fault unit. -/

theorem Kept.reportAt (h : Kept b m t) {x y z} : Kept b m (reportAt x y z t) := by
  simp only [Machine.reportAt]
  repeat' split
  · exact .makeReq (.updRep h.updRep) (by simp [stationOf]) (by simp [stationOf])
  · exact .updRep h.updRep
  · exact .updRep h.updRep
  · exact .updRep h.updRep

theorem Kept.report (h : Kept b m t) {x y} : Kept b m (report x y t) := h.reportAt

theorem Kept.reportFault (h : Kept b m t) {x y z} : Kept b m (reportFault x y z t) := by
  simp only [Machine.reportFault]
  split
  · exact h
  · exact h.report

theorem Kept.changeCondition (h : Kept b m t) {x y z} : Kept b m (changeCondition x y z t) :=
  .reportFault (.updFault h.updFault)

theorem Kept.setLevel (h : Kept b m t) {x y} : Kept b m (setLevel x y t) := by
  simp only [Machine.setLevel]
  repeat' split
  · exact h
  · exact h.changeCondition
  · exact h.changeCondition

theorem Kept.raiseCondition (h : Kept b m t) {x} : Kept b m (raiseCondition x t) := h.changeCondition

/-! The time unit and the loopback engine. -/

theorem Kept.afterTimeChange (h : Kept b m t) {x y z v} : Kept b m (afterTimeChange x y z v t) :=
  .report (.updXfer h.updTime)

theorem Kept.phaseStep (h : Kept b m t) {x} : Kept b m (phaseStep x t) := .afterTimeChange h.updTime

theorem Kept.setCounter (h : Kept b m t) {x y} : Kept b m (setCounter x y t) := .afterTimeChange h.updTime

theorem Kept.endLoop (h : Kept b m t) : Kept b m (endLoop t) := by
  simp only [Machine.endLoop]
  split
  · exact .updLoop (.report h.updLoop)
  · exact .raiseCondition (.updLoop (.report h.updLoop))

theorem Kept.loopCheckEnd (h : Kept b m t) : Kept b m (loopCheckEnd t) := by
  simp only [Machine.loopCheckEnd]
  split
  · exact h.endLoop
  · exact h

theorem Kept.abortLoop (h : Kept b m t) {x} : Kept b m (abortLoop x t) := by
  simp only [Machine.abortLoop]
  split
  · exact .updLoop (.report h.updLoop)
  · exact h

theorem Kept.loopDescriptorEvent (h : Kept b m t) {x y z} : Kept b m (loopDescriptorEvent x y z t) := by
  simp only [Machine.loopDescriptorEvent]
  split
  · exact .loopCheckEnd h.updLoop
  · exact h.updLoop

theorem Kept.loopReturn (h : Kept b m t) {x y} : Kept b m (loopReturn x y t) := by
  simp only [Machine.loopReturn]
  split
  · exact .loopCheckEnd h.updLoop
  · exact h.updLoop

theorem Kept.makeTestLines (h : Kept b m t) {v w x y z n} : Kept b m (makeTestLines w v x y z n t) := by
  induction n with
  | zero => exact h
  | succ n ih => exact ih.makeReq (by simp [stationOf]) (by simp [stationOf])

theorem Kept.sendExpiry (h : Kept b m t) : Kept b m (sendExpiry t) := by
  simp only [Machine.sendExpiry, trySend, generateFrame]
  repeat' split
  · exact .updLoop h.updLoop
  · exact .updLoop (.makeTestLines (.updXfer h.updLoop))
  all_goals exact .updLoop h.updLoop

/-! The time transfer engine. -/

theorem Kept.moveTiming (h : Kept b m t) {x y f} : Kept b m (moveTiming x y f t) := by
  simp only [Machine.moveTiming]
  split
  · exact .report h.updXfer
  · refine .unordered h.updXfer fun f hf t ht => ?_
    rcases List.mem_pair.mp hf with rfl | rfl
    · exact ht.report
    · exact ht.setLevel

theorem Kept.loseTiming (h : Kept b m t) {x} : Kept b m (loseTiming x t) := by
  simp only [Machine.loseTiming]
  split
  · exact .moveTiming h.updTime
  · exact h.moveTiming
  · exact h.updXfer
  · exact h.updXfer

theorem Kept.timingPulse (h : Kept b m t) : Kept b m (timingPulse t) := by
  simp only [Machine.timingPulse]
  repeat' split
  · exact .moveTiming h.updXfer
  · exact h.updXfer
  all_goals exact h

theorem Kept.stepSelection (h : Kept b m t) {x} : Kept b m (stepSelection x t) := .phaseStep (.updXfer h.updXfer)

theorem Kept.steer (h : Kept b m t) {x} : Kept b m (steer x t) := by
  simp only [Machine.steer]
  split
  · exact .updTime h.updXfer
  · exact .updXfer h.updTime

theorem Kept.acquireSelection (h : Kept b m t) {x} : Kept b m (acquireSelection x t) := by
  simp only [Machine.acquireSelection]
  repeat' split
  · exact .updXfer h.stepSelection
  · exact .moveTiming (.updXfer h.steer)
  · exact .updXfer h.steer
  · exact .updXfer h.steer

theorem Kept.trackSelection (h : Kept b m t) {x} : Kept b m (trackSelection x t) := by
  simp only [Machine.trackSelection]
  repeat' split
  · exact .moveTiming h.stepSelection
  · exact .updXfer (.updXfer h.steer)
  · exact .moveTiming (.updXfer h.steer)
  · exact .updXfer (.updXfer h.steer)

theorem Kept.applySelection (h : Kept b m t) {x} : Kept b m (applySelection x t) := by
  simp only [Machine.applySelection]
  split
  · exact h.acquireSelection
  · exact h.acquireSelection
  · exact h.trackSelection
  · exact .acquireSelection h.moveTiming

theorem Kept.joinBlock (h : Kept b m t) {x} : Kept b m (joinBlock x t) := by
  simp only [Machine.joinBlock]
  repeat' split
  · exact h.updXfer
  · exact .applySelection (.updXfer h.updXfer)
  · exact h

theorem Kept.acceptSample (h : Kept b m t) {x} : Kept b m (acceptSample x t) := by
  simp only [Machine.acceptSample]
  split
  · exact .joinBlock (.moveTiming (.updXfer h.updXfer))
  · exact .joinBlock (.updXfer h.updXfer)

theorem Kept.computeSample (h : Kept b m t) {x y z v} : Kept b m (computeSample x y z v t) := by
  simp only [Machine.computeSample]
  repeat' split
  · exact h.updXfer
  · exact h.updXfer
  · exact h.updXfer
  · exact h.updXfer
  · exact h.updXfer
  · exact h.acceptSample

theorem Kept.matchAnswer (h : Kept b m t) {x y z} : Kept b m (matchAnswer x y z t) := by
  simp only [Machine.matchAnswer]
  repeat' split
  · exact .computeSample h.updXfer
  all_goals exact h.updXfer

theorem Kept.routeTiming (h : Kept b m t) {x y} : Kept b m (routeTiming x y t) := by
  simp only [Machine.routeTiming]
  repeat' split
  · exact h.same (by simp) (by simp) (by simp) (by simp)
  · exact .matchAnswer h.updXfer
  · exact h.updXfer

theorem Kept.queryExpiry (h : Kept b m t) : Kept b m (queryExpiry t) := by
  simp only [Machine.queryExpiry, tryQuery, sendQuery]
  repeat' split
  · exact .updXfer h.updXfer
  · exact .updXfer h.updXfer
  · exact .makeReq (.updXfer (.updXfer (.updXfer (.updXfer h.updXfer)))) (by simp [stationOf]) (by simp [stationOf])
  · exact .updXfer h.updXfer

theorem Kept.freeSlot (h : Kept b m t) {x} : Kept b m (freeSlot x t) := h.updXfer

theorem Kept.queryCompletion (h : Kept b m t) {x y z v} : Kept b m (queryCompletion x y z v t) := by
  simp only [Machine.queryCompletion]
  repeat' split
  · exact h.updXfer
  · exact .updXfer h.updXfer
  · exact .computeSample h.updXfer
  · exact h.updXfer
  · exact .updXfer h.updXfer
  all_goals exact h.updXfer

theorem Kept.slotCompleted (h : Kept b m t) {x y z v} : Kept b m (slotCompleted x y z v t) := by
  simp only [Machine.slotCompleted]
  repeat' split
  · exact .queryCompletion h.freeSlot
  · exact h.freeSlot
  · exact .loopDescriptorEvent (.updXfer h.freeSlot)
  · exact .loopDescriptorEvent h.freeSlot
  · exact .loopDescriptorEvent (.updXfer h.freeSlot)
  · exact .loopDescriptorEvent h.freeSlot
  · exact h.updXfer
  · exact h
  · exact h.updXfer
  · exact h

theorem Kept.slotLost (h : Kept b m t) {x} : Kept b m (slotLost x t) := by
  simp only [Machine.slotLost]
  repeat' split
  · exact h.same (by simp) (by simp) (by simp) (by simp)
  · exact .loopDescriptorEvent h.freeSlot
  all_goals exact h

theorem Kept.slotRejected (h : Kept b m t) {x y} : Kept b m (slotRejected x y t) := by
  simp only [Machine.slotRejected]
  repeat' split
  · exact h.same (by simp) (by simp) (by simp) (by simp)
  · exact h.updXfer
  · exact .loopDescriptorEvent h.freeSlot
  all_goals exact h.updXfer

/-! The link monitor. -/

theorem Kept.reportTrail (h : Kept b m t) {l old} : Kept b m (reportTrail old l t) := by
  induction l generalizing old t with
  | nil => exact h
  | cons x xs ih => cases x <;> exact ih h.report

theorem Kept.linkTaken (h : Kept b m t) {x y} : Kept b m (linkTaken x y t) := by
  have hnews : ∀ w, ∀ f ∈ linkNews w, ∀ t, Kept b m t → Kept b m (f t) := by
    intro w f hf t ht
    simp only [linkNews, List.mem_append, List.mem_pair] at hf
    rcases hf with hf | rfl | rfl
    · split at hf
      · rcases List.mem_pair.mp hf with rfl | rfl
        · exact ht.loseTiming
        · exact ht.abortLoop
      · cases hf
    · exact ht.setLevel
    · exact ht.setLevel
  have htaken : ∀ w, Kept b m (if linkEpochEvent t.link w || y then stepEpoch (t.updLink fun _ => w.l)
      else t.updLink fun _ => w.l) := fun w => by
    split
    · exact .updTime h.updLink
    · exact h.updLink
  simp only [Machine.linkTaken]
  split
  · exact .unordered (.reportTrail (htaken _)) (hnews _)
  · exact .reportTrail (htaken _)

end KeptReports
end Sys2Proof.Machine

namespace Sys2Proof.Machine

section KeptAdmission

variable {b t u : State} {m : List Nat}

theorem Kept.updAdm (h : Kept b m t) {f : Admission → Admission} (hf : ∀ a, (f a).classes = a.classes) :
    Kept b m (t.updAdm f) :=
  h.of_core rfl rfl rfl fun c => by rw [clsAt_of_classes (s := t) (hf _)]; exact id

/-- A class changes and is not enabled by it. -/
theorem Kept.updCls (h : Kept b m t) {c : Cls} {f : ClassState → ClassState}
    (hf : (f (clsAt t c)).enabled = true → (clsAt t c).enabled = true) : Kept b m (updCls c f t) :=
  h.of_core rfl rfl rfl fun x => by
    rw [clsAt_updCls]
    split
    · rename_i he
      rw [he]
      exact hf
    · exact id

theorem Kept.countCls (h : Kept b m t) {c : Cls} {f : ClassCounters → ClassCounters} : Kept b m (countCls c f t) :=
  h.updCls (by simp)

/-! Congestion and the held lists. -/

theorem isWaitingNotice_stage {c : Cls} {r : Req} (h : isWaitingNotice c r = true) :
    (∀ m, r.stage ≠ .issued m) ∧ ∀ m, r.stage ≠ .writeIssued m := by
  refine ⟨fun m hm => ?_, fun m hm => ?_⟩ <;> cases hj : r.job <;> simp [isWaitingNotice, hm, hj] at h

theorem Kept.writeNotice (h : Kept b m t) {c : Cls} : Kept b m (writeNotice c t) := by
  simp only [Machine.writeNotice]
  repeat' split
  · exact .updAdm (.updCls h (by simp)) (by simp)
  · have hupd : Kept b m (Machine.updCls c (fun k => { k with noticeSeq := k.noticeSeq + 1 }) t) := h.updCls (by simp)
    have hdrop := hupd.dropReqs (gone := isWaitingNotice c) (fun _ => dropReqs_portView fun _ => isWaitingNotice_port)
      fun _ hn r hr hw => h.ids ▸ hn.free hr (isWaitingNotice_stage hw).1 (isWaitingNotice_stage hw).2
    exact .makeReq (hdrop.updAdm (by simp)) (by simp [stationOf]) (by simp [stationOf])
  · exact .makeReq (.updCls h (by simp)) (by simp [stationOf]) (by simp [stationOf])

theorem Kept.evalCongestion (h : Kept b m t) {c : Cls} : Kept b m (evalCongestion c t) := by
  simp only [Machine.evalCongestion]
  split
  · exact h
  · exact .setLevel (.writeNotice (.updCls h (by simp)))

theorem Kept.setHeld (h : Kept b m t) {c : Cls} {l : List HeldEntry} : Kept b m (setHeld c l t) := by
  refine .evalCongestion (h.updCls ?_)
  dsimp only
  split <;> exact id

theorem Kept.unlistFrom (h : Kept b m t) {c : Cls} {line : Nat} : Kept b m (unlistFrom c line t) := by
  simp only [Machine.unlistFrom]
  split
  · exact h.setHeld
  · exact h

theorem Kept.unlist (h : Kept b m t) {line : Nat} : Kept b m (unlist line t) :=
  h.foldl fun _ ht _ _ => ht.unlistFrom

theorem Kept.ageExpiry (h : Kept b m t) {c : Cls} : Kept b m (ageExpiry c t) := .evalCongestion (h.updCls (by simp))

theorem Kept.refillExpiry (h : Kept b m t) : Kept b m (refillExpiry t) :=
  Kept.foldl (.updAdm (h.foldl fun _ ht _ _ => ht.updCls (by simp)) (by simp)) fun _ ht _ _ => ht.evalCongestion

/-! Descriptor reads, completions, timeouts and overwrites. -/

theorem Kept.queueWriteBack (h : Kept b m t) {line : Nat} : Kept b m (queueWriteBack line t) := by
  simp only [Machine.queueWriteBack]
  split
  · exact h.makeReq (by simp [stationOf]) (by simp [stationOf])
  · exact h.updAdm (by simp)

theorem Kept.reject (h : Kept b m t) {x w y z v} : Kept b m (reject x w y z v t) := by
  have hrep : Kept b m (Machine.report 0x04 (admitRejectBody y x z v)
      (Machine.queueWriteBack y (Machine.unlist y t))) :=
    .report (.queueWriteBack h.unlist)
  simp only [Machine.reject]
  split
  · exact .slotRejected hrep.countCls
  · exact hrep.countCls

theorem Kept.hold (h : Kept b m t) {c line d} : Kept b m (hold c line d t) := by
  have hcount := h.countCls (c := c) (f := fun k => { k with heldReads := satInc k.heldReads })
  simp only [Machine.hold]
  repeat' split
  · exact hcount.countCls
  · exact hcount.setHeld
  · exact hcount.setHeld
  · exact hcount.countCls

theorem Kept.admitDescriptor (h : Kept b m t) {c line d} : Kept b m (admitDescriptor c line d t) := by
  simp only [Machine.admitDescriptor]
  exact .countCls (.updAdm (.updCls h.unlist (by simp)) (by simp))

theorem Kept.judge (h : Kept b m t) {x w y z} : Kept b m (judge x w y z t).2 := by
  simp only [Machine.judge]
  repeat' split
  · exact h.unlist
  · exact h
  · exact h.reject
  · exact h.hold
  · exact h.admitDescriptor

theorem Kept.removeFlight (h : Kept b m t) {line : Nat} : Kept b m (removeFlight line t) := h.updAdm (by simp)

theorem settleClass_enabled (e : FlightEntry) (x : Bool) (k : ClassState) :
    (settleClass e x k).enabled = k.enabled := by
  unfold settleClass
  split <;> rfl

theorem Kept.slotRemoved (h : Kept b m t) {x} : Kept b m (slotRemoved x t) := by
  simp only [Machine.slotRemoved]
  split
  · exact h.freeSlot
  · exact h

theorem Kept.countStamp (h : Kept b m t) {x} : Kept b m (countStamp x t) := h.updTime

theorem Kept.txCompletion (h : Kept b m t) {w x y} : Kept b m (txCompletion w x y t).2 := by
  have hset : ∀ e z, Kept b m (Machine.unlist x (Machine.updCls e.cls (settleClass e z) (Machine.removeFlight x t))) :=
    fun e z => .unlist (h.removeFlight.updCls (by rw [settleClass_enabled]; exact id))
  simp only [Machine.txCompletion]
  split
  · dsimp only
    exact .unlist h.countCls
  · split
    · dsimp only
      exact .slotCompleted (.countStamp (hset _ _))
    · dsimp only
      exact .slotRemoved (hset _ _)

theorem Kept.flightExpiry (h : Kept b m t) {e : FlightEntry} : Kept b m (flightExpiry e t) :=
  .slotLost (.report (.countCls h.removeFlight))

theorem Kept.overwrite (h : Kept b m t) {x y z} : Kept b m (overwrite x y z t) := by
  simp only [Machine.overwrite]
  repeat' split
  · exact .unlist (.slotLost (.countCls h.removeFlight))
  · exact h.unlist
  · exact .slotLost (.countCls h.removeFlight)
  · exact h

theorem Kept.countRx (h : Kept b m t) {x} : Kept b m (countRx x t) := by
  simp only [Machine.countRx]
  split
  · exact h.updAdm (by simp)
  · split
    · exact h.countCls
    · exact h.countCls

theorem Kept.rxCompletion (h : Kept b m t) {x} : Kept b m (rxCompletion x t).2 := by
  simp only [Machine.rxCompletion]
  repeat' split
  · exact .routeTiming (.countStamp h.countRx)
  · exact .loopReturn (.countStamp h.countRx)
  · exact h.countRx

/-! The CLASS and ADMIT records. -/

theorem Kept.applyClass (h : Kept b m t) {d} : Kept b m (applyClass d t) :=
  .evalCongestion (h.updCls id)

theorem Kept.disableClass (h : Kept b m t) {c} : Kept b m (disableClass c t) := by
  simp only [Machine.disableClass]
  split
  · exact .abortLoop (.setHeld (h.updCls (by simp)))
  · exact .setHeld (h.updCls (by simp))

end KeptAdmission
end Sys2Proof.Machine

namespace Sys2Proof.Machine

section KeptStation

variable {b t u : State} {m : List Nat} {r : Req}

/-! The lock station. -/

/-- The locks change, and what no law reads. -/
theorem Kept.updLocks (h : Kept b m t) {f : List Lock → List Lock}
    (hl : LocksOk t.path.locks → LocksOk (f t.path.locks)) :
    Kept b m (t.updPath fun p => { p with locks := f p.locks }) :=
  h.of_parts rfl rfl rfl rfl (fun _ => id) (fun _ => rfl) (fun _ => hl) (fun _ => id) fun _ _ hf =>
    (fenceLaw_iff.mp hf).2

theorem locksOk_filter {l : List Lock} (p : Lock → Bool) (h : LocksOk l) : LocksOk (l.filter p) :=
  ⟨(List.length_filter_le ..).trans h.1, h.2.1.sublist (List.filter_sublist.map _), fun x hx =>
    (List.filter_sublist.filter _).length_le.trans (h.2.2 x hx)⟩

/-- A free entry, a line that is not locked and a holder without a lock let one more lock stand (R113). -/
theorem locksOk_append {l : List Lock} {line : Nat} {x : Holder} (hlen : l.length < 8)
    (hline : ∀ k ∈ l, k.line ≠ line) (hx : x ≠ .internalPartial → ∀ k ∈ l, k.holder ≠ x) (h : LocksOk l) :
    LocksOk (l ++ [⟨line, x⟩]) := by
  obtain ⟨-, hnd, hone⟩ := h
  refine ⟨by simpa using hlen, ?_, fun y hy => ?_⟩
  · rw [List.map_append, List.nodup_append]
    exact ⟨hnd, List.nodup_singleton _, by simpa using hline⟩
  · rw [List.filter_append, List.length_append]
    by_cases hxy : x = y
    · subst hxy
      rw [List.filter_eq_nil_iff.mpr fun k hk => by simpa using hx hy k hk]
      simp
    · have := hone y hy
      simpa [hxy] using this

theorem namesMemoryLine_of_march (h : isMarchReq r = true) : namesMemoryLine r.job = true := by
  cases hj : r.job <;> simp_all [isMarchReq, stationOf, namesMemoryLine]

theorem beforeStation_iff {st : Stage} : beforeStation st = true ↔
    st = .forwarded ∨ st = .waitLine ∨ st = .waitTable := by
  cases st <;> simp [beforeStation]

theorem stageNames_wait {line : Nat} {st : Stage} (h : st = .waitLine ∨ st = .waitTable) : stageNames line st := by
  rcases h with rfl | rfl <;> simp [stageNames]

/-- The stage of a request before the station changes, there or past it. -/
theorem Kept.stageAtStation (h : Kept b m t) (hr : r ∈ t.path.reqs) (hs : beforeStation r.stage = true) {st : Stage}
    (hst : isMarchReq r = true → stageNames r.line st) : Kept b m (Machine.setStage r.id st t) := by
  refine h.setStage (fun _ hn q hq hid hm => ?_) fun _ hn => h.ids ▸ hn.free hr ?_ ?_
  · have hqr : q = r := List.inj_on_of_nodup_map hn.1 hq hr hid
    rw [hqr] at hm ⊢
    exact hst hm
  all_goals
    intro x hx
    rw [hx] at hs
    cases hs

theorem Kept.beginWait (h : Kept b m t) (hr : r ∈ t.path.reqs) (hs : beforeStation r.stage = true) {st : Stage}
    (hst : st = .waitLine ∨ st = .waitTable) : Kept b m (beginWait r st t) := by
  simp only [Machine.beginWait]
  split
  · exact h
  · exact .updPath (h.stageAtStation hr hs fun _ => stageNames_wait hst) rfl

theorem Kept.endWait (h : Kept b m t) (hr : r ∈ t.path.reqs) (hs : beforeStation r.stage = true) {st : Stage}
    (hst : isMarchReq r = true → stageNames r.line st) : Kept b m (endWait r st t) :=
  .updPath (h.stageAtStation hr hs hst) rfl

theorem Kept.takeStation (h : Kept b m t) (hr : r ∈ t.path.reqs) (hs : beforeStation r.stage = true) :
    Kept b m (takeStation r t) := by
  have hmem : isMarchReq r = true → memLineOf t r = r.line := fun hm => by
    simp [memLineOf, namesMemoryLine_of_march hm]
  simp only [Machine.takeStation]
  split
  · exact h.beginWait hr hs (.inl rfl)
  · rename_i hline
    have hline' : ∀ k ∈ t.path.locks, k.line ≠ r.line := by simpa [lineLocked] using hline
    split
    · rename_i x _
      split
      · rename_i hroom
        obtain ⟨hlen, hno⟩ := hroom
        have hend := h.endWait hr hs (st := .draining (memLineOf t r)) fun hm => by simp [stageNames, hmem hm]
        refine hend.updLocks (f := fun l => l ++ [Lock.mk r.line x]) (locksOk_append hlen hline' fun hx => ?_)
        show ∀ k ∈ t.path.locks, k.holder ≠ x
        simpa [holdsLock, hx] using hno
      · exact h.beginWait hr hs (.inr rfl)
    · exact h.endWait hr hs fun hm => by simp [stageNames, hmem hm]

theorem findReq_mem {id : Nat} (h : findReq t id = some r) : r ∈ t.path.reqs ∧ r.id = id :=
  ⟨List.mem_of_find?_eq_some h, by simpa using List.find?_some h⟩

theorem Kept.retake (h : Kept b m t) {st : Stage} (hst : st = .waitLine ∨ st = .waitTable) {ok : Req → Bool}
    {id : Nat} :
    Kept b m (retake st ok id t) := by
  simp only [Machine.retake]
  split
  · rename_i r hr
    split
    · rename_i hst'
      refine h.takeStation (findReq_mem hr).1 (beforeStation_iff.mpr ?_)
      rw [hst'.1]
      exact .inr hst
    · exact h
  · exact h

theorem Kept.releaseLock (h : Kept b m t) {line : Nat} : Kept b m (releaseLock line t) :=
  .foldl (.foldl (h.updLocks (locksOk_filter _)) fun _ ht _ _ => ht.retake (.inl rfl)) fun _ ht _ _ =>
    ht.retake (.inr rfl)

/-! The integrity unit. -/

theorem Kept.integCount (h : Kept b m t) {f} : Kept b m (integCount f t) := h.updInteg

theorem Kept.copyPump (h : Kept b m t) : Kept b m (copyPump t) := by
  simp only [Machine.copyPump]
  repeat' split
  · exact h
  · exact h.makeReq (by simp [stationOf]) (by simp [stationOf])
  · exact .makeReq h.updInteg (by simp [stationOf]) (by simp [stationOf])
  · exact h

theorem Kept.remapRequest (h : Kept b m t) {page source} : Kept b m (remapRequest page source t) := by
  simp only [Machine.remapRequest, remapExhausted]
  repeat' split
  · exact h.integCount
  · refine .unordered h.integCount fun f hf t ht => ?_
    rcases List.mem_pair.mp hf with rfl | rfl
    · exact ht.raiseCondition
    · exact ht.report
  · exact .copyPump (.report h.updInteg)

theorem Kept.suspectReached (h : Kept b m t) {e} : Kept b m (suspectReached e t) := by
  simp only [Machine.suspectReached]
  split
  · exact h.remapRequest
  · exact h.report

theorem Kept.suspectCount (h : Kept b m t) {line} : Kept b m (suspectCount line t) := by
  obtain ⟨v, hv, -, hcases⟩ := suspectCount_cases line t
  have hkept : Kept b m v := h.same (hv .path (by decide)) (hv .march (by decide)) (hv .windows (by decide))
    (hv .adm (by decide))
  rcases hcases with he | ⟨e, he⟩
  · exact he ▸ hkept
  · exact he ▸ hkept.suspectReached

theorem Kept.takeOutcome (h : Kept b m t) {x y z o} : Kept b m (takeOutcome x y z o t) := by
  have hnews : ∀ v n, Kept b m v → Kept b m (uncorrectableNews x y z n v) := fun v n hv =>
    .unordered hv fun f hf t ht => by
      rcases List.mem_pair.mp hf with rfl | rfl
      · exact ht.raiseCondition
      · exact ht.report
  simp only [Machine.takeOutcome, uncorrectable, corrected]
  repeat' split
  · exact h
  · exact .suspectCount (.updInteg h.integCount)
  · exact .updInteg h.integCount
  · exact hnews _ _ (.updInteg (.updInteg h.integCount))
  · exact hnews _ _ (.integCount (.updInteg h.integCount))

theorem Kept.scrubLoop (h : Kept b m t) {n} : Kept b m (scrubLoop n t) := by
  induction n generalizing t with
  | zero => exact h
  | succ n ih =>
    simp only [Machine.scrubLoop]
    split
    · exact ih (.integCount h.updInteg)
    · exact .makeReq h.updInteg (by simp [stationOf]) (by simp [stationOf])

theorem Kept.scrubPump (h : Kept b m t) : Kept b m (scrubPump t) := by
  simp only [Machine.scrubPump]
  split
  · exact h
  · exact h.scrubLoop

theorem Kept.scrubEnd (h : Kept b m t) {id line} (hid : pathLaw b → Idle m id t) : Kept b m (scrubEnd id line t) :=
  .scrubPump (.integCount (.releaseLock (h.dropReq hid)))

theorem Kept.copyData (h : Kept b m t) {id e d} (hid : pathLaw b → Idle m id t) : Kept b m (copyData id e d t) :=
  .makeReq (h.dropReq hid) (by simp [stationOf]) (by simp [stationOf])

theorem Kept.abandonCopy (h : Kept b m t) {id e} (hid : pathLaw b → Idle m id t) : Kept b m (abandonCopy id e t) :=
  .copyPump (.releaseLock (.report (.integCount (.updInteg (h.dropReq hid)))))

theorem Kept.copyAdvance (h : Kept b m t) {id e} (hid : pathLaw b → Idle m id t) : Kept b m (copyAdvance id e t) := by
  simp only [Machine.copyAdvance]
  split
  · exact .copyPump (.report (.releaseLock (.updInteg (h.dropReq hid))))
  · exact .copyPump (.releaseLock (.updInteg (h.dropReq hid)))

end KeptStation
end Sys2Proof.Machine

namespace Sys2Proof.Machine

section KeptMarch

variable {b t u : State} {m : List Nat}

/-! The march test. -/

theorem filter_isMarchReq_nil {l : List Req} (h : ∀ r ∈ l, isMarchReq r = false) : l.filter isMarchReq = [] :=
  List.filter_eq_nil_iff.mpr fun r hr => by simp [h r hr]

theorem marchReqsOk_none {up : Bool} {x : March} {l : List Req} (h : ∀ r ∈ l, isMarchReq r = false) :
    MarchReqsOk up x l :=
  ⟨fun r hr hm => absurd (h r hr) (by simp [hm]), by simp [filter_isMarchReq_nil h]⟩

/-- The line that the march's progress names lies in its region (R133). -/
theorem inRegion_marchLine {x : March} (h : x.index < 64 * x.pageCount) : inRegion x (marchLine x) = true := by
  refine Bool.and_eq_true_iff.mpr ⟨decide_eq_true ?_, decide_eq_true ?_⟩ <;> simp only [marchLine, pageOf] <;> omega

theorem Kept.marchPump (h : Kept b m t) : Kept b m (marchPump t) := by
  simp only [Machine.marchPump]
  split
  · exact h
  · rename_i hgo
    simp only [Bool.or_eq_true, not_or, Bool.not_eq_true, bne_eq_false_iff_eq] at hgo
    obtain ⟨⟨⟨-, hbusy⟩, hrun⟩, -⟩ := hgo
    have hup : fenceUp t = true := by simp [fenceUp, hrun]
    have hnone : ∀ r ∈ t.path.reqs, isMarchReq r = false := by
      simp only [marchBusy, Bool.or_eq_false_iff, List.any_eq_false, Bool.not_eq_true] at hbusy
      exact hbusy.1
    refine h.of_parts rfl rfl rfl rfl (fun _ => id)
      (fun _ => portView_append (r := ⟨_, _, _, .march _⟩) rfl (by simp [stationOf])) (fun _ => id)
      (fun _ hn => numbered_append (r := ⟨_, _, _, _⟩) rfl rfl rfl rfl hn) fun _ _ hf => ⟨fun r hr hm => ?_, ?_⟩
    · obtain ⟨-, hlt, -⟩ := (fenceLaw_iff.mp hf).1 hup
      rcases List.mem_append.mp hr with hr | hr
      · exact absurd (hnone r hr) (by simp [hm])
      · rw [List.mem_singleton.mp hr]
        exact ⟨hup, inRegion_marchLine hlt, by simp [stageNames]⟩
    · simp [Machine.makeReq, addReq, List.filter_append, filter_isMarchReq_nil hnone, isMarchReq, stationOf]

/-- A request that has no access is answered (R90, R130). -/
theorem Kept.answer (h : Kept b m t) {id x} (hid : pathLaw b → id ∉ m) : Kept b m (answer id x t) :=
  .marchPump (.leaveDrain (h.setStage (fun _ _ _ _ _ _ => by simp [stageNames]) fun hb _ => hid hb))

theorem Kept.finishInternal (h : Kept b m t) {id} (hid : pathLaw b → Idle m id t) : Kept b m (finishInternal id t) :=
  .marchPump (h.dropReq hid)

/-- The fence falls, with no request of the march test left (R131, R137, R138). -/
theorem Kept.fenceDown (h : Kept b m t) {f : March → March} (hm : marchLaw t → marchLaw (t.updMarch f))
    (hdown : fenceUp (t.updMarch f) = false)
    (hno : pathLaw b → fenceLaw b → ∀ r ∈ t.path.reqs, isMarchReq r = false) : Kept b m (t.updMarch f) where
  ids := h.ids
  path := h.path
  load := h.load
  march := hm ∘ h.march
  fence hb hl := fenceLaw_iff.mpr ⟨fun hup => absurd hup (by simp [hdown]), marchReqsOk_none (hno hb hl)⟩

theorem marchLaw_done {x : SessionOutcome} (h : marchLaw t) : marchLaw (t.updMarch fun y =>
    { y with state := .done, causeManual := false, causeLoad := false, outcome := some x }) := by
  obtain ⟨-, -, -, hlen, hnd⟩ := h
  exact ⟨by simp, by simp [marchActive], by simp, hlen, hnd⟩

/-- The march ends, its last request being gone (R137). -/
theorem Kept.endMarch (h : Kept b m t) (hno : pathLaw b → fenceLaw b → ∀ r ∈ t.path.reqs, isMarchReq r = false) :
    Kept b m (endMarch t) := by
  have hdone : ∀ x, Kept b m (t.updMarch fun y =>
      { y with state := .done, causeManual := false, causeLoad := false, outcome := some x }) := fun x =>
    h.fenceDown marchLaw_done rfl hno
  have hfill : ∀ v, Kept b m v → Kept b m (t.march.failing.foldl (fun w page => Machine.remapRequest page .fill w) v) :=
    fun _ hv => hv.foldl fun _ hw _ _ => hw.remapRequest
  unfold Machine.endMarch
  extract_lets v s1 s2 s3
  have hs1 : Kept b m s1 := hdone v
  have hs2 : Kept b m s2 := by
    dsimp only [s2]
    split
    · exact hfill _ hs1
    · exact hs1
  have hs3 : Kept b m s3 := hs2.report
  split
  · exact hs3.updMarch (f := fun x => { x with passed := satInc x.passed }) (fun h => h) rfl
  · exact .raiseCondition (hs3.updMarch (f := fun x => { x with failed := satInc x.failed }) (fun h => h) rfl)

theorem isMarchAccess_first (j : Job) : isMarchAccess (firstAccess j) = (stationOf j == .march) := by
  cases j with
  | march w => cases w <;> rfl
  | port p r win stamp =>
    simp only [firstAccess]
    repeat' split
    all_goals rfl
  | _ => rfl

theorem isMarchAccess_second (j : Job) (d : Line) : isMarchAccess (secondAccess j d) = (stationOf j == .march) := by
  cases j with
  | march w => exact isMarchAccess_first (.march w)
  | _ => rfl

theorem isMarchAccess_of {a : Access} {r : Req} (h : accessOf r a) : isMarchAccess a.kind = isMarchReq r := by
  obtain ⟨-, -, h | ⟨-, d, h⟩⟩ := h
  · rw [h.2, isMarchAccess_first, isMarchReq]
  · rw [h, isMarchAccess_second, isMarchReq]

theorem accessIds_kill {l : List Access} {dead : Access → Bool} :
    (l.map fun a => if dead a then { a with live := false } else a).map (·.id) = l.map (·.id) := by
  rw [List.map_map]
  refine List.map_congr_left fun a _ => ?_
  simp only [Function.comp]
  split <;> rfl

theorem Kept.withdrawMarch (h : Kept b m t) : Kept b m (withdrawMarch t) :=
  h.of_parts accessIds_kill rfl rfl rfl (fun _ => id) (fun _ => withdrawMarch_portView) (fun _ => id)
    (fun _ hn => numbered_kill (keep := fun r => !(stationOf r.job == .march)) (dead := fun a => isMarchAccess a.kind)
      rfl rfl rfl (fun a ha r hr hid => by rw [isMarchAccess_of ((hn.2.2.2 a ha).2.2 r hr hid)]; rfl) hn)
    fun _ _ hf => (MarchReqsFrom.filter _ _).ok (fenceLaw_iff.mp hf).2

theorem withdrawMarch_none : ∀ r ∈ (withdrawMarch t).path.reqs, isMarchReq r = false := fun r hr => by
  simpa [isMarchReq] using (List.mem_filter.mp hr).2

theorem Kept.applyMemtestStop (h : Kept b m t) : Kept b m (applyMemtestStop t) := by
  refine .report (h.withdrawMarch.fenceDown (fun hl => ?_) rfl fun _ _ => withdrawMarch_none)
  obtain ⟨-, -, -, hlen, hnd⟩ := hl
  exact ⟨by simp, by simp [marchActive], by simp, hlen, hnd⟩

/-! Suspension and the load (R105, R135). -/

theorem settleCauses_fence (x : March) : fenceOf (settleCauses x) = fenceOf x := by
  unfold settleCauses
  repeat' split
  · rename_i h
    simp [fenceOf, h.1]
  · rename_i h
    simp [fenceOf, h.1]
  · rfl

theorem settleCauses_keeps (x : March) : (settleCauses x).outcome = x.outcome ∧
    (settleCauses x).failing = x.failing := by
  unfold settleCauses
  repeat' split
  all_goals exact ⟨rfl, rfl⟩

/-- The causes of an active session, its LOAD cause at LOAD_HIGH, settle within the law (R135). -/
theorem marchLaw_settle {f : March → March} {x : March} (hf : f t.march = settleCauses x) (ha : marchActive x = true)
    (hl : x.causeLoad = t.path.loadHigh) (hout : x.outcome = t.march.outcome) (hfail : x.failing = t.march.failing)
    (hact : marchActive t.march = true) (hu : u.march = t.march) (h : marchLaw u) : marchLaw (t.updMarch f) := by
  rw [marchLaw, hu] at h
  obtain ⟨-, -, ho, hlen, hnd⟩ := h
  obtain ⟨hm, hc⟩ := settleCauses_causes x
  obtain ⟨ho', hf'⟩ := settleCauses_keeps x
  have hst := settleCauses_state ha
  have hnone : ¬(t.march.state = .done ∨ t.march.state = .aborted) := by
    simp only [marchActive, Bool.or_eq_true, beq_iff_eq] at hact
    rcases hact with h | h <;> simp [h]
  simp only [marchLaw, State.updMarch_march, State.updMarch_path, hf, hm, hc, ho', hf', hst, hout, hfail]
  refine ⟨?_, fun _ => hl, ?_, hlen, hnd⟩
  · cases x.causeManual <;> cases x.causeLoad <;> simp
  · rw [ho]
    exact iff_of_false hnone (by split <;> simp)

theorem marchLaw_inactive {f : March → March} (hf : f t.march = u.march) (ha : ¬marchActive u.march = true)
    (h : marchLaw u) : marchLaw (t.updMarch f) := by
  obtain ⟨hcause, -, hrest⟩ := h
  rw [marchLaw, State.updMarch_march, hf]
  exact ⟨hcause, fun hc => absurd hc ha, hrest⟩

theorem Kept.setManual (h : Kept b m t) {x} (ha : marchActive t.march = true) : Kept b m (setManual x t) := by
  refine .marchPump (h.updMarch (fun hl => ?_) (settleCauses_fence _))
  exact marchLaw_settle rfl ha (hl.2.1 ha) rfl rfl ha rfl hl

/-- The parameters of the arbiter (R106). -/
def ParamsOk (p : Path) : Prop :=
  (∀ q, 1 ≤ queueGet p.weights q ∧ queueGet p.weights q ≤ 15) ∧ p.lowMark < p.highMark ∧ p.highMark ≤ 48

theorem loadLaw_iff : loadLaw t ↔ ParamsOk t.path ∧ (t.path.loadHigh = true → t.path.lowMark < portLoad t) ∧
    (t.path.loadHigh = false → portLoad t < t.path.highMark) := by
  simp only [loadLaw, ParamsOk, and_assoc]

/-- An evaluation of LOAD_HIGH brings it where the marks have it, and tells the march test and the scrubber (R105). -/
theorem Kept.evalLoad (hids : accessIds t.path = m) (hp : pathLaw b → pathLaw t)
    (hl : pathLaw b → loadLaw b → ParamsOk t.path) (hm : marchLaw b → marchLaw t)
    (hf : pathLaw b → fenceLaw b → fenceLaw t) : Kept b m (evalLoad t) := by
  have hloadLaw : ∀ v : State, ParamsOk v.path → portLoad v = portLoad t → v.path.lowMark = t.path.lowMark →
      v.path.highMark = t.path.highMark → v.path.loadHigh = loadNext t.path (portLoad t) → loadLaw v := by
    intro v hok hpl hlo hhi hh
    have hmarks := hok.2.1
    refine loadLaw_iff.mpr ⟨hok, ?_⟩
    rw [hh, hpl, hlo, hhi]
    rw [hlo, hhi] at hmarks
    unfold loadNext
    cases hb : t.path.loadHigh <;> simp <;> omega
  simp only [Machine.evalLoad]
  split
  · rename_i hsame
    exact ⟨hids, hp, fun hb hlb => hloadLaw t (hl hb hlb) rfl rfl rfl hsame.symm, hm, hf⟩
  · generalize hn : loadNext t.path (portLoad t) = next at *
    have htold : Kept b m ((t.updPath fun p =>
        { p with
          loadHigh := next
          loadHighEntries := if next then satInc p.loadHighEntries else p.loadHighEntries }).updMarch fun x =>
            if marchActive x then settleCauses { x with causeLoad := next } else x) := by
      refine ⟨hids, fun hb => ?_, fun hb hlb => hloadLaw _ (hl hb hlb) rfl rfl rfl rfl, fun hlb => ?_, fun hb hlb => ?_⟩
      · exact pathLaw_of (t := t) rfl id id (hp hb)
      · by_cases ha : marchActive t.march = true
        · exact marchLaw_settle (u := t) (t := t.updPath _) (x := { t.march with causeLoad := next }) (if_pos ha) ha rfl
            rfl rfl ha rfl (hm hlb)
        · exact marchLaw_inactive (u := t) (if_neg ha) ha (hm hlb)
      · obtain ⟨hreg, hreqs⟩ := fenceLaw_iff.mp (hf hb hlb)
        have hfence : fenceOf (if marchActive t.march then settleCauses
            { t.march with causeLoad := next } else t.march) =
            fenceOf t.march := by
          split
          · exact settleCauses_fence _
          · rfl
        exact fenceLaw_iff.mpr ⟨regionClear_of hfence rfl (fun _ => id) hreg, marchReqsOk_of hfence hreqs⟩
    exact .scrubPump (.marchPump htold)

end KeptMarch
end Sys2Proof.Machine

namespace Sys2Proof.Machine

section KeptRecords

variable {b t u : State} {m : List Nat} {d : Line}

/-- The windows or the enabled classes change, the fence's region clear of them (R41, R100). -/
theorem Kept.region (h : Kept b m t) (hp : u.path = t.path) (hm : u.march = t.march)
    (hreg : RegionClear t → RegionClear u) : Kept b m u where
  ids := by rw [hp]; exact h.ids
  path hb := pathLaw_of (by rw [hp]) (by rw [hp]; exact id) (by rw [hp]; exact id) (h.path hb)
  load hb hl := loadLaw_of (by rw [hp]) (by rw [hp]) (h.load hb hl)
  march hl := marchLaw_of (by rw [hm]) (by rw [hp]) (h.march hl)
  fence hb hl := by
    obtain ⟨hr, hq⟩ := fenceLaw_iff.mp (h.fence hb hl)
    exact fenceLaw_iff.mpr ⟨hreg hr, by rw [hp]; exact marchReqsOk_of (by rw [hm]) hq⟩

theorem fenceMeets_false {base size : Nat} (h : fenceMeets t base size = false) (hup : fenceUp t = true) :
    base + size ≤ t.march.startPage ∨ t.march.startPage + t.march.pageCount ≤ base := by
  simp only [fenceMeets, hup, Bool.true_and, Bool.and_eq_false_iff, decide_eq_false_iff_not, not_lt] at h
  exact h.symm

/-! WINDOW (R99 to R101). -/

theorem Kept.resetSlots (h : Kept b m t) : Kept b m (resetSlots t) := by
  refine h.of_parts accessIds_kill rfl rfl rfl (fun _ => id) (fun _ => resetSlots_portView) (fun _ => id)
    (fun _ hn => numbered_kill rfl rfl rfl (fun a _ r hr hid => ?_) hn)
    fun _ _ hf => (MarchReqsFrom.filter _ _).ok (fenceLaw_iff.mp hf).2
  rw [← hid]
  refine congrArg _ (Bool.eq_iff_iff.mpr ⟨fun hg => ?_, fun hg => ?_⟩)
  · exact List.contains_iff_mem.mpr (List.mem_map_of_mem (List.mem_filter.mpr ⟨hr, hg⟩))
  · obtain ⟨q, hq, hqid⟩ := List.mem_map.mp (List.contains_iff_mem.mp hg)
    obtain ⟨hqt, hqg⟩ := List.mem_filter.mp hq
    rw [← List.inj_on_of_nodup_map hn.1 hqt hr hqid]
    exact hqg

theorem windowBusy_new {i : Nat} {w : Window} (h : windowBusy t i (some w) = false) :
    fenceMeets t w.base w.size = false := by
  simp only [windowBusy, Bool.or_eq_false_iff] at h
  exact h.2

theorem Kept.applyWindow (h : Kept b m t) (hc : windowCheck t d = .applied) : Kept b m (applyWindow d t) := by
  by_cases hsame : windowContent d = windowEntry t (field d 4 1)
  · rw [applyWindow_same hsame]
    exact h
  · obtain ⟨⟨-, hi⟩, hbusy, -⟩ := windowCheck_passed hc hsame
    have hset : Kept b m (t.updWindows fun v => v.setIfInBounds (field d 4 1) (windowContent d)) := by
      refine h.region rfl rfl fun hreg hup => ?_
      obtain ⟨hpos, hlt, hclear⟩ := hreg hup
      refine ⟨hpos, hlt, fun j w hj hk => ?_⟩
      rw [windowEntry_set hi (windowContent d) rfl] at hj
      split at hj
      · rw [hj] at hbusy
        exact fenceMeets_false (t := t) (windowBusy_new hbusy) hup
      · exact hclear j w hj hk
    simp only [Machine.applyWindow, if_neg hsame]
    repeat' split
    · exact .abortLoop hset.resetSlots
    · exact hset
    · exact hset

/-! ADMIT (R41, R42). -/

theorem writeNotice_fenceOf {c : Cls} : fenceOf (writeNotice c t).march = fenceOf t.march := by
  simp only [writeNotice]
  repeat' split
  all_goals rfl

theorem evalCongestion_fenceOf {c : Cls} : fenceOf (evalCongestion c t).march = fenceOf t.march := by
  simp only [evalCongestion]
  split
  · rfl
  · simp [writeNotice_fenceOf, Machine.updCls]

theorem admitClass_fenceOf {c : Cls} : fenceOf (admitClass d c t).march = fenceOf t.march := by
  simp only [admitClass, disableClass]
  repeat' split
  · rfl
  · simp [setHeld, evalCongestion_fenceOf, Machine.updCls]
  · simp [setHeld, evalCongestion_fenceOf, Machine.updCls]
  · rfl

theorem classFenced_congr {c : Cls} (hw : u.windows = t.windows) (hm : fenceOf u.march = fenceOf t.march) :
    classFenced u c = classFenced t c := by
  simp only [fenceOf, Prod.mk.injEq] at hm
  obtain ⟨hup, hstart, hcount, -⟩ := hm
  simp only [classFenced, fenceMeets, fenceUp, windowEntry_congr hw, hup, hstart, hcount]

/-- A class without a fenced window is enabled. -/
theorem Kept.enable (h : Kept b m t) {c : Cls} {f : ClassState → ClassState} (hc : classFenced t c = false) :
    Kept b m (Machine.updCls c f t) := by
  refine h.region rfl rfl fun hreg hup => ?_
  obtain ⟨hpos, hlt, hclear⟩ := hreg hup
  refine ⟨hpos, hlt, fun i w hi hk => ?_⟩
  by_cases hcw : (w.kind = .txRing ∨ w.kind = .buffer) ∧ w.cls = some c
  · have hi' : i < 16 := windowEntry_lt hi
    simp only [classFenced, List.any_eq_false, List.mem_range] at hc
    have hmeet := hc i hi'
    rw [show windowEntry t i = some w from hi] at hmeet
    simp only [Bool.and_eq_true, Bool.or_eq_true, beq_iff_eq, not_and, Bool.not_eq_true] at hmeet
    exact fenceMeets_false (hmeet hcw) hup
  · refine hclear i w hi ?_
    refine hk.imp_right fun hk => hk.imp_right fun hk => hk.imp_right fun hk => hk.imp_right fun hk => hk.imp_right
      fun hk => hk.imp_right fun ⟨hkind, x, hx, hen⟩ => ⟨hkind, x, hx, ?_⟩
    have hxc : x ≠ c := fun he => hcw ⟨hkind, he ▸ hx⟩
    rwa [clsAt_updCls, if_neg hxc] at hen

theorem Kept.admitClass (h : Kept b m t) {c : Cls}
    (hc : admitAction d c = 1 → (clsAt t c).enabled = false → classFenced t c = false) :
    Kept b m (admitClass d c t) := by
  simp only [Machine.admitClass]
  repeat' split
  · rename_i hen
    exact h.enable (hc hen.1 hen.2)
  · exact h.disableClass
  · exact h

theorem Kept.admitClasses {cs : List Cls} (hcs : cs.Nodup) (h : Kept b m t)
    (hc : ∀ c ∈ cs, admitAction d c = 1 → (clsAt t c).enabled = false → classFenced t c = false) :
    Kept b m (cs.foldl (fun v c => Machine.admitClass d c v) t) := by
  induction cs generalizing t with
  | nil => exact h
  | cons c cs ih =>
    obtain ⟨hnot, hcs⟩ := List.nodup_cons.mp hcs
    refine ih hcs (h.admitClass (hc c List.mem_cons_self)) fun x hx => ?_
    have hother := (admitClass_step (now := t.now) d c).other t x rfl fun he => hnot (he ▸ hx)
    rw [hother, classFenced_congr (by simp) admitClass_fenceOf]
    exact hc x (List.mem_cons_of_mem _ hx)

theorem Kept.applyAdmit (h : Kept b m t) (hc : admitCheck t d = .applied) : Kept b m (applyAdmit d t) := by
  have hfold : Kept b m (allClasses.foldl (fun v c => Machine.admitClass d c v) t) := by
    refine .admitClasses (by decide) h fun c hcs ha hen => ?_
    simp only [admitCheck] at hc
    repeat' split at hc
    all_goals try cases hc
    rename_i hbusy
    simp only [Bool.not_eq_true, List.any_eq_false, Bool.and_eq_true, not_and] at hbusy
    simpa [ha, hen] using hbusy c hcs
  simp only [Machine.applyAdmit]
  split
  · exact hfold
  · exact hfold.updAdm (by simp)

/-! PORTS and MEMTEST (R106, R129, R130). -/

theorem Kept.applyPorts (h : Kept b m t) (hc : portsCheck d = .applied) : Kept b m (applyPorts d t) := by
  refine .evalLoad h.ids (fun hb => pathLaw_of (t := t) rfl id id (h.path hb)) (fun _ _ => ?_) h.march fun hb hl =>
    fenceLaw_iff.mpr (fenceLaw_iff.mp (h.fence hb hl))
  simp only [portsCheck] at hc
  split at hc
  · rename_i hok
    simp only [Bool.and_eq_true, decide_eq_true_eq, weightOk] at hok
    obtain ⟨⟨⟨⟨⟨h1, h2⟩, h3⟩, h4⟩, h5⟩, h6⟩ := hok
    exact ⟨fun q => by cases q <;> assumption, h5, h6⟩
  · cases hc

theorem forbidsTest_of {w : Window} (h : w.kind = .control ∨ w.kind = .report ∨ w.kind = .spare ∨ w.kind = .partTx ∨
    w.kind = .status ∨ w.kind = .notice ∨
      ((w.kind = .txRing ∨ w.kind = .buffer) ∧ ∃ c, w.cls = some c ∧ (clsAt t c).enabled = true)) :
    forbidsTest t w = true := by
  rcases h with h | h | h | h | h | h | ⟨h | h, c, hc, hen⟩ <;> simp [forbidsTest, *]

theorem Kept.applyMemtestStart (h : Kept b m t) (hc : memtestStartCheck t d = .applied) :
    Kept b m (applyMemtestStart d t) := by
  simp only [memtestStartCheck] at hc
  repeat' split at hc
  all_goals try cases hc
  rename_i hrange hact hforbid
  push Not at hrange
  obtain ⟨-, hpos, -⟩ := hrange
  have hidle : fenceUp t = false := by simpa [marchActive, fenceUp] using hact
  have hstart : Kept b m (t.updMarch (startedMarch d t.path.loadHigh)) := by
    refine ⟨h.ids, h.path, h.load, fun hl => ?_, fun hb hl => ?_⟩
    · obtain ⟨-, -, -, -, -⟩ := h.march hl
      refine ⟨?_, fun _ => rfl, ?_, by simp [startedMarch], by simp [startedMarch]⟩
      · simp only [State.updMarch_march, startedMarch, Bool.false_or]
        split <;> simp_all
      · simp only [State.updMarch_march, startedMarch]
        split <;> simp
    · obtain ⟨-, hreqs, -⟩ := fenceLaw_iff.mp (h.fence hb hl)
      have hnone : ∀ r ∈ t.path.reqs, isMarchReq r = false := fun r hr => by
        by_contra hm
        exact absurd (hreqs r hr (by simpa using hm)).1 (by simp [hidle])
      refine fenceLaw_iff.mpr ⟨fun _ => ⟨Nat.one_le_iff_ne_zero.mpr hpos, ?_, fun i w hi hk => ?_⟩,
        marchReqsOk_none hnone⟩
      · simp only [State.updMarch_march, startedMarch]
        omega
      · have hno := hforbid
        simp only [regionForbidden, Bool.not_eq_true, List.any_eq_false, List.mem_range] at hno
        have hw := hno i (windowEntry_lt hi)
        rw [show windowEntry t i = some w from hi] at hw
        simp only [forbidsTest_of (t := t) hk, Bool.true_and, Bool.and_eq_false_iff, decide_eq_false_iff_not,
          not_lt] at hw
        simp only [State.updMarch_march, startedMarch]
        omega
  exact .marchPump (hstart.of_core rfl rfl rfl fun _ => id)

/-! REPORT, SNAPSHOT, FAULT and CLEAR. -/

theorem Kept.makeSnapshotLines (h : Kept b m t) {w n v f l} : Kept b m (makeSnapshotLines w n v f l t) := by
  induction l generalizing t with
  | nil => exact h
  | cons i rest ih => exact ih (h.makeReq (by simp [stationOf]) (by simp [stationOf]))

theorem Kept.startSnapshot (h : Kept b m t) {r} : Kept b m (startSnapshot r t) := by
  simp only [Machine.startSnapshot]
  split
  · exact .makeSnapshotLines (.updRep h.updRep)
  · exact .updRep h.updRep

theorem Kept.snapshotRequest (h : Kept b m t) : Kept b m (snapshotRequest t) := by
  simp only [Machine.snapshotRequest]
  repeat' split
  · exact h.updRep
  · exact h.updRep
  · exact h.startSnapshot
  · exact h.updRep
  · exact h.updRep

theorem Kept.settleRelease (h : Kept b m t) : Kept b m (settleRelease t) := by
  simp only [Machine.settleRelease]
  repeat' split
  · exact h.updRep
  · exact h
  · exact h

theorem Kept.changeConditions (h : Kept b m t) {x f} : Kept b m (changeConditions x f t) :=
  .foldl (.updFault h.updFault) fun _ ht _ _ => ht.reportFault

theorem Kept.whenBit (h : Kept b m t) {x y f} (hf : ∀ v, Kept b m v → Kept b m (f v)) : Kept b m (whenBit x y f t) := by
  simp only [Machine.whenBit]
  split
  · exact hf t h
  · exact h

theorem Kept.clearMarch (h : Kept b m t) : Kept b m (clearMarch t) :=
  h.updMarch
    (f := fun x => { x with started := 0, passed := 0, failed := 0, abortedCount := 0, reads := 0, failedReads := 0 })
    (fun h => h) rfl

theorem Kept.applyClear (h : Kept b m t) : Kept b m (applyClear d t) := by
  simp only [Machine.applyClear]
  refine .changeConditions (.whenBit (.whenBit (.whenBit (.whenBit (.whenBit h ?_) ?_) ?_) ?_) ?_)
  · exact fun v hv => hv.updInteg
  · exact fun v hv => hv.updPath rfl
  · exact fun v hv => .updAdm (hv.foldl fun _ hw _ _ => hw.countCls) (by simp)
  · exact fun v hv => hv.updXfer
  · exact fun v hv => .updLoop hv.clearMarch

/-! The decoder. -/

theorem Kept.checked (h : Kept b m t) {o : RecordOutcome} {f : State → State} (hf : o = .applied → Kept b m (f t)) :
    Kept b m (checked o f t).2 := by
  simp only [Machine.checked]
  split
  · exact hf ‹_›
  · exact h

theorem Kept.applyScrub (h : Kept b m t) : Kept b m (applyScrub d t) := by
  simp only [Machine.applyScrub]
  exact h.updInteg

theorem Kept.examineRemap (h : Kept b m t) : Kept b m (examineRemap d t).2 := by
  simp only [Machine.examineRemap]
  repeat' split
  · dsimp only
    exact h
  · dsimp only
    exact h
  · dsimp only [applyRemap]
    exact h.remapRequest

theorem memtestOther_active (h : memtestOtherCheck t = .applied) : marchActive t.march = true := by
  by_contra hc
  simp [memtestOtherCheck, hc] at h

theorem Kept.examineKind (h : Kept b m t) {k : Nat} : Kept b m (examineKind k d t).2 := by
  unfold Machine.examineKind
  split
  · exact h.checked h.applyWindow
  · exact h.checked fun _ => h.linkTaken
  · exact h.checked fun _ => h.applyClass
  · exact h.checked h.applyAdmit
  · exact h.checked fun _ => h.linkTaken
  · exact h.checked fun _ => h.updXfer
  · exact h.checked fun _ => h.setCounter
  · exact h.checked fun _ => h.updTime
  · exact h.checked h.applyPorts
  · exact h.checked fun _ => h.applyScrub
  · exact h.examineRemap
  · unfold examineMemtest
    split
    · exact h.checked h.applyMemtestStart
    · exact h.checked fun hc => h.setManual (memtestOther_active hc)
    · exact h.checked fun hc => h.setManual (memtestOther_active hc)
    · exact h.checked fun _ => h.applyMemtestStop
    · exact h
  · unfold examineLooptest
    split
    · exact h.checked fun _ => h.updLoop
    · exact h.checked fun _ => h.abortLoop
    · exact h
  · exact h.checked fun _ => h.changeConditions
  · exact h.checked fun _ => h.applyClear
  · unfold examineReport
    split
    · exact h.checked fun _ => h.updRep
    · exact h.checked fun _ => h.updRep
    · exact h
    · exact h
  · exact h.checked fun _ => h.snapshotRequest
  · exact h

theorem Kept.examineRecord (h : Kept b m t) {x y} : Kept b m (examineRecord x y d t) := by
  simp only [Machine.examineRecord, examineFull]
  repeat' split
  · exact h.updDec
  · exact .reportAt h.updDec
  · exact .updRep (.reportAt (.updDec h.examineKind))
  · exact .settleRelease (.updRep (.reportAt (.updDec h.examineKind)))
  · exact .reportAt (.updDec h.examineKind)

end KeptRecords
end Sys2Proof.Machine

namespace Sys2Proof.Machine

section KeptPorts

variable {s b t u : State} {m : List Nat} {p : Port} {id : Nat} {r : LineRequest}

/-! Classification (R91, R95, R96). -/

theorem Kept.observe (h : Kept b m t) {x w r} : Kept b m (observe x w r t).2 := by
  simp only [Machine.observe]
  split
  · exact h.linkTaken
  · dsimp only [statusIgnored]
    exact h.updLink
  · exact h.txCompletion
  · exact h.unlist
  · exact h.overwrite
  · exact h.rxCompletion
  · exact h.same (by simp) (by simp) (by simp) (by simp)
  · exact h.updLoop
  · exact h.examineRecord
  · exact h.examineRecord
  · exact h.examineRecord
  all_goals exact h

/-- The port's next request has no access, and is one of its requests (R96). -/
theorem Next.idle (hn : Next s p id r) (hs : pathLaw s) : id ∉ accessIds s.path ∧ (id, p) ∈ portView s.path := by
  obtain ⟨-, -, hnum⟩ := pathLaw_iff.mp hs
  simp only [Next, nextRequest] at hn
  split at hn
  · cases hn
  · obtain ⟨q, hq, hm⟩ := List.exists_of_findSome?_eq_some hn
    obtain ⟨hq, hqp⟩ := List.mem_filter.mp hq
    split at hm
    · rename_i y _ _ _ hj hst
      cases hm
      have hpy : y = p := by simpa [isPortReq, hj] using hqp
      exact ⟨hnum.free hq (by simp [hst]) (by simp [hst]), mem_portView.mpr ⟨q, hq, rfl, _, _, _, hpy ▸ hj⟩⟩
    · cases hm

/-- A port's request, without an access, is given what its classification says (R95). -/
theorem setReq_portView {win : Option (Nat × Window)} {stamp : Option TakenStamp} {st : Stage} (hn : Numbered t.path)
    (hp : (id, p) ∈ portView t.path) : portView (setReq id (.port p r win stamp) st t).path = portView t.path := by
  obtain ⟨q, hq, hqid, x, w, y, hj⟩ := mem_portView.mp hp
  have huniq : ∀ v ∈ t.path.reqs, v.id = id → v = q := fun v hv hvid =>
    List.inj_on_of_nodup_map hn.1 hv hq (hvid.trans hqid.symm)
  simp only [setReq, State.updPath_path, portView, List.filterMap_map]
  refine List.filterMap_congr fun v hv => ?_
  by_cases hvid : v.id = id
  · simp [huniq v hv hvid, hqid, hj]
  · simp [hvid]

theorem Kept.setReq (h : Kept b m t) {win : Option (Nat × Window)} {stamp : Option TakenStamp} {st : Stage}
    (hid : pathLaw b → id ∉ m ∧ (id, p) ∈ portView t.path) : Kept b m (setReq id (.port p r win stamp) st t) := by
  refine h.of_parts rfl rfl rfl rfl (fun _ => fun h => h)
    (fun hb => setReq_portView (pathLaw_iff.mp (h.path hb)).2.2 (hid hb).2) (fun _ => fun h => h)
    (fun hb hn => numbered_map (g := fun q => { q with job := .port p r win stamp, stage := st }) rfl (fun _ => rfl) rfl
      rfl (h.ids ▸ (hid hb).1) hn) fun hb ht hf => MarchReqsFrom.ok ?_ (fenceLaw_iff.mp hf).2
  refine ⟨fun q hq hm => ?_, ?_⟩
  · obtain ⟨v, hv, rfl⟩ := List.mem_map.mp hq
    by_cases hvid : v.id = id
    · simp [hvid, isMarchReq, stationOf] at hm
    · simp only [if_neg hvid] at hm ⊢
      exact ⟨v, hv, hm, rfl, fun h => h⟩
  · simp only [Machine.setReq, State.updPath_path, List.filter_map, List.length_map]
    refine (List.monotone_filter_right _ fun v hv => ?_).length_le
    simp only [Function.comp] at hv
    split at hv
    · simp [isMarchReq, stationOf] at hv
    · exact hv

theorem Kept.accept (h : Kept b m t) {win : Option (Nat × Window)} {stamp : Option TakenStamp}
    (hid : pathLaw b → id ∉ m ∧ (id, p) ∈ portView t.path) : Kept b m (accept id p r win stamp t) := by
  simp only [Machine.accept]
  split
  · exact .answer (h.setReq hid) fun hb => (hid hb).1
  · exact h.setReq hid

theorem classifyRequest_kept (hn : Next s p id r) : Kept s (accessIds s.path) (classifyRequest id p r s) := by
  have h : Kept s (accessIds s.path) s := .refl s
  have hid : pathLaw s → id ∉ accessIds s.path ∧ (id, p) ∈ portView s.path := hn.idle
  have hno : pathLaw s → id ∉ accessIds s.path := fun hs => (hid hs).1
  have hcount : ∀ f, Kept s (accessIds s.path) (countPort p f s) := fun f => h.updPath rfl
  have hpass : ∀ x, Kept s (accessIds s.path) (match windowAt s (reqLine r) with
      | none => Machine.accept id p r none none s
      | some (i, w) => Machine.accept id p r (some (i, w)) (observe x w r s).1 (observe x w r s).2) := fun x => by
    split
    · exact h.accept hid
    · exact .accept h.observe fun hs => ⟨hno hs, by rw [observe_portView]; exact (hid hs).2⟩
  simp only [classifyRequest]
  split
  · exact .answer (.raiseCondition (hcount _)) hno
  · refine .answer (.unordered (hcount _) fun f hf t ht => ?_) hno
    rcases List.mem_pair.mp hf with rfl | rfl
    · exact ht.raiseCondition
    · exact ht.report
  · exact .answer (hcount _) hno
  all_goals exact hpass _

theorem classifyWhen_kept (sort : Sighting → Bool) (p : Port) (s : State) :
    Kept s (accessIds s.path) (classifyWhen sort p s) := by
  simp only [classifyWhen]
  split
  · rename_i id r hn
    split
    · exact classifyRequest_kept hn
    · exact .refl s
  · exact .refl s

/-! The lock station and the arbiter. -/

theorem Kept.arrive (h : Kept b m t) {who : Station} (hid : pathLaw b → ∀ x, fillReady t = some x → Idle m x.1 t) :
    Kept b m (arrive who t) := by
  have hhead : ∀ v w q, Kept b m v → headOf v w = some q → Kept b m (Machine.takeStation q v) := fun v w q hv hq => by
    have hst := List.find?_some hq
    simp only [Bool.and_eq_true] at hst
    exact hv.takeStation (List.mem_of_find?_eq_some hq) hst.2
  simp only [Machine.arrive, fillArrival]
  repeat' split
  · exact h
  · exact hhead _ _ _ h ‹_›
  · exact h
  · rename_i hfill _ _ hq
    exact hhead _ _ _ (h.copyData fun hb => hid hb _ hfill) hq
  · rename_i hfill _ _
    exact h.copyData fun hb => hid hb _ hfill
  · exact h
  · exact h

theorem fillReady_idle {x : Nat × RemapEntry} (hs : pathLaw s) (hx : fillReady s = some x) :
    Idle (accessIds s.path) x.1 s := by
  obtain ⟨-, -, hn⟩ := pathLaw_iff.mp hs
  obtain ⟨q, hq, hm⟩ := List.exists_of_findSome?_eq_some hx
  obtain ⟨e, he, rfl⟩ := Option.map_eq_some_iff.mp hm
  simp only [fillLine] at he
  split at he
  · rename_i hj hst _
    refine ⟨hn.free hq (by simp [hst]) (by simp [hst]), fun y hy => ?_⟩
    obtain ⟨v, hv, hvid, _, _, _, hvj⟩ := mem_portView.mp hy
    rw [List.inj_on_of_nodup_map hn.1 hv hq hvid, hj] at hvj
    cases hvj
  · cases he

/-- A request's access joins the memory port (R104). -/
theorem numbered_issue {path q : Path} {x : Req} {st : Stage} {a : Access} (hx : x ∈ path.reqs)
    (hid : x.id ∉ accessIds path) (hr : q.reqs = path.reqs.map fun y =>
      if y.id = x.id then { y with stage := st } else y)
    (hn : q.nextId = path.nextId) (hm : q.memPort = path.memPort ++ [a]) (ha : a.id = x.id)
    (hof : accessOf { x with stage := st } a) (h : Numbered path) : Numbered q := by
  have hmap : Numbered { q with memPort := path.memPort } :=
    numbered_map (g := fun y => { y with stage := st }) hr (fun _ => rfl) hn rfl hid h
  obtain ⟨hnd, hlt, hmn, hacc⟩ := hmap
  refine ⟨hnd, hlt, ?_, fun c hc => ?_⟩
  · rw [hm, List.map_append, List.nodup_append]
    refine ⟨hmn, List.nodup_singleton _, fun i hi j hj => ?_⟩
    rw [List.map_singleton, List.mem_singleton] at hj
    rw [hj, ha]
    exact fun he => hid (he ▸ hi)
  · rw [hm, List.mem_append, List.mem_singleton] at hc
    rcases hc with hc | rfl
    · exact hacc c hc
    · rw [ha, hn]
      have hxq : { x with stage := st } ∈ q.reqs := by
        rw [hr]
        exact List.mem_map.mpr ⟨x, hx, if_pos rfl⟩
      refine ⟨h.2.1 x hx, fun _ => ⟨_, hxq, rfl⟩, fun y hy hyx => ?_⟩
      rw [List.inj_on_of_nodup_map hnd hy hxq hyx]
      exact hof

/-- The access of a request is issued (R104). -/
theorem issue_laws {x : Req} (hx : x ∈ t.path.reqs) : ∃ m', Kept t m' (issue x t) := by
  have hids : ∀ st (a : Access), accessIds ((setStage x.id st t).updPath fun p =>
      { p with memPort := p.memPort ++ [a] }).path =
      accessIds t.path ++ [a.id] := fun st a => by simp [accessIds, setStage]
  have hlaws : ∀ st (a : Access), (∀ k, x.stage ≠ .issued k) → (∀ k, x.stage ≠ .writeIssued k) → a.id = x.id →
      accessOf { x with stage := st } a →
        (∀ y ∈ t.path.reqs, y.id = x.id → isMarchReq y = true → stageNames y.line x.stage →
        stageNames y.line st) →
      ∃ m', Kept t m' ((setStage x.id st t).updPath fun p => { p with memPort := p.memPort ++ [a] }) := by
    intro st a h1 h2 ha hof hst
    have hv : portView ((setStage x.id st t).updPath fun p => { p with memPort := p.memPort ++ [a] }).path =
        portView t.path := show portView (setStage x.id st t).path = _ from setStage_portView
    refine ⟨_, hids st a, fun ht => ?_, fun _ hl => loadLaw_of (t := t) rfl hv hl, fun hl => hl, fun ht hf => ?_⟩
    · obtain ⟨-, -, hn⟩ := pathLaw_iff.mp ht
      exact pathLaw_of (t := t) hv (fun h => h)
        (fun hn => numbered_issue hx (hn.free hx h1 h2) rfl rfl rfl ha hof hn) ht
    · obtain ⟨-, -, hn⟩ := pathLaw_iff.mp ht
      obtain ⟨hreg, hreqs⟩ := fenceLaw_iff.mp hf
      refine fenceLaw_iff.mpr ⟨hreg, (MarchReqsFrom.setStage _ _ _ fun y hy hyx hm => hst y hy hyx hm ?_).ok hreqs⟩
      have hyx' : y = x := List.inj_on_of_nodup_map hn.1 hy hx hyx
      rw [hyx'] at hm ⊢
      exact (hreqs.1 x hx hm).2.2
  unfold issue
  split
  · rename_i k hk
    exact hlaws _ _ (by simp [hk]) (by simp [hk]) rfl ⟨rfl, rfl, .inl ⟨rfl, rfl⟩⟩ fun y _ _ _ hy n hn =>
      hy n (.inr (.inl (by rw [hk]; simpa using hn)))
  · rename_i k hk
    exact hlaws _ _ (by simp [hk]) (by simp [hk]) rfl ⟨rfl, rfl, .inl ⟨rfl, rfl⟩⟩ fun y _ _ _ hy n hn =>
      hy n (.inl (by rw [hk]; simpa using hn))
  · rename_i k d hk
    exact hlaws _ _ (by simp [hk]) (by simp [hk]) rfl ⟨rfl, rfl, .inr ⟨rfl, _, rfl⟩⟩ fun y _ _ _ _ n hn => by simp at hn
  all_goals exact ⟨_, .refl t⟩

theorem candidate_mem {q : Queue} {x : Req} (h : candidate s q = some x) : x ∈ s.path.reqs := by
  have hport : ∀ y, portCandidate s y = some x → x ∈ s.path.reqs := fun y hy => by
    simp only [portCandidate] at hy
    split at hy
    · rename_i v hv
      split at hy
      · cases hy
        exact List.mem_of_find?_eq_some hv
      · cases hy
    · cases hy
  cases q
  case internal =>
    obtain ⟨k, -, hk, -⟩ := internalCandidate_some h
    exact List.mem_of_find?_eq_some (internalOf_some hk).2
  all_goals exact hport _ h

theorem grantTo_kept {q : Queue} {n : Nat} {x : Req} (hx : candidate s q = some x) :
    ∃ m, Kept s m (grantTo q n x s) := by
  have hturn : Kept s (accessIds s.path) (s.updPath fun p =>
      { p with current := q, remaining := n - 1, grants := queueSet p.grants q (satInc (queueGet p.grants q)) }) :=
    (Kept.refl s).updPath rfl
  obtain ⟨m, hm⟩ := issue_laws (t := s.updPath fun p =>
    { p with current := q, remaining := n - 1, grants := queueSet p.grants q (satInc (queueGet p.grants q)) })
    (x := x) (candidate_mem hx)
  exact ⟨m, hm.ids, hm.path ∘ hturn.path, fun hs hl => hm.load (hturn.path hs) (hturn.load hs hl),
    hm.march ∘ hturn.march,
    fun hs hl => hm.fence (hturn.path hs) (hturn.fence hs hl)⟩

theorem grant_kept (s : State) : ∃ m, Kept s m (grant s) := by
  have hnext : ∃ m, Kept s m (grantNext s) := by
    simp only [grantNext]
    split
    · rename_i q x hf
      obtain ⟨y, -, hy⟩ := List.exists_of_findSome?_eq_some hf
      obtain ⟨z, hz, he⟩ := Option.map_eq_some_iff.mp hy
      cases he
      exact grantTo_kept hz
    · exact ⟨_, .refl s⟩
  simp only [grant]
  repeat' split
  · exact ⟨_, .refl s⟩
  · exact grantTo_kept ‹_›
  · exact hnext
  · exact hnext

/-! Taking a request and returning a response (R90, R105). -/

theorem takeRequest_kept (p : Port) (r : LineRequest) (s : State) :
    Kept s (accessIds s.path) (takeRequest p r s) := by
  by_cases hroom : s.inReset = false ∧ occupancy s p < 16
  · rw [takeRequest_placed r hroom.1 hroom.2]
    refine .evalLoad rfl (fun hs => ?_) (fun _ hl => (loadLaw_iff.mp hl).1) (fun hl => hl) fun _ hf => ?_
    · obtain ⟨hocc, hlk, hn⟩ := pathLaw_iff.mp hs
      refine pathLaw_iff.mpr ⟨fun q => ?_, hlk, numbered_append (r := ⟨_, _, _, _⟩) rfl rfl rfl rfl hn⟩
      rw [requestPlaced_occupancy]
      split
      · rename_i hq
        rw [hq]
        exact hroom.2
      · exact hocc q
    · obtain ⟨hreg, hreqs⟩ := fenceLaw_iff.mp hf
      refine fenceLaw_iff.mpr ⟨hreg, (MarchReqsFrom.of_filter ?_).ok hreqs⟩
      simp [requestPlaced, countPort, addReq, List.filter_append, isMarchReq, stationOf]
  · rw [takeRequest, if_pos]
    · exact .refl s
    · simp only [not_and, not_lt] at hroom
      cases hr : s.inReset
      · simpa [hr] using hroom hr
      · simp

theorem occupancy_dropReqs {gone : Req → Bool} (q : Port) : occupancy (dropReqs gone s) q ≤ occupancy s q := by
  simp only [occupancy, portQueue, dropReqs, State.updMarch_path, State.updPath_path]
  exact (List.filter_sublist.filter _).length_le

theorem returnResponse_kept (p : Port) (s : State) : Kept s (accessIds s.path) (returnResponse p s) := by
  simp only [returnResponse]
  split
  · rename_i id x ho
    have hidle : pathLaw s → id ∉ accessIds s.path := fun hs => by
      obtain ⟨-, -, hn⟩ := pathLaw_iff.mp hs
      simp only [oldestAnswer] at ho
      split at ho
      · rename_i q _ hq
        split at ho
        · rename_i hst
          cases ho
          have hmem : q ∈ s.path.reqs := (List.mem_filter.mp (show q ∈ portQueue s p from hq ▸ List.mem_cons_self)).1
          exact hn.free hmem (by simp [hst]) (by simp [hst])
        · cases ho
      · cases ho
    refine .evalLoad rfl (fun hs => ?_) (fun _ hl => (loadLaw_iff.mp hl).1) (fun hl => marchLaw_of (t := s) rfl rfl hl)
      fun _ hf => ?_
    · obtain ⟨hocc, hlk, hn⟩ := pathLaw_iff.mp hs
      refine pathLaw_iff.mpr ⟨fun q => (occupancy_dropReqs q).trans (hocc q), hlk,
        numbered_filter (p := s.path) (keep := fun r => !(r.id == id)) rfl rfl rfl (fun r _ hr => ?_) hn⟩
      have hrid : r.id = id := by simpa using hr
      exact hrid ▸ hidle hs
    · obtain ⟨hreg, hreqs⟩ := fenceLaw_iff.mp hf
      exact fenceLaw_iff.mpr ⟨hreg, (MarchReqsFrom.filter _ _).ok hreqs⟩
  · exact .refl s

end KeptPorts
end Sys2Proof.Machine

namespace Sys2Proof.Machine

/-! ### Completions at the memory port keep the laws (R90, R113, R133, log entry 37) -/

section KeptCompletions

variable {s b t u v : State} {m : List Nat} {a : Access} {f : LineFlips}

theorem numbered_drop {p : Path} (h : Numbered p) : Numbered { p with memPort := p.memPort.drop 1 } := by
  obtain ⟨hnd, hlt, hmn, hacc⟩ := h
  exact ⟨hnd, hlt, hmn.sublist ((List.drop_sublist 1 _).map _), fun x hx => hacc x (List.mem_of_mem_drop hx)⟩

theorem Kept.popHead (h : Kept b m t) : Kept b (m.drop 1) (popHead t) := by
  have hpop : Kept b (m.drop 1) (t.updPath fun p => { p with memPort := p.memPort.drop 1 }) :=
    ⟨by rw [← h.ids]; exact List.map_drop, fun hb => pathLaw_of (t := t) rfl id numbered_drop (h.path hb), h.load,
      h.march,
      fun hb hl => fenceLaw_iff.mpr (fenceLaw_iff.mp (h.fence hb hl))⟩
  simp only [Machine.popHead]
  repeat' split
  · exact hpop
  · exact .marchPump hpop.leaveDrain
  · exact hpop

theorem popHead_kept (s : State) : Kept s ((accessIds s.path).drop 1) (popHead s) := (Kept.refl s).popHead

theorem popRead_kept (f : LineFlips) (a : Access) (s : State) : Kept s ((accessIds s.path).drop 1) (popRead f a s) :=
  .updFlips (popHead_kept s)

theorem commit_kept (a : Access) (d : Line) (s : State) : Kept s ((accessIds s.path).drop 1) (commit a d (popHead s)) :=
  (popHead_kept s).same rfl rfl rfl rfl

theorem portHead_mem (h : portHead s = some a) : a ∈ s.path.memPort := List.mem_of_mem_head? h

/-- The access at the head is the only one of its number. -/
theorem portHead_free (hs : pathLaw s) (h : portHead s = some a) : a.id ∉ (accessIds s.path).drop 1 := by
  obtain ⟨-, -, -, -, hmn, -⟩ := pathLaw_iff.mp hs
  obtain ⟨rest, hrest⟩ := List.head?_eq_some_iff.mp h
  rw [hrest, List.map_cons, List.nodup_cons] at hmn
  rw [accessIds, hrest]
  exact hmn.1

/-- The access is a port's. -/
def isPortAccess : AccessKind → Bool
  | .portRead _ | .descriptorRead | .portWrite _ _ | .rmwRead _ | .rmwWrite _ _ => true
  | _ => false

theorem isPortAccess_of {r : Req} {p : Port} {x : LineRequest} {w : Option (Nat × Window)} {y : Option TakenStamp}
    (h : accessOf r a) (hj : r.job = .port p x w y) : isPortAccess a.kind = true := by
  obtain ⟨-, -, ⟨-, h⟩ | ⟨-, d, h⟩⟩ := h
  · rw [h, hj]
    simp only [firstAccess]
    repeat' split
    all_goals rfl
  · rw [h, hj]
    rfl

/-- The access at the head, of a kind that is no port's, is idle once it has left. -/
theorem portHead_idle (hs : pathLaw s) (h : portHead s = some a) (hk : isPortAccess a.kind = false) :
    Idle ((accessIds s.path).drop 1) a.id s := by
  refine ⟨portHead_free hs h, fun q hq => ?_⟩
  obtain ⟨r, hr, hid, x, w, y, hj⟩ := mem_portView.mp hq
  obtain ⟨-, -, -, -, -, hacc⟩ := pathLaw_iff.mp hs
  have hof := (hacc a (portHead_mem h)).2.2 r hr hid
  rw [isPortAccess_of hof hj] at hk
  cases hk

theorem popHead_portView : portView (popHead s).path = portView s.path := by
  simp only [popHead]
  repeat' split
  · rfl
  · rw [marchPump_portView]
    rfl
  · rfl

theorem popRead_portView : portView (popRead f a s).path = portView s.path := popHead_portView

theorem commit_portView {d : Line} : portView (commit a d (popHead s)).path = portView s.path := popHead_portView

/-! The rows, each where the head is of its kind. -/

theorem Kept.orphanOutcome (h : Kept b m t) {x o} : Kept b m (orphanOutcome x a o t) := by
  simp only [Machine.orphanOutcome]
  split
  · exact h
  · exact h.takeOutcome

theorem Kept.orphanRead (h : Kept b m t) {x o} : Kept b m (orphanRead x a o t) := by
  simp only [Machine.orphanRead]
  split
  · exact h
  · exact h.orphanOutcome

theorem Kept.completeRead (h : Kept b m t) {p : Port} {o : EccObs} {deliver : Line → State → Line × State}
    (hid : pathLaw b → a.id ∉ m) (hd : ∀ d v, Kept b m v → Kept b m (deliver d v).2) :
    Kept b m (completeRead p a o deliver t) := by
  simp only [Machine.completeRead]
  repeat' split
  · exact h.orphanRead
  · exact .answer h.integCount hid
  · exact .answer h.takeOutcome hid
  · exact .answer (hd _ _ h.takeOutcome) hid

theorem setStage_writeReady_kept (h : Kept b m t) {id n d} (hid : pathLaw b → id ∉ m) :
    Kept b m (setStage id (.writeReady n d) t) :=
  h.setStage (fun _ _ _ _ _ _ => by simp [stageNames]) fun hb _ => hid hb

theorem rmwReadDone_kept (f : LineFlips) (s : State) : ∃ m, Kept s m (rmwReadDone f s) := by
  simp only [rmwReadDone]
  split
  · rename_i a ha
    have hpop := popRead_kept f a s
    have hid : pathLaw s → a.id ∉ (accessIds s.path).drop 1 := fun hs => portHead_free hs ha
    repeat' split
    · exact ⟨_, hpop.orphanRead⟩
    · exact ⟨_, .answer (.releaseLock hpop.integCount) hid⟩
    · exact ⟨_, .answer (.releaseLock hpop.takeOutcome) hid⟩
    · exact ⟨_, setStage_writeReady_kept hpop.takeOutcome hid⟩
    · exact ⟨_, .refl s⟩
  · exact ⟨_, .refl s⟩

theorem Idle.afterRead (h : Idle m a.id s) {x line n o} : Idle m a.id (takeOutcome x line n o (popRead f a s)) :=
  h.of_view (by rw [takeOutcome_portView, popRead_portView])

theorem writeBackReadDone_kept (f : LineFlips) (s : State) : ∃ m, Kept s m (writeBackReadDone f s) := by
  simp only [writeBackReadDone]
  split
  · rename_i a ha
    have hpop := popRead_kept f a s
    split
    · rename_i hk
      have hid : pathLaw s → Idle ((accessIds s.path).drop 1) a.id s := fun hs => portHead_idle hs ha (by rw [hk]; rfl)
      repeat' split
      · exact ⟨_, hpop.orphanRead⟩
      · exact ⟨_, .marchPump (.releaseLock (.dropReq hpop.integCount fun hs =>
        (hid hs).of_view (popRead_portView (f := f) (a := a))))⟩
      · exact ⟨_, .marchPump (.releaseLock (.dropReq hpop.takeOutcome fun hs => (hid hs).afterRead))⟩
      · exact ⟨_, setStage_writeReady_kept hpop.takeOutcome fun hs => (hid hs).1⟩
    · exact ⟨_, .refl s⟩
  · exact ⟨_, .refl s⟩

theorem ownWrite_kept {d : Line} {next : State → State} (ha : portHead s = some a) (hk : isPortAccess a.kind = false)
    (hn : ∀ v, Kept s ((accessIds s.path).drop 1) v → Kept s ((accessIds s.path).drop 1) (next v)) :
    ∃ m, Kept s m (ownWrite a d next s) := by
  have hunmark : Kept s ((accessIds s.path).drop 1) (unmark a.line (commit a d (popHead s))) :=
      .updInteg (commit_kept a d s)
  simp only [ownWrite]
  split
  · exact ⟨_, hn _ (hunmark.finishInternal fun hs =>
    (portHead_idle hs ha hk).of_view (commit_portView (a := a) (d := d)))⟩
  · exact ⟨_, hunmark⟩

theorem Kept.makeDescriptor (h : Kept b m t) {v w x y z} : Kept b m (makeDescriptor v w x y z t) := by
  simp only [Machine.makeDescriptor]
  split
  · exact h.makeReq (by simp [stationOf]) (by simp [stationOf])
  · exact h

theorem scrubReadDone_kept (f : LineFlips) (s : State) : ∃ m, Kept s m (scrubReadDone f s) := by
  simp only [scrubReadDone]
  split
  · rename_i a ha
    have hpop := popRead_kept f a s
    split
    · rename_i hk
      have hid : pathLaw s → Idle ((accessIds s.path).drop 1) a.id s := fun hs => portHead_idle hs ha (by rw [hk]; rfl)
      repeat' split
      · exact ⟨_, hpop.orphanOutcome⟩
      · exact ⟨_, setStage_writeReady_kept hpop.takeOutcome fun hs => (hid hs).1⟩
      · exact ⟨_, hpop.takeOutcome.scrubEnd fun hs => (hid hs).afterRead⟩
    · exact ⟨_, .refl s⟩
  · exact ⟨_, .refl s⟩

theorem copyReadDone_kept (f : LineFlips) (s : State) : ∃ m, Kept s m (copyReadDone f s) := by
  simp only [copyReadDone]
  split
  · rename_i a ha
    have hpop := popRead_kept f a s
    split
    · rename_i hk
      have hid : pathLaw s → Idle ((accessIds s.path).drop 1) a.id s := fun hs => portHead_idle hs ha (by rw [hk]; rfl)
      repeat' split
      · exact ⟨_, hpop.orphanOutcome⟩
      · exact ⟨_, hpop.takeOutcome.copyData fun hs => (hid hs).afterRead⟩
      · exact ⟨_, hpop.takeOutcome.copyData fun hs => (hid hs).afterRead⟩
      · exact ⟨_, hpop.takeOutcome.abandonCopy fun hs => (hid hs).afterRead⟩
      · exact ⟨_, hpop.takeOutcome⟩
    · exact ⟨_, .refl s⟩
  · exact ⟨_, .refl s⟩

theorem copyWriteDone_kept (s : State) : ∃ m, Kept s m (copyWriteDone s) := by
  simp only [copyWriteDone]
  split
  · rename_i a ha
    split
    · rename_i d hk
      split
      · exact ⟨_, (commit_kept a d s).copyAdvance fun hs =>
          (portHead_idle hs ha (by rw [hk]; rfl)).of_view commit_portView⟩
      · exact ⟨_, commit_kept a d s⟩
    · exact ⟨_, .refl s⟩
  · exact ⟨_, .refl s⟩

/-! The march test's accesses (R133, R134, R137). -/

/-- The progress moves within the region. -/
theorem Kept.advance (h : Kept b m t) {g : March → March} (hm : marchLaw t → marchLaw (t.updMarch g))
    (hs : (g t.march).state = t.march.state ∧ (g t.march).startPage = t.march.startPage ∧
      (g t.march).pageCount = t.march.pageCount)
    (hi : 1 ≤ t.march.pageCount → t.march.index < 64 * t.march.pageCount →
      (g t.march).index < 64 * t.march.pageCount) : Kept b m (t.updMarch g) where
  ids := h.ids
  path := h.path
  load := h.load
  march := hm ∘ h.march
  fence hb hl := by
    obtain ⟨hreg, hreqs, hone⟩ := fenceLaw_iff.mp (h.fence hb hl)
    obtain ⟨hst, hfirst, hcount⟩ := hs
    refine fenceLaw_iff.mpr ⟨fun hup => ?_, fun r hr hmr => ?_, hone⟩
    · simp only [fenceUp, State.updMarch_march, hst] at hup
      obtain ⟨hpos, hlt, hclear⟩ := hreg hup
      simp only [State.updMarch_march, hfirst, hcount]
      exact ⟨hpos, hi hpos hlt, hclear⟩
    · obtain ⟨hup, hin, hnames⟩ := hreqs r hr hmr
      refine ⟨?_, ?_, hnames⟩
      · simpa only [fenceUp, State.updMarch_march, hst] using hup
      · simpa only [inRegion, State.updMarch_march, hfirst, hcount] using hin

theorem nextLine_keeps (x : March) : (nextLine x).state = x.state ∧ (nextLine x).startPage = x.startPage ∧
    (nextLine x).pageCount = x.pageCount ∧ (nextLine x).outcome = x.outcome ∧ (nextLine x).failing = x.failing ∧
    (nextLine x).causeManual = x.causeManual ∧ (nextLine x).causeLoad = x.causeLoad := by
  unfold nextLine beginElement
  split <;> exact ⟨rfl, rfl, rfl, rfl, rfl, rfl, rfl⟩

theorem nextLine_index {x : March} (hp : 1 ≤ x.pageCount) (hi : x.index < 64 * x.pageCount) :
    (nextLine x).index < 64 * x.pageCount := by
  unfold nextLine beginElement
  split
  · dsimp only [regionLines]
    split <;> omega
  · rename_i hlast
    simp only [lastOfElement] at hlast
    dsimp only
    split
    · omega
    · rename_i hd
      rw [if_neg hd] at hlast
      have hne : x.index + 1 ≠ regionLines x := by simpa using hlast
      simp only [regionLines] at hne
      omega

theorem marchLaw_advance {g : March → March} (h1 : (g t.march).state = t.march.state)
    (h2 : (g t.march).outcome = t.march.outcome) (h3 : (g t.march).failing = t.march.failing)
    (h4 : (g t.march).causeManual = t.march.causeManual) (h5 : (g t.march).causeLoad = t.march.causeLoad)
    (h : marchLaw t) : marchLaw (t.updMarch g) := by
  simpa only [marchLaw, marchActive, State.updMarch_march, State.updMarch_path, h1, h2, h3, h4, h5] using h

theorem Kept.nextLine (h : Kept b m t) : Kept b m (t.updMarch nextLine) := by
  obtain ⟨h1, h2, h3, h4, h5, h6, h7⟩ := nextLine_keeps t.march
  exact h.advance (marchLaw_advance h1 h4 h5 h6 h7) ⟨h1, h2, h3⟩ nextLine_index

theorem Kept.afterRead (h : Kept b m t) : Kept b m (t.updMarch afterRead) := by
  by_cases he : t.march.element = 6
  · have hsame : t.updMarch Machine.afterRead = t.updMarch Machine.nextLine := by
      simp [State.updMarch, Machine.afterRead, he]
    rw [hsame]
    exact h.nextLine
  · have hsame : Machine.afterRead t.march = { t.march with writeNext := true } := if_neg he
    exact h.advance (marchLaw_advance (by rw [hsame]) (by rw [hsame]) (by rw [hsame]) (by rw [hsame]) (by rw [hsame]))
      (by rw [hsame]; exact ⟨rfl, rfl, rfl⟩) fun _ hi => by rw [hsame]; exact hi

theorem checkRead_keeps (line : Nat) (o : EccObs) (d : Line) (x : March) :
    (checkRead line o d x).state = x.state ∧ (checkRead line o d x).startPage = x.startPage ∧
    (checkRead line o d x).pageCount = x.pageCount ∧ (checkRead line o d x).index = x.index ∧
    (checkRead line o d x).outcome = x.outcome ∧ (checkRead line o d x).causeManual = x.causeManual ∧
    (checkRead line o d x).causeLoad = x.causeLoad := by
  simp only [checkRead]
  split <;> exact ⟨rfl, rfl, rfl, rfl, rfl, rfl, rfl⟩

theorem checkRead_failing {line : Nat} {o : EccObs} {d : Line} {x : March} (hl : x.failing.length ≤ 16)
    (hn : x.failing.Nodup) : (checkRead line o d x).failing.length ≤ 16 ∧ (checkRead line o d x).failing.Nodup := by
  simp only [checkRead]
  split
  · simp only [marchFail]
    split
    · exact ⟨hl, hn⟩
    · rename_i hnew
      simp only [Bool.or_eq_true, not_or, Bool.not_eq_true, decide_eq_true_eq, not_le] at hnew
      obtain ⟨hno, hlt⟩ := hnew
      refine ⟨by simpa using hlt, ?_⟩
      rw [List.nodup_append]
      refine ⟨hn, List.nodup_singleton _, fun y hy z hz he => ?_⟩
      rw [List.mem_singleton.mp hz] at he
      rw [← he, List.contains_eq_mem, decide_eq_false_iff_not] at hno
      exact hno hy
  · exact ⟨hl, hn⟩

theorem Kept.checkRead (h : Kept b m t) {line o d} : Kept b m (t.updMarch (checkRead line o d)) := by
  obtain ⟨h1, h2, h3, h4, h5, h6, h7⟩ := checkRead_keeps line o d t.march
  refine h.advance (fun hl => ?_) ⟨h1, h2, h3⟩ fun _ hi => h4 ▸ hi
  obtain ⟨hc, hload, hout, hlen, hnd⟩ := hl
  simp only [marchLaw, marchActive, State.updMarch_march, State.updMarch_path, h1, h5, h6, h7]
  exact ⟨hc, hload, hout, checkRead_failing hlen hnd⟩

/-- Once the march's access has left and its request is gone, the march test has none (R133). -/
theorem dropMarch_none (hs : pathLaw s) (hf : fenceLaw s) (ha : portHead s = some a) (hk : isMarchAccess a.kind = true)
    (hlive : a.live = true) (hv : v.path.reqs = s.path.reqs) :
    ∀ r ∈ (dropReq a.id v).path.reqs, isMarchReq r = false := by
  intro r hr
  obtain ⟨-, -, -, -, -, hacc⟩ := pathLaw_iff.mp hs
  obtain ⟨-, -, hone⟩ := fenceLaw_iff.mp hf
  obtain ⟨-, hex, hof⟩ := hacc a (portHead_mem ha)
  obtain ⟨x, hx, hxid⟩ := hex hlive
  have hxm : isMarchReq x = true := (isMarchAccess_of (hof x hx hxid)).symm.trans hk
  obtain ⟨hr, hrid⟩ := List.mem_filter.mp hr
  rw [hv] at hr
  by_contra hm
  have hrx : r = x := mem_of_filter_length hone hr (by simpa using hm) hx hxm
  have hne : r.id ≠ a.id := by simpa using hrid
  exact hne (hrx ▸ hxid)

theorem marchReadDone_kept (f : LineFlips) (s : State) : ∃ m, Kept s m (marchReadDone f s) := by
  simp only [marchReadDone]
  split
  · rename_i a ha
    have hpop := popRead_kept f a s
    split
    · rename_i hk
      have hdrop := hpop.dropReq fun hs => (portHead_idle hs ha (by rw [hk]; rfl)).of_view popRead_portView
      repeat' split
      · exact ⟨_, hpop⟩
      · rename_i hlive _
        have hlive' : a.live = true := by simpa using hlive
        refine ⟨_, .endMarch hdrop.checkRead fun hs hf => ?_⟩
        exact dropMarch_none hs hf ha (by rw [hk]; rfl) hlive' (by rw [popRead, popHead_live ha hlive']; rfl)
      · exact ⟨_, .marchPump (.afterRead hdrop.checkRead)⟩
    · exact ⟨_, .refl s⟩
  · exact ⟨_, .refl s⟩

theorem marchWriteDone_kept (s : State) : ∃ m, Kept s m (marchWriteDone s) := by
  simp only [marchWriteDone]
  split
  · rename_i a ha
    split
    · rename_i d hk
      have hpop := commit_kept a d s
      split
      · exact ⟨_, hpop⟩
      · exact ⟨_, .marchPump (.nextLine (hpop.dropReq fun hs =>
          (portHead_idle hs ha (by rw [hk]; rfl)).of_view commit_portView))⟩
    · exact ⟨_, .refl s⟩
  · exact ⟨_, .refl s⟩

theorem Kept.snapshotDone (h : Kept b m t) : Kept b m (snapshotDone t) := by
  simp only [Machine.snapshotDone]
  repeat' split
  · exact .settleRelease (.updRep h.updRep)
  · exact .settleRelease (.updRep (.updRep h.updRep))
  · exact .startSnapshot (.updRep h.updRep)
  · exact .settleRelease (.updRep (.updRep h.updRep))

/-- A completion keeps the laws. -/
theorem exec_completion_kept {i : Instr} (hi : isCompletion i = true) (h : exec i s = .next t) : ∃ m, Kept s m t := by
  have hread : ∀ (f : LineFlips) (a : Access) (p : Port) (o : EccObs), portHead s = some a →
      ∃ m, Kept s m (completeRead p a o (fun d v => (d, v)) (popRead f a s)) := fun f a p o ha =>
    ⟨_, (popRead_kept f a s).completeRead (fun hs => portHead_free hs ha) fun _ _ hv => hv⟩
  cases i <;> cases h
  case portReadComplete f =>
    simp only [portReadDone]
    repeat' split
    · exact hread _ _ _ _ ‹_›
    · exact ⟨_, .refl s⟩
    · exact ⟨_, .refl s⟩
  case rmwReadComplete f => exact rmwReadDone_kept f s
  case internalPartialReadComplete f => exact writeBackReadDone_kept f s
  case scrubReadComplete f => exact scrubReadDone_kept f s
  case copyReadComplete f => exact copyReadDone_kept f s
  case copyWriteComplete => exact copyWriteDone_kept s
  case marchReadComplete f => exact marchReadDone_kept f s
  case marchWriteComplete => exact marchWriteDone_kept s
  case portWriteComplete =>
    simp only [portWriteDone]
    split
    · rename_i a ha
      split
      · rename_i d _
        split
        · exact ⟨_, .answer (.updInteg (commit_kept a d s)) fun hs => portHead_free hs ha⟩
        · exact ⟨_, .updInteg (commit_kept a d s)⟩
      · exact ⟨_, .refl s⟩
    · exact ⟨_, .refl s⟩
  case rmwWriteComplete =>
    simp only [rmwWriteDone]
    split
    · rename_i a ha
      split
      · rename_i d _
        split
        · exact ⟨_, .answer (.releaseLock (commit_kept a d s)) fun hs => portHead_free hs ha⟩
        · exact ⟨_, commit_kept a d s⟩
      · exact ⟨_, .refl s⟩
    · exact ⟨_, .refl s⟩
  case scrubWritebackComplete =>
    simp only [scrubWriteDone]
    split
    · rename_i a ha
      split
      · rename_i d hk
        split
        · exact ⟨_, commit_kept a d s⟩
        · exact ⟨_, .scrubEnd (.integCount (commit_kept a d s)) fun hs =>
            (portHead_idle hs ha (by rw [hk]; rfl)).of_view (commit_portView (a := a) (d := d))⟩
      · exact ⟨_, .refl s⟩
    · exact ⟨_, .refl s⟩
  case internalWriteComplete =>
    simp only [internalWriteDone]
    split
    · rename_i a ha
      split
      · rename_i d hk
        exact ownWrite_kept ha (by rw [hk]; rfl) fun _ hv => hv
      · rename_i d hk
        exact ownWrite_kept ha (by rw [hk]; rfl) fun _ hv => hv
      · rename_i d hk
        split
        · exact ⟨_, .marchPump (.releaseLock ((commit_kept a d s).dropReq fun hs =>
            (portHead_idle hs ha (by rw [hk]; rfl)).of_view (commit_portView (a := a) (d := d))))⟩
        · exact ⟨_, commit_kept a d s⟩
      · exact ⟨_, .refl s⟩
    · exact ⟨_, .refl s⟩
  case queryFrameWriteComplete =>
    simp only [queryFrameDone]
    split
    · rename_i a ha
      split
      · rename_i d hk
        refine ownWrite_kept ha (by rw [hk]; rfl) fun _ hv => ?_
        repeat' split
        · exact hv.makeDescriptor
        · exact hv
        · exact hv
      · exact ⟨_, .refl s⟩
    · exact ⟨_, .refl s⟩
  case testFrameWriteComplete =>
    simp only [testLineDone]
    split
    · rename_i a ha
      split
      · rename_i d hk
        refine ownWrite_kept ha (by rw [hk]; rfl) fun _ hv => ?_
        repeat' split
        · exact hv
        · exact hv.makeDescriptor
        · exact hv
        · exact hv
      · exact ⟨_, .refl s⟩
    · exact ⟨_, .refl s⟩
  case reportEntryWriteComplete =>
    simp only [reportWriteDone]
    split
    · rename_i a ha
      split
      · rename_i d hk
        exact ownWrite_kept ha (by rw [hk]; rfl) fun _ hv => .settleRelease hv.updRep
      · exact ⟨_, .refl s⟩
    · exact ⟨_, .refl s⟩
  case snapshotLineWriteComplete =>
    simp only [snapshotWriteDone]
    split
    · rename_i a ha
      split
      · rename_i d hk
        refine ownWrite_kept ha (by rw [hk]; rfl) fun _ hv => ?_
        split
        · exact hv.snapshotDone
        · exact hv
      · exact ⟨_, .refl s⟩
    · exact ⟨_, .refl s⟩
  all_goals exact absurd hi (by simp [isCompletion])

theorem descriptorDone_kept (f : LineFlips) (s : State) : ∃ m, Kept s m (descriptorDone f s) := by
  simp only [descriptorDone]
  split
  · rename_i a ha
    split
    · refine ⟨_, (popRead_kept f a s).completeRead (fun hs => portHead_free hs ha) fun d v hv => ?_⟩
      split
      · exact hv.judge
      · exact hv
    · exact ⟨_, .refl s⟩
  · exact ⟨_, .refl s⟩

/-! The two resets (R171). -/

/-- With no request and only dead accesses the line path keeps its laws (R107). -/
theorem Kept.of_empty (hr : t.path.reqs = []) (hl : t.path.locks = []) (hn : t.path.nextId = s.path.nextId)
    (hacc : pathLaw s → (accessIds t.path).Nodup ∧ ∀ a ∈ t.path.memPort, a.id < s.path.nextId ∧ a.live = false)
    (ha : arbiterOf t.path = arbiterOf Initial.path) (hm : t.march = Initial.march) : Kept s (accessIds t.path) t := by
  have hload : portLoad t = 0 := by simp [portLoad, occupancy, portQueue, hr]
  simp only [arbiterOf, Prod.mk.injEq] at ha
  obtain ⟨hwt, hlo, hhi, hlh⟩ := ha
  refine ⟨rfl, fun hs => ?_, fun _ _ => ?_, fun _ => ?_, fun _ _ => ?_⟩
  · obtain ⟨hnd, hdead⟩ := hacc hs
    refine pathLaw_iff.mpr ⟨fun p => by simp [occupancy, portQueue, hr], by simp [LocksOk, hl], by simp [hr],
      by simp [hr],
      hnd, fun a ha => ⟨hn ▸ (hdead a ha).1, fun hlive => ?_, by simp [hr]⟩⟩
    simp [(hdead a ha).2] at hlive
  · rw [loadLaw, hwt, hlo, hhi, hlh, hload]
    exact ⟨fun q => by cases q <;> simp [Initial.path, queueGet], by simp [Initial.path]⟩
  · rw [marchLaw, hm, hlh]
    simp [Initial.march, Initial.path, marchActive]
  · refine fenceLaw_iff.mpr ⟨fun hup => ?_, marchReqsOk_none (by simp [hr])⟩
    simp [fenceUp, hm, Initial.march] at hup

theorem underReset_kept (s : State) : ∃ m, Kept s m (underReset s) := by
  refine ⟨_, .of_empty rfl rfl rfl (fun hs => ?_) rfl rfl⟩
  obtain ⟨-, -, -, -, hmn, hacc⟩ := pathLaw_iff.mp hs
  refine ⟨?_, fun a ha => ?_⟩
  · show (((orphaned s.path.memPort)).map (·.id)).Nodup
    rw [orphaned, List.map_map]
    exact hmn
  · obtain ⟨c, hc, rfl⟩ := List.mem_map.mp ha
    exact ⟨(hacc c hc).1, rfl⟩

theorem powerOn_kept (straps : BitVec 2) (h : execPowerOn straps s = .next t) : ∃ m, Kept s m t := by
  cases h
  refine ⟨_, .of_empty rfl rfl rfl (fun hs => ?_) rfl rfl⟩
  obtain ⟨-, -, -, -, hmn, hacc⟩ := pathLaw_iff.mp hs
  refine ⟨?_, fun a ha => ?_⟩
  · show (((abandoned s.path.memPort)).map (·.id)).Nodup
    rw [abandoned, List.map_map]
    exact hmn
  · obtain ⟨c, hc, rfl⟩ := List.mem_map.mp ha
    exact ⟨(hacc c hc).1, rfl⟩

/-! Every row. -/

theorem Kept.onePeriod (h : Kept b m t) : Kept b m (onePeriod t) := by
  simp only [Machine.onePeriod, rolledOver]
  have htick : Kept b m (((t.setOscillator (t.oscillator + 1)).setNow (if t.inReset then t.now else t.now + 1)).updTime
      addPeriod) := h.same rfl rfl rfl rfl
  split
  · exact .updTime (.snapshotRequest (.timingPulse htick.updTime))
  · exact htick

theorem Kept.scrubExpiry (h : Kept b m t) : Kept b m (scrubExpiry t) := .scrubPump h.updInteg

theorem Kept.of_ite {c : Prop} [Decidable c] (h : Kept s m s) (ht : c → Kept s m t) :
    Kept s m (if c then t else s) := by
  split
  · exact ht ‹_›
  · exact h

theorem exec_otherRow_kept {i : Instr} (hi : isCompletion i = false) (h : exec i s = .next t) : ∃ m, Kept s m t := by
  have hs : Kept s (accessIds s.path) s := .refl s
  cases i
  case powerOn straps => exact powerOn_kept straps h
  all_goals cases h
  case resetLineAssert =>
    repeat' split
    · exact ⟨_, hs⟩
    · obtain ⟨m, hm⟩ := underReset_kept (s.setFreeUses (s.freeUses + 1))
      exact ⟨m, hm.ids, hm.path, hm.load, hm.march, hm.fence⟩
    · exact ⟨_, hs.same rfl rfl rfl rfl⟩
    · exact underReset_kept s
  case resetLineDeassert =>
    refine ⟨_, hs.of_ite fun _ => ?_⟩
    have hstart : Kept s (accessIds s.path) (startTimers s) := hs.of_core rfl rfl rfl fun _ => id
    exact .copyPump (.setLevel (.setLevel (.setLevel hstart.setLevel)))
  case oscillatorPeriod => exact ⟨_, hs.onePeriod⟩
  case rollover => exact ⟨_, hs.of_ite fun _ => hs.onePeriod⟩
  case descriptorReadJudged f => exact descriptorDone_kept f s
  case flightTimeout =>
    refine ⟨accessIds s.path, ?_⟩
    repeat' split
    · exact hs.flightExpiry
    · exact hs
    · exact hs
  case exchangeTimeout =>
    refine ⟨accessIds s.path, ?_⟩
    repeat' split
    · exact hs.same (by simp) (by simp) (by simp) (by simp)
    · exact hs
    · exact hs
  case lossTimeout =>
    refine ⟨accessIds s.path, ?_⟩
    repeat' split
    · exact .loopCheckEnd hs.updLoop
    · exact hs
    · exact hs
  case lineRequestTaken p r => exact ⟨_, takeRequest_kept p r s⟩
  case responseReturned p => exact ⟨_, returnResponse_kept p s⟩
  case arbiterGrant => exact grant_kept s
  case lockStationArrival who => exact ⟨_, hs.arrive fun hp _ hx => fillReady_idle hp hx⟩
  case reportTimerExpiry => exact ⟨_, hs.updRep⟩
  case pulseEnd => exact ⟨_, hs.of_ite fun _ => hs.updTime⟩
  case todMessageEnd => exact ⟨_, hs.of_ite fun _ => hs.updTime⟩
  case scrubTimerExpiry => exact ⟨_, hs.of_ite fun _ => hs.scrubExpiry⟩
  case statusTimerExpiry | restoreHoldExpiry | upshiftHoldExpiry => exact ⟨_, hs.of_ite fun _ => hs.linkTaken⟩
  case refillTimerExpiry => exact ⟨_, hs.of_ite fun _ => hs.refillExpiry⟩
  case ageTimerExpiry => exact ⟨_, hs.of_ite fun _ => hs.ageExpiry⟩
  case queryTimerExpiry => exact ⟨_, hs.of_ite fun _ => hs.queryExpiry⟩
  case blockTimerExpiry => exact ⟨_, hs.of_ite fun _ => .loseTiming hs.updXfer⟩
  case synthLockExpiry => exact ⟨_, hs.of_ite fun _ => hs.updTime⟩
  case sendTimerExpiry => exact ⟨_, hs.of_ite fun _ => hs.sendExpiry⟩
  case retryTimerExpiry => exact ⟨_, hs.of_ite fun _ => hs.changeCondition⟩
  case portReadComplete | portWriteComplete | rmwReadComplete | rmwWriteComplete | internalPartialReadComplete |
      internalWriteComplete | queryFrameWriteComplete | testFrameWriteComplete | reportEntryWriteComplete |
      snapshotLineWriteComplete | scrubReadComplete | scrubWritebackComplete | copyReadComplete | copyWriteComplete |
      marchReadComplete | marchWriteComplete => exact nomatch hi
  all_goals exact ⟨_, classifyWhen_kept _ _ s⟩

theorem step_kept (h : step s = .next t) : ∃ m, Kept s m t := by
  unfold step at h
  split at h
  · cases h
    exact ⟨_, .refl s⟩
  · rename_i i rest _
    have hrest : ∃ m, Kept (s.setPending rest) m t := by
      cases hi : isCompletion i with
      | true => exact exec_completion_kept hi h
      | false => exact exec_otherRow_kept hi h
    obtain ⟨m, hm⟩ := hrest
    exact ⟨m, hm.ids, hm.path, hm.load, hm.march, hm.fence⟩

/-- Settles O8: every operation carries the laws of the line path on. -/
theorem pathLawKept : Obligations.PathLawKept := by
  unfold Obligations.PathLawKept
  intro s t hs h
  obtain ⟨m, hm⟩ := step_kept h
  exact hm.path hs

/-- Settles O9: every operation leaves LOAD_HIGH and the port load, or evaluates the one on the other. -/
theorem loadLawKept : Obligations.LoadLawKept := by
  unfold Obligations.LoadLawKept
  intro s t hs hl h
  obtain ⟨m, hm⟩ := step_kept h
  exact hm.load hs hl

/-- Settles O12: every operation keeps the session's relations and the fence's. -/
theorem marchLawKept : Obligations.MarchLawKept := by
  unfold Obligations.MarchLawKept
  refine ⟨fun s t hl h => ?_, fun s t hs hf h => ?_⟩
  · obtain ⟨m, hm⟩ := step_kept h
    exact hm.march hl
  · obtain ⟨m, hm⟩ := step_kept h
    exact hm.fence hs hf

end KeptCompletions
end Sys2Proof.Machine

namespace Sys2Proof.Machine

/-! ### The PORTS, SCRUB and REMAP records (R105, R106, R119, R125, R154) -/

section MemoryRecords

variable {N : Cls → Prop} {J : Job → Prop} {s t x : State} {id a n m page : Nat} {r : LineRequest} {d : Line}
  {o : RecordOutcome}

/-! The end of a record's event behind requests of any sort. -/

theorem Turnover.recordEnd_stay (h : Turnover N J s x) (hJ : ∀ j, IsEntry j → J j) (hn : Next s .site id r)
    (o : RecordOutcome) : ReportsStay s x (recordEnd s id r o x) := fun hp _ _ _ _ _ hr => by
  have hres := (recordResult_turnover (N := N) s x r o).mono (fun _ h => h) hJ
  exact (h.trans hres).setReq_keeps hn hp (hres.keeps hr)

theorem Course.resultLast (h : Course N J s x n) (hJ : ∀ j, IsEntry j → J j) (hn : Next s .site id r) (hm : n ≤ m)
    (o : RecordOutcome) : ResultLast s (recordEnd s id r o x) m r (outcomeCode o) := by
  have hc : Course N J s (countOutcome o x) (n + 0) := h.trans (.of_same rfl rfl rfl rfl)
  refine ⟨n, hm, (hc.taken.trans (reportAt_taken _ _ _ _)).silent rfl, fun hp g hg hrel hu => ?_⟩
  have hres := (recordResult_turnover (N := N) s x r o).mono (fun _ h => h) hJ
  exact (h.toTurnover.trans hres).setReq_keeps hn hp (hc.made hg hrel hu _ _ _)

theorem Course.appliedLast (h : Course N J s x n) (hJ : ∀ j, IsEntry j → J j) (hn : Next s .site id r) (hm : n ≤ m)
    (hd : x.dec = s.dec) : RecordDone s (recordEnd s id r .applied x) m r :=
  ⟨by simp [RecordApplied, recordEnd, countOutcome, hd], h.resultLast hJ hn hm .applied⟩

theorem recordEnd_path (s : State) (id : Nat) (r : LineRequest) (o : RecordOutcome) (x : State) : ∃ l k,
    (recordEnd s id r o x).path = { x.path with reqs := l, nextId := k } := by
  have hresult : ∃ l k, (recordResult (timeNow s) (reqLine r) (seen r) o (countOutcome o x)).path =
      { x.path with reqs := l, nextId := k } := by
    simp only [recordResult, reportAt]
    repeat' split
    · exact ⟨_, _, rfl⟩
    all_goals exact ⟨x.path.reqs, x.path.nextId, rfl⟩
  obtain ⟨l, k, h⟩ := hresult
  exact ⟨_, k, by rw [recordEnd, setReq, State.updPath_path, h]⟩

/-! The requests that an evaluation of LOAD_HIGH makes. -/

/-- Work of the units that LOAD_HIGH holds up, or a report entry (R105, R117, R135). -/
def IsLoadWork (j : Job) : Prop := IsEntry j ∨ IsMarch j ∨ j = .scrub

theorem scrubLoop_turnover (n : Nat) (s : State) : Turnover N IsLoadWork s (scrubLoop n s) := by
  induction n generalizing s with
  | zero => exact .of_path rfl
  | succ n ih =>
    unfold scrubLoop
    simp only
    split
    · refine Turnover.trans ?_ (ih _)
      exact .of_path rfl
    · refine Turnover.trans ?_ (makeReq_turnover (J := IsLoadWork) (.inl (.inr (.inr rfl))) _)
      exact .of_path rfl

theorem loadChanged_turnover (b : Bool) (s : State) : Turnover N IsLoadWork s (loadChanged b s) := by
  have hscrub (u : State) : Turnover N IsLoadWork u (scrubPump u) := by
    unfold scrubPump
    split
    · exact .of_path rfl
    · exact scrubLoop_turnover _ u
  have hmarch (u : State) : Turnover N IsLoadWork u (marchPump u) :=
    (marchPump_turnover u).mono (fun _ h => h) fun _ h => .inr (.inl h)
  refine Turnover.trans (.of_reqs ?_ ?_) ((hmarch (s.updMarch fun m =>
    if marchActive m then settleCauses { m with causeLoad := b } else m)).trans (hscrub _)) <;> rfl

theorem evalLoad_course (s : State) : Course N IsLoadWork s (evalLoad s) 0 := by
  refine .quiet ?_ (by simp) (by simp) (by simp [timeNow])
  simp only [evalLoad]
  split
  · exact .of_path rfl
  · refine Turnover.trans (.of_reqs ?_ ?_) (loadChanged_turnover _ (s.updPath _)) <;> rfl

/-! PORTS (R106). -/

theorem weightOk_iff {n : Nat} : weightOk n = true ↔ 1 ≤ n ∧ n ≤ 15 := by simp [weightOk]

/-- The ranges of R106. -/
theorem portsCheck_applied_iff : portsCheck d = .applied ↔ (1 ≤ field d 4 1 ∧ field d 4 1 ≤ 15) ∧
    (1 ≤ field d 5 1 ∧ field d 5 1 ≤ 15) ∧ (1 ≤ field d 6 1 ∧ field d 6 1 ≤ 15) ∧
    (1 ≤ field d 7 1 ∧ field d 7 1 ≤ 15) ∧ field d 8 1 < field d 9 1 ∧ field d 9 1 ≤ 48 := by
  unfold portsCheck
  split
  next h => simpa [weightOk_iff, and_assoc] using h
  next h => simpa [weightOk_iff, and_assoc] using h

theorem portsCheck_range (h : portsCheck d ≠ .applied) : portsCheck d = .range := by
  unfold portsCheck at h ⊢
  split at h
  · exact absurd rfl h
  · rw [if_neg (by assumption)]

theorem portsRecord_applies (h : RecordNext s id r 0x09 a) (hc : portsCheck (seen r) = .applied) :
    exec .portsRecord s = .next (recordEnd s id r .applied (applyPorts (seen r) s)) := by
  show Host.Outcome.next (classifyWhen _ .site s) = _
  rw [record_applies h rfl (by decide) fun _ => by simp [examineKind, checked, hc]; rfl]

theorem portsRecord_refuses (h : RecordNext s id r 0x09 a) (hc : portsCheck (seen r) = .range) :
    RefusedRange .portsRecord s r :=
  record_refuses (o := .range) h rfl rfl (by decide) fun _ => by simp [examineKind, checked, hc]

/-- The path with a PORTS record's parameters, before LOAD_HIGH is evaluated. -/
def portsSet (d : Line) (s : State) : State :=
  s.updPath fun p => { p with
    weights := ⟨field d 4 1, field d 5 1, field d 6 1, field d 7 1⟩
    lowMark := field d 8 1
    highMark := field d 9 1 }

theorem applyPorts_eq : applyPorts d s = evalLoad (portsSet d s) := rfl

theorem portsSet_course (d : Line) (s : State) : Course N J s (portsSet d s) 0 :=
  .quiet (.of_reqs rfl rfl) rfl rfl rfl

/-- The path behind the application of a PORTS record (R105, R106). -/
theorem applyPorts_path (d : Line) (s : State) :
    (applyPorts d s).path.weights = ⟨field d 4 1, field d 5 1, field d 6 1, field d 7 1⟩ ∧
    (applyPorts d s).path.lowMark = field d 8 1 ∧ (applyPorts d s).path.highMark = field d 9 1 ∧
    (s.path.loadHigh = true → (applyPorts d s).path.loadHigh = !decide (portLoad s ≤ field d 8 1)) ∧
    (s.path.loadHigh = false → (applyPorts d s).path.loadHigh = decide (field d 9 1 ≤ portLoad s)) ∧
    LoadTold s (applyPorts d s) := by
  obtain ⟨v, hv⟩ : ∃ v, v = portsSet d s := ⟨_, rfl⟩
  have hset : v.path.weights = ⟨field d 4 1, field d 5 1, field d 6 1, field d 7 1⟩ ∧ v.path.lowMark = field d 8 1 ∧
      v.path.highMark = field d 9 1 := by simp [hv, portsSet]
  have hkept : v.path.loadHigh = s.path.loadHigh ∧ v.path.loadHighEntries = s.path.loadHighEntries ∧
      v.march = s.march := by simp [hv, portsSet]
  have hload : portLoad v = portLoad s := by
    simp only [portLoad, occupancy, portQueue, hv, portsSet, State.updPath_path]
  obtain ⟨hweights, hlow, hhigh⟩ := hset
  obtain ⟨hsignal, hentries, hmarch⟩ := hkept
  obtain ⟨l, k, hpath⟩ := evalLoad_path v
  obtain ⟨hfall, hrise⟩ := evalLoad_signal v
  rw [hload, hsignal] at hfall hrise
  rw [hlow] at hfall
  rw [hhigh] at hrise
  rw [applyPorts_eq, ← hv]
  refine ⟨?_, ?_, ?_, hfall, hrise, (evalLoad_told v).of_same hsignal hentries (by rw [hmarch]) (by rw [hmarch])
    (by rw [hmarch])⟩
  all_goals rw [hpath]
  · exact hweights
  · exact hlow
  · exact hhigh

theorem portsRecord_done (h : RecordNext s id r 0x09 a) (hd : d = seen r) (hc : portsCheck d = .applied) :
    ∃ t, exec .portsRecord s = .next t ∧
      t.path.weights = ⟨field d 4 1, field d 5 1, field d 6 1, field d 7 1⟩ ∧ t.path.lowMark = field d 8 1 ∧
      t.path.highMark = field d 9 1 ∧
      (s.path.loadHigh = true → t.path.loadHigh = !decide (portLoad s ≤ field d 8 1)) ∧
      (s.path.loadHigh = false → t.path.loadHigh = decide (field d 9 1 ≤ portLoad s)) ∧ LoadTold s t ∧
      RecordDone s t 0 r ∧ OnlyChanges [.path, .march, .integ, .rep, .dec] s t := by
  have hrow := portsRecord_applies h (hd ▸ hc)
  rw [← hd] at hrow
  obtain ⟨hweights, hlow, hhigh, hfall, hrise, htold⟩ := applyPorts_path d s
  have hcourse : Course (fun _ => False) IsLoadWork s (applyPorts d s) (0 + 0) :=
    (portsSet_course d s).trans (evalLoad_course _)
  have hblocks : OnlyChanges [.path, .march, .integ, .rep] s (applyPorts d s) :=
    onlyChanges_iff.mpr (by simp [applyPorts])
  generalize applyPorts d s = x at *
  obtain ⟨q, m, hend⟩ := recordEnd_path s id r .applied x
  have hmarch : (recordEnd s id r .applied x).march = x.march := by simp [recordEnd]
  refine ⟨_, hrow, ?_, ?_, ?_, ?_, ?_, ?_, hcourse.appliedLast (fun _ => .inl) h.1 (Nat.le_refl 0)
    (hblocks .dec (by decide)), recordEnd_changes hblocks (by decide) (by decide) .applied⟩
  · rwa [hend]
  · rwa [hend]
  · rwa [hend]
  · rwa [hend]
  · rwa [hend]
  · rw [LoadTold, hmarch, hend]
    exact htold

/-! SCRUB (R119). -/

theorem scrubRecord_applies (h : RecordNext s id r 0x0A a) (hc : scrubCheck (seen r) = .applied) :
    exec .scrubRecord s = .next (recordEnd s id r .applied (applyScrub (seen r) s)) := by
  show Host.Outcome.next (classifyWhen _ .site s) = _
  rw [record_applies h rfl (by decide) fun _ => by simp [examineKind, checked, hc]; rfl]

theorem scrubRecord_refuses (h : RecordNext s id r 0x0A a) (hc : scrubCheck (seen r) = .range) :
    RefusedRange .scrubRecord s r :=
  record_refuses (o := .range) h rfl rfl (by decide) fun _ => by simp [examineKind, checked, hc]

theorem applyScrub_changes (d : Line) (s : State) : OnlyChanges [.integ, .path, .rep] s (applyScrub d s) :=
  onlyChanges_iff.mpr (by simp [applyScrub])

/-! REMAP (R121, R125). -/

theorem remapRecord_row (h : RecordNext s id r 0x0B a) (he : examineRemap (seen r) s = (o, x)) :
    exec .remapRecord s = .next (recordEnd s id r o x) := by
  obtain ⟨hk, -, hrow⟩ := record_row (sort := isRecord 0x0B) h rfl
  show Host.Outcome.next (classifyWhen _ .site s) = _
  rw [hrow]
  simp [examineFull, hk, examineKind, he, recordEnd]

theorem scrubRecord_done (h : RecordNext s id r 0x0A a) (hd : d = seen r) (hc : scrubCheck d = .applied) :
    ∃ t, exec .scrubRecord s = .next t ∧ t.integ = (applyScrub d s).integ ∧ RecordDone s t 0 r ∧
      OnlyChanges [.integ, .rep, .path, .dec] s t := by
  have hrow := scrubRecord_applies h (hd ▸ hc)
  rw [← hd] at hrow
  have hblocks := applyScrub_changes d s
  have hcourse : Course (fun _ => False) IsEntry s (applyScrub d s) 0 :=
    .of_same (by simp [applyScrub]) (by simp [applyScrub]) (by simp [applyScrub]) (by simp [applyScrub, timeNow])
  generalize applyScrub d s = x at *
  exact ⟨_, hrow, by simp [recordEnd], hcourse.recordDone h.1 (Nat.le_refl 0) (hblocks .dec (by decide)),
    (recordEnd_changes hblocks (by decide) (by decide) .applied).mono (by decide)⟩

/-- The copy engine at the last entry of the list, which waits: the entry waits on, or its copying begins (R123). -/
theorem copyPump_last {l : List RemapEntry} {e : RemapEntry} (h : s.integ.remaps = l ++ [e])
    (hl : ∀ y ∈ l, y.failed ≠ e.failed) (he : e.state = .waiting) :
    ∃ y ∈ (copyPump s).integ.remaps, y = e ∨ y = { e with state := .copying, pointer := 0 } := by
  have hmem : e ∈ s.integ.remaps := by simp [h]
  simp only [copyPump]
  repeat' split
  · exact ⟨e, hmem, .inl rfl⟩
  · exact ⟨e, hmem, .inl rfl⟩
  next w hw =>
    refine ⟨if e.failed = w.failed then { w with state := .copying, pointer := 0 } else e, ?_, ?_⟩
    · simp only [makeReq_frame, setRemap, State.updInteg_integ]
      exact List.mem_map.mpr ⟨e, hmem, rfl⟩
    · split
      next hf =>
        have hw' := List.mem_of_find?_eq_some hw
        rw [h, List.mem_append, List.mem_singleton] at hw'
        rcases hw' with hw' | rfl
        · exact absurd hf.symm (hl w hw')
        · exact .inr rfl
      next => exact .inl rfl
  · exact ⟨e, hmem, .inl rfl⟩

/-- The entry of a remap request that the pool has served (R121). -/
theorem remapRequest_entry {src : RemapSource} {p : Nat} (h : remapHas s page = false) (hp : poolPage s = some p) :
    ∃ e ∈ (remapRequest page src s).integ.remaps, e.failed = page ∧ e.spare = p ∧ e.source = src ∧ e.pointer = 0 ∧
      e.state ≠ .active ∧ e.created = timeNow s := by
  obtain ⟨v, hv⟩ : ∃ v, v = report 0x0A (remapBody ⟨page, p, .waiting, src, 0, timeNow s⟩)
      (s.updInteg fun u => { u with remaps := u.remaps ++ [⟨page, p, .waiting, src, 0, timeNow s⟩] }) := ⟨_, rfl⟩
  have hr : remapRequest page src s = copyPump v := by simp [remapRequest, h, hp, hv]
  have hlist : v.integ.remaps = s.integ.remaps ++ [⟨page, p, .waiting, src, 0, timeNow s⟩] := by simp [hv]
  have hnew : ∀ y ∈ s.integ.remaps, y.failed ≠ page := by
    simpa [remapHas] using h
  obtain ⟨e, hmem, rfl | rfl⟩ := copyPump_last hlist hnew rfl
  · exact ⟨_, hr ▸ hmem, rfl, rfl, rfl, rfl, by simp, rfl⟩
  · exact ⟨_, hr ▸ hmem, rfl, rfl, rfl, rfl, by simp, rfl⟩

theorem examineRemap_range (h : field d 8 8 % 4096 ≠ 0 ∨ 2 ^ 36 ≤ field d 8 8) : examineRemap d s = (.range, s) := by
  simp only [examineRemap, h, if_true]

/-- A REMAP record of a page that is none of SPARE's makes the request of R121. -/
theorem examineRemap_page (hp : field d 8 8 = 4096 * page) (hlt : field d 8 8 < 2 ^ 36) : examineRemap d s =
    if inSpare s page then (.conflict, s)
    else (if remapHas s page then .applied else if poolPage s = none then .conflict else .applied,
      remapRequest page .copy s) := by
  have hdiv : field d 8 8 / 4096 = page := by omega
  have hno : ¬(field d 8 8 % 4096 ≠ 0 ∨ 2 ^ 36 ≤ field d 8 8) := by omega
  simp only [examineRemap, remapCheck, applyRemap, hdiv, if_neg hno]
  split
  · rfl
  · rfl

theorem remapRequest_changes (page : Nat) (src : RemapSource) (s : State) :
    OnlyChanges [.integ, .path, .rep, .fault, .freeUses] s (remapRequest page src s) :=
  onlyChanges_iff.mpr (by simp)

/-- A REMAP record that asks for a remapped page again (R121). -/
theorem remapRecord_duplicate (h : RecordNext s id r 0x0B a) (hd : d = seen r) (hp : field d 8 8 = 4096 * page)
    (hlt : field d 8 8 < 2 ^ 36) (hs : inSpare s page = false) (hh : remapHas s page = true) :
    ∃ t, exec .remapRecord s = .next t ∧ t.integ = { s.integ with
      counters := { s.integ.counters with remapDuplicate := satInc s.integ.counters.remapDuplicate } } ∧
      RecordDone s t 0 r ∧ OnlyChanges [.integ, .rep, .path, .dec] s t := by
  subst hd
  have hx : remapRequest page .copy s = integCount (fun c =>
      { c with remapDuplicate := satInc c.remapDuplicate }) s := by
    simp [remapRequest, hh]
  have hrow := remapRecord_row h ((examineRemap_page hp hlt).trans (by rw [if_neg (by simp [hs]), if_pos hh]))
  rw [hx] at hrow
  have hcourse : Course (fun _ => False) IsEntry s
      (integCount (fun c => { c with remapDuplicate := satInc c.remapDuplicate }) s) 0 := integ_course s
  have hblocks : OnlyChanges [.integ, .path, .rep] s
      (integCount (fun c => { c with remapDuplicate := satInc c.remapDuplicate }) s) :=
    onlyChanges_iff.mpr (by simp [integCount])
  refine ⟨_, hrow, by simp [recordEnd, integCount], hcourse.recordDone h.1 (Nat.le_refl 0) rfl,
    (recordEnd_changes hblocks (by decide) (by decide) .applied).mono (by decide)⟩

/-- A REMAP record that the pool serves (R121). -/
theorem remapRecord_served {p : Nat} (h : RecordNext s id r 0x0B a) (hd : d = seen r)
    (hp : field d 8 8 = 4096 * page) (hlt : field d 8 8 < 2 ^ 36) (hs : inSpare s page = false)
    (hh : remapHas s page = false) (hpool : poolPage s = some p) : ∃ t e, exec .remapRecord s = .next t ∧
      e ∈ t.integ.remaps ∧ e.failed = page ∧ e.spare = p ∧ e.source = .copy ∧ e.pointer = 0 ∧ e.state ≠ .active ∧
      e.created = timeNow s ∧ t.integ.remaps.map (·.failed) = s.integ.remaps.map (·.failed) ++ [page] ∧
      t.integ.counters = s.integ.counters ∧ ReportAmong s t 0 (timeNow s) 0x0A
        [⟨16, 8, pageAddress page⟩, ⟨24, 8, pageAddress p⟩, ⟨32, 1, 0⟩] ∧
      RecordDone s t 1 r ∧ OnlyChanges [.integ, .rep, .path, .dec] s t := by
  subst hd
  have hrow := remapRecord_row h ((examineRemap_page hp hlt).trans (by
    rw [if_neg (by simp [hs]), if_neg (by simp [hh]), if_neg (by simp [hpool])]))
  obtain ⟨e, hmem, hfailed, hspare, hsrc, hptr, hstate, hcreated⟩ := remapRequest_entry (src := .copy) hh hpool
  obtain ⟨hinteg, hlist, -⟩ := (remapRequest_integ (page := page) (source := .copy) (s := s) rfl).2.2 p hh hpool
  obtain ⟨v, hv⟩ : ∃ v, v = s.updInteg fun u =>
    { u with remaps := u.remaps ++ [⟨page, p, .waiting, .copy, 0, timeNow s⟩] } := ⟨_, rfl⟩
  have hx : remapRequest page .copy s = copyPump (report 0x0A
      (remapBody ⟨page, p, .waiting, .copy, 0, timeNow s⟩) v) := by
    simp [remapRequest, hh, hpool, hv]
  have hcv : Course (fun _ => False) IsEntry s v 0 := hv ▸ integ_course s
  have hrep : Course (fun _ => False) IsEntry v
      (report 0x0A (remapBody ⟨page, p, .waiting, .copy, 0, timeNow s⟩) v) 1 := (Reporting.one _ _ _).course
  have hcourse : Course (fun _ => False) IsUnit s (remapRequest page .copy s) (0 + 1 + 0) :=
    hx ▸ (hcv.trans hrep).units.trans (copyPump_course _)
  have hamong : ReportAmong s (remapRequest page .copy s) 0 (timeNow s) 0x0A
      (remapBody ⟨page, p, .waiting, .copy, 0, timeNow s⟩) :=
    hx ▸ hcv.among_now (Nat.le_refl 0) (copyPump_course (N := fun _ => False) _).toTurnover
  have hblocks : OnlyChanges [.integ, .path, .rep] s (remapRequest page .copy s) :=
    onlyChanges_iff.mpr (by rw [hx, hv]; simp)
  have hend : (recordEnd s id r .applied (remapRequest page .copy s)).integ = (remapRequest page .copy s).integ := by
    simp [recordEnd]
  refine ⟨_, e, hrow, hend ▸ hmem, hfailed, hspare, hsrc, hptr, hstate, hcreated, ?_, ?_,
    (hcourse.toTurnover.recordEnd_stay (fun _ => .inl) h.1 .applied).among hamong,
    hcourse.appliedLast (fun _ => .inl) h.1 (Nat.le_refl 1) (hblocks .dec (by decide)),
    (recordEnd_changes hblocks (by decide) (by decide) .applied).mono (by decide)⟩
  · rw [hend, hlist]
  · rw [hend, hinteg]

/-- A REMAP record that finds the pool empty (R121, R125). -/
theorem remapRecord_exhausted (h : RecordNext s id r 0x0B a) (hd : d = seen r) (hp : field d 8 8 = 4096 * page)
    (hlt : field d 8 8 < 2 ^ 36) (hs : inSpare s page = false) (hh : remapHas s page = false)
    (hpool : poolPage s = none) : ∃ t, exec .remapRecord s = .next t ∧
      t.integ = { s.integ with
        counters := { s.integ.counters with remapExhausted := satInc s.integ.counters.remapExhausted } } ∧
      t.fault.remapExhausted.raw = true ∧ FaultReported s t 1 .remapExhausted 3 ∧
      ReportAmong s t 1 (timeNow s) 0x0B [⟨16, 8, pageAddress page⟩, ⟨32, 1, 0⟩] ∧
      t.dec = { s.dec with conflict := satInc s.dec.conflict } ∧ ResultLast s t 2 r 4 ∧
      OnlyChanges [.integ, .rep, .path, .fault, .freeUses, .dec] s t := by
  subst hd
  have hrow := remapRecord_row h ((examineRemap_page hp hlt).trans (by
    rw [if_neg (by simp [hs]), if_neg (by simp [hh]), if_pos hpool]))
  have hinteg := (remapRequest_integ (page := page) (source := .copy) (s := s) rfl).2.1 hh hpool
  have hx : remapRequest page .copy s = unordered [raiseCondition .remapExhausted,
      report 0x0B [⟨16, 8, pageAddress page⟩, ⟨32, 1, 0⟩]]
      (integCount (fun c => { c with remapExhausted := satInc c.remapExhausted }) s) := by
    simp only [remapRequest, hh, hpool]
    rfl
  have hblocks := remapRequest_changes page .copy s
  obtain ⟨⟨k, hk, hcourse⟩, hamong, hfault, hraw, -⟩ :=
    raised_reported (N := fun _ => False) hx (integ_course s) (by rfl)
  generalize remapRequest page .copy s = x at *
  have hstay := hcourse.toTurnover.recordEnd_stay (fun _ h => h) h.1 .conflict
  have hf : (recordEnd s id r .conflict x).fault = x.fault := by simp [recordEnd]
  refine ⟨_, hrow, ?_, ?_, hfault _ hstay hf, hstay.among hamong, ?_,
    hcourse.resultLast (fun _ h => h) h.1 hk .conflict,
    (recordEnd_changes hblocks (by decide) (by decide) .conflict).mono (by decide)⟩
  · rw [← hinteg]
    simp [recordEnd]
  · rw [hf]
    exact hraw
  · have hdec : x.dec = s.dec := hblocks .dec (by decide)
    simp [recordEnd, countOutcome, hdec]

/-- Settles O56: each record by its checks, then by the operation that it asks of its unit. -/
theorem memoryRecords : Obligations.MemoryRecords := by
  unfold Obligations.MemoryRecords
  refine ⟨fun s id r a d h hd h1 h2 h3 h4 h5 h6 h7 h8 h9 h10 => ?_, fun s id r a d h hd hbad => ?_,
    fun s id r a d h hd h1 h2 h3 h4 h5 h6 => ?_, fun s id r a d h hd hbad => ?_,
    fun s id r a d h hd => ⟨fun hbad => ?_, fun page hp hlt hs => ?_⟩,
    fun s id r a d page h hd hp hlt hs => ⟨fun hh => ?_, fun p hh hpool => ?_, fun hh hpool => ?_⟩⟩
  · have ha : field d 4 1 = a := hd ▸ h.action
    exact ha ▸ portsRecord_done h hd (portsCheck_applied_iff.mpr ⟨ha ▸ ⟨h1, h2⟩, ⟨h3, h4⟩, ⟨h5, h6⟩, ⟨h7, h8⟩, h9, h10⟩)
  · have ha : field d 4 1 = a := hd ▸ h.action
    refine portsRecord_refuses h (hd ▸ portsCheck_range fun hok => ?_)
    rw [portsCheck_applied_iff] at hok
    omega
  · have ha : field d 4 1 = a := hd ▸ h.action
    have hc : scrubCheck d = .applied := if_neg (by omega)
    obtain ⟨t, hrow, hinteg, hdone, hblocks⟩ := scrubRecord_done h hd hc
    refine ⟨t, hrow, ?_, ?_, ?_, ?_, ?_, ?_, fun hmove => ?_, fun hfirst hlast => ?_, hdone, hblocks⟩
    all_goals rw [hinteg]
    · rfl
    · exact ha
    · rfl
    · rfl
    · rfl
    · rfl
    · simp [applyScrub, hmove]
    · simp [applyScrub, hfirst, hlast]
  · have ha : field d 4 1 = a := hd ▸ h.action
    exact scrubRecord_refuses h (hd ▸ if_pos (by omega))
  · have hrow := remapRecord_row h (examineRemap_range (hd ▸ hbad))
    exact recordEnd_refused .range h.1 hrow
  · have hrow := remapRecord_row h ((examineRemap_page (s := s) (hd ▸ hp) (hd ▸ hlt)).trans (if_pos hs))
    exact recordEnd_refused .conflict h.1 hrow
  · exact remapRecord_duplicate h hd hp hlt hs hh
  · exact remapRecord_served h hd hp hlt hs hh hpool
  · exact remapRecord_exhausted h hd hp hlt hs hh hpool

end MemoryRecords
end Sys2Proof.Machine

namespace Sys2Proof.Machine

/-! ### The requests of an event whose base is not the state before it (R68, R101) -/

section Gathering

variable {N : Cls → Prop} {J : Job → Prop} {s t u x : State} {id k n m : Nat} {r : LineRequest} {o : RecordOutcome}

/-- From `s` to `t` requests go, and those that come have new numbers. -/
structure Gathers (s t : State) : Prop where
  numbers : s.path.nextId ≤ t.path.nextId
  reqs : ∀ q ∈ t.path.reqs, q ∈ s.path.reqs ∨ s.path.nextId ≤ q.id

theorem Gathers.trans (h : Gathers s t) (h2 : Gathers t u) : Gathers s u :=
  ⟨h.numbers.trans h2.numbers, fun q hq => (h2.reqs q hq).elim (h.reqs q) fun hid => .inr (h.numbers.trans hid)⟩

theorem Turnover.gathers (h : Turnover N J s t) : Gathers s t :=
  ⟨h.numbers, fun _ hq => (h.new hq).imp_right And.left⟩

/-- Where a port's request goes on, the entries that stand among gathered requests stand still. -/
theorem Gathers.setReq_keeps {p : Port} {job : Job} {st : Stage} (h : Gathers s t) (hn : Next s p id r) {g : Ring}
    {time : Stamp} {code : Nat} {body : List FieldSpec} (hp : pathLaw s) (hr : ReportAt s t g n time code body) :
    ReportAt s (setReq id job st t) g n time code body := by
  intro w hw
  obtain ⟨q, hq, hline, hstage, hjob⟩ := hr w hw
  obtain ⟨x, hx, hxid, hxp⟩ := hn.mem
  refine ⟨q, List.mem_map.mpr ⟨q, hq, if_neg fun hid => ?_⟩, hline, hstage, hjob⟩
  obtain ⟨-, -, -, -, hids, hlt, -⟩ := hp
  rcases h.reqs q hq with hq | hnew
  · obtain rfl := List.inj_on_of_nodup_map hids hq hx (hid.trans hxid.symm)
    rw [isPortReq, hjob] at hxp
    simp at hxp
  · have := hlt x hx
    omega

/-- A report that stands behind a base of the same report unit and the same REPORT window. -/
theorem ReportAt.of_base {g : Ring} {time : Stamp} {code : Nat} {body : List FieldSpec}
    (h : ReportAt u t g k time code body) (hrep : u.rep = s.rep)
    (hw : ∀ w, windowOfKind s .report = some w → windowOfKind u .report = some w) :
    ReportAt s t g k time code body := fun w hs => by
  have := h w (hw w hs)
  rwa [hrep] at this

/-- The base of an event: requests may have gone, and what the report unit writes by stands as before. -/
structure Based (s u : State) : Prop where
  reqs : Gathers s u
  rep : u.rep = s.rep
  time : timeNow u = timeNow s
  window : s.rep.ring ≠ none → ∀ w, windowOfKind s .report = some w → windowOfKind u .report = some w

/-- A report of a record's event, made behind the event's base, stands at its end. -/
theorem Based.recordEnd_among (h : Based s u) (ht : Turnover N IsEntry u x) (hn : Next s .site id r)
    {code : Nat} {body : List FieldSpec} (o : RecordOutcome)
    (hr : ∀ g, u.rep.ring = some g → g.releasing = false → unread g + n < g.size - 1 →
      ∃ k ≤ n, ReportAt u x g k (timeNow s) code body) :
    ReportAmong s (recordEnd s id r o x) n (timeNow s) code body := by
  intro hp g hg hrel hu
  obtain ⟨k, hk, hm⟩ := hr g (h.rep ▸ hg) hrel hu
  have hres := recordResult_turnover (N := N) s x r o
  refine ⟨k, hk, ((h.reqs.trans ht.gathers).trans hres.gathers).setReq_keeps hn hp ?_⟩
  exact (hres.keeps hm).of_base h.rep (h.window (by simp [hg]))

/-- The result of a record comes last behind the event's base. -/
theorem Based.resultLast (h : Based s u) (hc : Course N IsEntry u x n) (hn : Next s .site id r) (hm : n ≤ m)
    (o : RecordOutcome) : ResultLast s (recordEnd s id r o x) m r (outcomeCode o) := by
  have hcount : Course N IsEntry u (countOutcome o x) (n + 0) := hc.trans (.of_same rfl rfl rfl rfl)
  have htaken : ReportsTaken u (recordEnd s id r o x) (n + 1) :=
    (hcount.taken.trans (reportAt_taken (timeNow s) 0x01 (resultBody r (outcomeCode o)) _)).silent rfl
  refine ⟨n, hm, by rwa [ReportsTaken, h.rep] at htaken, fun hp g hg hrel hu => ?_⟩
  · have hres := recordResult_turnover (N := N) s x r o
    refine ((h.reqs.trans hc.toTurnover.gathers).trans hres.gathers).setReq_keeps hn hp ?_
    exact (hcount.made (h.rep ▸ hg) hrel hu _ _ _).of_base h.rep (h.window (by simp [hg]))

end Gathering

/-! ### The WINDOW record (R99 to R101) -/

section WindowRecords

variable {s t : State} {id i : Nat} {r : LineRequest} {d : Line} {w : Window} {k : WindowKind} {o : RecordOutcome}

theorem windowRecord_applies (h : RecordNext s id r 0x01 i) (hc : windowCheck s (seen r) = .applied) :
    exec .windowRecord s = .next (recordEnd s id r .applied (applyWindow (seen r) s)) := by
  show Host.Outcome.next (classifyWhen _ .site s) = _
  rw [record_applies h rfl (by decide) fun _ => by simp [examineKind, checked, hc]; rfl]

theorem windowRecord_refuses (h : RecordNext s id r 0x01 i) (ho : o ≠ .applied) (hc : windowCheck s (seen r) = o) :
    RecordRefused .windowRecord s r (outcomeCode o) (countOutcome o s).dec :=
  record_refuses h rfl rfl ho fun _ => by simp [examineKind, checked, hc, ho]

/-! The checks. -/

/-- The ranges of R99. -/
theorem windowRange_iff : windowRange k d = true ↔ field d 8 8 % 4096 = 0 ∧ 1 ≤ field d 16 4 ∧ field d 16 4 ≤ 65536 ∧
    field d 8 8 + field d 16 4 * 4096 ≤ 2 ^ 36 ∧ sizeOk k (field d 16 4) = true ∧
    (k = .txRing ∨ k = .buffer → field d 6 1 ≤ 4) := by
  simp only [windowRange, Bool.and_eq_true, Bool.or_eq_true, decide_eq_true_eq, Bool.not_eq_true', and_assoc,
    ← needsClass_iff]
  cases needsClass k <;> simp

theorem sizeOk_iff {n : Nat} (hk : k ≠ .control) : sizeOk k n = true ↔
    (k = .partTx → 17 ≤ n) ∧ (k = .status ∨ k = .notice → n = 1) ∧ (k = .spare → n ≤ 32) := by
  cases k <;> simp [sizeOk] at hk ⊢

/-- A record's index is one that a record may name, and its contents are in their ranges. -/
def WindowInRange (d : Line) : Prop := 1 ≤ field d 4 1 ∧ field d 4 1 ≤ 15 ∧
  (field d 5 1 = 0 ∨ ∃ k, windowKindOfCode (field d 5 1) = some k ∧ windowRange k d = true)

theorem windowKindOfCode_zero : windowKindOfCode 0 = none := rfl

/-- The range checks as `windowCheck` makes them. -/
theorem windowInRange_iff : WindowInRange d ↔ ¬(field d 4 1 = 0 ∨ 15 < field d 4 1 ∨
    (match windowContent d with
      | some w => !windowRange w.kind d
      | none => decide (field d 5 1 ≠ 0)) = true) := by
  unfold WindowInRange windowContent
  cases hk : windowKindOfCode (field d 5 1) with
  | none =>
    simp only [Option.map_none, reduceCtorEq, false_and, exists_false, or_false, decide_eq_true_eq]
    omega
  | some k =>
    have h0 : field d 5 1 ≠ 0 := fun h0 => by
      rw [h0, windowKindOfCode_zero] at hk
      cases hk
    have hkind : (windowOf k d).kind = k := rfl
    simp only [Option.map_some, hkind, Option.some.injEq, h0, false_or, exists_eq_left']
    cases windowRange k d <;> simp <;> omega

/-- A WINDOW record by its checks in order (R99, R100). -/
theorem windowCheck_cases :
    (¬WindowInRange d → windowCheck s d = .range) ∧
    (WindowInRange d → (∃ w, windowContent d = some w ∧ Clashes s (field d 4 1) w) → windowCheck s d = .conflict) ∧
    (WindowInRange d → ¬(∃ w, windowContent d = some w ∧ Clashes s (field d 4 1) w) →
      (windowContent d = windowEntry s (field d 4 1) → windowCheck s d = .applied) ∧
      (windowContent d ≠ windowEntry s (field d 4 1) → windowCheck s d =
        if windowBusy s (field d 4 1) (windowContent d) = true then .busy else .applied)) := by
  have hclash (hr : WindowInRange d) : (match windowContent d with
      | some w => windowConflict s (field d 4 1) w
      | none => false) = true ↔ ∃ w, windowContent d = some w ∧ Clashes s (field d 4 1) w := by
    obtain ⟨-, hi, -⟩ := hr
    cases windowContent d with
    | none => simp
    | some w => simp [windowConflict_iff hi]
  unfold windowCheck
  refine ⟨fun h => ?_, fun h hc => ?_, fun h hc => ⟨fun he => ?_, fun he => ?_⟩⟩
  · rw [windowInRange_iff, not_not] at h
    exact if_pos h
  · exact (if_neg (windowInRange_iff.mp h)).trans (if_pos ((hclash h).mpr hc))
  · exact (if_neg (windowInRange_iff.mp h)).trans ((if_neg fun hn => hc ((hclash h).mp hn)).trans (if_pos he))
  · exact (if_neg (windowInRange_iff.mp h)).trans ((if_neg fun hn => hc ((hclash h).mp hn)).trans (if_neg he))

/-- The window's lines that a class lists or that are in flight (R100). -/
theorem linesInUse_iff : linesInUse s w = true ↔ ∃ line, windowCovers w line = true ∧
    (inFlight s line = true ∨ ∃ c, listed (clsAt s c) line = true) := by
  simp only [linesInUse, inFlight, listed, Bool.or_eq_true, List.any_eq_true, beq_iff_eq]
  constructor
  · rintro (⟨e, he, hc⟩ | ⟨c, -, x, hx, hc⟩)
    · exact ⟨_, hc, .inl ⟨e, he, rfl⟩⟩
    · exact ⟨_, hc, .inr ⟨c, x, hx, rfl⟩⟩
  · rintro ⟨line, hc, ⟨e, he, rfl⟩ | ⟨c, x, hx, rfl⟩⟩
    · exact .inl ⟨e, he, hc⟩
    · exact .inr ⟨c, mem_allClasses c, x, hx, hc⟩

/-- The table of R100. -/
theorem windowBusy_iff {new : Option Window} : windowBusy s i new = true ↔ (∃ w, windowEntry s i = some w ∧
    (((w.kind = .txRing ∨ w.kind = .partTx) ∧ ∃ line, windowCovers w line = true ∧
        (inFlight s line = true ∨ ∃ c, listed (clsAt s c) line = true)) ∨
      (w.kind = .spare ∧ s.integ.remaps ≠ []) ∨ (w.kind = .report ∧ s.rep.ring ≠ none) ∨
      fenceMeets s w.base w.size = true)) ∨
    ∃ w, new = some w ∧ fenceMeets s w.base w.size = true := by
  have hring : s.rep.ring.isSome = true ↔ s.rep.ring ≠ none := by cases s.rep.ring <;> simp
  unfold windowBusy
  cases windowEntry s i <;> cases new <;> simp [replaceBusy, linesInUse_iff, ← hring, or_assoc]

/-- The contents of a record as its fields give them (R99). -/
theorem windowContent_eq {new : Option Window} {base n : Nat} (hb : base = field d 8 8) (hn : n = field d 16 4)
    (h0 : field d 5 1 = 0 → new = none)
    (hs : ∀ k, windowKindOfCode (field d 5 1) = some k → new = some ⟨k, base / 4096, n,
      if k = .txRing ∨ k = .buffer then clsOfCode (field d 6 1) else none,
      if k = .spare then ⟨false, false, false, false, false, false⟩
      else ⟨(getByte d 7).getLsbD 0, (getByte d 7).getLsbD 1, (getByte d 7).getLsbD 2, (getByte d 7).getLsbD 3,
        (getByte d 7).getLsbD 4, (getByte d 7).getLsbD 5⟩⟩) (hr : WindowInRange d) : windowContent d = new := by
  obtain ⟨-, -, hz | ⟨k, hk, -⟩⟩ := hr
  · rw [h0 hz, windowContent, hz, windowKindOfCode_zero]
    rfl
  · rw [hs k hk, windowContent, hk, hb, hn]
    have hcls : (if needsClass k then clsOfCode (field d 6 1) else none) =
        if k = .txRing ∨ k = .buffer then clsOfCode (field d 6 1) else none := by
      simp only [← needsClass_iff]
    simp only [Option.map_some, windowOf, hcls, permsOf]

/-! The application. -/

/-- The table with a record's contents in their entry,
where the old entry is not PART_TX's: the record's whole effect. -/
def windowSet (d : Line) (s : State) : State :=
  s.updWindows fun t => t.setIfInBounds (field d 4 1) (windowContent d)

theorem applyWindow_plain (h : windowContent d ≠ windowEntry s (field d 4 1))
    (hk : ∀ w, windowEntry s (field d 4 1) = some w → w.kind ≠ .partTx) : applyWindow d s = windowSet d s := by
  simp only [applyWindow, if_neg h]
  split
  next w hw => exact if_neg (hk w hw)
  next => rfl

theorem applyWindow_partTx (h : windowContent d ≠ windowEntry s (field d 4 1))
    (hw : windowEntry s (field d 4 1) = some w) (hk : w.kind = .partTx) :
    applyWindow d s = abortLoop .window (resetSlots (windowSet d s)) := by
  rw [applyWindow, if_neg h]
  simp only [hw, if_pos hk]
  rfl

/-- Where a ring stands, an accepted record leaves the REPORT window (R93, R100). -/
theorem windowSet_report (hi : field d 4 1 ≤ 15) (hring : s.rep.ring ≠ none)
    (hc : ¬∃ w, windowContent d = some w ∧ Clashes s (field d 4 1) w)
    (hb : windowBusy s (field d 4 1) (windowContent d) = false) (ht : t.windows = (windowSet d s).windows)
    (w : Window) (hw : windowOfKind s .report = some w) : windowOfKind t .report = some w := by
  obtain ⟨hkind, j, hj⟩ := windowOfKind_some hw
  have hentry := windowEntry_set hi (windowContent d) (t := t) (s := s) ht
  have hold : ∀ x, windowEntry s (field d 4 1) = some x → x.kind ≠ .report := fun x hx hk => by
    have hbusy : windowBusy s (field d 4 1) (windowContent d) = true :=
      windowBusy_iff.mpr (.inl ⟨x, hx, .inr (.inr (.inl ⟨hk, hring⟩))⟩)
    rw [hb] at hbusy
    cases hbusy
  have hji : j ≠ field d 4 1 := fun he => hold w (he ▸ hj) hkind
  have hnew : ∀ x, windowContent d = some x → x.kind ≠ .report := fun x hx hk =>
    hc ⟨x, hx, .inr (.inl ⟨j, w, hji, hj, by rw [hk, hkind], by simp [hk], by simp [hk], by simp [hk]⟩)⟩
  rw [← hw]
  refine windowOfKind_of_entries fun y x hx => ?_
  rw [hentry]
  split
  next hy =>
    subst hy
    exact ⟨fun h => absurd hx (hnew x h), fun h => absurd hx (hold x h)⟩
  next => rfl

theorem resetSlots_gathers (s : State) : Gathers s (resetSlots s) :=
  ⟨Nat.le_refl _, fun _ hq => .inl (List.mem_of_mem_filter hq)⟩

/-- The base of an accepted record's event: the table is written, and the slots of a replaced PART_TX are freed. -/
theorem windowSet_based (hi : field d 4 1 ≤ 15) (hc : ¬∃ w, windowContent d = some w ∧ Clashes s (field d 4 1) w)
    (hb : windowBusy s (field d 4 1) (windowContent d) = false) :
    Based s (windowSet d s) ∧ Based s (resetSlots (windowSet d s)) :=
  ⟨⟨⟨Nat.le_refl _, fun _ => .inl⟩, rfl, rfl, fun hr => windowSet_report hi hr hc hb rfl⟩,
    ⟨⟨Nat.le_refl _, (resetSlots_gathers (windowSet d s)).reqs⟩, by simp [windowSet], by simp [timeNow, windowSet],
      fun hr => windowSet_report hi hr hc hb (by simp)⟩⟩

theorem resetSlots_xfer (s : State) :
    (resetSlots s).xfer = { s.xfer with slots := Vector.replicate 64 .free, ringPointer := 0 } := rfl

theorem resetSlots_reqs (s : State) : ∀ q ∈ (resetSlots s).path.reqs, stationOf q.job ≠ .partTx := fun q hq hs => by
  obtain ⟨-, hj⟩ := List.mem_filter.mp hq
  cases hjob : q.job <;> simp [hjob, stationOf] at hs hj

/-- An applied WINDOW record that leaves its entry: its count and its result alone (R99). -/
theorem windowRecord_same (h : RecordNext s id r 0x01 i) (hc : windowCheck s (seen r) = .applied)
    (he : windowContent (seen r) = windowEntry s (field (seen r) 4 1)) : ∃ t, exec .windowRecord s = .next t ∧
      RecordDone s t 0 r ∧ OnlyChanges [.dec, .rep, .path] s t := by
  have hrow := windowRecord_applies h hc
  rw [applyWindow_same he] at hrow
  exact ⟨_, hrow, (Course.refl s : Course (fun _ => False) IsEntry s s 0).recordDone h.1 (Nat.le_refl 0) rfl,
    onlyChanges_iff.mpr (by simp [recordEnd])⟩

/-- An applied WINDOW record whose entry is not PART_TX's (R99). -/
theorem windowRecord_plain (h : RecordNext s id r 0x01 i) (hc : windowCheck s (seen r) = .applied)
    (hb : Based s (windowSet (seen r) s)) (hn : windowContent (seen r) ≠ windowEntry s (field (seen r) 4 1))
    (hk : ∀ w, windowEntry s (field (seen r) 4 1) = some w → w.kind ≠ .partTx) : ∃ t, exec .windowRecord s = .next t ∧
      RecordDone s t 1 r ∧ t.windows = (windowSet (seen r) s).windows ∧
      OnlyChanges [.windows, .dec, .rep, .path] s t := by
  have hrow := windowRecord_applies h hc
  rw [applyWindow_plain hn hk] at hrow
  have hdec : (windowSet (seen r) s).dec = s.dec := rfl
  have hblocks : OnlyChanges [.windows, .path, .rep] s (windowSet (seen r) s) :=
    onlyChanges_iff.mpr (by simp [windowSet])
  generalize windowSet (seen r) s = u at *
  refine ⟨_, hrow, ⟨?_, hb.resultLast (Course.refl u : Course (fun _ => False) IsEntry u u 0) h.1 (by decide) .applied⟩,
    ?_, (recordEnd_changes hblocks (by decide) (by decide) .applied).mono (by decide)⟩
  · simp [RecordApplied, recordEnd, countOutcome, hdec]
  · simp [recordEnd]

/-- The end of a record's event makes nothing of PART_TX's. -/
theorem recordEnd_partTx {N : Cls → Prop} {u x : State} (h : Turnover N IsEntry u x)
    (hu : ∀ q ∈ u.path.reqs, stationOf q.job ≠ .partTx) :
    ∀ q ∈ (recordEnd s id r o x).path.reqs, stationOf q.job ≠ .partTx := by
  intro q hq
  obtain ⟨y, hy, rfl⟩ := List.mem_map.mp hq
  split
  · simp [stationOf]
  · rcases (h.trans (recordResult_turnover s x r o)).new hy with hy | ⟨-, ⟨d, hj⟩ | ⟨c, d, -, hj⟩⟩
    · exact hu y hy
    · simp [hj, stationOf]
    · simp [hj, stationOf]

/-- An applied WINDOW record that replaces PART_TX's entry (R68, R99, R101, R150). -/
theorem windowRecord_partTx (h : RecordNext s id r 0x01 i) (hc : windowCheck s (seen r) = .applied)
    (hb : Based s (resetSlots (windowSet (seen r) s)))
    (hn : windowContent (seen r) ≠ windowEntry s (field (seen r) 4 1))
    (hw : windowEntry s (field (seen r) 4 1) = some w) (hk : w.kind = .partTx) : ∃ t, exec .windowRecord s = .next t ∧
      RecordDone s t 1 r ∧ t.windows = (windowSet (seen r) s).windows ∧
      t.xfer = { s.xfer with slots := Vector.replicate 64 .free, ringPointer := 0 } ∧
      (∀ q ∈ t.path.reqs, stationOf q.job ≠ .partTx) ∧
      (loopActive s.loop = true → SessionAborted s t 0 .window) ∧ (loopActive s.loop = false → t.loop = s.loop) ∧
      OnlyChanges [.windows, .dec, .rep, .path, .march, .xfer, .loop] s t := by
  have hrow := windowRecord_applies h hc
  rw [applyWindow_partTx hn hw hk] at hrow
  have hxfer := resetSlots_xfer (windowSet (seen r) s)
  have hreqs := resetSlots_reqs (windowSet (seen r) s)
  have hu : (resetSlots (windowSet (seen r) s)).windows = (windowSet (seen r) s).windows ∧
      (resetSlots (windowSet (seen r) s)).loop = s.loop ∧ (resetSlots (windowSet (seen r) s)).dec = s.dec ∧
      OnlyChanges [.windows, .path, .march, .xfer] s (resetSlots (windowSet (seen r) s)) :=
    ⟨by simp, by simp [windowSet], by simp [windowSet], onlyChanges_iff.mpr (by simp [windowSet])⟩
  rw [show (windowSet (seen r) s).xfer = s.xfer from rfl] at hxfer
  generalize (windowSet (seen r) s).windows = table at *
  generalize resetSlots (windowSet (seen r) s) = u at *
  obtain ⟨hwindows, hloop, hdec, hblocks⟩ := hu
  obtain ⟨n, hn1, hrep⟩ := abortLoop_takes .window u
  have hcourse : Course (fun _ => False) IsEntry u (abortLoop .window u) n := hrep.course
  have hbx : OnlyChanges [.windows, .path, .march, .xfer, .loop, .rep] s (abortLoop .window u) :=
    (hblocks.mono (by decide)).trans (onlyChanges_iff.mpr (by simp))
  refine ⟨_, hrow, ⟨?_, hb.resultLast hcourse h.1 hn1 .applied⟩, ?_, ?_, fun q hq => ?_, fun ha => ?_, fun ha => ?_,
    (recordEnd_changes hbx (by decide) (by decide) .applied).mono (by decide)⟩
  · simp [RecordApplied, recordEnd, countOutcome, hdec]
  · simp [recordEnd, hwindows]
  · simp [recordEnd, hxfer]
  · exact recordEnd_partTx hcourse.toTurnover hreqs q hq
  · have hactive : loopActive u.loop = true := by rwa [hloop]
    have hend : (recordEnd s id r .applied (abortLoop .window u)).loop = abortedLoop .window u.loop := by
      simp [recordEnd, abortLoop_loop hactive]
    obtain ⟨v, hv, hreport⟩ := abortLoop_reported (cause := .window) hactive
    have hcv : Course (fun _ => False) IsEntry u v 0 := hv.course
    refine ⟨by rw [hend, hloop]; rfl, ?_⟩
    rw [hend]
    refine hb.recordEnd_among hcourse.toTurnover h.1 .applied fun g hg hr hu => ⟨0, Nat.le_refl 0, ?_⟩
    have hmade := hcv.made hg hr hu (timeNow v) 0x0F (loopDoneBody (abortedLoop .window u.loop))
    rw [show timeNow s = timeNow v from (hcv.time.trans hb.time).symm]
    exact (hreport.turnover (N := fun _ => False)).keeps hmade
  · have hidle : loopActive u.loop = false := by rwa [hloop]
    simp [recordEnd, abortLoop_idle hidle, hloop]

/-- Settles O52: the record's checks in their order, and of an accepted record whether its entry was PART_TX's. -/
theorem windowRecord : Obligations.WindowRecord := by
  unfold Obligations.WindowRecord
  intro s id r i base n d new ok clash busy h hd hbase hsize hnone hsome hok hclash hbusy
  subst hd
  have hi : field (seen r) 4 1 = i := h.action
  have hok : ok ↔ WindowInRange (seen r) := by
    rw [hok, WindowInRange, hi]
    refine and_congr_right fun _ => and_congr_right fun _ => or_congr_right (exists_congr fun k => ?_)
    refine and_congr_right fun hk => ?_
    rw [windowRange_iff, sizeOk_iff (windowKindOfCode_ne_control hk), ← hbase, ← hsize]
    simp only [and_assoc]
  have hcontent (hr : ok) : windowContent (seen r) = new :=
    windowContent_eq hbase hsize hnone hsome (hok.mp hr)
  have hclash (hr : ok) : clash ↔ ∃ w, windowContent (seen r) = some w ∧ Clashes s (field (seen r) 4 1) w := by
    rw [hcontent hr, hi]
    exact hclash
  have hbusy (hr : ok) : busy ↔ windowBusy s (field (seen r) 4 1) (windowContent (seen r)) = true := by
    rw [hcontent hr, hi, windowBusy_iff]
    exact hbusy
  obtain ⟨hrange, hconflict, hrest⟩ := windowCheck_cases (s := s) (d := seen r)
  have happlied (hr : ok) (hc : ¬clash) (hn : new ≠ windowEntry s i) (hb : ¬busy) :
      windowCheck s (seen r) = .applied := by
    rw [(hrest (hok.mp hr) fun hx => hc ((hclash hr).mpr hx)).2 (by rwa [hcontent hr, hi]),
      if_neg fun hx => hb ((hbusy hr).mpr hx)]
  refine ⟨fun hr => ?_, fun hr hc => ?_, fun hr hc hn hb => ?_, ?_⟩
  · exact windowRecord_refuses (o := .range) h (by decide) (hrange fun hx => hr (hok.mpr hx))
  · exact windowRecord_refuses (o := .conflict) h (by decide) (hconflict (hok.mp hr) ((hclash hr).mp hc))
  · refine windowRecord_refuses (o := .busy) h (by decide) ?_
    rw [(hrest (hok.mp hr) fun hx => hc ((hclash hr).mpr hx)).2 (by rwa [hcontent hr, hi]), if_pos ((hbusy hr).mp hb)]
  · by_cases hr : ok
    swap
    · obtain ⟨t, ht, -⟩ := windowRecord_refuses (o := .range) h (by decide) (hrange fun hx => hr (hok.mpr hx))
      exact ⟨t, ht, fun hx => absurd hx hr, fun hx => absurd hx hr⟩
    by_cases hc : clash
    · obtain ⟨t, ht, -⟩ := windowRecord_refuses (o := .conflict) h (by decide)
        (hconflict (hok.mp hr) ((hclash hr).mp hc))
      exact ⟨t, ht, fun _ hx => absurd hc hx, fun _ hx => absurd hc hx⟩
    have hcx := fun hx => hc ((hclash hr).mpr hx)
    by_cases hn : new = windowEntry s i
    · have hsame : windowContent (seen r) = windowEntry s (field (seen r) 4 1) := by rw [hcontent hr, hi, hn]
      obtain ⟨t, ht, hdone, hblocks⟩ := windowRecord_same h ((hrest (hok.mp hr) hcx).1 hsame) hsame
      exact ⟨t, ht, fun _ _ _ => ⟨hdone, hblocks⟩, fun _ _ hx => absurd hn hx⟩
    by_cases hb : busy
    · obtain ⟨t, ht, -⟩ := windowRecord_refuses (o := .busy) h (by decide) (by
        rw [(hrest (hok.mp hr) hcx).2 (by rwa [hcontent hr, hi]), if_pos ((hbusy hr).mp hb)])
      exact ⟨t, ht, fun _ _ hx => absurd hx hn, fun _ _ _ hx => absurd hb hx⟩
    have hlow : field (seen r) 4 1 ≤ 15 := (hok.mp hr).2.1
    have hidle : windowBusy s (field (seen r) 4 1) (windowContent (seen r)) = false :=
      Bool.eq_false_iff.mpr fun hx => hb ((hbusy hr).mpr hx)
    have hne : windowContent (seen r) ≠ windowEntry s (field (seen r) 4 1) := by rwa [hcontent hr, hi]
    obtain ⟨hset, hreset⟩ := windowSet_based hlow hcx hidle
    have hentries (t : State) (ht : t.windows = (windowSet (seen r) s).windows) :
        windowEntry t i = new ∧ ∀ j, j ≠ i → windowEntry t j = windowEntry s j := by
      have hentry := windowEntry_set hlow (windowContent (seen r)) ht
      rw [hcontent hr, hi] at hentry
      exact ⟨by rw [hentry, if_pos rfl], fun j hj => by rw [hentry, if_neg hj]⟩
    by_cases hk : ∃ w, windowEntry s i = some w ∧ w.kind = .partTx
    · obtain ⟨w, hw, hk⟩ := hk
      obtain ⟨t, ht, hdone, hwindows, hxfer, hreqs, habort, hloop, hblocks⟩ :=
        windowRecord_partTx h (happlied hr hc hn hb) hreset hne (hi ▸ hw) hk
      obtain ⟨hnew, hothers⟩ := hentries t hwindows
      exact ⟨t, ht, fun _ _ hx => absurd hx hn, fun _ _ _ _ => ⟨hdone, hnew, hothers,
        fun hx => absurd hk (hx w hw), fun _ _ _ => ⟨hxfer, hreqs, habort, hloop⟩, hblocks⟩⟩
    · have hplain : ∀ w, windowEntry s i = some w → w.kind ≠ .partTx := fun w hw hx => hk ⟨w, hw, hx⟩
      obtain ⟨t, ht, hdone, hwindows, hblocks⟩ :=
        windowRecord_plain h (happlied hr hc hn hb) hset hne (hi ▸ hplain)
      obtain ⟨hnew, hothers⟩ := hentries t hwindows
      exact ⟨t, ht, fun _ _ hx => absurd hx hn, fun _ _ _ _ => ⟨hdone, hnew, hothers, fun _ => hblocks,
        fun w hw hx => absurd hx (hplain w hw), hblocks.mono (by decide)⟩⟩

end WindowRecords
end Sys2Proof.Machine

namespace Sys2Proof.Machine

/-! ### An accepted request goes on (R95, R96, R98) -/

section AcceptedRequests

variable {s t u : State} {p : Port} {id : Nat} {r : LineRequest} {x : Sighting} {c : Instr} {w : Window}
  {win : Option (Nat × Window)} {stamp : Option TakenStamp}

/-! The rows of the sorts (log entry 7). -/

/-- The sorts that only one port's requests are of. -/
def sortPort : Sighting → Option Port
  | .status | .txCompletion | .clearsReady | .rxCompletion | .frame | .returned => some .modem
  | .unmarked | .refused | .record _ _ => some .site
  | .parity | .denied _ | .fenced | .statusIgnored | .overwrite | .plain => none

theorem sightWrite_port {line : Nat} {m : BitVec 64} {d : Line} {q : Port}
    (h : sortPort (sightWrite p w line m d) = some q) : p = q := by
  unfold sightWrite at h
  repeat' split at h
  all_goals simp_all [sortPort]

/-- What is sighted names the port where its sort does (R96). -/
theorem sight_port {q : Port} (h : sortPort (sight s p r) = some q) : p = q := by
  simp only [sight] at h
  split at h
  · cases h
  split at h
  · cases h
  split at h
  · cases h
  split at h
  · cases h
  split at h
  · exact sightWrite_port h
  · cases h

theorem recordRow_classifies {k a : Nat} (h : recordRow k a = some c) (s : State) : ∃ sort : Sighting → Bool,
    exec c s = .next (classifyWhen sort .site s) ∧ sort (.record k a) = true := by
  have haction (k a : Nat) : isAction k a (.record k a) = true := by simp [isAction]
  have hlookup {l : List (Nat × Instr)} (h : l.lookup a = some c) : (a, c) ∈ l := by
    obtain ⟨l₁, l₂, rfl, -⟩ := List.lookup_eq_some_iff.mp h
    simp
  unfold recordRow at h
  split at h
  case h_12 =>
    obtain ⟨rfl, rfl⟩ | ⟨rfl, rfl⟩ | ⟨rfl, rfl⟩ | ⟨rfl, rfl⟩ := by simpa using hlookup h
    all_goals exact ⟨_, rfl, haction _ _⟩
  case h_13 =>
    obtain ⟨rfl, rfl⟩ | ⟨rfl, rfl⟩ := by simpa using hlookup h
    all_goals exact ⟨_, rfl, haction _ _⟩
  case h_16 =>
    obtain ⟨rfl, rfl⟩ | ⟨rfl, rfl⟩ | ⟨rfl, rfl⟩ := by simpa using hlookup h
    all_goals exact ⟨_, rfl, haction _ _⟩
  all_goals cases h
  all_goals exact ⟨_, rfl, rfl⟩

/-- The row that names a sort classifies the request of that sort. -/
theorem rowFor_classifies (h : rowFor p x = some c) (hp : ∀ q, sortPort x = some q → p = q) (s : State) :
    ∃ sort : Sighting → Bool, exec c s = .next (classifyWhen sort p s) ∧ sort x = true := by
  cases x
  case record k a =>
    obtain rfl := hp .site rfl
    exact recordRow_classifies h s
  case overwrite =>
    cases h
    exact ⟨_, rfl, rfl⟩
  case status | txCompletion | rxCompletion | frame | returned =>
    obtain rfl := hp .modem rfl
    cases h
    exact ⟨_, rfl, rfl⟩
  case unmarked | refused =>
    obtain rfl := hp .site rfl
    cases h
    exact ⟨_, rfl, rfl⟩
  all_goals cases h

/-! The request itself. -/

/-- What is sighted of a request that passes the checks (R96). -/
theorem sight_passed (h1 : parityOk r = true) (h2 : isPermitted (windowAt s (reqLine r)) p r = true)
    (h3 : fenced s (reqLine r) = false) : sight s p r = match windowAt s (reqLine r) with
      | none => .plain
      | some (_, w) => if reqIsWrite r then sightWrite p w (reqLine r) (reqMask r) (seen r) else .plain := by
  refine (if_neg (by simp [h1])).trans ((if_neg (by simp [h2])).trans ((if_neg (by simp [h3])).trans ?_))
  rfl

theorem sightWrite_accepted (p : Port) (w : Window) (line : Nat) (m : BitVec 64) (d : Line) :
    sightWrite p w line m d ≠ .parity ∧ (∀ n, sightWrite p w line m d ≠ .denied n) ∧
      sightWrite p w line m d ≠ .fenced := by
  unfold sightWrite
  repeat' split
  all_goals simp

/-- What the owner of the line makes of an accepted request: the stamp with which it goes on, and the state. -/
def observed (s : State) (p : Port) (r : LineRequest) : Option TakenStamp × State :=
  match windowAt s (reqLine r) with
  | none => (none, s)
  | some (_, w) => observe (sight s p r) w r s

/-- An accepted request's whole event (R95, R96). -/
theorem accepted_row {sort : Sighting → Bool} (hn : Next s p id r) (h1 : parityOk r = true)
    (h2 : isPermitted (windowAt s (reqLine r)) p r = true) (h3 : fenced s (reqLine r) = false)
    (hs : sort (sight s p r) = true) : classifyWhen sort p s =
      accept id p r (windowAt s (reqLine r)) (observed s p r).1 (observed s p r).2 := by
  have hx := sight_passed h1 h2 h3
  rw [classifyWhen_next hn hs, classifyRequest, observed]
  cases hw : windowAt s (reqLine r) with
  | none =>
    rw [hw] at hx
    rw [hx]
  | some y =>
    obtain ⟨i, w⟩ := y
    have hacc : sight s p r ≠ .parity ∧ (∀ n, sight s p r ≠ .denied n) ∧ sight s p r ≠ .fenced := by
      rw [hx, hw]
      dsimp only
      split
      · exact sightWrite_accepted _ _ _ _ _
      · simp
    clear hs hx
    generalize sight s p r = y at *
    obtain ⟨hparity, hdenied, hfenced⟩ := hacc
    cases y
    case parity => exact absurd rfl hparity
    case denied n => exact absurd rfl (hdenied n)
    case fenced => exact absurd rfl hfenced
    all_goals rfl

theorem observed_view (s : State) (p : Port) (r : LineRequest) :
    portView (observed s p r).2.path = portView s.path := by
  unfold observed
  split
  · rfl
  · exact observe_portView

/-- Only a completion goes on with a stamp (R54). -/
theorem observed_stamp (h1 : sight s p r ≠ .txCompletion) (h2 : sight s p r ≠ .rxCompletion) :
    (observed s p r).1 = none := by
  unfold observed
  split
  · rfl
  · generalize sight s p r = x at *
    cases x
    case txCompletion => exact absurd rfl h1
    case rxCompletion => exact absurd rfl h2
    all_goals rfl

/-- The port still holds its request, whatever the owner of the line has made of it. -/
theorem Next.held (hn : Next s p id r) (hv : portView u.path = portView s.path) : ∃ q ∈ u.path.reqs, q.id = id := by
  obtain ⟨q, hq, hid, hp⟩ := hn.mem
  have hmem : (id, p) ∈ portView s.path := by
    unfold isPortReq at hp
    split at hp
    next hj =>
      obtain rfl := beq_iff_eq.mp hp
      exact mem_portView.mpr ⟨q, hq, hid, _, _, _, hj⟩
    next => cases hp
  rw [← hv] at hmem
  obtain ⟨q, hq, hid, -⟩ := mem_portView.mp hmem
  exact ⟨q, hq, hid⟩

theorem setReq_mem {job : Job} {st : Stage} (h : ∃ q ∈ u.path.reqs, q.id = id) :
    ∃ q ∈ (setReq id job st u).path.reqs, q.id = id ∧ q.stage = st ∧ q.job = job := by
  obtain ⟨q, hq, hid⟩ := h
  exact ⟨_, List.mem_map.mpr ⟨q, hq, rfl⟩, by simp [hid]⟩

theorem marchPump_keeps (s : State) {q : Req} (hq : q ∈ s.path.reqs) : q ∈ (marchPump s).path.reqs :=
  (marchPump_turnover (N := fun _ => False) s).kept hq fun ⟨_, _, h, _⟩ => h

theorem accept_answers (he : reqIsWrite r = true ∧ maskEmpty (reqMask r) = true) (h : ∃ q ∈ u.path.reqs, q.id = id) :
    Answered (accept id p r win stamp u) id (okayWrite r) := by
  obtain ⟨q, hq, hid, -⟩ := setReq_mem (job := .port p r win stamp) (st := .forwarded) h
  rw [accept, if_pos he]
  refine ⟨{ q with stage := .answered (okayWrite r) }, marchPump_keeps _ ?_, hid, rfl⟩
  exact List.mem_map.mpr ⟨q, hq, if_pos hid⟩

theorem accept_forwards (he : reqIsWrite r = false ∨ maskEmpty (reqMask r) = false) (h : ∃ q ∈ u.path.reqs, q.id = id) :
    Forwarded (accept id p r win stamp u) id (.port p r win stamp) := by
  rw [accept, if_neg fun hx => he.elim (fun h => by simp [hx.1] at h) fun h => by simp [hx.2] at h]
  exact setReq_mem h

/-! The two sorts that no row names. -/

/-- A write to the status line that is no status write (R2; log entry 41). -/
theorem sightWrite_statusIgnored {line : Nat} {m : BitVec 64} {d : Line} (hk : w.kind = .status)
    (hl : line = windowLine w 0) (hp : p ≠ .modem ∨ maskFull m = false) : sightWrite p w line m d = .statusIgnored := by
  rw [sightWrite, if_neg (by simp [hk]), if_pos ⟨hk, hl⟩, if_neg]
  rintro ⟨h1, h2⟩
  exact hp.elim (fun h => h h1) fun h => by simp [h2] at h

theorem descriptorLine_kind {line : Nat} (h : isDescriptorLine w line = true) :
    w.kind = .txRing ∨ w.kind = .partTx := by
  simp only [isDescriptorLine, Bool.or_eq_true, beq_iff_eq, Bool.and_eq_true] at h
  exact h.imp_right And.left

/-- A modem write to a descriptor line that clears its ready flag and is no completion (R29). -/
theorem sightWrite_clearsReady {line : Nat} {m : BitVec 64} {d : Line} (hl : isDescriptorLine w line = true)
    (hc : covers m 0 = true) (hr : descReady d = false)
    (hn : covers m 2 = false ∨ (descStatus d ≠ 1 ∧ descStatus d ≠ 2)) :
    sightWrite .modem w line m d = .clearsReady := by
  have hk := descriptorLine_kind hl
  have hno : isTxCompletion m d = false := by
    rcases hn with hn | ⟨h1, h2⟩
    · simp [isTxCompletion, coversReadyStatus, hn]
    · simp [isTxCompletion, h1, h2]
  have hclears : clearsReady m d = true := by simp [clearsReady, hc, hr]
  rw [sightWrite, if_neg (by rcases hk with h | h <;> simp [h]), if_neg (by rcases hk with h | h <;> simp [h]),
    if_pos hl,
    if_neg (by simp), if_neg (by simp [hno]), if_pos hclears]

/-- A line leaves the held lists where its port's request then goes on (R31, R34 to R36). -/
theorem unlist_goesOn {line : Nat} (hn : Next s p id r)
    (ht : t = setReq id (.port p r win stamp) .forwarded (unlist line s)) :
    (∀ c, (clsAt t c).held = ((clsAt s c).held.filter fun h => h.line != line) ∧
      (clsAt t c).credit = (clsAt s c).credit ∧ (clsAt t c).counters = (clsAt s c).counters) ∧
    AgeTimersFollow s t ∧
    CongestionSettled s t (fun c => listed (clsAt s c) line = true) (fun c => (clsAt s c).credit) ∧
    t.adm.flight = s.adm.flight ∧ OnlyChanges [.adm, .path, .march, .rep, .fault] s t := by
  have hidle : Settles (fun _ => False) (fun c => (clsAt s c).credit) s s := .of_adm rfl (fun _ => rfl) rfl
  have hl : LeftLists s (unlist line s) line :=
      unlist_since hidle (.refl s) (.of_path rfl) (fun _ => ⟨rfl, rfl⟩) fun _ => rfl
  have hrest := fun c => unlist_rest (x := c) (line := line) (s := s)
  have hcr : (fun c => (clsAt (unlist line s) c).credit) = fun c => (clsAt s c).credit := funext fun c => (hrest c).2.1
  have hframe : OnlyChanges [.adm, .path, .march, .rep, .fault] s (unlist line s) := onlyChanges_iff.mpr (by simp)
  subst ht
  generalize unlist line s = u at *
  refine ⟨fun c => ⟨hl.held c, (hrest c).2.1, (hrest c).2.2.2.1⟩, hl.ages.adm rfl, ?_, (hrest .s).2.2.2.2,
    hframe.trans (onlyChanges_iff.mpr (by simp))⟩
  exact hcr ▸ hl.settled (.refl _) rfl hn

/-- Settles O24: one row for every accepted request, and the effect of the two sorts that no row names. -/
theorem acceptedRequestGoesOn : Obligations.AcceptedRequestGoesOn := by
  unfold Obligations.AcceptedRequestGoesOn
  intro s p id r hn h1 h2 h3
  have hheld := hn.held (observed_view s p r)
  have hrow (sort : Sighting → Bool) (hs : sort (sight s p r) = true) := accepted_row hn h1 h2 h3 hs
  refine ⟨accept id p r (windowAt s (reqLine r)) (observed s p r).1 (observed s p r).2, ?_, fun he => ?_, fun he => ?_,
    fun c hc => ?_, fun i w hw hwr => ⟨fun hk hl hp => ?_, fun hl hp hc hr hst => ?_⟩⟩
  · exact congrArg Host.Outcome.next (hrow (fun _ => true) rfl)
  · exact accept_answers he hheld
  · exact ⟨_, accept_forwards he hheld, observed_stamp⟩
  · obtain ⟨sort, hexec, hs⟩ := rowFor_classifies hc (fun q hq => sight_port hq) s
    rw [hexec, hrow sort hs]
  · have hx : sight s p r = .statusIgnored := by
      rw [sight_passed h1 h2 h3, hw]
      exact (if_pos hwr).trans (sightWrite_statusIgnored hk hl hp)
    have ho : observed s p r = (none, statusIgnored s) := by simp only [observed, hw, hx, observe]
    rw [ho]
    exact ⟨by simp [statusIgnored], onlyChanges_iff.mpr (by simp [statusIgnored])⟩
  · subst hp
    have hx : sight s .modem r = .clearsReady := by
      rw [sight_passed h1 h2 h3, hw]
      exact (if_pos hwr).trans (sightWrite_clearsReady hl hc hr hst)
    have ho : observed s .modem r = (none, unlist (reqLine r) s) := by simp only [observed, hw, hx, observe]
    rw [ho, accept_full (covers_not_empty hc)]
    dsimp only
    exact unlist_goesOn (line := reqLine r) hn rfl

end AcceptedRequests
end Sys2Proof.Machine

namespace Sys2Proof.Machine

/-! ### The release of a lock (R113) -/

section LockReleases

variable {s t u : State} {line id : Nat} {q r : Req} {h : Holder} {remaps : List RemapEntry}

/-- A request waits at the lock station. -/
def StageWaits (st : Stage) : Prop := st = .waitLine ∨ st = .waitTable

/-- A request with the stage that a number is given, where it is given one. -/
def restaged (g : Nat → Option Stage) (q : Req) : Req := { q with stage := (g q.id).getD q.stage }

/-- From `s` to `t` waiting requests have been taken again: no other request has moved, locks have only come, and the
rest of the part but the waits stands. -/
structure Retakes (s t : State) : Prop where
  locks : ∃ l, t.path.locks = s.path.locks ++ l
  memPort : t.path.memPort = s.path.memPort
  nextId : t.path.nextId = s.path.nextId
  integ : t.integ = s.integ
  reqs : ∃ g : Nat → Option Stage, t.path.reqs = s.path.reqs.map (restaged g) ∧
    ∀ id q, findReq s id = some q → ¬StageWaits q.stage → g id = none

theorem findReq_restaged {g : Nat → Option Stage} (h : t.path.reqs = s.path.reqs.map (restaged g)) (id : Nat) :
    findReq t id = (findReq s id).map (restaged g) := by
  rw [findReq, h, List.find?_map]
  rfl

theorem Retakes.refl (s : State) : Retakes s s :=
  ⟨⟨[], by simp⟩, rfl, rfl, rfl, fun _ => none, (List.map_id _).symm, fun _ _ _ _ => rfl⟩

/-- A request that does not wait is where it was. -/
theorem Retakes.stays (h : Retakes s t) (hq : findReq s id = some q) (hw : ¬StageWaits q.stage) :
    findReq t id = some q := by
  obtain ⟨g, hg, hn⟩ := h.reqs
  have hid := (findReq_mem hq).2
  rw [findReq_restaged hg, hq, Option.map_some, restaged, hid, hn id q hq hw, ← hid]
  rfl

theorem Retakes.trans (h : Retakes s t) (h2 : Retakes t u) : Retakes s u := by
  obtain ⟨l, hl⟩ := h.locks
  obtain ⟨l2, hl2⟩ := h2.locks
  obtain ⟨g, hg, hn⟩ := h.reqs
  obtain ⟨g2, hg2, hn2⟩ := h2.reqs
  refine ⟨⟨l ++ l2, by rw [hl2, hl, List.append_assoc]⟩, h2.memPort.trans h.memPort, h2.nextId.trans h.nextId,
    h2.integ.trans h.integ, fun id => (g2 id).or (g id), ?_, fun id q hq hw => ?_⟩
  · rw [hg2, hg, List.map_map]
    refine List.map_congr_left fun q _ => ?_
    simp only [Function.comp, restaged]
    cases g2 q.id <;> rfl
  · dsimp only
    rw [hn id q hq hw, hn2 id q (h.stays hq hw) hw]
    rfl

/-- A waiting request has been given a stage, and perhaps a lock has come. -/
theorem Retakes.of_stage {st : Stage} {l : List Lock} (hr : findReq s id = some r) (hw : StageWaits r.stage)
    (ht : t.path.reqs = (setStage id st s).path.reqs) (hl : t.path.locks = s.path.locks ++ l)
    (hm : t.path.memPort = s.path.memPort) (hn : t.path.nextId = s.path.nextId) (hi : t.integ = s.integ) :
    Retakes s t := by
  refine ⟨⟨l, hl⟩, hm, hn, hi, fun i => if i = id then some st else none, ?_, fun i q hq hn => if_neg fun he => ?_⟩
  · rw [ht]
    refine List.map_congr_left fun q _ => ?_
    by_cases hq : q.id = id <;> simp [restaged, hq]
  · subst he
    obtain rfl := Option.some.inj (hr.symm.trans hq)
    exact hn hw

/-- What the station makes of a waiting request that is taken again: a stage, and perhaps a lock. -/
theorem takeStation_retakes (hr : findReq s r.id = some r) (hw : StageWaits r.stage) : Retakes s (takeStation r s) := by
  have hbegin (st : Stage) : Retakes s (beginWait r st s) := by
    unfold beginWait
    split
    · exact .refl s
    · exact .of_stage (l := []) (st := st) hr hw rfl (by simp [setStage]) rfl rfl rfl
  unfold takeStation
  repeat' split
  · exact hbegin _
  · exact .of_stage (l := [⟨r.line, _⟩]) (st := .draining (memLineOf s r)) hr hw rfl rfl rfl rfl rfl
  · exact hbegin _
  · exact .of_stage (l := []) (st := .ready (memLineOf s r)) hr hw rfl (by simp [endWait, setStage]) rfl rfl rfl

theorem retake_retakes {st : Stage} (hst : StageWaits st) (ok : Req → Bool) (id : Nat) (s : State) :
    Retakes s (retake st ok id s) := by
  unfold retake
  split
  next r hr =>
    split
    next hc =>
      obtain rfl := (findReq_mem hr).2
      exact takeStation_retakes hr (hc.1 ▸ hst)
    next => exact .refl s
  next => exact .refl s

theorem retakes_all {st : Stage} (hst : StageWaits st) (ok : Req → Bool) (l : List Nat) (s : State) :
    Retakes s (l.foldl (fun t i => retake st ok i t) s) := by
  induction l generalizing s with
  | nil => exact .refl s
  | cons i l ih => exact (retake_retakes hst ok i s).trans (ih _)

/-- The table without a line's lock. -/
def unlocked (line : Nat) (s : State) : State :=
  s.updPath fun p => { p with locks := p.locks.filter fun k => k.line != line }

theorem releaseLock_retakes (line : Nat) (s : State) : Retakes (unlocked line s) (releaseLock line s) :=
  (retakes_all (.inl rfl) _ _ _).trans (retakes_all (.inr rfl) _ _ _)

theorem retake_idle {st : Stage} {ok : Req → Bool} (h : ∀ x, findReq s id = some x → x.stage ≠ st ∨ ok x = false) :
    retake st ok id s = s := by
  unfold retake
  split
  next r hr => exact if_neg fun ⟨h1, h2⟩ => (h r hr).elim (fun h => h h1) fun h => by simp [h2] at h
  next => rfl

/-- The requests before the first that waits on the line are not taken. -/
theorem retakes_skip {st : Stage} {ok : Req → Bool} {pre : List Nat}
    (h : ∀ i ∈ pre, ∀ x, findReq s i = some x → x.stage ≠ st ∨ ok x = false) (rest : List Nat) :
    (pre ++ rest).foldl (fun t i => retake st ok i t) s = rest.foldl (fun t i => retake st ok i t) s := by
  induction pre with
  | nil => rfl
  | cons i pre ih =>
    rw [List.cons_append, List.foldl_cons, retake_idle (h i List.mem_cons_self)]
    exact ih fun j hj => h j (List.mem_cons_of_mem _ hj)

theorem setStage_find (hq : findReq s id = some q) (st : Stage) :
    findReq (setStage id st s) id = some { q with stage := st } := by
  have hg : (setStage id st s).path.reqs = s.path.reqs.map (restaged fun i => if i = id then some st else none) := by
    refine List.map_congr_left fun q _ => ?_
    by_cases hq : q.id = id <;> simp [restaged, hq]
  rw [findReq_restaged hg, hq]
  simp [restaged, (findReq_mem hq).2]

theorem endWait_find (hq : findReq s q.id = some q) (st : Stage) :
    findReq (endWait q st s) q.id = some { q with stage := st } := setStage_find hq st

/-- A lock's release takes the first that waits on its line again (R113). -/
theorem releaseLock_released (line : Nat) (s : State) :
    LockReleasedUnder s.integ.remaps s (releaseLock line s) line := by
  have hrest := releaseLock_retakes line s
  obtain ⟨l, hl⟩ := hrest.locks
  refine ⟨fun k hk hne => ?_, fun hw => ?_, fun pre rest n q hsplit hq hst hqline hpre => ?_⟩
  · rw [hl]
    exact List.mem_append_left _ (List.mem_filter.mpr ⟨hk, by simpa using hne⟩)
  · simp [releaseLock, hw]
  · subst hqline
    have hid := (findReq_mem hq).2
    subst hid
    have hstate : Retakes (retake .waitLine (fun r => r.line == q.line) q.id (unlocked q.line s))
        (releaseLock q.line s) := by
      have hskip := retakes_skip (s := unlocked q.line s) (st := .waitLine) (ok := fun r => r.line == q.line)
          (pre := pre)
        (fun i hi x hx => (hpre i hi x hx).imp_right fun h => by simpa using h) (q.id :: rest)
      have hwaits : (unlocked q.line s).path.waits = pre ++ q.id :: rest := hsplit
      have hfold := (retakes_all (.inl rfl) (fun r => r.line == q.line) rest
        (retake .waitLine (fun r => r.line == q.line) q.id (unlocked q.line s))).trans
          (retakes_all (.inr rfl) (fun _ => true)
          (rest.foldl (fun t i => retake .waitLine (fun r => r.line == q.line) i t)
            (retake .waitLine (fun r => r.line == q.line) q.id (unlocked q.line s))).path.waits _)
      rw [← List.foldl_cons, ← hskip, ← hwaits] at hfold
      exact hfold
    have hq' : findReq (unlocked q.line s) q.id = some q := hq
    have htake : retake .waitLine (fun r => r.line == q.line) q.id (unlocked q.line s) =
        takeStation q (unlocked q.line s) := by
      simp [retake, hq', hst]
    have hfree : lineLocked (unlocked q.line s) q.line = false := by
      simp [lineLocked, unlocked]
    rw [htake] at hstate
    refine ⟨fun hno => ?_, fun h hh hroom hone => ?_⟩
    · have hpass : takeStation q (unlocked q.line s) =
          endWait q (.ready (stationLine s.integ.remaps q)) (unlocked q.line s) := by
        simp only [takeStation, hfree, hno]
        rfl
      have hfind := hstate.stays (q := { q with stage := .ready (stationLine s.integ.remaps q) })
        (by rw [hpass]; exact endWait_find hq' _) (by rintro (h | h) <;> cases h)
      exact ⟨_, (findReq_mem hfind).1, rfl, rfl⟩
    · have hnone : holdsLock (unlocked q.line s) h = false := by
        simp only [holdsLock, unlocked, Bool.and_eq_false_iff]
        refine hone.imp (fun h => by simp [h]) fun h => ?_
        simpa [List.any_eq_false] using h
      have hpass : takeStation q (unlocked q.line s) =
          (endWait q (.draining (stationLine s.integ.remaps q)) (unlocked q.line s)).updPath fun p =>
            { p with locks := p.locks ++ [⟨q.line, h⟩] } := by
        have hfits : (unlocked q.line s).path.locks.length < 8 ∧
            holdsLock (unlocked q.line s) h = false := ⟨hroom, hnone⟩
        simp only [takeStation, hfree, hh, hfits]
        rfl
      have hfind := hstate.stays (q := { q with stage := .draining (stationLine s.integ.remaps q) })
        (by rw [hpass]; exact endWait_find hq' _) (by rintro (h | h) <;> cases h)
      obtain ⟨l, hl⟩ := hstate.locks
      refine ⟨?_, _, (findReq_mem hfind).1, rfl, rfl⟩
      rw [hl, hpass]
      simp

/-! The release within an event. -/

/-- A path that other requests have joined, and that an access and perhaps requests of one number have left: what a
lock's release reads of it. -/
structure ReadiesRelease (s u : State) (gone : Nat) : Prop where
  locks : u.path.locks = s.path.locks
  waits : ∃ keep : Nat → Bool, u.path.waits = s.path.waits.filter keep ∧ ∀ i, i ≠ gone → keep i = true
  finds : ∀ i q, i ≠ gone → findReq s i = some q → findReq u i = some q
  found : ∀ i q, findReq u i = some q → findReq s i = some q ∨ q.stage = .forwarded
  remaps : u.integ.remaps = s.integ.remaps

/-- The lock's release within an event whose access is none's that waits. -/
theorem ReadiesRelease.released (hr : ReadiesRelease s u id) (hid : ∀ q, findReq s id = some q → ¬StageWaits q.stage)
    (h : LockReleasedUnder u.integ.remaps u t line) : LockReleased s t line := by
  obtain ⟨hothers, hempty, hfirst⟩ := h
  obtain ⟨keep, hkeep, hall⟩ := hr.waits
  rw [hr.locks] at hothers hempty hfirst
  rw [hr.remaps] at hfirst
  refine ⟨hothers, fun hw => hempty (by simp [hkeep, hw]), fun pre rest n q hsplit hq hst hline hpre => ?_⟩
  have hn : n ≠ id := fun he => hid q (he ▸ hq) (.inl hst)
  have hw : u.path.waits = pre.filter keep ++ n :: rest.filter keep := by
    rw [hkeep, hsplit, List.filter_append, List.filter_cons, if_pos (hall n hn)]
  refine hfirst _ _ n q hw (hr.finds n q hn hq) hst hline fun i hi x hx => ?_
  rcases hr.found i x hx with hs | hs
  · exact hpre i (List.mem_filter.mp hi).1 x hs
  · exact .inl (by simp [hs])

end LockReleases
end Sys2Proof.Machine

namespace Sys2Proof.Machine

/-! ### What a read's outcome adds to the line path -/

section Growth

variable {s t u : State} {n line : Nat} {source : IntegritySource} {o : EccObs}

theorem reportAt_grows (time : Stamp) (code : Nat) (body : List FieldSpec) (s : State) :
    PathGrows s.path (reportAt time code body s).path := by
  simp only [reportAt]
  repeat' split
  · refine PathGrows.trans ?_ (makeReq_grows _ _ _)
    exact .refl _
  all_goals exact .refl _

theorem Reporting.grows (h : Reporting s t n) : PathGrows s.path t.path := by
  induction h with
  | start => exact .refl _
  | silent _ _ hp _ _ ih => exact hp ▸ ih
  | report time code body _ ih => exact ih.trans (reportAt_grows time code body _)

theorem TakesAtMost.grows {f : State → State} (h : TakesAtMost n f) (s : State) : PathGrows s.path (f s).path := by
  obtain ⟨k, -, hr⟩ := h s
  exact hr.grows

theorem report_grows (code : Nat) (body : List FieldSpec) (s : State) : PathGrows s.path (report code body s).path :=
  reportAt_grows _ _ _ s

/-- An event condition raised beside a report. -/
theorem raised_grows (c : Cond) (code : Nat) (body : List FieldSpec) (s : State) :
    PathGrows s.path (unordered [raiseCondition c, report code body] s).path := by
  have hraise := fun u => (raiseCondition_takes c).grows u
  rcases unordered_pair (f := raiseCondition c) (g := report code body) (s := s) with he | he
  · rw [he]
    exact (hraise (s.setFreeUses (s.freeUses + 1))).trans (report_grows code body _)
  · rw [he]
    exact (report_grows code body (s.setFreeUses (s.freeUses + 1))).trans (hraise _)

theorem copyPump_grows (s : State) : PathGrows s.path (copyPump s).path := by
  unfold copyPump
  repeat' split
  · exact .refl _
  · exact makeReq_grows _ _ s
  · exact makeReq_grows _ _ (setRemap _ s)
  · exact .refl _

theorem remapRequest_grows (page : Nat) (src : RemapSource) (s : State) :
    PathGrows s.path (remapRequest page src s).path := by
  unfold remapRequest
  repeat' split
  · exact .refl _
  · exact raised_grows _ _ _ (integCount _ s)
  · exact (report_grows _ _ (s.updInteg _)).trans (copyPump_grows _)

theorem suspectCount_grows (line : Nat) (s : State) : PathGrows s.path (suspectCount line s).path := by
  obtain ⟨v, hb, -, he | ⟨e, he⟩⟩ := suspectCount_cases line s
  all_goals
    have hpath : v.path = s.path := hb .path (by decide)
    rw [he, ← hpath]
  · exact .refl _
  · unfold suspectReached
    split
    · exact remapRequest_grows _ _ v
    · exact report_grows _ _ v

/-- What the outcome of a read of a line that is not marked adds to the line path: requests alone. -/
theorem takeOutcome_grows (hm : isMarked s line = false) (m : Nat) :
    PathGrows s.path (takeOutcome source line m o s).path := by
  cases ho : lineOutcome o with
  | clean =>
    rw [takeOutcome_clean ho]
    exact .refl _
  | corrected =>
    obtain ⟨v, he, hb, -⟩ := corrected_eq (source := source) (line := line) (memLine := m) (s := s)
    rw [takeOutcome_corrected ho, he, ← show v.path = s.path from hb .path (by decide)]
    exact suspectCount_grows line v
  | uncorrectable =>
    obtain ⟨v, hb, he⟩ := uncorrectable_news (source := source) hm m
    rw [takeOutcome_uncorrectable ho, he, ← show v.path = s.path from hb .path (by decide)]
    exact raised_grows _ _ _ v

end Growth

/-! ### An access leaves the memory port, and its line's lock is released (R113) -/

section AccessEnds

variable {s t u v : State} {a : Access} {q : Req} {f : LineFlips} {d : Line} {id line : Nat} {y : Response}

/-- The access at the head has left the memory port, and requests may have joined the path. -/
def AccessLeft (s u : State) : Prop := PathGrows { s.path with memPort := s.path.memPort.drop 1 } u.path

theorem popHead_left (h : Completes s a) (hl : a.live = true) : AccessLeft s (popHead s) := by
  rw [AccessLeft, popHead_live h hl]
  exact .refl _

theorem popRead_left (h : Completes s a) (hl : a.live = true) : AccessLeft s (popRead f a s) := popHead_left h hl

theorem AccessLeft.then (h : AccessLeft s u) (h2 : PathGrows u.path v.path) : AccessLeft s v := PathGrows.trans h h2

theorem AccessLeft.locks (h : AccessLeft s u) : u.path.locks = s.path.locks ∧ u.path.waits = s.path.waits ∧
    u.path.memPort = s.path.memPort.drop 1 ∧ s.path.nextId ≤ u.path.nextId := by
  obtain ⟨l, n, he, hn, -⟩ := h
  rw [he]
  exact ⟨rfl, rfl, rfl, hn⟩

theorem AccessLeft.finds (h : AccessLeft s u) (hq : findReq s id = some q) : findReq u id = some q := by
  obtain ⟨l, n, he, -⟩ := h
  rw [findReq, he, List.find?_append, show List.find? _ _ = _ from hq]
  rfl

theorem AccessLeft.new (h : AccessLeft s u) (hq : q ∈ u.path.reqs) :
    q ∈ s.path.reqs ∨ (s.path.nextId ≤ q.id ∧ q.stage = .forwarded) := by
  obtain ⟨l, n, he, -, hl⟩ := h
  rw [he] at hq
  exact (List.mem_append.mp hq).imp_right (hl q)

theorem AccessLeft.found (h : AccessLeft s u) (hq : findReq u id = some q) :
    findReq s id = some q ∨ q.stage = .forwarded := by
  obtain ⟨l, n, he, -, hl⟩ := h
  rw [findReq, he, List.find?_append, Option.or_eq_some_iff] at hq
  exact hq.imp_right fun ⟨_, hq⟩ => (hl q (List.mem_of_find?_eq_some hq)).2

/-- The access at the head is of a request that is issued, by the numbering. -/
theorem completes_stage (hp : pathLaw s) (h : Completes s a) (hq : q ∈ s.path.reqs) (hid : q.id = a.id) :
    q.stage = .issued a.memLine ∨ q.stage = .writeIssued a.memLine := by
  obtain ⟨-, -, -, -, -, hacc⟩ := pathLaw_iff.mp hp
  obtain ⟨-, -, hst⟩ := (hacc a (portHead_mem h)).2.2 q hq hid
  exact hst.imp And.left And.left

theorem completes_notWaiting (hp : pathLaw s) (h : Completes s a) (hq : findReq s a.id = some q) :
    ¬StageWaits q.stage := by
  obtain ⟨hmem, hid⟩ := findReq_mem hq
  rcases completes_stage hp h hmem hid with hs | hs <;> simp [hs, StageWaits]

theorem completes_lt (hp : pathLaw s) (h : Completes s a) : a.id < s.path.nextId := by
  obtain ⟨-, -, -, -, -, hacc⟩ := pathLaw_iff.mp hp
  exact (hacc a (portHead_mem h)).1

/-- What waits to be issued is not the access's request. -/
theorem AccessLeft.forwarded_ne (h : AccessLeft s u) (hp : pathLaw s) (hc : Completes s a) (hq : q ∈ u.path.reqs)
    (hst : q.stage = .forwarded) : q.id ≠ a.id := by
  intro hid
  rcases h.new hq with hq | ⟨hn, -⟩
  · rcases completes_stage hp hc hq hid with hs | hs <;> simp [hst] at hs
  · have := completes_lt hp hc
    omega

theorem AccessLeft.readies (h : AccessLeft s u) (hr : u.integ.remaps = s.integ.remaps) (gone : Nat) :
    ReadiesRelease s u gone := by
  obtain ⟨hlocks, hwaits, -⟩ := h.locks
  exact ⟨hlocks, ⟨fun _ => true, by simp [hwaits], fun _ _ => rfl⟩, fun _ _ _ hq => h.finds hq, fun _ _ => h.found, hr⟩

theorem findReq_dropReq {i : Nat} (hi : i ≠ id) (s : State) : findReq (dropReq id s) i = findReq s i := by
  simp only [findReq, dropReq, dropReqs, State.updMarch_path, State.updPath_path, List.find?_filter]
  congr 1
  funext q
  by_cases hq : q.id = i <;> simp [hq, hi]

theorem AccessLeft.readies_drop (h : AccessLeft s u) (hr : u.integ.remaps = s.integ.remaps) (gone : Nat) :
    ReadiesRelease s (dropReq gone u) gone := by
  obtain ⟨hlocks, hwaits, -⟩ := h.locks
  refine ⟨hlocks, ⟨_, congrArg (List.filter _) hwaits, fun i hi => ?_⟩, fun i q hi hq => ?_, fun i q hq => ?_,
    by simpa using hr⟩
  · simp only [Bool.not_eq_true', List.contains_eq_mem, decide_eq_false_iff_not, List.mem_map, List.mem_filter,
    not_exists]
    rintro x ⟨⟨-, hx⟩, rfl⟩
    exact hi (by simpa using hx)
  · rw [findReq_dropReq hi]
    exact h.finds hq
  · by_cases hi : i = gone
    · subst hi
      obtain ⟨hmem, hid⟩ := findReq_mem hq
      simp [dropReq, dropReqs, hid] at hmem
    · rw [findReq_dropReq hi] at hq
      exact h.found hq

/-- A release stands where its locks stand and no request but one has moved. -/
theorem LockReleased.then (h : LockReleased s v line) (hid : ∀ q, findReq s id = some q → ¬StageWaits q.stage)
    (hl : t.path.locks = v.path.locks) (hk : ∀ q ∈ v.path.reqs, q.id ≠ id → q ∈ t.path.reqs) :
      LockReleased s t line := by
  obtain ⟨hothers, hempty, hfirst⟩ := h
  rw [← hl] at hothers hempty hfirst
  refine ⟨hothers, hempty, fun pre rest n q hsplit hq hst hline hpre => ?_⟩
  have hn : n ≠ id := fun he => hid q (he ▸ hq) (.inl hst)
  obtain ⟨hready, hdrain⟩ := hfirst pre rest n q hsplit hq hst hline hpre
  refine ⟨fun hno => ?_, fun h hh hroom hone => ?_⟩
  · obtain ⟨u, hu, hun, hst⟩ := hready hno
    exact ⟨u, hk u hu (hun ▸ hn), hun, hst⟩
  · obtain ⟨hin, u, hu, hun, hst⟩ := hdrain h hh hroom hone
    exact ⟨hin, u, hk u hu (hun ▸ hn), hun, hst⟩

/-- The path behind an answer, but for its requests. -/
theorem answer_path (id : Nat) (y : Response) (t : State) : (answer id y t).path.locks = t.path.locks ∧
    (answer id y t).path.memPort = t.path.memPort := by
  obtain ⟨l, n, he, -⟩ := marchPump_grows (leaveDrain id (setStage id (.answered y) t))
  rw [answer, he]
  exact ⟨rfl, rfl⟩

theorem answer_answers (h : ∃ q ∈ t.path.reqs, q.id = id) : Answered (answer id y t) id y := by
  obtain ⟨q, hq, hid⟩ := h
  obtain ⟨l, hl, -⟩ := answer_reqs id y t
  exact ⟨{ q with stage := .answered y },
    by rw [hl]; exact List.mem_append_left _ (List.mem_map.mpr ⟨q, hq, if_pos hid⟩),
    hid, rfl⟩

theorem answer_others (hq : q ∈ t.path.reqs) (hid : q.id ≠ id) : q ∈ (answer id y t).path.reqs := by
  obtain ⟨l, hl, -⟩ := answer_reqs id y t
  rw [hl]
  exact List.mem_append_left _ (List.mem_map.mpr ⟨q, hq, if_neg hid⟩)

/-- A request that does not wait stands where a lock is released. -/
theorem releaseLock_stands (hn : (u.path.reqs.map (·.id)).Nodup) (hq : q ∈ u.path.reqs) (hw : ¬StageWaits q.stage) :
    q ∈ (releaseLock line u).path.reqs := by
  have hf : findReq u q.id = some q := by
    cases hx : findReq u q.id with
    | none =>
      rw [findReq, List.find?_eq_none] at hx
      simpa using hx q hq
    | some x =>
      obtain ⟨hxm, hxid⟩ := findReq_mem hx
      rw [List.inj_on_of_nodup_map hn hxm hq hxid]
  exact (findReq_mem ((releaseLock_retakes line u).stays hf hw)).1

/-- A request of the access's number ends with an answer, and its line's lock is released. -/
theorem released_answered (hp : pathLaw s) (hc : Completes s a) (h : AccessLeft s u)
    (hr : u.integ.remaps = s.integ.remaps) (hq : findReq s a.id = some q) (hu : pathLaw u)
    (ht : t = answer a.id y (releaseLock a.line u)) : LockReleased s t a.line ∧
      t.path.memPort = s.path.memPort.drop 1 ∧ Answered t a.id y ∧ ReportsStay s u t := by
  subst ht
  obtain ⟨hlocks, hport⟩ := answer_path a.id y (releaseLock a.line u)
  have hretakes := releaseLock_retakes a.line u
  obtain ⟨-, -, -, -, hnodup, -⟩ := hu
  have hidle : ∀ q, findReq s a.id = some q → ¬StageWaits q.stage := fun q => completes_notWaiting hp hc
  refine ⟨?_, ?_, answer_answers ?_, fun hp g k time code body hat w hw => ?_⟩
  · exact ((h.readies hr a.id).released hidle (releaseLock_released a.line u)).then hidle hlocks fun q => answer_others
  · rw [hport, hretakes.memPort]
    exact h.locks.2.2.1
  · obtain ⟨hmem, hid⟩ := findReq_mem (hretakes.stays (h.finds hq) (hidle q hq))
    exact ⟨q, hmem, hid⟩
  · obtain ⟨x, hx, hline, hstage, hjob⟩ := hat w hw
    refine ⟨x, answer_others ?_ (h.forwarded_ne hp hc hx hstage), hline, hstage, hjob⟩
    exact releaseLock_stands hnodup hx (by simp [hstage, StageWaits])

/-- A request of the internal requester ends, and its line's lock is released. -/
theorem released_dropped (hp : pathLaw s) (hc : Completes s a) (h : AccessLeft s u)
    (hr : u.integ.remaps = s.integ.remaps) (hu : pathLaw u)
    (ht : t = marchPump (releaseLock a.line (dropReq a.id u))) : LockReleased s t a.line ∧
      t.path.memPort = s.path.memPort.drop 1 ∧ (∀ q ∈ t.path.reqs, q.id ≠ a.id) ∧ ReportsStay s u t := by
  subst ht
  obtain ⟨l, n, hgrow, -, hnew⟩ := marchPump_grows (releaseLock a.line (dropReq a.id u))
  have hretakes := releaseLock_retakes a.line (dropReq a.id u)
  obtain ⟨-, -, -, -, hnodup, -⟩ := hu
  have hidle : ∀ q, findReq s a.id = some q → ¬StageWaits q.stage := fun q => completes_notWaiting hp hc
  have hkept : ∀ q ∈ (releaseLock a.line (dropReq a.id u)).path.reqs,
      q ∈ (marchPump (releaseLock a.line (dropReq a.id u))).path.reqs := fun q hq => by
    rw [hgrow]
    exact List.mem_append_left _ hq
  refine ⟨?_, ?_, fun q hq => ?_, fun hp g k time code body hat w hw => ?_⟩
  · exact ((h.readies_drop hr a.id).released hidle (releaseLock_released a.line (dropReq a.id u))).then hidle
      (by rw [hgrow]) fun q hq _ => hkept q hq
  · rw [hgrow]
    exact hretakes.memPort.trans h.locks.2.2.1
  · rw [hgrow, List.mem_append] at hq
    rcases hq with hq | hq
    · obtain ⟨g, hg, -⟩ := hretakes.reqs
      rw [hg] at hq
      obtain ⟨x, hx, rfl⟩ := List.mem_map.mp hq
      have hx : x ∈ u.path.reqs ∧ _ := List.mem_filter.mp hx
      simpa [restaged] using hx.2
    · have hnext : (releaseLock a.line (dropReq a.id u)).path.nextId = u.path.nextId := hretakes.nextId
      have h1 := (hnew q hq).1
      have h2 := completes_lt hp hc
      have h3 := h.locks.2.2.2
      omega
  · obtain ⟨x, hx, hline, hstage, hjob⟩ := hat w hw
    refine ⟨x, hkept x (releaseLock_stands ?_ (List.mem_filter.mpr ⟨hx, ?_⟩) (by simp [hstage, StageWaits])), hline,
      hstage, hjob⟩
    · exact hnodup.sublist (List.filter_sublist.map _)
    · simpa using h.forwarded_ne hp hc hx hstage

end AccessEnds
end Sys2Proof.Machine

namespace Sys2Proof.Machine

/-! ### Port writes and partial writes (R98, R112 to R115) -/

section PartialWrites

variable {s t u : State} {a : Access} {p : Port} {d : Line} {r : LineRequest} {q : Req} {f : LineFlips} {o : EccObs}
  {source : IntegritySource}

theorem LineWritten.of_store {m : Nat} (hs : dramLaw s) (hd : t.dram = dramWrite s.dram m d)
    (hf : t.flips = flipsWrite s.flips m Flips.none) : LineWritten s t m d := by
  refine ⟨?_, ?_, fun k hk => ⟨?_, ?_⟩⟩
  · rw [hd, dramRead_write_same hs.1]
  · rw [hf, flipsRead_write_same hs.2]
  · rw [hd, dramRead_write_other hk]
  · rw [hf, flipsRead_write_other hk]

theorem commit_stores (a : Access) (d : Line) (s : State) :
    (commit a d (popHead s)).dram = dramWrite s.dram a.memLine d ∧
      (commit a d (popHead s)).flips = flipsWrite s.flips a.memLine Flips.none := by
  simp [commit, storeLine_dram, storeLine_flips]

theorem popHead_path (s : State) :
    (popHead s).path.memPort = s.path.memPort.drop 1 ∧ (popHead s).path.locks = s.path.locks := by
  unfold popHead
  simp only
  repeat' split
  · exact ⟨rfl, rfl⟩
  · obtain ⟨l, n, he, -⟩ := marchPump_grows (leaveDrain _ (s.updPath fun p => { p with memPort := p.memPort.drop 1 }))
    rw [he]
    exact ⟨rfl, rfl⟩
  · exact ⟨rfl, rfl⟩

theorem commit_left (h : Completes s a) (hl : a.live = true) : AccessLeft s (commit a d (popHead s)) :=
    popHead_left h hl

theorem commit_pathLaw (hp : pathLaw s) : pathLaw (commit a d (popHead s)) := (commit_kept a d s).path hp

/-! The rows of the port. -/

/-- PORT_WRITE_COMPLETE (R98, R112). -/
theorem portWrite_completes (hs : dramLaw s) (h : Completes s a) (hk : a.kind = .portWrite p d) :
    ∃ t, exec .portWriteComplete s = .next t ∧ LineWritten s t a.memLine d ∧
      t.integ = { s.integ with marked := s.integ.marked.filter fun l => l != a.line } ∧
      t.path.memPort = s.path.memPort.drop 1 ∧ t.path.locks = s.path.locks ∧
      (∀ r, portRequestOf s a = some r → Answered t a.id (okayWrite r)) ∧
      OnlyChanges [.dram, .flips, .integ, .path, .march] s t := by
  have hdone : exec .portWriteComplete s = .next (portWriteDone s) := rfl
  rw [portWriteDone, show portHead s = some a from h] at hdone
  simp only [hk] at hdone
  obtain ⟨hdram, hflips⟩ := commit_stores a d s
  obtain ⟨hport, hlocks⟩ := popHead_path s
  have hmarked : (unmark a.line (commit a d (popHead s))).integ =
      { s.integ with marked := s.integ.marked.filter fun l => l != a.line } := by simp [unmark]
  refine ⟨_, hdone, ?_⟩
  cases hr : portRequestOf s a with
  | none =>
    exact ⟨.of_store hs (by simpa using hdram) (by simpa using hflips), hmarked, hport, hlocks, by simp,
      onlyChanges_iff.mpr (by simp)⟩
  | some r =>
    obtain ⟨hl, x, -, -, hx, -⟩ := portRequestOf_mem hr
    obtain ⟨hmem, hid⟩ := findReq_mem ((commit_left (d := d) h hl).finds hx)
    obtain ⟨hal, hap⟩ := answer_path a.id (okayWrite r) (unmark a.line (commit a d (popHead s)))
    refine ⟨.of_store hs (by simpa using hdram) (by simpa using hflips), ?_, hap.trans hport, hal.trans hlocks,
      fun r' hr' => ?_, onlyChanges_iff.mpr (by simp)⟩
    · rw [← hmarked]
      simp
    · obtain rfl := Option.some.inj hr'
      exact answer_answers ⟨x, hmem, hid⟩

/-- RMW_WRITE_COMPLETE (R113, R114). -/
theorem rmwWrite_completes (hs : dramLaw s) (hp : pathLaw s) (h : Completes s a) (hk : a.kind = .rmwWrite p d)
    (hr : portRequestOf s a = some r) : ∃ t, exec .rmwWriteComplete s = .next t ∧ LineWritten s t a.memLine d ∧
      Answered t a.id (okayWrite r) ∧ t.path.memPort = s.path.memPort.drop 1 ∧ LockReleased s t a.line ∧
      OnlyChanges [.dram, .flips, .path, .march] s t := by
  have hrow : exec .rmwWriteComplete s =
      .next (answer a.id (okayWrite r) (releaseLock a.line (commit a d (popHead s)))) := by
    show Host.Outcome.next (rmwWriteDone s) = _
    rw [rmwWriteDone, show portHead s = some a from h]
    simp only [hk, hr]
  obtain ⟨hl, x, -, -, hx, -⟩ := portRequestOf_mem hr
  obtain ⟨hdram, hflips⟩ := commit_stores a d s
  obtain ⟨hlock, hport, hans, -⟩ := released_answered hp h (commit_left h hl) (by simp) hx (commit_pathLaw hp) rfl
  exact ⟨_, hrow, .of_store hs (by simpa using hdram) (by simpa using hflips), hans, hport, hlock,
    onlyChanges_iff.mpr (by simp)⟩

/-! A partial write's read, where it ends the request or passes. -/

theorem popRead_takesFrom (h : Completes s a) (hl : a.live = true) : TakesFrom s (popRead f a s) := by
  obtain ⟨hpath, -⟩ := popRead_path (f := f) h hl
  exact ⟨.quiet (.of_reqs (by rw [hpath]) (by rw [hpath])) (by simp) (by simp) (by simp [timeNow]),
    onlyChanges_iff.mpr (by simp)⟩

theorem popRead_pathLaw (hp : pathLaw s) : pathLaw (popRead f a s) := (popRead_kept f a s).path hp

theorem countMarkedRead_left (h : Completes s a) (hl : a.live = true) :
    AccessLeft s (countMarkedRead (popRead f a s)) :=
  popRead_left (f := f) h hl

/-- The state behind the outcome of a partial write's read of a line that is not marked (R109 to R111, R116). -/
theorem partialRead_left (h : Completes s a) (hl : a.live = true) (hm : isMarked s a.line = false) :
    AccessLeft s (takeOutcome source a.line a.memLine o (popRead f a s)) :=
  (popRead_left (f := f) h hl).then (takeOutcome_grows (by simpa [isMarked] using hm) a.memLine)

theorem partialRead_pathLaw (hp : pathLaw s) : pathLaw (takeOutcome source a.line a.memLine o (popRead f a s)) :=
  (popRead_kept f a s).takeOutcome.path hp

/-- The remap table behind an UNCORRECTABLE outcome (R110). -/
theorem partialRead_remaps (h : lineOutcome o = .uncorrectable) :
    (takeOutcome source a.line a.memLine o (popRead f a s)).integ.remaps = s.integ.remaps := by
  rw [takeOutcome_uncorrectable h, uncorrectable_integ rfl]
  simp

/-- What the read of a partial write leaves where it ends the request at an UNCORRECTABLE outcome. -/
theorem partialRead_lost (h : Completes s a) (hl : a.live = true) (hm : isMarked s a.line = false)
    (hbad : lineOutcome o = .uncorrectable) (hu : u = takeOutcome source a.line a.memLine o (popRead f a s))
    (ht : OnlyChanges [.path, .march] u t) (hstay : ReportsStay s u t) :
    OutcomeTaken s t source a .uncorrectable ∧ ScrubKept s t ∧ RemapsKept s t .uncorrectable ∧
      OnlyChanges [.path, .march, .flips, .integ, .rep, .fault, .freeUses] s t ∧
        (dramLaw s → FlipsKept s t a.memLine f) := by
  have htakes := popRead_takesFrom (f := f) h hl
  obtain ⟨-, -, hblocks⟩ := takeOutcome_effect (source := source) (o := o) htakes hm rfl
  have hi : t.integ = u.integ := ht .integ (by decide)
  have hf : t.fault = u.fault := ht .fault (by decide)
  have hflips : t.flips = (popRead f a s).flips := by
    rw [show t.flips = u.flips from ht .flips (by decide), hu]
    simp
  rw [← hu] at hblocks
  rw [takeOutcome_uncorrectable hbad] at hu
  obtain ⟨h1, h2, h3⟩ := outcome_uncorrectable (source := source) (t := t) htakes hm
    (hu ▸ ⟨hi, by rw [hf], by rw [hf], hstay⟩) (hu ▸ hf)
  exact ⟨h1, h2, h3, hblocks.trans (ht.mono (by decide)), popRead_flipsKept hflips⟩

/-- What the read of a partial write leaves where the write goes on. -/
theorem partialRead_passes {m : Nat} (h : Completes s a) (hl : a.live = true) (hm : isMarked s a.line = false)
    (hgood : lineOutcome o ≠ .uncorrectable) (hq : findReq s a.id = some q)
    (ht : t = setStage a.id (.writeReady m d) (takeOutcome source a.line a.memLine o (popRead f a s))) :
    OutcomeTaken s t source a (lineOutcome o) ∧ ScrubKept s t ∧ RemapsKept s t (lineOutcome o) ∧
      (lineOutcome o = .clean → OnlyChanges [.path, .march, .flips] s t) ∧ t.path.locks = s.path.locks ∧
      t.path.memPort = s.path.memPort.drop 1 ∧ (∃ x ∈ t.path.reqs, x.id = a.id ∧ x.stage = .writeReady m d) ∧
      OnlyChanges [.path, .march, .flips, .integ, .rep, .fault, .freeUses] s t ∧
        (dramLaw s → FlipsKept s t a.memLine f) := by
  have htakes := popRead_takesFrom (f := f) h hl
  obtain ⟨⟨k, -, hcourse⟩, -, hblocks⟩ := takeOutcome_effect (source := source) (o := o) htakes hm rfl
  have hleft := partialRead_left (source := source) (f := f) (o := o) h hl hm
  have hclean (hc : lineOutcome o = .clean) :
      OnlyChanges [.path, .march, .flips] s (takeOutcome source a.line a.memLine o (popRead f a s)) := by
    rw [takeOutcome_clean hc]
    exact htakes.blocks
  have hflips : (takeOutcome source a.line a.memLine o (popRead f a s)).flips = (popRead f a s).flips := by simp
  have houtcome := outcome_passes (source := source) (a := a) (t := t) htakes hgood
  generalize takeOutcome source a.line a.memLine o (popRead f a s) = u at *
  have hb : OnlyChanges [.path] u t := ht ▸ onlyChanges_iff.mpr (by simp)
  obtain ⟨hmem, hid⟩ := findReq_mem (hleft.finds hq)
  obtain ⟨hlocks, -, hport, -⟩ := hleft.locks
  have hstay : ReportsStay s u t := by
    intro hp g k time code body hat w hw
    obtain ⟨x, hx, hline, hstage, hjob⟩ := hat w hw
    rw [ht]
    exact ⟨x, List.mem_map.mpr ⟨x, hx, if_neg (hleft.forwarded_ne hp h hx hstage)⟩, hline, hstage, hjob⟩
  obtain ⟨h1, h2, h3, -⟩ := houtcome ⟨by rw [ht]; rfl, by rw [ht]; rfl, by rw [ht]; rfl, hstay⟩
  refine ⟨h1, h2, h3, fun hc => (hclean hc).trans (hb.mono (by decide)), by rw [ht]; exact hlocks,
    by rw [ht]; exact hport, ?_, hblocks.trans (hb.mono (by decide)), popRead_flipsKept (by rw [ht]; exact hflips)⟩
  rw [ht]
  exact ⟨_, List.mem_map.mpr ⟨q, hmem, if_pos hid⟩, hid, rfl⟩

/-- The mask and the data that a partial write merges (R54, R114). -/
theorem written_eq {c : Option TakenStamp} {mask : BitVec 64} {data : Line}
    (hno : c = none → mask = reqMask r ∧ data = reqData r)
    (hst : ∀ x, c = some x → mask = maskAdd (reqMask r) 21 13 ∧ data = stampedData (reqData r) x) :
    writtenMask r c = mask ∧ writtenData r c = data := by
  cases c with
  | none =>
    obtain ⟨rfl, rfl⟩ := hno rfl
    exact ⟨rfl, rfl⟩
  | some x =>
    obtain ⟨rfl, rfl⟩ := hst x rfl
    exact ⟨rfl, rfl⟩

/-- A partial write's read of a marked line (R112). -/
theorem rmwRead_marked (hp : pathLaw s) (h : Completes s a) (hk : a.kind = .rmwRead p) (hr : portRequestOf s a = some r)
    (hm : isMarked s a.line = true) : ∃ t, exec (.rmwReadComplete f) s = .next t ∧
      (dramLaw s → FlipsKept s t a.memLine f) ∧
      t.path.memPort = s.path.memPort.drop 1 ∧ Answered t a.id (errorResponse r) ∧ t.integ = { s.integ with
        counters := { s.integ.counters with markedReads := satInc s.integ.counters.markedReads } } ∧
      OnlyChanges [.path, .march, .flips, .integ] s t ∧ LockReleased s t a.line := by
  have hdone : exec (.rmwReadComplete f) s = .next (rmwReadDone f s) := rfl
  rw [rmwReadDone, show portHead s = some a from h] at hdone
  simp only [hk, hr, hm, if_true] at hdone
  obtain ⟨hl, x, -, -, hx, -⟩ := portRequestOf_mem hr
  obtain ⟨hlock, hport, hans, -⟩ := released_answered hp h (countMarkedRead_left (f := f) h hl)
    (by simp [countMarkedRead, integCount]) hx (popRead_pathLaw (f := f) (a := a) hp) rfl
  exact ⟨_, hdone, popRead_flipsKept (by simp), hport, hans, by simp [countMarkedRead, integCount],
    onlyChanges_iff.mpr (by simp), hlock⟩

/-- A partial write's read of a line that is not marked, at an UNCORRECTABLE outcome (R110, R114). -/
theorem rmwRead_lost (hp : pathLaw s) (h : Completes s a) (ho : o = lineRead f a s) (hk : a.kind = .rmwRead p)
    (hr : portRequestOf s a = some r) (hm : isMarked s a.line = false) (hbad : lineOutcome o = .uncorrectable) : ∃ t,
      exec (.rmwReadComplete f) s = .next t ∧ (dramLaw s → FlipsKept s t a.memLine f) ∧
      t.path.memPort = s.path.memPort.drop 1 ∧ Answered t a.id (errorResponse r) ∧
      (OutcomeTaken s t (.port p) a .uncorrectable ∧ ScrubKept s t ∧ RemapsKept s t .uncorrectable) ∧
      LockReleased s t a.line ∧ OnlyChanges [.path, .march, .flips, .integ, .rep, .fault, .freeUses] s t := by
  have hdone : exec (.rmwReadComplete f) s = .next (rmwReadDone f s) := rfl
  rw [rmwReadDone, show portHead s = some a from h] at hdone
  simp only [hk, hr, hm, ← ho, hbad, if_true, Bool.false_eq_true, if_false] at hdone
  obtain ⟨hl, x, -, -, hx, -⟩ := portRequestOf_mem hr
  obtain ⟨hlock, hport, hans, hstay⟩ := released_answered (y := errorResponse r) hp h
    (partialRead_left (source := .port p) (f := f) (o := o) h hl hm) (partialRead_remaps hbad) hx
      (partialRead_pathLaw hp) rfl
  obtain ⟨h1, h2, h3, hblocks, hflips⟩ := partialRead_lost (source := .port p) (f := f) h hl hm hbad rfl
    (onlyChanges_iff.mpr (by simp)) hstay
  exact ⟨_, hdone, hflips, hport, hans, ⟨h1, h2, h3⟩, hlock, hblocks⟩

/-- A partial write's read that passes: the merged line waits for its write (R114). -/
theorem rmwRead_passes (h : Completes s a) (ho : o = lineRead f a s) (hk : a.kind = .rmwRead p)
    (hr : portRequestOf s a = some r) (hm : isMarked s a.line = false) (hgood : lineOutcome o ≠ .uncorrectable) : ∃ t,
      exec (.rmwReadComplete f) s = .next t ∧ t = setStage a.id (.writeReady a.memLine
        (mergeLine (writtenMask r (stampOfAccess s a)) (writtenData r (stampOfAccess s a))
          (deliveredLine o (dramRead s.dram a.memLine)))) (takeOutcome (.port p) a.line a.memLine o
            (popRead f a s)) := by
  have hdone : exec (.rmwReadComplete f) s = .next (rmwReadDone f s) := rfl
  rw [rmwReadDone, show portHead s = some a from h] at hdone
  simp only [hk, hr, hm, ← ho, hgood, Bool.false_eq_true, if_false] at hdone
  exact ⟨_, hdone, rfl⟩

/-! The internal requester's clearing of a ready flag (R115). -/

/-- Its read of a marked line (R112). -/
theorem writeBackRead_marked (hp : pathLaw s) (h : Completes s a) (hk : a.kind = .writeBackRead) (hl : a.live = true)
    (hm : isMarked s a.line = true) : ∃ t, exec (.internalPartialReadComplete f) s = .next t ∧
      (dramLaw s → FlipsKept s t a.memLine f) ∧ (∀ q ∈ t.path.reqs, q.id ≠ a.id) ∧ t.integ = { s.integ with
        counters := { s.integ.counters with markedReads := satInc s.integ.counters.markedReads } } ∧
      OnlyChanges [.path, .march, .flips, .integ] s t ∧ LockReleased s t a.line := by
  have hdone : exec (.internalPartialReadComplete f) s = .next (writeBackReadDone f s) := rfl
  rw [writeBackReadDone, show portHead s = some a from h] at hdone
  simp only [hk, hl, hm, if_true, Bool.true_eq_false, if_false] at hdone
  obtain ⟨hlock, -, hgone, -⟩ := released_dropped hp h (countMarkedRead_left (f := f) h hl)
    (by simp [countMarkedRead, integCount]) (popRead_pathLaw (f := f) (a := a) hp) rfl
  exact ⟨_, hdone, popRead_flipsKept (by simp), hgone, by simp [countMarkedRead, integCount],
    onlyChanges_iff.mpr (by simp), hlock⟩

/-- Its read of a line that is not marked, at an UNCORRECTABLE outcome (R110, R115). -/
theorem writeBackRead_lost (hp : pathLaw s) (h : Completes s a) (ho : o = lineRead f a s) (hk : a.kind = .writeBackRead)
    (hl : a.live = true) (hm : isMarked s a.line = false) (hbad : lineOutcome o = .uncorrectable) : ∃ t,
      exec (.internalPartialReadComplete f) s = .next t ∧ (dramLaw s → FlipsKept s t a.memLine f) ∧
      (∀ q ∈ t.path.reqs, q.id ≠ a.id) ∧
      (OutcomeTaken s t .internalPartial a .uncorrectable ∧ ScrubKept s t ∧ RemapsKept s t .uncorrectable) ∧
      LockReleased s t a.line ∧ OnlyChanges [.path, .march, .flips, .integ, .rep, .fault, .freeUses] s t := by
  have hdone : exec (.internalPartialReadComplete f) s = .next (writeBackReadDone f s) := rfl
  rw [writeBackReadDone, show portHead s = some a from h] at hdone
  simp only [hk, hl, hm, ← ho, hbad, if_true, Bool.true_eq_false, Bool.false_eq_true, if_false] at hdone
  obtain ⟨hlock, -, hgone, hstay⟩ := released_dropped hp h
    (partialRead_left (source := .internalPartial) (f := f) (o := o) h hl hm) (partialRead_remaps hbad)
    (partialRead_pathLaw hp) rfl
  obtain ⟨h1, h2, h3, hblocks, hflips⟩ := partialRead_lost (source := .internalPartial) (f := f) h hl hm hbad rfl
    (onlyChanges_iff.mpr (by simp)) hstay
  exact ⟨_, hdone, hflips, hgone, ⟨h1, h2, h3⟩, hlock, hblocks⟩

/-- Its read that passes (R115). -/
theorem writeBackRead_passes (h : Completes s a) (ho : o = lineRead f a s) (hk : a.kind = .writeBackRead)
    (hl : a.live = true) (hm : isMarked s a.line = false) (hgood : lineOutcome o ≠ .uncorrectable) : ∃ t,
      exec (.internalPartialReadComplete f) s = .next t ∧ t = setStage a.id (.writeReady a.memLine
        (mergeLine writeBackMask writeBackData (deliveredLine o (dramRead s.dram a.memLine))))
        (takeOutcome .internalPartial a.line a.memLine o (popRead f a s)) := by
  have hdone : exec (.internalPartialReadComplete f) s = .next (writeBackReadDone f s) := rfl
  rw [writeBackReadDone, show portHead s = some a from h] at hdone
  simp only [hk, hl, hm, ← ho, hgood, Bool.true_eq_false, Bool.false_eq_true, if_false] at hdone
  exact ⟨_, hdone, rfl⟩

/-- Its write (R113, R115). -/
theorem writeBackWrite_completes (hs : dramLaw s) (hp : pathLaw s) (h : Completes s a) (hk : a.kind = .writeBackWrite d)
    (hl : a.live = true) : ∃ t, exec .internalWriteComplete s = .next t ∧ LineWritten s t a.memLine d ∧
      (∀ q ∈ t.path.reqs, q.id ≠ a.id) ∧ LockReleased s t a.line ∧ OnlyChanges [.dram, .flips, .path, .march] s t := by
  have hdone : exec .internalWriteComplete s = .next (internalWriteDone s) := rfl
  rw [internalWriteDone, show portHead s = some a from h] at hdone
  simp only [hk, hl, if_true] at hdone
  obtain ⟨hdram, hflips⟩ := commit_stores a d s
  obtain ⟨hlock, -, hgone, -⟩ := released_dropped hp h (commit_left (d := d) h hl) (by simp) (commit_pathLaw hp) rfl
  exact ⟨_, hdone, .of_store hs (by simpa using hdram) (by simpa using hflips), hgone, hlock,
    onlyChanges_iff.mpr (by simp)⟩

/-- Settles O47: each completion by its line's mark and its read's outcome, and the lock's release on the line. -/
theorem portAndPartialWrites : Obligations.PortAndPartialWrites := by
  unfold Obligations.PortAndPartialWrites
  refine ⟨fun s a p d hs h hk => portWrite_completes hs h hk, fun s a p f o r hp h ho hk hr => ?_,
    fun s a p d r hs hp h hk hr => rmwWrite_completes hs hp h hk hr, fun s a f o q hp h ho hk hl hq => ?_,
    fun s a d hs hp h hk hl => writeBackWrite_completes hs hp h hk hl⟩
  · cases hm : isMarked s a.line with
    | true =>
      obtain ⟨t, ht, hflips, hport, hans, hinteg, hblocks, hlock⟩ := rmwRead_marked (f := f) hp h hk hr hm
      exact ⟨t, ht, hflips, hport, fun _ => ⟨hans, hinteg, hblocks⟩, by simp, by simp, by simp, fun _ => hlock, by simp,
        hblocks.mono (by decide)⟩
    | false =>
      by_cases hbad : lineOutcome o = .uncorrectable
      · obtain ⟨t, ht, hflips, hport, hans, houtcome, hlock, hblocks⟩ := rmwRead_lost hp h ho hk hr hm hbad
        exact ⟨t, ht, hflips, hport, by simp, fun _ _ => hans, fun _ => hbad ▸ houtcome, by simp [hbad], fun _ => hlock,
          fun _ _ _ hx => absurd hbad hx, hblocks⟩
      · obtain ⟨hl, q, -, -, hq, -⟩ := portRequestOf_mem hr
        obtain ⟨t, ht, hstate⟩ := rmwRead_passes h ho hk hr hm hbad
        obtain ⟨h1, h2, h3, hclean, hlocks, hport, hready, hblocks, hflips⟩ := partialRead_passes h hl hm hbad hq hstate
        refine ⟨t, ht, hflips, hport, by simp, fun _ hx => absurd hx hbad, fun _ => ⟨h1, h2, h3⟩, fun _ => hclean,
          by simp [hbad], fun mask data _ _ hno hst => ⟨hlocks, ?_⟩, hblocks⟩
        obtain ⟨hmask, hdata⟩ := written_eq hno hst
        rwa [← hmask, ← hdata]
  · cases hm : isMarked s a.line with
    | true =>
      obtain ⟨t, ht, hflips, hgone, hinteg, hblocks, hlock⟩ := writeBackRead_marked (f := f) hp h hk hl hm
      exact ⟨t, ht, hflips, fun _ => ⟨hgone, hlock⟩, fun _ => ⟨hinteg, hblocks⟩, by simp, by simp, by simp,
        hblocks.mono (by decide)⟩
    | false =>
      by_cases hbad : lineOutcome o = .uncorrectable
      · obtain ⟨t, ht, hflips, hgone, houtcome, hlock, hblocks⟩ := writeBackRead_lost hp h ho hk hl hm hbad
        exact ⟨t, ht, hflips, fun _ => ⟨hgone, hlock⟩, by simp, fun _ => hbad ▸ houtcome, by simp [hbad],
          fun _ hx => absurd hbad hx, hblocks⟩
      · obtain ⟨t, ht, hstate⟩ := writeBackRead_passes h ho hk hl hm hbad
        obtain ⟨h1, h2, h3, hclean, hlocks, -, hready, hblocks, hflips⟩ := partialRead_passes h hl hm hbad hq hstate
        exact ⟨t, ht, hflips, by simp [hbad], by simp, fun _ => ⟨h1, h2, h3⟩, fun _ => hclean,
          fun _ _ => ⟨hlocks, hready⟩,
          hblocks⟩

end PartialWrites
end Sys2Proof.Machine

namespace Sys2Proof.Machine

/-! ### The writes of the part's own lines (R97, R112, R156, R161) -/

section OwnWrites

variable {s t u v : State} {a : Access} {d : Line} {q : Req} {w : Window} {g : Ring} {next : State → State} {n : Nat}

/-- An own write in memory, its line's mark cleared and its request ended: what follows it starts here. -/
def ownWritten (a : Access) (d : Line) (s : State) : State :=
    finishInternal a.id (unmark a.line (commit a d (popHead s)))

theorem ownWrite_live (hl : a.live = true) : ownWrite a d next s = next (ownWritten a d s) := if_pos hl

theorem ownWritten_blocks (a : Access) (d : Line) (s : State) :
    OnlyChanges [.dram, .flips, .integ, .path, .march] s (ownWritten a d s) :=
  onlyChanges_iff.mpr (by simp [ownWritten, finishInternal])

theorem ownWritten_memory (hs : dramLaw s) : LineWritten s (ownWritten a d s) a.memLine d := by
  obtain ⟨hdram, hflips⟩ := commit_stores a d s
  exact .of_store hs (by simpa [ownWritten, finishInternal] using hdram)
    (by simpa [ownWritten, finishInternal] using hflips)

theorem ownWritten_integ (a : Access) (d : Line) (s : State) :
    (ownWritten a d s).integ = { s.integ with marked := s.integ.marked.filter fun l => l != a.line } := by
  simp [ownWritten, finishInternal, unmark]

/-- The march test sets out on at most one line. -/
theorem marchPump_cases (s : State) : marchPump s = s ∨ ∃ line x, marchPump s = makeReq line (.march x) s := by
  unfold marchPump
  split
  · exact .inl rfl
  · exact .inr ⟨_, _, rfl⟩

/-- The path behind an own write: without its access and its request, and perhaps with one of the march test. -/
structure OwnPath (s v : State) (id : Nat) : Prop where
  stays : ∀ q ∈ s.path.reqs, q.id ≠ id → q ∈ v.path.reqs
  comes : ∀ q ∈ v.path.reqs, (q ∈ s.path.reqs ∧ q.id ≠ id) ∨ (s.path.nextId ≤ q.id ∧ IsMarch q.job)
  memPort : v.path.memPort = s.path.memPort.drop 1
  nextId : s.path.nextId ≤ v.path.nextId

theorem ownWritten_path (h : Completes s a) (hl : a.live = true) : OwnPath s (ownWritten a d s) a.id := by
  obtain ⟨u, hu⟩ : ∃ u, u = dropReq a.id (unmark a.line (commit a d (popHead s))) := ⟨_, rfl⟩
  have hpop : u.path.reqs = s.path.reqs.filter (fun r => !(r.id == a.id)) ∧
      u.path.memPort = s.path.memPort.drop 1 ∧ u.path.nextId = s.path.nextId := by
    rw [hu, popHead_live h hl]
    exact ⟨rfl, rfl, rfl⟩
  obtain ⟨hreqs, hport, hnext⟩ := hpop
  have hmem (q : Req) : q ∈ u.path.reqs ↔ q ∈ s.path.reqs ∧ q.id ≠ a.id := by simp [hreqs]
  have hv : ownWritten a d s = marchPump u := by rw [hu]; rfl
  rw [hv]
  rcases marchPump_cases u with he | ⟨line, x, he⟩
  · rw [he]
    exact ⟨fun q hq hid => (hmem q).mpr ⟨hq, hid⟩, fun q hq => .inl ((hmem q).mp hq), hport, hnext.ge⟩
  · rw [he]
    refine ⟨fun q hq hid => List.mem_append_left _ ((hmem q).mpr ⟨hq, hid⟩), fun q hq => ?_, hport, ?_⟩
    · rcases List.mem_append.mp hq with hq | hq
      · exact .inl ((hmem q).mp hq)
      · obtain rfl := List.mem_singleton.mp hq
        exact .inr ⟨hnext.ge, x, rfl⟩
    · exact hnext.ge.trans (Nat.le_succ _)

/-- What the source of an own write goes on to: requests may come, and the report unit may move. -/
structure GoesOn (v t : State) : Prop where
  reqs : Gathers v t
  memPort : t.path.memPort = v.path.memPort
  blocks : OnlyChanges [.path, .rep] v t

theorem GoesOn.of_path (hp : t.path = v.path) (hb : OnlyChanges [.path, .rep] v t) : GoesOn v t :=
  ⟨⟨by rw [hp], fun q hq => .inl (hp ▸ hq)⟩, by rw [hp], hb⟩

theorem GoesOn.refl (v : State) : GoesOn v v := .of_path rfl fun b _ => by cases b <;> rfl

/-- What every own write leaves (R97, R112). -/
structure OwnDone (s t : State) (a : Access) (d : Line) : Prop where
  memory : LineWritten s t a.memLine d
  integ : t.integ = { s.integ with marked := s.integ.marked.filter fun l => l != a.line }
  memPort : t.path.memPort = s.path.memPort.drop 1
  gone : ∀ q ∈ t.path.reqs, q.id ≠ a.id
  blocks : OnlyChanges [.dram, .flips, .integ, .path, .march, .rep] s t

theorem ownDone (hs : dramLaw s) (hp : pathLaw s) (h : Completes s a) (hl : a.live = true)
    (ht : GoesOn (ownWritten a d s) t) : OwnDone s t a d := by
  have hpath := ownWritten_path (d := d) h hl
  have hblocks := ownWritten_blocks a d s
  have hmemory := ownWritten_memory (a := a) (d := d) hs
  have hinteg := ownWritten_integ a d s
  generalize ownWritten a d s = v at *
  refine ⟨?_, ?_, ht.memPort.trans hpath.memPort, fun q hq hid => ?_,
    (hblocks.mono (by decide)).trans (ht.blocks.mono (by decide))⟩
  · have hdram : t.dram = v.dram := ht.blocks .dram (by decide)
    have hflips : t.flips = v.flips := ht.blocks .flips (by decide)
    simpa only [LineWritten, hdram, hflips] using hmemory
  · rw [← hinteg]
    exact ht.blocks .integ (by decide)
  · have hlt := completes_lt hp h
    rcases ht.reqs.reqs q hq with hq | hq
    · rcases hpath.comes q hq with ⟨-, hne⟩ | ⟨hnew, -⟩
      · exact hne hid
      · omega
    · have := hpath.nextId
      omega

/-! Descriptors behind frames (R69, R145). -/

theorem makeReq_goesOn (line : Nat) (job : Job) (v : State) : GoesOn v (makeReq line job v) := by
  have hturn : Turnover (fun _ => False) (fun _ => True) v (makeReq line job v) := makeReq_turnover (.inl trivial) v
  exact ⟨hturn.gathers, rfl, onlyChanges_iff.mpr (by simp)⟩

theorem makeDescriptor_goesOn (slot kind length sequence buffer : Nat) (v : State) :
    GoesOn v (makeDescriptor slot kind length sequence buffer v) := by
  unfold makeDescriptor
  split
  · exact makeReq_goesOn _ _ v
  · exact .refl v

theorem makeDescriptor_makes {slot kind length sequence buffer : Nat} (hw : windowOfKind v .partTx = some w) :
    ∃ u ∈ (makeDescriptor slot kind length sequence buffer v).path.reqs, u.line = windowLine w slot ∧
      u.stage = .forwarded ∧ u.job = .slotDescriptor slot
        (slotDescriptorLine kind length sequence (lineAddress buffer)) := by
  simp only [makeDescriptor, hw]
  exact ⟨_, List.mem_append_right _ (List.mem_singleton.mpr rfl), rfl, rfl, rfl⟩

theorem ownWritten_window (a : Access) (d : Line) (s : State) (k : WindowKind) :
    windowOfKind (ownWritten a d s) k = windowOfKind s k :=
  windowOfKind_congr (ownWritten_blocks a d s .windows (by decide)) k

/-- QUERY_FRAME_WRITE_COMPLETE (R69). -/
theorem queryFrame_completes (h : Completes s a) (hl : a.live = true) (hk : a.kind = .queryFrameWrite d) : ∃ t,
    exec .queryFrameWriteComplete s = .next t ∧ GoesOn (ownWritten a d s) t ∧
      ∀ q j f v x w, findReq s a.id = some q → q.job = .queryFrame j f v x → windowOfKind s .partTx = some w →
        ∃ u ∈ t.path.reqs, u.line = windowLine w j ∧ u.stage = .forwarded ∧
          u.job = .slotDescriptor j (slotDescriptorLine 1 64 v.toNat (lineAddress a.line)) := by
  have hdone : exec .queryFrameWriteComplete s = .next (queryFrameDone s) := rfl
  rw [queryFrameDone, show portHead s = some a from h] at hdone
  simp only [hk, ownWrite_live hl] at hdone
  refine ⟨_, hdone, ?_, fun q j f v x w hq hj hw => ?_⟩
  · repeat' split
    · exact makeDescriptor_goesOn _ _ _ _ _ _
    all_goals exact .refl _
  · simp only [hq, hj]
    exact makeDescriptor_makes ((ownWritten_window a d s .partTx).trans hw)

/-- TEST_FRAME_WRITE_COMPLETE (R145; log entry 55). -/
theorem testLine_completes (h : Completes s a) (hl : a.live = true) (hk : a.kind = .testLineWrite d) : ∃ t,
    exec .testFrameWriteComplete s = .next t ∧ GoesOn (ownWritten a d s) t ∧
      ∀ q j v n x w, findReq s a.id = some q → q.job = .testLine j v n x → windowOfKind s .partTx = some w →
        (∀ u ∈ s.path.reqs, u.id ≠ a.id → ∀ v' n' x', u.job ≠ .testLine j v' n' x') →
        ∃ u ∈ t.path.reqs, u.line = windowLine w j ∧ u.stage = .forwarded ∧
          u.job = .slotDescriptor j (slotDescriptorLine 2 (64 * n) v.toNat (lineAddress (slotBuffer w j))) := by
  have hdone : exec .testFrameWriteComplete s = .next (testLineDone s) := rfl
  rw [testLineDone, show portHead s = some a from h] at hdone
  simp only [hk, ownWrite_live hl] at hdone
  refine ⟨_, hdone, ?_, fun q j v n x w hq hj hw hlast => ?_⟩
  · repeat' split
    · exact .refl _
    · exact makeDescriptor_goesOn _ _ _ _ _ _
    all_goals exact .refl _
  · have hpath := ownWritten_path (d := d) h hl
    have hwin := (ownWritten_window a d s .partTx).trans hw
    have hnone : testLinesLeft (ownWritten a d s) j = false := by
      simp only [testLinesLeft, List.any_eq_false]
      intro u hu
      split
      next i v' n' x' hjob =>
        rcases hpath.comes u hu with ⟨hu, hid⟩ | ⟨-, y, hy⟩
        · simp only [beq_iff_eq]
          rintro rfl
          exact hlast u hu hid v' n' x' hjob
        · exact absurd (hjob.symm.trans hy) (by simp)
      next => simp
    have hbuffer : slotBufferLine (ownWritten a d s) j = slotBuffer w j := by simp only [slotBufferLine, hwin]
    simp only [hq, hj, hnone, hbuffer]
    exact makeDescriptor_makes hwin

/-! A report entry (R156, R159, R160). -/

theorem settleRelease_path (s : State) : (settleRelease s).path = s.path := by
  unfold settleRelease
  repeat' split
  all_goals rfl

theorem entryWritten_goesOn (v : State) : GoesOn v (entryWritten v) :=
  .of_path (by rw [entryWritten, settleRelease_path]; rfl) (onlyChanges_iff.mpr (by simp))

theorem advanceWritten_rest (now : Nat) (g : Ring) : (advanceWritten now g).written = g.written + 1 ∧
    (advanceWritten now g).made = g.made ∧ (advanceWritten now g).consumed = g.consumed ∧
    (advanceWritten now g).timeoutFlag = g.timeoutFlag ∧ (advanceWritten now g).releasing = g.releasing ∧
    (visibleUnread g = 0 → visibleUnread (advanceWritten now g) ≠ 0 → g.timeoutFlag = false →
      (advanceWritten now g).timer = some (now + ms g.timeout)) := by
  unfold advanceWritten
  simp only
  split
  · exact ⟨rfl, rfl, rfl, rfl, rfl, fun _ _ _ => rfl⟩
  next hc =>
    refine ⟨rfl, rfl, rfl, rfl, rfl, fun h1 h2 h3 => absurd ⟨h1, ?_, h3⟩ hc⟩
    exact Nat.pos_of_ne_zero h2

/-- Only a RELEASING ring with nothing left to be written goes (R159). -/
theorem settleRelease_stays {r : Ring} (hr : v.rep.ring = some r)
    (h : r.releasing = false ∨ r.written ≠ r.made ∨ v.rep.snapshotWriting = true) : settleRelease v = v := by
  simp only [settleRelease, hr]
  refine if_neg fun ⟨h1, h2, h3⟩ => ?_
  rcases h with h | h | h
  · simp [h] at h1
  · exact h h2
  · simp [h] at h3

theorem settleRelease_goes {r : Ring} (hr : v.rep.ring = some r) (h1 : r.releasing = true) (h2 : r.written = r.made)
    (h3 : v.rep.snapshotWriting = false) : (settleRelease v).rep = { v.rep with ring := none } := by
  simp only [settleRelease, hr]
  rw [if_pos ⟨h1, h2, h3⟩]
  rfl

theorem settleRelease_none (hr : v.rep.ring = none) : settleRelease v = v := by
  simp only [settleRelease, hr]

/-- An entry write in a ring, before a RELEASING ring may go. -/
theorem entryWritten_eq {r : Ring} (hr : v.rep.ring = some r) : ∃ u, entryWritten v = settleRelease u ∧
    u.rep = { v.rep with ring := some (advanceWritten v.now r) } := ⟨_, rfl, by simp [hr]⟩

theorem entryWritten_none (hr : v.rep.ring = none) : (entryWritten v).rep = v.rep := by
  have hsame : ∀ x : Reports, x.ring = none → { x with ring := x.ring.map (advanceWritten v.now) } = x := by
    rintro ⟨⟩ hx
    cases hx
    rfl
  have hring : (v.updRep fun u => { u with ring := u.ring.map (advanceWritten v.now) }).rep = v.rep := hsame v.rep hr
  rw [entryWritten, settleRelease_none (by rw [hring, hr]), hring]

/-- REPORT_ENTRY_WRITE_COMPLETE (R156, R159, R160). -/
theorem reportEntry_completes (h : Completes s a) (hl : a.live = true) (hk : a.kind = .reportWrite d) : ∃ t,
    exec .reportEntryWriteComplete s = .next t ∧ GoesOn (ownWritten a d s) t ∧
      (∀ r, s.rep.ring = some r → r.releasing = false → ∃ r', t.rep.ring = some r' ∧
        r'.written = r.written + 1 ∧ r'.made = r.made ∧ r'.consumed = r.consumed ∧ r'.timeoutFlag = r.timeoutFlag ∧
        (visibleUnread r = 0 → visibleUnread r' ≠ 0 → r.timeoutFlag = false →
          r'.timer = some (s.now + ms r.timeout))) ∧
      (∀ r, s.rep.ring = some r → r.releasing = true →
        (r.written + 1 = r.made → s.rep.snapshotWriting = false → t.rep = { s.rep with ring := none }) ∧
        (r.written + 1 ≠ r.made ∨ s.rep.snapshotWriting = true → ∃ r', t.rep = { s.rep with ring := some r' } ∧
          r'.releasing = true ∧ r'.written = r.written + 1 ∧ r'.made = r.made ∧ r'.consumed = r.consumed ∧
          r'.timeoutFlag = r.timeoutFlag)) ∧
      (s.rep.ring = none → t.rep = s.rep) := by
  have hdone : exec .reportEntryWriteComplete s = .next (reportWriteDone s) := rfl
  rw [reportWriteDone, show portHead s = some a from h] at hdone
  simp only [hk, ownWrite_live hl] at hdone
  have hblocks := ownWritten_blocks a d s
  have hrep : (ownWritten a d s).rep = s.rep := hblocks .rep (by decide)
  have hnow : (ownWritten a d s).now = s.now := hblocks .now (by decide)
  generalize ownWritten a d s = v at *
  refine ⟨_, hdone, entryWritten_goesOn v, fun r hr hrel => ?_, fun r hr hrel => ?_, fun hr => ?_⟩
  · obtain ⟨u, he, hu⟩ := entryWritten_eq (hrep ▸ hr)
    obtain ⟨h1, h2, h3, h4, h5, h6⟩ := advanceWritten_rest v.now r
    have hur : u.rep.ring = some (advanceWritten v.now r) := by rw [hu]
    rw [he, settleRelease_stays hur (.inl (h5.trans hrel)), hur]
    exact ⟨_, rfl, h1, h2, h3, h4, hnow ▸ h6⟩
  · obtain ⟨u, he, hu⟩ := entryWritten_eq (hrep ▸ hr)
    obtain ⟨h1, h2, h3, h4, h5, -⟩ := advanceWritten_rest v.now r
    rw [hrep] at hu
    have hur : u.rep.ring = some (advanceWritten v.now r) := by rw [hu]
    have huw : u.rep.snapshotWriting = s.rep.snapshotWriting := by rw [hu]
    rw [he]
    refine ⟨fun hlast hidle => ?_, fun hleft => ?_⟩
    · rw [settleRelease_goes hur (h5.trans hrel) (by rw [h1, h2, hlast]) (huw.trans hidle), hu]
    · have hstay : (advanceWritten v.now r).written ≠ (advanceWritten v.now r).made ∨ u.rep.snapshotWriting = true := by
        rw [h1, h2, huw]
        exact hleft
      rw [settleRelease_stays hur (.inr hstay)]
      exact ⟨_, hu, h5.trans hrel, h1, h2, h3, h4⟩
  · rw [entryWritten_none (by rw [hrep, hr]), hrep]

/-! The lines of a snapshot (R161, R162; log entry 23). -/

/-- The report unit with one snapshot more written. -/
def snapshotCounted (v : State) : State := v.updRep fun u => { u with snapshotsWritten := satInc u.snapshotsWritten }

/-- A request that waited for its snapshot to begin is taken from its place. -/
def snapshotRecalled (v : State) : State := (snapshotCounted v).updRep fun u => { u with snapshotRemembered := false }

theorem snapshotDone_restarts {r : Ring} (hr : v.rep.ring = some r) (hrel : r.releasing = false)
    (hm : v.rep.snapshotRemembered = true) : snapshotDone v = startSnapshot r (snapshotRecalled v) := by
  simp [snapshotDone, hm, hr, hrel, snapshotRecalled, snapshotCounted]

theorem snapshotDone_rests (hm : v.rep.snapshotRemembered = false) :
    snapshotDone v = snapshotIdle (snapshotCounted v) := by
  simp [snapshotDone, hm, snapshotCounted]

theorem snapshotDone_drops (hr : ∀ r, v.rep.ring = some r → r.releasing = true) (hm : v.rep.snapshotRemembered = true) :
    snapshotDone v = snapshotIdle (dropSnapshot (snapshotCounted v)) := by
  cases hg : v.rep.ring with
  | none => simp [snapshotDone, hm, hg, snapshotCounted]
  | some r => simp [snapshotDone, hm, hg, hr r hg, snapshotCounted]

/-- The snapshot unit becomes IDLE, and the ring goes where it is RELEASING with nothing left to be written (R159). -/
theorem snapshotIdle_rep (v : State) : (snapshotIdle v).rep = { v.rep with
      snapshotWriting := false, snapshotRemembered := false, ring := (snapshotIdle v).rep.ring } ∧
    (v.rep.ring = none → (snapshotIdle v).rep.ring = none) ∧
    ∀ r, v.rep.ring = some r → (r.releasing = false ∨ r.written ≠ r.made → (snapshotIdle v).rep.ring = some r) ∧
      (r.releasing = true → r.written = r.made → (snapshotIdle v).rep.ring = none) := by
  obtain ⟨u, hu⟩ : ∃ u, u = v.updRep fun u => { u with snapshotWriting := false, snapshotRemembered := false } :=
    ⟨_, rfl⟩
  have hidle : snapshotIdle v = settleRelease u := by rw [hu]; rfl
  have hrep : u.rep = { v.rep with snapshotWriting := false, snapshotRemembered := false } := by rw [hu]; rfl
  have hring : u.rep.ring = v.rep.ring := by rw [hrep]
  rw [hidle]
  cases hr : v.rep.ring with
  | none =>
    rw [settleRelease_none (hring.trans hr), hrep]
    exact ⟨rfl, fun _ => hr, nofun⟩
  | some r =>
    by_cases hgo : r.releasing = true ∧ r.written = r.made
    · rw [settleRelease_goes (hring.trans hr) hgo.1 hgo.2 (by rw [hrep]), hrep]
      refine ⟨rfl, nofun, fun x hx => ?_⟩
      obtain rfl := Option.some.inj hx
      exact ⟨fun h => h.elim (fun h => by simp [hgo.1] at h) fun h => absurd hgo.2 h, fun _ _ => rfl⟩
    · have hstay : r.releasing = false ∨ r.written ≠ r.made := by
        rw [not_and_or] at hgo
        exact hgo.imp_left Bool.eq_false_iff.mpr
      rw [settleRelease_stays (hring.trans hr) (hstay.imp_right .inl), hrep]
      refine ⟨rfl, nofun, fun x hx => ?_⟩
      obtain rfl := Option.some.inj hx
      exact ⟨fun _ => hr, fun h1 h2 => absurd ⟨h1, h2⟩ hgo⟩

theorem snapshotIdle_path (v : State) : (snapshotIdle v).path = v.path := by
  rw [snapshotIdle, settleRelease_path]
  rfl

theorem startSnapshot_goesOn (r : Ring) (v : State) : GoesOn v (startSnapshot r v) := by
  obtain ⟨l, n, hpath, hnew⟩ := startSnapshot_path r v
  refine ⟨⟨by rw [hpath]; exact Nat.le_add_right _ _, fun q hq => ?_⟩, by rw [hpath], onlyChanges_iff.mpr (by simp)⟩
  rw [hpath] at hq
  exact (List.mem_append.mp hq).imp_right fun hq => (hnew q hq).1

theorem GoesOn.trans (h : GoesOn s t) (h2 : GoesOn t u) : GoesOn s u :=
  ⟨h.reqs.trans h2.reqs, h2.memPort.trans h.memPort, h.blocks.trans h2.blocks⟩

theorem updRep_goesOn (f : Reports → Reports) (v : State) : GoesOn v (v.updRep f) :=
  .of_path (by simp) (onlyChanges_iff.mpr (by simp))

theorem dropSnapshot_goesOn (v : State) : GoesOn v (dropSnapshot v) := updRep_goesOn _ v

theorem snapshotCounted_goesOn (v : State) : GoesOn v (snapshotCounted v) := updRep_goesOn _ v

theorem snapshotIdle_goesOn (v : State) : GoesOn v (snapshotIdle v) :=
  .of_path (snapshotIdle_path v) (onlyChanges_iff.mpr (by simp))

theorem snapshotRecalled_goesOn (v : State) : GoesOn v (snapshotRecalled v) :=
  (snapshotCounted_goesOn v).trans (updRep_goesOn _ _)

theorem snapshotDone_goesOn (v : State) : GoesOn v (snapshotDone v) := by
  cases hm : v.rep.snapshotRemembered with
  | false =>
    rw [snapshotDone_rests hm]
    exact (snapshotCounted_goesOn v).trans (snapshotIdle_goesOn _)
  | true =>
    by_cases hr : ∃ r, v.rep.ring = some r ∧ r.releasing = false
    · obtain ⟨r, hr, hrel⟩ := hr
      rw [snapshotDone_restarts hr hrel hm]
      exact (snapshotRecalled_goesOn v).trans (startSnapshot_goesOn r _)
    · have hgone : ∀ r, v.rep.ring = some r → r.releasing = true := fun r hg =>
        Bool.not_eq_false _ ▸ fun hrel => hr ⟨r, hg, hrel⟩
      rw [snapshotDone_drops hgone hm]
      exact ((snapshotCounted_goesOn v).trans (dropSnapshot_goesOn _)).trans (snapshotIdle_goesOn _)

/-- What a completed snapshot leaves of the report unit with no request remembered. -/
theorem snapshotDone_rest_rep {r : Ring} (hr : v.rep.ring = some r) (hrel : r.releasing = false)
    (hm : v.rep.snapshotRemembered = false) : (snapshotDone v).rep = { v.rep with
      snapshotsWritten := satInc v.rep.snapshotsWritten, snapshotWriting := false } := by
  obtain ⟨hrep, -, hring⟩ := snapshotIdle_rep (snapshotCounted v)
  have hstay := (hring r hr).1 (.inl hrel)
  rw [snapshotDone_rests hm, hrep, hstay, ← hr, ← hm]
  rfl

theorem snapshotDone_restart_rep {r : Ring} (hr : v.rep.ring = some r) (hrel : r.releasing = false)
    (hm : v.rep.snapshotRemembered = true) : (snapshotDone v).rep = { v.rep with
      snapshotsWritten := satInc v.rep.snapshotsWritten, snapshotWriting := true, snapshotRemembered := false
      snapshotSequence := v.rep.snapshotSequence + 1 } := by
  rw [snapshotDone_restarts hr hrel hm, startSnapshot_rep]
  rfl

/-- The lines of a remembered snapshot show the state as it stands, still WRITING (log entry 23). -/
theorem snapshotDone_restart_lines {r : Ring} (hr : v.rep.ring = some r) (hrel : r.releasing = false)
    (hm : v.rep.snapshotRemembered = true) {c : State} (hw : windowOfKind v .report = some w)
    (hc : c = { snapshotDone v with rep := { (snapshotDone v).rep with snapshotWriting := v.rep.snapshotWriting } }) :
    ∀ n < 64, ∃ q ∈ (snapshotDone v).path.reqs, q.line = windowLine w (r.size + n) ∧ q.stage = .forwarded ∧
      q.job = .snapshotLine n (snapshotLine c (snapshotFields c) n) := by
  have hrep : c.rep = (captured (snapshotRecalled v)).rep := by
    rw [hc, snapshotDone_restart_rep hr hrel hm]
    rfl
  have hdone := snapshotDone_restarts hr hrel hm
  have hstart : OnlyChanges [.path, .rep] (snapshotRecalled v) (snapshotDone v) := by
    rw [hdone]
    exact (startSnapshot_goesOn r _).blocks
  have hblocks : OnlyChanges [.path] (captured (snapshotRecalled v)) c := by
    intro b hb
    have hkeep (hne : b ≠ .rep) := hstart b (by simp_all)
    cases b
    case rep => exact hrep
    case path => exact absurd (List.mem_singleton.mpr rfl) hb
    all_goals
      rw [hc]
      exact hkeep (by decide)
  have hfields : snapshotFields c = snapshotFields (captured (snapshotRecalled v)) :=
    snapshotFields_congr hblocks (by
      rw [hc, hdone]
      exact startSnapshot_samePorts r (snapshotRecalled v))
  have htime : c.time = (captured (snapshotRecalled v)).time := hblocks .time (by decide)
  have hline (f) (n) : snapshotLine c f n = snapshotLine (captured (snapshotRecalled v)) f n := by
    simp only [snapshotLine, timeNow, hrep, htime]
  have hplaced : windowOfKind (snapshotRecalled v) .report = some w := hw
  intro n hn
  rw [hfields, hline, hdone]
  exact startSnapshot_lines hplaced n hn

theorem snapshotDone_gone_rep (hr : ∀ r, v.rep.ring = some r → r.releasing = true) :
    (snapshotDone v).rep = { v.rep with
      snapshotsWritten := satInc v.rep.snapshotsWritten, snapshotWriting := false, snapshotRemembered := false
      snapshotDropped := if v.rep.snapshotRemembered then satInc v.rep.snapshotDropped else v.rep.snapshotDropped
      ring := (snapshotDone v).rep.ring } ∧
    (v.rep.ring = none → (snapshotDone v).rep.ring = none) ∧
    ∀ r, v.rep.ring = some r → (r.written = r.made → (snapshotDone v).rep.ring = none) ∧
      (r.written ≠ r.made → (snapshotDone v).rep.ring = some r) := by
  obtain ⟨u, hidle, hu⟩ : ∃ u, snapshotDone v = snapshotIdle u ∧ u.rep = { v.rep with
      snapshotsWritten := satInc v.rep.snapshotsWritten
      snapshotDropped := if v.rep.snapshotRemembered then satInc v.rep.snapshotDropped
        else v.rep.snapshotDropped } := by
    cases hm : v.rep.snapshotRemembered with
    | false => exact ⟨_, snapshotDone_rests hm, rfl⟩
    | true => exact ⟨_, snapshotDone_drops hr hm, rfl⟩
  obtain ⟨hrep, hnone, hring⟩ := snapshotIdle_rep u
  have hsame : u.rep.ring = v.rep.ring := by rw [hu]
  rw [hsame] at hnone hring
  rw [hidle]
  refine ⟨by rw [hrep, hu], hnone, fun r hg => ?_⟩
  obtain ⟨hstay, hgo⟩ := hring r hg
  exact ⟨hgo (hr r hg), fun h => hstay (.inr h)⟩

/-- SNAPSHOT_LINE_WRITE_COMPLETE (R161). -/
theorem snapshotLine_completes {i : Nat} (h : Completes s a) (hl : a.live = true) (hk : a.kind = .snapshotWrite i d) :
    exec .snapshotLineWriteComplete s =
      .next (if i = 63 then snapshotDone (ownWritten a d s) else ownWritten a d s) := by
  have hdone : exec .snapshotLineWriteComplete s = .next (snapshotWriteDone s) := rfl
  rw [snapshotWriteDone, show portHead s = some a from h] at hdone
  simpa only [hk, ownWrite_live hl] using hdone

/-- INTERNAL_WRITE_COMPLETE of a notice and of a slot descriptor. -/
theorem plainWrite_completes (h : Completes s a) (hl : a.live = true)
    (hk : a.kind = .noticeWrite d ∨ a.kind = .slotDescriptorWrite d) :
    exec .internalWriteComplete s = .next (ownWritten a d s) := by
  have hdone : exec .internalWriteComplete s = .next (internalWriteDone s) := rfl
  rw [internalWriteDone, show portHead s = some a from h] at hdone
  rcases hk with hk | hk <;> simpa only [hk, ownWrite_live hl, id_eq] using hdone

/-- Settles O48: what every own write leaves is `ownDone`; what its source goes on to is the lemma of its kind. -/
theorem ownWritesComplete : Obligations.OwnWritesComplete := by
  intro s a d c hs hp h hl hkind
  have hdone (t : State) (ht : GoesOn (ownWritten a d s) t) : OwnDone s t a d := ownDone hs hp h hl ht
  rcases hkind with ⟨hk, rfl⟩ | ⟨hk, rfl⟩ | ⟨hk, rfl⟩ | ⟨hk, rfl⟩ | ⟨⟨i, hk⟩, rfl⟩
  · obtain ⟨h1, h2, h3, h4, h5⟩ := hdone _ (.refl _)
    refine ⟨_, plainWrite_completes h hl hk, h1, h2, h3, h4, ?_⟩
    rcases hk with hk | hk <;> simpa [hk] using h5
  · obtain ⟨t, hexec, ht, hframe⟩ := queryFrame_completes h hl hk
    obtain ⟨h1, h2, h3, h4, h5⟩ := hdone t ht
    refine ⟨t, hexec, h1, h2, h3, h4, fun _ => hframe, ?_⟩
    simpa [hk] using h5
  · obtain ⟨t, hexec, ht, hframe⟩ := testLine_completes h hl hk
    obtain ⟨h1, h2, h3, h4, h5⟩ := hdone t ht
    refine ⟨t, hexec, h1, h2, h3, h4, by simp [hk], fun _ => hframe, ?_⟩
    simpa [hk] using h5
  · obtain ⟨t, hexec, ht, hactive, hreleasing, hnone⟩ := reportEntry_completes h hl hk
    obtain ⟨h1, h2, h3, h4, h5⟩ := hdone t ht
    refine ⟨t, hexec, h1, h2, h3, h4, by simp [hk], by simp [hk], fun _ => hactive, fun _ => hreleasing,
      fun _ => hnone, ?_⟩
    simpa [hk] using h5
  · have hexec := snapshotLine_completes h hl hk
    have hblocks := ownWritten_blocks a d s
    have hrep : (ownWritten a d s).rep = s.rep := hblocks .rep (by decide)
    have hwin := ownWritten_window a d s .report
    generalize ownWritten a d s = v at *
    by_cases hi : i = 63
    · subst hi
      rw [if_pos rfl] at hexec
      obtain ⟨h1, h2, h3, h4, h5⟩ := hdone _ (snapshotDone_goesOn v)
      have hrest (r : Ring) := snapshotDone_rest_rep (v := v) (r := r)
      have hrestart (r : Ring) := snapshotDone_restart_rep (v := v) (r := r)
      have hlines (r : Ring) (w : Window) (c : State) := snapshotDone_restart_lines (v := v) (r := r) (w := w) (c := c)
      have hgone := snapshotDone_gone_rep (v := v)
      rw [hrep] at hrest hrestart hlines hgone
      refine ⟨_, hexec, h1, h2, h3, h4, by simp [hk], by simp [hk], by simp [hk], by simp [hk], by simp [hk], ?_,
        fun r _ hr hrel hm => hrest r hr hrel hm,
        fun r _ hr hrel hm => ⟨hrestart r hr hrel hm, fun w c hw hc => hlines r w c hr hrel hm (hwin.trans hw) hc⟩,
        fun _ hr => hgone hr, h5⟩
      intro i hi hne
      exact absurd (AccessKind.snapshotWrite.inj (hk.symm.trans hi)).1.symm hne
    · rw [if_neg hi] at hexec
      obtain ⟨h1, h2, h3, h4, h5⟩ := hdone _ (.refl v)
      refine ⟨_, hexec, h1, h2, h3, h4, by simp [hk], by simp [hk], by simp [hk], by simp [hk], by simp [hk],
        fun _ _ _ => hrep, ?_⟩
      simpa [hk, hi] using h5

end OwnWrites
end Sys2Proof.Machine
